-- ==== Sys2Proof/Word.lean ====
section
/-! DEFINITION. The word types of the machine (R7, R8, R16) and the one shape in which sparse tables are held. -/

namespace Sys2Proof

/-- A byte of memory. -/
abbrev Byte := BitVec 8

/-- A lane word, a mask, an S-stream word. -/
abbrev W32 := BitVec 32

/-- A scalar register, an address, a system register. -/
abbrev W64 := BitVec 64

/-- A sparse table: keys with their values, keys strictly rising. A key that is not listed holds the
table's default, which the reader of the table names. The operations are in Machine/FMap.lean. -/
abbrev FMap (α : Type) := List (Nat × α)

/-- The 32 words of one vector register, lane 0 first (R16). -/
abbrev Lanes := List W32

end Sys2Proof
end

