-- ==== Sys2Proof/Machine/Bits.lean ====
section
/-! DEFINITION. Bit fields, sign extension and byte order (R8, R64): the helpers that every other file cites. -/

namespace Sys2Proof.Machine

/-- R64 bits(x, hi, lo). -/
def fld (x hi lo : Nat) : Nat := x / 2 ^ lo % 2 ^ (hi - lo + 1)

/-- Bit i of x. -/
def bitAt (x i : Nat) : Bool := x / 2 ^ i % 2 == 1

/-- R64 sext(x, n): the low n bits of x as a two's-complement integer. -/
def sext (n x : Nat) : Int :=
  let y := x % 2 ^ n
  if 2 ^ n ≤ 2 * y then (y : Int) - 2 ^ n else y

/-- An exact integer modulo 2^64. -/
def w64 (v : Int) : W64 := BitVec.ofInt 64 v

/-- An exact integer modulo 2^32. -/
def w32 (v : Int) : W32 := BitVec.ofInt 32 v

/-- A natural number modulo 2^64. -/
def n64 (v : Nat) : W64 := BitVec.ofNat 64 v

/-- A natural number modulo 2^32. -/
def n32 (v : Nat) : W32 := BitVec.ofNat 32 v

/-- A Boolean as a bit. -/
def b2n (b : Bool) : Nat := if b then 1 else 0

/-- R8: the value of bytes in ascending address order, little-endian. -/
def leNat : List Byte → Nat
  | [] => 0
  | b :: r => b.toNat + 256 * leNat r

/-- R8: the low n bytes of a value in ascending address order. -/
def leBytes : Nat → Nat → List Byte
  | 0, _ => []
  | n + 1, v => BitVec.ofNat 8 v :: leBytes n (v / 256)

/-- The lowest 1 bit of a mask among the bits from i, n bits long. -/
def lowBitFrom (m : W32) : Nat → Nat → Option Nat
  | _, 0 => none
  | i, n + 1 => if m.getLsbD i then some i else lowBitFrom m (i + 1) n

/-- The lowest lane of a mask. -/
def lowLane (m : W32) : Option Nat := lowBitFrom m 0 32

/-- The lanes of a mask, ascending. -/
def lanesOf (m : W32) : List Nat := (List.range 32).filter fun l => m.getLsbD l

/-- The mask of one lane. -/
def laneBit (l : Nat) : W32 := n32 (2 ^ l)

/-- The mask of the lanes for which p holds. -/
def maskOf (p : Nat → Bool) : W32 :=
  n32 ((List.range 32).foldl (fun m l => if p l then m + 2 ^ l else m) 0)

/-- Lane l of a register (lane words beyond the list read as 0). -/
def lane (v : Lanes) (l : Nat) : W32 := v.getD l 0

/-- A register from its lanes. -/
def mkLanes (f : Nat → W32) : Lanes := (List.range 32).map f

/-- A register whose lanes are all zero. -/
def zeroLanes : Lanes := List.replicate 32 0

/-- The lanes of m from new, the others from old. -/
def mergeLanes (m : W32) (new old : Lanes) : Lanes :=
  mkLanes fun l => if m.getLsbD l then lane new l else lane old l

/-- The number of 1 bits among the low n. -/
def popN (x : Nat) : Nat → Nat
  | 0 => 0
  | n + 1 => b2n (bitAt x n) + popN x n

/-- The number of leading zeros of an n-bit value. -/
def clzN (x : Nat) : Nat → Nat
  | 0 => 0
  | n + 1 => if bitAt x n then 0 else 1 + clzN x n

/-- The low n bits of x in the opposite order. -/
def revN (x : Nat) : Nat → Nat
  | 0 => 0
  | n + 1 => x % 2 * 2 ^ n + revN (x / 2) n

/-- The greatest k with 2^k at most x, for x at least 1 (0 for 0). -/
def log2 (x : Nat) : Nat := Nat.log2 x

/-- Round up to a multiple of m. -/
def roundUp (x m : Nat) : Nat := (x + m - 1) / m * m

/-- The number of lanes in a mask. -/
def popMask (m : W32) : Nat := popN m.toNat 32

/-- A list with position i replaced. -/
def setAt {α : Type} (l : List α) (i : Nat) (v : α) : List α := l.set i v

/-- Keep the first of equal elements. -/
def dedup {α : Type} [DecidableEq α] : List α → List α
  | [] => []
  | a :: r => a :: (dedup r).filter (· ≠ a)

/-- The least element of a list by a key, the first of equals. -/
def minBy {α : Type} (key : α → Nat) : List α → Option α
  | [] => none
  | a :: r =>
    match minBy key r with
    | none => some a
    | some b => if key a ≤ key b then some a else some b

end Sys2Proof.Machine
end

