-- ==== Sys2Proof/Syntax.lean ====
section
/-! DEFINITION. The instructions and device operations of the Trelith K4 as data: one constructor of
`Instr` per row of spec/opcode_table.json. Register numbers, slots and raw immediates are natural
numbers, as the encodings give them; WellFormed.lean says which values they may take. -/

namespace Sys2Proof

/-- R24, R74: the format codes 0x0 to 0xF, which are also the format tags of vector registers. -/
inductive Fmt where
  | n32 | i32 | f32 | bf16 | f16 | i16 | n16 | i8 | n8 | e4m3 | e5m2 | i4 | e2m1 | e8m0 | n4 | b32
  deriving DecidableEq, Repr

/-- R72: the scopes. -/
inductive Scope where
  | warp | block | quad | die | package | pod | fabric
  deriving DecidableEq, Repr

/-- R72: the in-flight counters. -/
inductive Ctr where
  | sp | gs | dm | ac | an | sh | fb
  deriving DecidableEq, Repr

/-- R18: what a source operand code of a lane instruction names. -/
inductive Src where
  | v (n : Nat)        -- v0 to v1535
  | q (n : Nat)        -- q0 to q15
  | x (n : Nat)        -- x0 to x63, broadcast
  | const (n : Nat)    -- lane constants 0 to 15 (codes 1616 to 1631, R20)
  | imm                -- code 1632, the modifier field (R21)
  deriving DecidableEq, Repr

/-- R73: the fields of a lane instruction other than its opcode. -/
structure LaneOp where
  dst : Option Nat     -- the v register written when write-named = 1
  a : Src
  b : Src
  c : Src
  rnd : Nat            -- R75, 0 to 7
  fmt : Fmt
  k : Nat              -- mask register, 0 to 15
  flag : Option Nat    -- set-flag, f0 to f11
  sat : Bool
  mods : Nat           -- modifiers [23:0]
  deriving DecidableEq, Repr

/-- R335: a function's translation descriptor. -/
structure XlateDesc where
  s1root : Nat
  asid : Nat
  vmid : Nat
  s2root : Nat
  deriving DecidableEq, Repr

/-- R400: a packet. `tag` is the request tag, `oper` the atomic operation, `mask` the word mask,
`crc` is the CRC field. The payload holds the flits' bytes in ascending order; for an
ATOMIC it holds, per word of the mask, the operand b and, for CAS, c (8 bytes per word). `port` is the port by which it
arrives (R350). -/
structure Packet where
  kind : Nat
  cls : Nat
  len : Nat
  seq : Nat
  lowAck : Nat
  src : Nat
  dst : Nat
  part : Nat
  tag : Nat
  fn : Nat
  pois : Nat
  addr : Nat
  oper : Nat
  mask : Nat
  payload : List Byte
  crc : Nat
  port : Nat
  deriving DecidableEq, Repr

/-- R184, R185: what one member of a collective group that runs on another module brought to the
instance: its rank, form, OP, FMT, element counts, the bytes of its source buffer, and the elements that are poisoned
(R412). -/
structure CollPart where
  rank : Nat
  form : Nat
  oper : Nat
  fmt : Nat
  es : Nat
  ed : Nat
  data : List Byte
  pois : List Nat
  deriving DecidableEq, Repr

/-- R367, R368: the operands of PROGRAM. -/
structure ProgramReq where
  site : Nat
  rs : Nat
  cs : Nat
  image : Nat
  scale : Nat
  deriving DecidableEq, Repr

/-- R282: a compensation copy of 81,920 bytes, as its FP32 words keyed by word offset. A word that is
not listed holds, in a nominal copy, the value that R280 gives, and otherwise 0. -/
structure CompCopy where
  nominal : Bool
  words : FMap W32
  deriving DecidableEq, Repr

/-- One constructor per row of the opcode table. -/
inductive Instr where
  /-- ADD (R99). Writes x[xa] + x[xb] mod 2^64 into x[xd]. -/
  | add (d a b : Nat)
  /-- SUB (R99). Writes x[xa] - x[xb] mod 2^64 into x[xd]. -/
  | sub (d a b : Nat)
  /-- MUL (R99). Writes the low 64 bits of x[xa] × x[xb] into x[xd]. -/
  | mul (d a b : Nat)
  /-- MULH_I64 (R99). Writes the high 64 bits of the signed 128-bit product into x[xd]. -/
  | mulhI64 (d a b : Nat)
  /-- MULH_N64 (R99). Writes the high 64 bits of the unsigned 128-bit product into x[xd]. -/
  | mulhN64 (d a b : Nat)
  /-- DIV_I64 (R100). Signed division truncating toward zero, with fixed results for division by zero and overflow. -/
  | divI64 (d a b : Nat)
  /-- DIV_N64 (R100). Unsigned division, with all ones as the result of division by zero. -/
  | divN64 (d a b : Nat)
  /-- REM_I64 (R100). Signed remainder taking the sign of the dividend. -/
  | remI64 (d a b : Nat)
  /-- REM_N64 (R100). Unsigned remainder. -/
  | remN64 (d a b : Nat)
  /-- AND (R99). Bitwise AND of two scalar registers. -/
  | and (d a b : Nat)
  /-- OR (R99). Bitwise OR of two scalar registers. -/
  | or (d a b : Nat)
  /-- XOR (R99). Bitwise XOR of two scalar registers. -/
  | xor (d a b : Nat)
  /-- ANDN (R99). Writes x[xa] AND NOT x[xb] into x[xd]. -/
  | andn (d a b : Nat)
  /-- SHL (R99). Shifts x[xa] left by xb[5:0]. -/
  | shl (d a b : Nat)
  /-- SHR (R99). Shifts x[xa] right logically by xb[5:0]. -/
  | shr (d a b : Nat)
  /-- SRA (R99). Shifts x[xa] right arithmetically by xb[5:0]. -/
  | sra (d a b : Nat)
  /-- ROR (R99). Rotates x[xa] right by xb[5:0]. -/
  | ror (d a b : Nat)
  /-- MIN_I64 (R99). Writes the lesser operand, compared signed. -/
  | minI64 (d a b : Nat)
  /-- MIN_N64 (R99). Writes the lesser operand, compared unsigned. -/
  | minN64 (d a b : Nat)
  /-- MAX_I64 (R99). Writes the greater operand, compared signed. -/
  | maxI64 (d a b : Nat)
  /-- MAX_N64 (R99). Writes the greater operand, compared unsigned. -/
  | maxN64 (d a b : Nat)
  /-- SLT_I64 (R99). Writes 1 if x[xa] < x[xb] signed, else 0. -/
  | sltI64 (d a b : Nat)
  /-- SLT_N64 (R99). Writes 1 if x[xa] < x[xb] unsigned, else 0. -/
  | sltN64 (d a b : Nat)
  /-- CLZ (R99). Counts the leading zeros of x[xa], 64 for zero. -/
  | clz (d a : Nat)
  /-- POPC (R99). Counts the 1 bits of x[xa]. -/
  | popc (d a : Nat)
  /-- SEXT_I8 (R99). Sign-extends the low 8 bits of x[xa]. -/
  | sextI8 (d a : Nat)
  /-- SEXT_I16 (R99). Sign-extends the low 16 bits of x[xa]. -/
  | sextI16 (d a : Nat)
  /-- SEXT_I32 (R99). Sign-extends the low 32 bits of x[xa]. -/
  | sextI32 (d a : Nat)
  /-- ZEXT_N8 (R99). Zero-extends the low 8 bits of x[xa]. -/
  | zextN8 (d a : Nat)
  /-- ZEXT_N16 (R99). Zero-extends the low 16 bits of x[xa]. -/
  | zextN16 (d a : Nat)
  /-- ZEXT_N32 (R99). Zero-extends the low 32 bits of x[xa]. -/
  | zextN32 (d a : Nat)
  /-- BREV (R99). Reverses the 64 bits of x[xa]. -/
  | brev (d a : Nat)
  /-- NOP (R102). Has no effect. -/
  | nop
  /-- ADDI (R101). Adds a sign-extended 12-bit immediate to x[xa]. -/
  | addi (d a imm : Nat)
  /-- ANDI (R101). ANDs x[xa] with a sign-extended immediate. -/
  | andi (d a imm : Nat)
  /-- ORI (R101). ORs x[xa] with a sign-extended immediate. -/
  | ori (d a imm : Nat)
  /-- XORI (R101). XORs x[xa] with a sign-extended immediate. -/
  | xori (d a imm : Nat)
  /-- SHLI (R101). Shifts x[xa] left by imm12[5:0]. -/
  | shli (d a sh : Nat)
  /-- SHRI (R101). Shifts x[xa] right logically by imm12[5:0]. -/
  | shri (d a sh : Nat)
  /-- SRAI (R101). Shifts x[xa] right arithmetically by imm12[5:0]. -/
  | srai (d a sh : Nat)
  /-- SLTI_I64 (R101). Writes 1 if x[xa] is less than the immediate, compared signed. -/
  | sltiI64 (d a imm : Nat)
  /-- SLTI_N64 (R101). Writes 1 if x[xa] is less than the immediate, compared unsigned. -/
  | sltiN64 (d a imm : Nat)
  /-- LDI (R68). Writes imm16 at 16-bit position pos of xd and clears every other bit. -/
  | ldi (d pos imm : Nat)
  /-- LDI_K (R68). Writes imm16 at 16-bit position pos of xd and keeps every other bit. -/
  | ldiK (d pos imm : Nat)
  /-- B (R103). Branches unconditionally to a 19-bit word offset. -/
  | b (off : Nat)
  /-- CALL (R103). Writes the link A + 4 to x[xn] and branches. -/
  | call (n off : Nat)
  /-- RET (R103). Sets S-PC to x[xa]; in restore state RET x0 resumes at the mark. -/
  | ret (a : Nat)
  /-- BRD (R104). Divides the path's lanes by a mask, splitting the warp or pushing a nested divergence entry. -/
  | brd (kn toff joff : Nat)
  /-- JOIN (R106). Reconverges a nested divergence or waits at the warp's reconvergence address for the merge. -/
  | join
  /-- LOOP (R103). Decrements x[xa] and branches while it is non-zero. -/
  | loop (a off : Nat)
  /-- EXIT (R109). Ends the lanes of k0, resuming stacked lanes or ending the path or warp. -/
  | exit
  /-- BEQ (R103). Branches if x[xa] = x[xb]. -/
  | beq (a b off : Nat)
  /-- BNE (R103). Branches if x[xa] ≠ x[xb]. -/
  | bne (a b off : Nat)
  /-- BLT (R103). Branches if x[xa] < x[xb] signed. -/
  | blt (a b off : Nat)
  /-- BGE (R103). Branches if x[xa] ≥ x[xb] signed. -/
  | bge (a b off : Nat)
  /-- BLTU (R103). Branches if x[xa] < x[xb] unsigned. -/
  | bltu (a b off : Nat)
  /-- BGEU (R103). Branches if x[xa] ≥ x[xb] unsigned. -/
  | bgeu (a b off : Nat)
  /-- KAND (R111). k[kd] := k[ka] AND k[kb]. -/
  | kand (d a b : Nat)
  /-- KOR (R111). k[kd] := k[ka] OR k[kb]. -/
  | kor (d a b : Nat)
  /-- KXOR (R111). k[kd] := k[ka] XOR k[kb]. -/
  | kxor (d a b : Nat)
  /-- KANDN (R111). k[kd] := k[ka] AND NOT k[kb]. -/
  | kandn (d a b : Nat)
  /-- KNOT (R111). k[kd] := NOT k[ka]. -/
  | knot (d a : Nat)
  /-- KMOV (R111). k[kd] := k[ka]. -/
  | kmov (d a : Nat)
  /-- KSETX (R111). k[kd] := x[xn][31:0]. -/
  | ksetx (d n : Nat)
  /-- KGETX (R111). x[xn] := zero-extended k[ka]. -/
  | kgetx (n a : Nat)
  /-- VGET (R112). After earlier clauses complete, reads one lane of a vector register into x[xn]. -/
  | vget (n vn lane : Nat)
  /-- VPUT (R112). After earlier clauses complete, writes x[xn][31:0] into one lane of a vector register. -/
  | vput (n vn lane : Nat)
  /-- RUNC (R110). Enqueues a clause, capturing masks, x registers and privilege. -/
  | runc (n off : Nat)
  /-- WAITF (R113). Waits for earlier clauses to issue, then for the named flags to clear. -/
  | waitf (mask : Nat)
  /-- WAITC (R114). Waits until the named counter is at most x[xa], first closing the shuttle batch for sh. -/
  | waitc (a ctr : Nat)
  /-- BAR_ARRIVE (R156). Arrives at a named barrier as a release at BLOCK scope. -/
  | barArrive (bn a : Nat)
  /-- BAR_WAIT (R156). Waits at a named barrier for the pending phase to complete. -/
  | barWait (bn : Nat)
  /-- BAR_SYNC (R156). Arrives at a named barrier and then waits. -/
  | barSync (bn a : Nat)
  /-- LBAR_ARRIVE (R159). Arrives at the launch's level barrier of the given scope. -/
  | lbarArrive (scope : Nat)
  /-- LBAR_WAIT (R159). Waits at the launch's level barrier of the given scope. -/
  | lbarWait (scope : Nat)
  /-- LBAR_SYNC (R159). Arrives at the launch's level barrier and waits. -/
  | lbarSync (scope : Nat)
  /-- FENCE (R154). Waits until the path's earlier accesses are performed at the scope. -/
  | fence (scope : Nat)
  /-- CLAIM (R160). Moves the home of writable LPDDR pages of the range to the caller's die and counts them. -/
  | claim (d a b : Nat)
  /-- LIVE_DEAD (R115). Marks a range of vector registers dead and drops their lines without writeback. -/
  | liveDead (vn cnt : Nat)
  /-- LIVE_HOT (R115). Replaces the warp's hot list with a register range. -/
  | liveHot (vn cnt : Nat)
  /-- MARK (R116). Waits for clauses, clears the age queue and records a pre-emption mark when the warp is whole. -/
  | mark
  /-- POISON (R153). Sets the poison bit of every granule of a range of the caller's memory. -/
  | poison (a b : Nat)
  /-- LAUNCH (R117). Reads a launch record and enqueues it on the function's device launch queue. -/
  | launch (d a : Nat)
  /-- MMA (R172). Issues an accumulating matrix product into accumulator banks. -/
  | mma (d a b : Nat)
  /-- MMA_Z (R172). Issues an overwriting matrix product into accumulator banks. -/
  | mmaZ (d a b : Nat)
  /-- ACC_ALLOC (R167). Allocates a range of free banks to the block, all or nothing. -/
  | accAlloc (d a : Nat)
  /-- ACC_FREE (R166). Frees a range of banks after their queued operations retire. -/
  | accFree (a : Nat)
  /-- ACC_ZERO (R167). Issues a write of +0 to every position of the named banks. -/
  | accZero (a : Nat)
  /-- ACC_DRAIN (R168). Claims bands and issues a copy of bank rows into vector registers. -/
  | accDrain (a b : Nat)
  /-- AMV (R175). Issues an analogue matrix-vector product of one tile into a bank. -/
  | amv (d a b : Nat)
  /-- AMV_T (R175). Issues a transposed analogue product of one tile into a bank. -/
  | amvT (d a b : Nat)
  /-- TREC (R178). Loads a 64-byte tensor record into one of the block's slots. -/
  | trec (slot a : Nat)
  /-- SH_COPY (R180). Adds a strided copy between two tensor records to the open batch. -/
  | shCopy (d s b : Nat)
  /-- SH_FILL (R180). Adds a fill of a tensor record with a scalar value to the open batch. -/
  | shFill (d a b : Nat)
  /-- SH_GATHER (R180). Adds an indexed row gather to the open batch. -/
  | shGather (d s b : Nat)
  /-- SH_CLOSE (R179). Closes the path's open shuttle batch. -/
  | shClose
  /-- COLL_ALLREDUCE (R184). Issues an all-reduce over a collective group. -/
  | collAllreduce (d s b : Nat)
  /-- COLL_ALLGATHER (R184). Issues an all-gather over a collective group. -/
  | collAllgather (d s b : Nat)
  /-- COLL_REDUCESCATTER (R184). Issues a reduce-scatter over a collective group. -/
  | collReducescatter (d s b : Nat)
  /-- COLL_ALLTOALL (R184). Issues an all-to-all over a collective group. -/
  | collAlltoall (d s b : Nat)
  /-- TRAP (R204). Raises 19.4 with its code. -/
  | trap (code : Nat)
  /-- RETS (R195). Ends a handler, restoring held state and reissuing the trapping word. -/
  | rets
  /-- RETS_SKIP (R195). Ends a handler, resuming after the trapping word. -/
  | retsSkip
  /-- RETS_DECLINE (R195). Ends a handler by taking the default action. -/
  | retsDecline
  /-- SYSRD (R198). Reads a system register into x[xd]. -/
  | sysrd (d a reg : Nat)
  /-- SYSWR (R198). Writes x[xv] into a system register under its access codes. -/
  | syswr (v a reg : Nat)
  /-- TLBI_ALL (R201). Drops every TLB entry in scope. -/
  | tlbiAll (scope : Nat)
  /-- TLBI_VA (R201). Drops the entries and L1 lines of one page for an ASID in scope. -/
  | tlbiVa (d a scope : Nat)
  /-- TLBI_ASID (R201). Drops the entries of one ASID in scope. -/
  | tlbiAsid (a scope : Nat)
  /-- TLBI_VMID (R201). Drops the entries of one VMID in scope. -/
  | tlbiVmid (a scope : Nat)
  /-- CTXFL (R202). Writes a target warp's header and dirty lines to its slot. -/
  | ctxfl (d a : Nat)
  /-- CTXLD (R202). Drops a target warp's lines and reloads its header from the slot. -/
  | ctxld (a : Nat)
  /-- QUIESCE (R207). Asks a core cluster to quiesce. -/
  | quiesce (d a : Nat)
  /-- RETSAVE (R207). Copies a quiesced cluster's retention state to the retention store. -/
  | retsave (d a : Nat)
  /-- RETLOAD (R384). Checks and restores a cluster's latest retention image. -/
  | retload (d a : Nat)
  /-- WDOG_SET (R203). Replaces the warp's watchdog limit. -/
  | wdogSet (a : Nat)
  /-- WDOG_KICK (R203). Sets WDC to 0. -/
  | wdogKick
  /-- BRK (R204). Raises 23.0 with its code. -/
  | brk (code : Nat)
  /-- INJECT (R205). Arms an error of the given kind. -/
  | inject (d a : Nat)
  /-- GTIME (R206). Reads the function's guest time. -/
  | gtime (d : Nat)
  /-- HALT (R208). Stops the patrol core's issue until an interrupt or wake request. -/
  | halt
  /-- FADD (R123). Adds two floating-point operands per element with one rounding. -/
  | fadd (o : LaneOp)
  /-- FSUB (R123). Subtracts floating-point operands per element. -/
  | fsub (o : LaneOp)
  /-- FMUL (R123). Multiplies floating-point operands per element. -/
  | fmul (o : LaneOp)
  /-- FFMA (R123). Fused multiply-add with one rounding. -/
  | ffma (o : LaneOp)
  /-- FMIN (R124). IEEE minimumNumber per element. -/
  | fmin (o : LaneOp)
  /-- FMAX (R124). IEEE maximumNumber per element. -/
  | fmax (o : LaneOp)
  /-- FCMP (R130). Floating-point compare delivering a ballot, optionally into a captured mask. -/
  | fcmp (o : LaneOp)
  /-- FABS (R125). Clears the sign bit per element. -/
  | fabs (o : LaneOp)
  /-- FNEG (R125). Inverts the sign bit per element. -/
  | fneg (o : LaneOp)
  /-- FCPYS (R125). Copies the sign of b onto a per element. -/
  | fcpys (o : LaneOp)
  /-- FRCP (R126). Correctly rounded reciprocal. -/
  | frcp (o : LaneOp)
  /-- FRSQ (R126). Correctly rounded reciprocal square root. -/
  | frsq (o : LaneOp)
  /-- FSQRT (R126). Correctly rounded square root. -/
  | fsqrt (o : LaneOp)
  /-- FLOG2 (R126). Correctly rounded base-two logarithm. -/
  | flog2 (o : LaneOp)
  /-- FTANH (R126). Correctly rounded hyperbolic tangent. -/
  | ftanh (o : LaneOp)
  /-- FEXPF (R126). Correctly rounded 2^a for a in [-0.5, 0.5]. -/
  | fexpf (o : LaneOp)
  /-- FSCALE (R127). Scales a by 2 to the truncated b with one rounding. -/
  | fscale (o : LaneOp)
  /-- FRINT (R128). Rounds to an integral value in the same format. -/
  | frint (o : LaneOp)
  /-- FCLASS (R129). Delivers a one-hot class mask per element. -/
  | fclass (o : LaneOp)
  /-- CVT (R131). Converts an element group from a source format to fmt. -/
  | cvt (o : LaneOp)
  /-- PACK (R132). Packs two 32-bit values into adjacent narrow elements. -/
  | pack (o : LaneOp)
  /-- UNPACK (R132). Extends one narrow element to 32 bits. -/
  | unpack (o : LaneOp)
  /-- QNT (R133). Quantises FP32 lanes into OCP MX blocks, delivering elements or the scale. -/
  | qnt (o : LaneOp)
  /-- DQNT (R134). Dequantises an MX element with its scale to FP32. -/
  | dqnt (o : LaneOp)
  /-- IADD (R135). Integer add, wrapping or saturating. -/
  | iadd (o : LaneOp)
  /-- ISUB (R135). Integer subtract. -/
  | isub (o : LaneOp)
  /-- IMUL (R135). Integer multiply. -/
  | imul (o : LaneOp)
  /-- IMAD (R135). Integer multiply-add. -/
  | imad (o : LaneOp)
  /-- IMULH (R135). High 32 bits of the 64-bit product. -/
  | imulh (o : LaneOp)
  /-- IMIN (R135). Integer minimum. -/
  | imin (o : LaneOp)
  /-- IMAX (R135). Integer maximum. -/
  | imax (o : LaneOp)
  /-- ICMP (R130). Integer compare delivering a ballot, optionally into a captured mask. -/
  | icmp (o : LaneOp)
  /-- IABS (R135). Integer absolute value. -/
  | iabs (o : LaneOp)
  /-- ISAD (R135). Sum of absolute differences plus c. -/
  | isad (o : LaneOp)
  /-- AND_B32 (R136). Lane bitwise AND. -/
  | andB32 (o : LaneOp)
  /-- OR_B32 (R136). Lane bitwise OR. -/
  | orB32 (o : LaneOp)
  /-- XOR_B32 (R136). Lane bitwise XOR. -/
  | xorB32 (o : LaneOp)
  /-- NOT_B32 (R136). Lane bitwise NOT. -/
  | notB32 (o : LaneOp)
  /-- BOOL3 (R136). Three-input bitwise function from a truth table. -/
  | bool3 (o : LaneOp)
  /-- SHL_B32 (R136). Lane shift left. -/
  | shlB32 (o : LaneOp)
  /-- SHR_N32 (R136). Lane logical shift right. -/
  | shrN32 (o : LaneOp)
  /-- SRA_I32 (R136). Lane arithmetic shift right. -/
  | sraI32 (o : LaneOp)
  /-- POPC_B32 (R136). Lane population count. -/
  | popcB32 (o : LaneOp)
  /-- CLZ_B32 (R136). Lane count of leading zeros. -/
  | clzB32 (o : LaneOp)
  /-- BREV_B32 (R136). Lane bit reversal. -/
  | brevB32 (o : LaneOp)
  /-- BFE (R137). Bit-field extract. -/
  | bfe (o : LaneOp)
  /-- BFI (R137). Bit-field insert. -/
  | bfi (o : LaneOp)
  /-- SEL (R136). Selects a or b per lane by bit l of c. -/
  | sel (o : LaneOp)
  /-- PERM (R137). Byte permutation of a and b. -/
  | perm (o : LaneOp)
  /-- DP4 (R138). Exact four-element dot product plus c. -/
  | dp4 (o : LaneOp)
  /-- DP8 (R138). Exact eight-element dot product plus c. -/
  | dp8 (o : LaneOp)
  /-- MOV (R139). Copies a lane word. -/
  | mov (o : LaneOp)
  /-- SHFL (R139). Reads a from an indexed lane of act. -/
  | shfl (o : LaneOp)
  /-- SHFLX (R139). Reads a from the lane l XOR b. -/
  | shflx (o : LaneOp)
  /-- BCST (R139). Broadcasts a from the lane named by the lowest active lane. -/
  | bcst (o : LaneOp)
  /-- SCAN (R140). Ordered prefix fold over the lanes of act. -/
  | scan (o : LaneOp)
  /-- RED (R140). Ordered reduction over the lanes of act. -/
  | red (o : LaneOp)
  /-- RNG (R141). Stateless hash of key and counter per lane. -/
  | rng (o : LaneOp)
  /-- LD_SP (R146). Loads from the block's scratchpad. -/
  | ldSp (o : LaneOp)
  /-- LD_GS (R146). Loads from flat SRAM. -/
  | ldGs (o : LaneOp)
  /-- LD_DM (R146). Loads from LPDDR memory. -/
  | ldDm (o : LaneOp)
  /-- LD_PV (R146). Loads from the warp's private region. -/
  | ldPv (o : LaneOp)
  /-- ST_SP (R146). Stores to the block's scratchpad. -/
  | stSp (o : LaneOp)
  /-- ST_GS (R146). Stores to flat SRAM. -/
  | stGs (o : LaneOp)
  /-- ST_DM (R146). Stores to LPDDR memory. -/
  | stDm (o : LaneOp)
  /-- ST_PV (R146). Stores to the warp's private region. -/
  | stPv (o : LaneOp)
  /-- LDT (R149). Transposing load of a scratchpad tile in column order. -/
  | ldt (o : LaneOp)
  /-- ATOM_ADD (R150). Atomic add returning the old word. -/
  | atomAdd (o : LaneOp)
  /-- ATOM_MIN (R150). Atomic minimum. -/
  | atomMin (o : LaneOp)
  /-- ATOM_MAX (R150). Atomic maximum. -/
  | atomMax (o : LaneOp)
  /-- ATOM_AND (R150). Atomic AND. -/
  | atomAnd (o : LaneOp)
  /-- ATOM_OR (R150). Atomic OR. -/
  | atomOr (o : LaneOp)
  /-- ATOM_XOR (R150). Atomic XOR. -/
  | atomXor (o : LaneOp)
  /-- ATOM_EXCH (R150). Atomic exchange. -/
  | atomExch (o : LaneOp)
  /-- ATOM_CAS (R150). Atomic compare-and-swap. -/
  | atomCas (o : LaneOp)
  /-- ATOM_INCB (R150). Atomic increment bounded by b. -/
  | atomIncb (o : LaneOp)
  /-- ATOM_FADD (R150). Atomic FP32 add under RNE. -/
  | atomFadd (o : LaneOp)
  /-- MALFORMED_ENCODING (R81). An S-stream word that is no instruction (unassigned major or func, or a non-zero reserved field) reaches issue and raises its class-0 cause. -/
  | malformedEncoding (detail : Nat)
  /-- LANE_OPCODE_UNASSIGNED (R80). A lane instruction whose opcode is not in the lane opcode map reaches issue and raises 0.4. -/
  | laneOpcodeUnassigned (opcode : Nat)
  /-- INSTRUCTION_FETCH_FAULT (R340). The fetch of an S-stream word faults in translation (6.0, 6.5 or a class-7 cause) before any instruction is decoded. -/
  | instructionFetchFault (cause : Nat)
  /-- CLAUSE_FETCH (R78). A clause reaching the head of the path's queue is fetched and decoded, raising header faults. -/
  | clauseFetch
  /-- CLAUSE_START (R29). A fetched clause starts issuing once every flag in its wait mask is 0. -/
  | clauseStart
  /-- LOAD_COMPLETE (R147). A load's lane values arrive and are written, clearing its counter and flag. -/
  | loadComplete (op lanes : Nat)
  /-- STORE_COMPLETE (R147). A store's lanes are performed or accepted into the bobbin and its counter falls. -/
  | storeComplete (op lanes : Nat)
  /-- ATOM_COMPLETE (R147). An atomic's old values are written to its destination. `op` is 2^32 × the operation's number plus
  the lanes that are performed, as a mask. -/
  | atomComplete (op : Nat)
  /-- MMA_STEP (R172). The sequencer runs one (group, bank) step of an MMA, retiring it after the last step. -/
  | mmaStep (op : Nat)
  /-- ACC_ZERO_RETIRE (R167). An ACC.ZERO acts on its banks in bank order and retires. -/
  | accZeroRetire (op : Nat)
  /-- ACC_DRAIN_RETIRE (R168). A drain writes its rows into the registers, optionally zeroes them, and retires. -/
  | accDrainRetire (op : Nat)
  /-- AMV_RETIRE (R175). The tile operation completes and its compensated result is added to the bank. -/
  | amvRetire (op : Nat)
  /-- SHUTTLE_TRANSFER (R180). A shuttle engine transfers elements of an operation, translating pages with its walk-ahead TLB. -/
  | shuttleTransfer (op item n : Nat)
  /-- SH_BATCH_COMPLETE (R179). A batch whose operations have written every element completes and sh falls in close order. -/
  | shBatchComplete (op : Nat)
  /-- COLL_COMPLETE (R185). A collective completes when every member's destination is written, or with 13.9 on disagreement. -/
  | collComplete (op : Nat) (others : List CollPart)
  /-- REGISTER_FILL (R39). A register-cache line fill from the context slot completes. -/
  | registerFill (warp reg : Nat)
  /-- TRAP_ENTRY (R192). A raised cause is delivered to the path's handler with the trap record in xs0 to xs4. -/
  | trapEntry (warp : Nat) (path : Bool)
  /-- SUPERVISOR_RECORD_ENTRY (R197). A waiting record enters the idle supervisor slot at its handler. -/
  | supervisorRecordEntry (core : Nat)
  /-- WATCHDOG_EXPIRY (R235). WDC reaches the limit and 11.0 stops both paths. -/
  | watchdogExpiry (warp : Nat)
  /-- WARP_END (R109). A warp whose queue has emptied and counters and flags cleared ends and frees its slot. -/
  | warpEnd (warp : Nat)
  /-- SPIN_DEMOTION (R233). A path that takes the same short branch 8 times unchanged is demoted. -/
  | spinDemotion (warp : Nat) (path : Bool)
  /-- RING_ENTRY_CONSUME (R322). The device reads one ring entry, assigns its identifier and queues it for admission. -/
  | ringEntryConsume (fn : Nat)
  /-- LAUNCH_ADMISSION (R224). A launch record is checked and admitted or refused. -/
  | launchAdmission (launch : Nat)
  /-- BLOCK_PLACEMENT (R227). A die's dispatcher places a block whole on a core pair. -/
  | blockPlacement (die : Nat)
  /-- BLOCK_SAVE_COMPLETE (R356). After drains and write-backs, the block's state is copied into its image and it becomes SAVED. -/
  | blockSaveComplete (block : Nat)
  /-- LAUNCH_COMPLETION_RECORD (R225). When every block has ended and every access is performed, the completion record is written. -/
  | launchCompletionRecord (launch : Nat)
  /-- FAULT_RECORD_WRITE (R344). A die fault queue writes a staged record into a function's fault queue and raises vector 2. -/
  | faultRecordWrite (fn : Nat)
  /-- LODGE_PRIME (R232). The lodge starts a ready warp's hot-list fetch and marks it primed when resident. -/
  | lodgePrime (core : Nat)
  /-- RINK_EXCHANGE (R230). A rink warp whose paths are all blocked is exchanged with the oldest primed lodge warp. -/
  | rinkExchange (core : Nat)
  /-- REGION_LEAVE_SERVICE (R284). Once outstanding AMVs have retired, a region leaves service. -/
  | regionLeaveService (region : Nat)
  /-- CLUSTER_QUIESCED (R380). A quiescing cluster with no resident warp or engine operation becomes QUIESCED. -/
  | clusterQuiesced (die cluster : Nat)
  /-- CLKACK_CHANGE (R380). The cluster clock acknowledge falls or rises, moving the cluster state. -/
  | clkackChange (die cluster : Nat)
  /-- RAILGOOD_CHANGE (R380). The cluster rail good signal falls or rises, moving the cluster state. -/
  | railgoodChange (die cluster : Nat)
  /-- PATROL_WAKE (R386). A halted patrol core resumes when a REQ bit or interrupt arrives. -/
  | patrolWake (die : Nat)
  /-- VF_CLEAR_COMPLETE (R329). The clearing of a VF ends, BUSY[v] falls to 0, and vector 3 is raised when BUSY becomes 0. -/
  | vfClearComplete (fn : Nat)
  /-- FREED_PAGE_ZEROED (R330). The zeroing of the pages freed by a VF clear finishes, and VFCLR.ZPEND falls to 0. -/
  | freedPageZeroed
  /-- REJECT_RESEND (R402). A rejected packet is sent again no earlier than 100 ns later. -/
  | rejectResend (entry : Nat)
  /-- PREEMPT_MARK_TIMEOUT (R239). A warp running on past a region end for 2 µs without a mark takes a full save. -/
  | preemptMarkTimeout (warp : Nat)
  /-- TILES_WRITTEN (R370). Every tile of a programming region is written and verification begins. -/
  | tilesWritten (region : Nat)
  /-- OWNER_LAPSE (R324). No command from the owner for 1 s ends ownership and raises vector 3. -/
  | ownerLapse
  /-- OFFER_TIMEOUT (R324). The 100 ms offer timer expires and the offer lapses. -/
  | offerTimeout
  /-- LODGE_AGE_EXCHANGE (R230). A ready lodge warp that waited 16,384 cycles is exchanged with the longest-resident rink warp. -/
  | lodgeAgeExchange (core : Nat)
  /-- CHECKER_MISMATCH (R410). A residue or parity checker mismatch raises 2.0 and holds the pipeline. -/
  | checkerMismatch (warp : Nat) (path lane : Bool)
  /-- REPLAY_QUEUE_CHECK (R411). An idle datapath re-executes a replay-queue entry and raises 2.1 on mismatch. -/
  | replayQueueCheck (core entry : Nat) (mismatch : Bool)
  /-- PATROL_SCRUB (R409). The scrub reads a word, corrects or poisons it. -/
  | patrolScrub (addr : Nat) (uncorrectable : Bool)
  /-- PREDICTIVE_EVACUATION (R417). A pair whose corrected-error count passes the threshold is evacuated and disabled. -/
  | predictiveEvacuation (die pair : Nat)
  /-- L1_LINE_EXPIRY (R256). An L1 line is dropped no later than 4 µs after its fill. -/
  | l1LineExpiry (core line : Nat)
  /-- LAUNCH_DOORBELL (R322). A write to LQTAIL rings the launch-queue doorbell. -/
  | launchDoorbell (fn value : Nat)
  /-- PURGE (R414). A purge of a (function, request tag) stops its warps, engines and launches. -/
  | purge (fn tag cause : Nat)
  /-- FAULT_RESPONSE (R345). The device acts on a host-written RESP, retrying or purging, and frees the entry. -/
  | faultResponse (fn entry : Nat)
  /-- FQERR_CLEAR (R344). Clearing FSTAT.FQERR makes the device write the waiting records again. -/
  | fqerrClear (fn : Nat)
  /-- HOTNESS_PROPOSAL (R350). A key's remote-access count reaches T and a proposal goes to the PF's queue. -/
  | hotnessProposal (port part page src : Nat)
  /-- HOTNESS_EPOCH (R350). A 1 ms epoch of hotness counting ends. -/
  | hotnessEpoch (port : Nat)
  /-- MOVE (R351). A host-request MOVE copies a page to a new home part by part. -/
  | move (fn entry : Nat)
  /-- DUP (R351). A host-request DUP places a read-only duplicate of a page. -/
  | dup (fn entry : Nat)
  /-- EVICT (R353). A host-request EVICT moves a shared page to host memory. -/
  | evict (fn entry : Nat)
  /-- SETXD (R335). MCTP message writing a function's translation descriptor. -/
  | setxd (requester target : Nat) (d : XlateDesc)
  /-- SHOOT (R353). MCTP message asking a module to drop a page's translations and L1 lines. -/
  | shoot (src home : Nat)
  /-- OWNER_CLAIM (R324). OWNCTL command CLAIM takes ownership if none exists. -/
  | ownerClaim (m : Nat)
  /-- OWNER_RELEASE (R324). OWNCTL command RELEASE gives up ownership. -/
  | ownerRelease (m : Nat)
  /-- OWNER_OFFER (R324). OWNCTL command OFFER offers ownership to a target master. -/
  | ownerOffer (m target : Nat)
  /-- OWNER_ACCEPT (R324). OWNCTL command ACCEPT takes an offered ownership. -/
  | ownerAccept (m : Nat)
  /-- OWNER_WITHDRAW (R324). OWNCTL command WITHDRAW cancels an offer. -/
  | ownerWithdraw (m : Nat)
  /-- OWNER_BEAT (R325). OWNCTL command BEAT keeps ownership alive. -/
  | ownerBeat (m : Nat)
  /-- OWNER_INVALID_CMD (R326). An OWNCTL CMD value that is not a command sets LAST to 3. -/
  | ownerInvalidCmd (m cmd : Nat)
  /-- COLD_START (R327). PERST#, power-on or a COLD command runs every start-up step. -/
  | coldStart
  /-- WARM_START (R328). A hot reset, secondary bus reset or WARM command runs the warm steps and ends all work. -/
  | warmStart
  /-- VF_ENABLE_CLEAR (R329). Clearing VF Enable clears every VF's work, pages and grants. -/
  | vfEnableClear
  /-- FLR (R329). A function-level reset clears one VF as VF Enable clearing does. -/
  | flr (fn : Nat)
  /-- GTCTL_APPLY (R334). Applies held GTOFF and GTMUL unless guest time would go backwards. `fn` is 64 × the master's code
  (R323) plus the function. -/
  | gtctlApply (fn : Nat)
  /-- GTCTL_STOP (R333). Writing STOP pauses or resumes a function's guest clock. `fn` is 64 × the master's code (R323) plus
  the function. -/
  | gtctlStop (fn : Nat) (stop : Bool)
  /-- REGISTER_WRITE (R10). A write to a register with no row of its own, under its access codes. `fn` is 64 × the master's
  code (R323), 0 for a function's own driver, plus the function whose management space is written. -/
  | registerWrite (fn offset value : Nat)
  /-- PROGRAM (R368). ARRAY command validating and programming a region from an image. -/
  | program (m region : Nat) (r : ProgramReq)
  /-- OFFLINE (R367). ARRAY command taking a region out of service. -/
  | offline (m region : Nat)
  /-- ONLINE (R370). ARRAY command recalibrating an offline region. -/
  | online (m region : Nat)
  /-- GRANT (R374). ARRAY command giving a function a region handle and column scales. -/
  | grant (m region fn dest handle : Nat)
  /-- REVOKE (R374). ARRAY command revoking a function's grant. -/
  | revoke (m region fn : Nat)
  /-- FREE (R367). ARRAY command returning a region's tiles to the free set. -/
  | freeRegion (m region : Nat)
  /-- TILE_VERIFY (R371). Verification of the region's tiles completes or a tile fails three rewrites. -/
  | tileVerify (region : Nat) (verified : Bool)
  /-- TAILOR_PROBE (R372). The tailor engine runs a probe in an idle tile slot and fits compensation. -/
  | tailorProbe (region tile : Nat) (withinLimit : Bool)
  /-- PROBE_DEADLINE (R372). A tile not probed for 100 ms takes one slot first. -/
  | probeDeadline (region tile : Nat)
  /-- TAILOR_PUBLISH (R176). The tailor engine writes the non-current copy and switches the current copy. -/
  | tailorPublish (region tile : Nat) (fit : CompCopy)
  /-- CREATE (R391). PART command creating a partition on the module. -/
  | create (m part : Nat)
  /-- DESTROY (R391). PART command ending a partition with a final snapshot. -/
  | destroy (m part : Nat)
  /-- CLUSTER (R392). PART command moving a core cluster to a partition. -/
  | cluster (m part die cluster : Nat)
  /-- FUNC (R391). PART command moving a function into a partition. -/
  | funcJoin (m part fn : Nat)
  /-- PAGES (R391). PART command tagging and zeroing LPDDR pages for a partition. -/
  | pages (m part first count : Nat)
  /-- PORT (R396). PART command giving a partition a Shesal port or a weight on it. -/
  | port (m part port weight : Nat)
  /-- QOS (R397). PART command setting a partition's shared-resource weights. -/
  | qos (m part wdm wsh wan : Nat)
  /-- GROUP (R394). PART command creating a collective group. -/
  | group (m part group : Nat) (members : List (Nat × Nat))
  /-- BIND (R395). PART command binding a remote pod's partition. -/
  | bind (m part pod remote : Nat)
  /-- GET_MEASUREMENTS (R399). SPDM request returning a signed meter snapshot of a partition. -/
  | getMeasurements (requester part : Nat) (viaOwner : Bool)
  /-- REMAP_MOVE (R365). Owner request binding a virtual die to an unbound site. -/
  | remapMove (m die site : Nat)
  /-- REMAP_SWAP (R365). Owner request exchanging the sites of two virtual dies. -/
  | remapSwap (m d1 d2 : Nat)
  /-- WAKE (R385). Owner MCTP message setting wake requests for clusters. -/
  | wake (m die mask : Nat)
  /-- CLCTL_CLKREQ (R380). Writing CLKREQ stops or starts a cluster's clock. -/
  | clctlClkreq (die cluster : Nat) (on : Bool)
  /-- CLCTL_RAILREQ (R380). Writing RAILREQ cuts or restores a cluster's rail. -/
  | clctlRailreq (die cluster : Nat) (on : Bool)
  /-- CLCTL_RESUME (R380). Writing RESUME reopens dispatch and returns the cluster to RUN. -/
  | clctlResume (die cluster : Nat)
  /-- ROUTE (R405). MCTP message writing a module's route-table entry. -/
  | route (m dest entry : Nat)
  /-- READ (R404). A READ packet arrives at the home and is performed. -/
  | read (p : Packet)
  /-- WRITE (R404). A WRITE packet arrives and is applied once through the sequence window. -/
  | write (p : Packet)
  /-- ATOMIC (R404). An ATOMIC packet arrives and is applied once, its results held. -/
  | atomic (p : Packet)
  /-- EWRITE (R404). An engine or collective write packet arrives and is applied once. -/
  | ewrite (p : Packet)
  /-- RDATA (R403). Read data returns and retires its packet from the bobbin. -/
  | rdata (p : Packet)
  /-- ACK (R403). An acknowledgement retires a write from the bobbin. -/
  | ack (p : Packet)
  /-- ARESULT (R403). An atomic result returns and retires its packet from the bobbin. -/
  | aresult (p : Packet)
  /-- REJECT (R402). A REJECT schedules the packet to be sent again on the same route. -/
  | reject (p : Packet)
  /-- INVALID_PACKET (R400). A packet with a reserved KIND, bad LEN or failed CRC is dropped. -/
  | invalidPacket (port : Nat) (p : Packet)
  /-- LINK_DOWN (R406). A port's link goes down; routes through it fail over and packets replay. -/
  | linkDown (port : Nat)
  /-- ACK_TIMEOUT (R406). No response within 8 µs fails the route and replays its packets. -/
  | ackTimeout (dest : Nat)
  /-- LINK_UP (R407). A failed higher route's link comes up and CUR returns to it for new packets. -/
  | linkUp (port : Nat)
  /-- SHOOT_ANSWER (R353). A module's answer to SHOOT reaches the firmware running EVICT, which ends step 2 when every module has answered. -/
  | shootAnswer (module home : Nat)
  /-- POWER_LOSS (R369). The module loses power, ending all work and leaving only the array record stores and journal, each entry at one phase. -/
  | powerLoss
  deriving DecidableEq, Repr

end Sys2Proof
end

