-- ==== Sys2Proof/Machine/Encoding.lean ====
section
/-! DEFINITION. The lane encodings as tables: format codes, operand codes (R18), the raw fields of a 96-bit word
(R73, R77), the rows of the lane opcode map (R80) and the modifier rules (R121, R132, R133, R142, R149). -/

namespace Sys2Proof.Machine

/-! ## Format codes (R74) -/

/-- The code of a format. -/
def fmtCode : Fmt → Nat
  | .n32 => 0 | .i32 => 1 | .f32 => 2 | .bf16 => 3 | .f16 => 4 | .i16 => 5 | .n16 => 6 | .i8 => 7
  | .n8 => 8 | .e4m3 => 9 | .e5m2 => 10 | .i4 => 11 | .e2m1 => 12 | .e8m0 => 13 | .n4 => 14 | .b32 => 15

/-- The format of a code below 16. -/
def fmtOf : Nat → Fmt
  | 0 => .n32 | 1 => .i32 | 2 => .f32 | 3 => .bf16 | 4 => .f16 | 5 => .i16 | 6 => .n16 | 7 => .i8
  | 8 => .n8 | 9 => .e4m3 | 10 => .e5m2 | 11 => .i4 | 12 => .e2m1 | 13 => .e8m0 | 14 => .n4 | _ => .b32

/-- R24, R49: the width of one element. -/
def fmtWidth : Fmt → Nat
  | .n32 | .i32 | .f32 | .b32 => 32
  | .bf16 | .f16 | .i16 | .n16 => 16
  | .i8 | .n8 | .e4m3 | .e5m2 | .e8m0 => 8
  | .i4 | .e2m1 | .n4 => 4

/-- R24, R49: elements per lane word. -/
def fmtCount (f : Fmt) : Nat := 32 / fmtWidth f

/-! ## Operand codes (R18) -/

/-- The source that a readable code names. -/
def srcOf (c : Nat) : Option Src :=
  if c < 1536 then some (.v c)
  else if c < 1552 then some (.q (c - 1536))
  else if c < 1616 then some (.x (c - 1552))
  else if c < 1632 then some (.const (c - 1616))
  else if c = 1632 then some .imm
  else none

/-- The code of a source. -/
def srcCode : Src → Nat
  | .v n => n
  | .q n => 1536 + n
  | .x n => 1552 + n
  | .const n => 1616 + n
  | .imm => 1632

/-- The source's number is one that R18 gives its class. -/
def srcWf : Src → Bool
  | .v n => n < 1536
  | .q n => n < 16
  | .x n => n < 64
  | .const n => n < 16
  | .imm => true

/-! ## Raw lane words (R73) -/

/-- The fields of a lane word as they stand in it. -/
structure RawLane where
  op : Nat
  dst : Nat
  a : Nat
  b : Nat
  c : Nat
  rnd : Nat
  fmt : Nat
  k : Nat
  wn : Nat
  flag : Nat
  sat : Nat
  mods : Nat
  deriving DecidableEq, Repr

/-- R73: the fields of a 96-bit word. -/
def laneFields (w : Nat) : RawLane :=
  { op := fld w 95 86, dst := fld w 85 75, a := fld w 74 64, b := fld w 63 53, c := fld w 52 42,
    rnd := fld w 41 39, fmt := fld w 38 34, k := fld w 33 30, wn := fld w 29 29, flag := fld w 28 25,
    sat := fld w 24 24, mods := fld w 23 0 }

/-- R73: the word with given fields. -/
def laneWord (r : RawLane) : Nat :=
  r.op * 2 ^ 86 + r.dst * 2 ^ 75 + r.a * 2 ^ 64 + r.b * 2 ^ 53 + r.c * 2 ^ 42 + r.rnd * 2 ^ 39 + r.fmt * 2 ^ 34 +
    r.k * 2 ^ 30 + r.wn * 2 ^ 29 + r.flag * 2 ^ 25 + r.sat * 2 ^ 24 + r.mods

/-- The raw fields of an instruction. R73: dst holds 0 when nothing is written by name, set-flag 15 names none. -/
def rawOf (op : Nat) (o : LaneOp) : RawLane :=
  { op := op, dst := o.dst.getD 0, a := srcCode o.a, b := srcCode o.b, c := srcCode o.c, rnd := o.rnd,
    fmt := fmtCode o.fmt, k := o.k, wn := b2n o.dst.isSome, flag := o.flag.getD 15, sat := b2n o.sat,
    mods := o.mods }

/-- The instruction fields that a checked raw word holds. -/
def opOf (r : RawLane) : LaneOp :=
  { dst := if r.wn = 1 then some r.dst else none, a := (srcOf r.a).getD .imm, b := (srcOf r.b).getD .imm,
    c := (srcOf r.c).getD .imm, rnd := r.rnd, fmt := fmtOf r.fmt, k := r.k,
    flag := if r.flag = 15 then none else some r.flag, sat := r.sat = 1, mods := r.mods }

/-! ## The lane opcode map (R80, R121) -/

/-- What a form does with the modifier field. -/
inductive ModUse where
  | imm | fcmp | icmp | cvt | pack | unpack | qnt | dqnt | bool3 | scan | red | load | store | ldt | atom
  deriving DecidableEq, Repr

/-- A row of R80: accepted formats as a bit set, whether rnd, sat and set-flag are accepted, the modifier use. -/
structure LaneRow where
  fmts : Nat
  rnd : Bool
  sat : Bool
  flag : Bool
  use : ModUse
  deriving DecidableEq, Repr

/-- R79 F. -/
def setF : Nat := 0x1C
/-- R79 I6. -/
def setI6 : Nat := 0x1E3
/-- R79 All. -/
def setAll : Nat := 0xFFFF

/-- R80, the forms of 06_insn_lane_arith.md with opcodes below 0x060. -/
def laneRowF : Nat → Option LaneRow
  | 0x010 | 0x011 | 0x012 | 0x013 => some ⟨setF, true, true, false, .imm⟩
  | 0x014 | 0x015 => some ⟨setF, false, false, false, .imm⟩
  | 0x016 => some ⟨setF, false, false, false, .fcmp⟩
  | 0x017 | 0x018 | 0x019 => some ⟨setF, false, false, false, .imm⟩
  | 0x020 | 0x021 | 0x022 | 0x023 | 0x024 | 0x025 => some ⟨setF, false, true, false, .imm⟩
  | 0x026 => some ⟨setF, true, true, false, .imm⟩
  | 0x027 => some ⟨setF, true, false, false, .imm⟩
  | 0x028 => some ⟨setF, false, false, false, .imm⟩
  | 0x040 => some ⟨0x7FFF, true, true, false, .cvt⟩
  | 0x041 => some ⟨0x4140, false, true, false, .pack⟩
  | 0x042 => some ⟨0x4140, false, false, false, .unpack⟩
  | 0x043 => some ⟨0x1680, true, false, false, .qnt⟩
  | 0x044 => some ⟨0x1680, false, true, false, .dqnt⟩
  | _ => none

/-- R80, the integer, bit, dot and movement forms. -/
def laneRowI : Nat → Option LaneRow
  | 0x060 | 0x061 => some ⟨setI6, false, true, false, .imm⟩
  | 0x062 | 0x063 => some ⟨0x3, false, true, false, .imm⟩
  | 0x064 => some ⟨0x3, false, false, false, .imm⟩
  | 0x065 | 0x066 => some ⟨setI6, false, false, false, .imm⟩
  | 0x067 => some ⟨setI6, false, false, false, .icmp⟩
  | 0x068 => some ⟨0xA2, false, true, false, .imm⟩
  | 0x069 => some ⟨0x140, false, false, false, .imm⟩
  | 0x080 | 0x081 | 0x082 | 0x083 => some ⟨0x8000, false, false, false, .imm⟩
  | 0x084 => some ⟨0x8000, false, false, false, .bool3⟩
  | 0x085 => some ⟨0x8000, false, false, false, .imm⟩
  | 0x086 => some ⟨0x1, false, false, false, .imm⟩
  | 0x087 => some ⟨0x2, false, false, false, .imm⟩
  | 0x088 | 0x089 | 0x08A => some ⟨0x8000, false, false, false, .imm⟩
  | 0x08B => some ⟨0x3, false, false, false, .imm⟩
  | 0x08C | 0x08D | 0x08E => some ⟨0x8000, false, false, false, .imm⟩
  | 0x0A0 => some ⟨0x780, false, true, false, .imm⟩
  | 0x0A1 => some ⟨0x5800, false, true, false, .imm⟩
  | 0x0C0 | 0x0C1 | 0x0C2 | 0x0C3 => some ⟨0x8000, false, false, false, .imm⟩
  | 0x0C4 => some ⟨0x7, true, false, false, .scan⟩
  | 0x0C5 => some ⟨0x7, true, false, false, .red⟩
  | 0x0C6 => some ⟨0x1, false, false, false, .imm⟩
  | _ => none

/-- R80, the memory forms. -/
def laneRowM : Nat → Option LaneRow
  | 0x100 | 0x101 | 0x102 | 0x103 => some ⟨setAll, false, false, true, .load⟩
  | 0x104 | 0x105 | 0x106 | 0x107 => some ⟨setAll, false, false, true, .store⟩
  | 0x108 => some ⟨setAll, false, false, true, .ldt⟩
  | 0x110 | 0x111 | 0x112 => some ⟨0x3, false, false, true, .atom⟩
  | 0x113 | 0x114 | 0x115 | 0x116 | 0x117 => some ⟨0x8000, false, false, true, .atom⟩
  | 0x118 => some ⟨0x1, false, false, true, .atom⟩
  | 0x119 => some ⟨0x4, false, false, true, .atom⟩
  | _ => none

/-- R80: the row of a lane opcode. -/
def laneRow (op : Nat) : Option LaneRow :=
  if op < 0x60 then laneRowF op else if op < 0x100 then laneRowI op else laneRowM op

/-! ## Reserved modifier values -/

/-- The element count of a format code, and none for a code that R74 does not assign. -/
def codeCount (c : Nat) : Option Nat := if c < 16 then some (fmtCount (fmtOf c)) else none

/-- A position is below a count, where there is one. -/
def below (p : Nat) (n : Option Nat) : Bool :=
  match n with
  | none => true
  | some n => p < n

/-- R133: the element positions of a quantised format; a code that R74 does not assign sets the limit no lower than any format
does (DEDUCED, log entry 30). -/
def mxPositions (fmt : Nat) : Nat := if fmt = 12 || 16 ≤ fmt then 8 else 4

/-- R131: the limits of GRP. A copy of raw bits takes none. A code that R74 does not assign has no element count: GRP then breaks
the limit only where it breaks it for every format, of 1 to 8 elements (DEDUCED, log entry 30). -/
def cvtGrpOk (src fmt g : Nat) : Bool :=
  if src = 15 then g = 0
  else match codeCount src, codeCount fmt with
  | some ns, some nt => if nt ≤ ns then g < ns / nt else g < nt / ns
  | some n, none | none, some n => g < max n (8 / n)
  | none, none => true

/-- R140: operations of SCAN and RED that only i32 and n32 take; of a code that R74 does not assign no limit is known (DEDUCED, log
entry 30). -/
def intOrUnknown (fmt : Nat) : Bool := fmt < 2 || 16 ≤ fmt

/-- Whether any source names code 1632. -/
def namesImm (r : RawLane) : Bool := r.a = 1632 || r.b = 1632 || r.c = 1632

/-- R121, R130 to R133, R136, R140: the modifier field of the arithmetic forms holds no reserved value. -/
def modsOk (u : ModUse) (r : RawLane) : Bool :=
  let m := r.mods
  match u with
  | .imm => namesImm r || m = 0
  | .fcmp => m < 2 ^ 11 && fld m 3 0 < 8 && below (fld m 9 8) (codeCount r.fmt)
  | .icmp => m < 2 ^ 10 && fld m 3 0 < 6 && below (fld m 9 8) (codeCount r.fmt)
  | .cvt => m < 2 ^ 8 && cvtGrpOk (fld m 4 0) r.fmt (fld m 7 5)
  | .pack => m < 2 ^ 4 && fld m 2 0 % 2 = 0 && below (fld m 2 0 + 1) (codeCount r.fmt)
  | .unpack => m < 2 ^ 4 && below (fld m 2 0) (codeCount r.fmt)
  | .qnt => m < 2 ^ 5 && fld m 2 0 < (if bitAt m 4 then 4 else mxPositions r.fmt)
  | .dqnt => m < 2 ^ 5 && fld m 2 0 < mxPositions r.fmt
  | .bool3 => m < 2 ^ 8
  | .scan => m < 2 ^ 4 && (fld m 2 0 < 3 || (fld m 2 0 < 6 && intOrUnknown r.fmt))
  | .red => m < 2 ^ 3 && (m < 3 || (m < 6 && intOrUnknown r.fmt))
  | .load | .store | .ldt | .atom => true

/-- R142, R149: a memory form breaks a condition that raises 0.5. -/
def memBad (u : ModUse) (r : RawLane) : Bool :=
  let m := r.mods
  let sz := fld m 11 10
  let ord := fld m 13 12
  let scope := fld m 16 14
  let common := sz = 3 || (scope ≠ 0 && ord = 0) || scope = 6
  match u with
  | .load => common || 2 ≤ ord || fld m 9 8 ≠ 0
  | .store => common || ord = 1 || ord = 3 || fld m 9 8 ≠ 0 || r.wn = 1
  | .ldt => common || sz ≠ 0 || ord ≠ 0 || bitAt m 9 || bitAt m 17 ||
      (bitAt m 8 && codeCount r.fmt ≠ none && codeCount r.fmt ≠ some 1)
  | .atom => common || sz ≠ 0
  | _ => false

/-- Whether the form is LD, ST, LDT or ATOM. -/
def isMemUse : ModUse → Bool
  | .load | .store | .ldt | .atom => true
  | _ => false

/-- R82, the place of 0.5: 0.5, or 0.1 for SCOPE = 7 where nothing raises 0.5 (R142). -/
def resvFault (u : ModUse) (r : RawLane) : Option Nat :=
  if (r.wn = 0 && r.dst ≠ 0) || !modsOk u r || memBad u r then some 5
  else if isMemUse u && fld r.mods 16 14 = 7 then some 1
  else none

/-- R80, R131, R142: 0.2. -/
def fmtFault (row : LaneRow) (r : RawLane) : Bool :=
  !(r.fmt < 16 && bitAt row.fmts r.fmt) ||
    (row.use = .cvt && 16 ≤ fld r.mods 4 0) ||
    ((row.use = .load || row.use = .store) && fld r.mods 11 10 ≠ 0 && r.fmt ≠ 0 && r.fmt ≠ 1 && r.fmt ≠ 15)

/-- R76, R77: a flag is one that the clause header declares; with no header given, any of f0 to f11. -/
def flagDeclared (decl : Option (Nat × Nat)) (f : Nat) : Bool :=
  f < 12 && match decl with
    | none => true
    | some (a, b) => f = a || f = b

/-- R18, R21: 0.3. -/
def operandFault (row : LaneRow) (r : RawLane) : Bool :=
  1632 < r.a || 1632 < r.b || 1632 < r.c || (r.wn = 1 && 1536 ≤ r.dst) || (row.use ≠ .imm && namesImm r)

/-- R82: the class-0 detail that a lane word raises, for the flags its header declares. -/
def laneFault (decl : Option (Nat × Nat)) (r : RawLane) : Option Nat :=
  if r.op = 0x3FF then some 7
  else match laneRow r.op with
  | none => some 4
  | some row =>
    match resvFault row.use r with
    | some d => some d
    | none =>
      if fmtFault row r then some 2
      else if (r.rnd ≠ 0 && !row.rnd) || (r.sat = 1 && !row.sat) then some 8
      else if r.flag ≠ 15 && (!row.flag || !flagDeclared decl r.flag) then some 9
      else if operandFault row r then some 3
      else none

/-! ## Clause headers (R77) -/

/-- The raw fields of a clause header word. -/
structure RawHdr where
  op : Nat
  wait : Nat
  setA : Nat
  setB : Nat
  count : Nat
  resv : Nat
  deriving DecidableEq, Repr

/-- R77. -/
def hdrFields (w : Nat) : RawHdr :=
  { op := fld w 95 86, wait := fld w 85 74, setA := fld w 73 70, setB := fld w 69 66, count := fld w 65 63,
    resv := fld w 62 0 }

/-- R82: the class-0 detail that a header word raises. -/
def hdrFault (h : RawHdr) : Option Nat :=
  if h.op ≠ 0x3FF then some 7
  else if h.resv ≠ 0 then some 5
  else if (12 ≤ h.setA && h.setA ≤ 14) || (12 ≤ h.setB && h.setB ≤ 14) then some 6
  else none

end Sys2Proof.Machine
end

