-- ==== Sys2Proof/Machine/Flags.lean ====
section
/-! DEFINITION. The sticky exception flags of WMODE (R27, R28, R56) as a 5-bit set: bit 0 NV, 1 DZ, 2 OF, 3 UF,
4 NX, the order in which WMODE[12:8] holds them. -/

namespace Sys2Proof.Machine

/-- Invalid operation. -/
def flNV : Nat := 1
/-- Division by zero. -/
def flDZ : Nat := 2
/-- Overflow. -/
def flOF : Nat := 4
/-- Underflow. -/
def flUF : Nat := 8
/-- Inexact. -/
def flNX : Nat := 16

/-- The union of two flag sets. -/
def flOr (a b : Nat) : Nat := a ||| b

/-- A flag set, if a condition holds. -/
def flIf (c : Bool) (f : Nat) : Nat := if c then f else 0

/-- The union of a list of flag sets. -/
def flAll (l : List Nat) : Nat := l.foldl flOr 0

/-- R27, R28: WMODE with a set of sticky flags raised. -/
def raiseFlags (wmode : W64) (f : Nat) : W64 := wmode ||| n64 (f * 256)

/-- R27: WMODE.RND, with 0 acting as RNE. -/
def wmodeRnd (wmode : W64) : Nat :=
  let r := fld wmode.toNat 2 0
  if r = 0 then 1 else r

/-- R27: WMODE.FTZ. -/
def wmodeFtz (wmode : W64) : Bool := wmode.getLsbD 3

/-- R27: WMODE.TAGX. -/
def wmodeTagx (wmode : W64) : Bool := wmode.getLsbD 4

/-- R27: WMODE.REPRO. -/
def wmodeRepro (wmode : W64) : Bool := wmode.getLsbD 5

/-- R27: WMODE.SEED. -/
def wmodeSeed (wmode : W64) : Nat := fld wmode.toNat 63 32

/-- R52, R75: the rounding mode of an rnd field. -/
def resolveRnd (wmode : W64) (rnd : Nat) : Nat := if rnd = 0 then wmodeRnd wmode else rnd

end Sys2Proof.Machine
end

