-- ==== Sys2Proof/Machine/Num.lean ====
section
/-! DEFINITION. Number formats and exact arithmetic (R43 to R60, R64): values, decoding, rounding, encoding,
conversion, exact sums and the functions of R126.

A value is a NaN, an infinity, or ± (m + ε) × 2^e, where ε is 0, or lies strictly between 0 and 1 when the sticky
bit is set. Only division, roots and the transcendental functions set it, and they carry far more bits than any
target format holds (log entry 13). -/

namespace Sys2Proof.Machine

/-- An exact real, an infinity or a NaN (R64 decode). -/
inductive Num where
  | nan (neg sig : Bool)
  | inf (neg : Bool)
  | fin (neg : Bool) (m : Nat) (e : Int) (sticky : Bool)
  deriving DecidableEq, Repr

/-- The number zero. -/
def Num.zero (neg : Bool) : Num := .fin neg 0 0 false

/-- An integer. -/
def Num.ofInt (v : Int) : Num := .fin (v < 0) v.natAbs 0 false

/-- m × 2^e. -/
def Num.pow2 (m : Nat) (e : Int) : Num := .fin false m e false

/-- Whether a value is a NaN. -/
def Num.isNan : Num → Bool
  | .nan _ _ => true
  | _ => false

/-- Whether a value is a signalling NaN. -/
def Num.isSig : Num → Bool
  | .nan _ s => s
  | _ => false

/-- Whether a value is ±0. -/
def Num.isZero : Num → Bool
  | .fin _ m _ st => m = 0 && !st
  | _ => false

/-- Whether a value is ±∞. -/
def Num.isInf : Num → Bool
  | .inf _ => true
  | _ => false

/-- The sign bit. -/
def Num.isNeg : Num → Bool
  | .nan n _ => n
  | .inf n => n
  | .fin n _ _ _ => n

/-- The sign inverted or set. -/
def Num.withSign (n : Bool) : Num → Num
  | .nan _ s => .nan n s
  | .inf _ => .inf n
  | .fin _ m e st => .fin n m e st

/-- −v. -/
def Num.neg (v : Num) : Num := v.withSign (!v.isNeg)

/-! ## Floating-point layouts (R43) -/

/-- How a format uses its highest codes. -/
inductive Special where
  | ieee | e4m3 | none
  deriving DecidableEq, Repr

/-- A layout: exponent and mantissa widths, bias and special codes. -/
structure Layout where
  ew : Nat
  mw : Nat
  bias : Nat
  special : Special
  deriving DecidableEq, Repr

/-- R43: the layout of a float format. -/
def layoutOf : Fmt → Option Layout
  | .f32 => some ⟨8, 23, 127, .ieee⟩
  | .bf16 => some ⟨8, 7, 127, .ieee⟩
  | .f16 => some ⟨5, 10, 15, .ieee⟩
  | .e4m3 => some ⟨4, 3, 7, .e4m3⟩
  | .e5m2 => some ⟨5, 2, 15, .ieee⟩
  | .e2m1 => some ⟨2, 1, 1, .none⟩
  | _ => none

/-- The code of +∞ for a layout that has one. -/
def Layout.infCode (l : Layout) : Nat := (2 ^ l.ew - 1) * 2 ^ l.mw

/-- The code of the largest finite value. -/
def Layout.maxCode (l : Layout) : Nat :=
  match l.special with
  | .ieee => l.infCode - 1
  | .e4m3 => 2 ^ (l.ew + l.mw) - 2
  | .none => 2 ^ (l.ew + l.mw) - 1

/-- R44: the canonical NaN. -/
def Layout.nanCode (l : Layout) : Nat :=
  match l.special with
  | .ieee => l.infCode + 2 ^ (l.mw - 1)
  | .e4m3 => 2 ^ (l.ew + l.mw) - 1
  | .none => l.maxCode

/-- The exponent of the least subnormal. -/
def Layout.qmin (l : Layout) : Int := 1 - (l.bias : Int) - l.mw

/-- The sign bit of a code. -/
def Layout.signBit (l : Layout) (n : Bool) : Nat := if n then 2 ^ (l.ew + l.mw) else 0

/-- R43, R44: the value of a code. -/
def Layout.decode (l : Layout) (x : Nat) : Num :=
  let neg := bitAt x (l.ew + l.mw)
  let mag := x % 2 ^ (l.ew + l.mw)
  let e := mag / 2 ^ l.mw
  let m := mag % 2 ^ l.mw
  if l.special = .ieee ∧ e = 2 ^ l.ew - 1 then
    if m = 0 then .inf neg else .nan neg (m < 2 ^ (l.mw - 1))
  else if l.special = .e4m3 ∧ mag = 2 ^ (l.ew + l.mw) - 1 then .nan neg false
  else if e = 0 then .fin neg m l.qmin false
  else .fin neg (m + 2 ^ l.mw) (l.qmin + e - 1) false

/-- R43, R46, R47: the value of a code in a format (b32 as an unsigned integer). -/
def decodeNum (f : Fmt) (x : Nat) : Num :=
  match f with
  | .f32 | .bf16 | .f16 | .e4m3 | .e5m2 | .e2m1 =>
    match layoutOf f with
    | some l => l.decode (x % 2 ^ fmtWidth f)
    | none => .zero false
  | .e8m0 => if x % 256 = 255 then .nan false false else .pow2 1 ((x % 256 : Nat) - 127)
  | .i32 | .i16 | .i8 | .i4 => .ofInt (sext (fmtWidth f) x)
  | .n32 | .n16 | .n8 | .n4 | .b32 => .ofInt ((x % 2 ^ fmtWidth f : Nat))

/-- Whether a format is floating point. -/
def isFloat (f : Fmt) : Bool := (layoutOf f).isSome

/-- Whether a format is a signed integer. -/
def isSigned : Fmt → Bool
  | .i32 | .i16 | .i8 | .i4 => true
  | _ => false

/-! ## Rounding (R52 to R56) -/

/-- How to round: the resolved mode (1 to 7), sat, FTZ, and the random word of R53 as a function of the 16 low
bits of enc(t) and of d. -/
structure RMode where
  rnd : Nat
  sat : Bool
  ftz : Bool
  word : Nat → Nat → W32

/-- Round to nearest even, with neither sat nor FTZ. -/
def rne : RMode := { rnd := 1, sat := false, ftz := false, word := fun _ _ => 0 }

/-- A magnitude cut at 2^q: t in units of 2^q, and what lies beyond it in units of 2^(q − k). -/
structure Cut where
  t : Nat
  rem : Nat
  k : Nat
  sticky : Bool
  deriving DecidableEq, Repr

/-- (m + ε) × 2^e cut at 2^q. -/
def cutAt (m : Nat) (e : Int) (st : Bool) (q : Int) : Cut :=
  if q ≤ e then { t := m * 2 ^ (e - q).toNat, rem := 0, k := 0, sticky := st }
  else
    let k := (q - e).toNat
    { t := m / 2 ^ k, rem := m % 2 ^ k, k := k, sticky := st }

/-- Whether nothing lies beyond t. -/
def Cut.exact (c : Cut) : Bool := c.rem = 0 && !c.sticky

/-- The remainder against half a unit: less, equal or greater. -/
def Cut.half (c : Cut) : Ordering :=
  match compare (2 * c.rem) (2 ^ c.k) with
  | .eq => if c.sticky then .gt else if c.k = 0 then .lt else .eq
  | o => if c.k = 0 then .lt else o

/-- R53: d, kept at 1 or more. -/
def Cut.d (c : Cut) : Nat := max 1 (c.rem * 2 ^ 24 / 2 ^ c.k)

/-- R52: whether the mode takes u rather than t, for an inexact value. `tcode` is the code of t. -/
def takesU (r : RMode) (neg : Bool) (tcode : Nat) (c : Cut) : Bool :=
  match r.rnd with
  | 2 => false
  | 3 => neg
  | 4 => !neg
  | 5 => c.half != .lt
  | 6 => (r.word (tcode % 65536) c.d).toNat % 2 ^ 24 < c.d
  | 7 => c.t % 2 = 0
  | _ => match c.half with
    | .lt => false
    | .gt => true
    | .eq => c.t % 2 = 1

/-- A code and the flags raised with it. -/
structure Coded where
  code : Nat
  fl : Nat
  deriving DecidableEq, Repr

/-- R54: the result of an overflow. -/
def overflowCode (l : Layout) (r : RMode) (neg : Bool) : Nat :=
  let toInf := match r.rnd with
    | 2 | 7 => false
    | 3 => neg
    | 4 => !neg
    | _ => true
  l.signBit neg +
    (if r.sat || !toInf then l.maxCode
     else match l.special with
      | .ieee => l.infCode
      | .e4m3 => 2 ^ (l.ew + l.mw) - 1
      | .none => l.maxCode)

/-- R54: whether the overflow's result is a NaN, whose code carries no sign (R44). -/
def overflowNan (l : Layout) (r : RMode) (neg : Bool) : Bool :=
  l.special = .e4m3 && overflowCode l r neg % 2 ^ (l.ew + l.mw) = 2 ^ (l.ew + l.mw) - 1

/-- R52 to R56: a non-zero finite value in a layout. The code of t carries the sign of v, also where t is a zero (DEDUCED,
log entry 79). -/
def roundFin (l : Layout) (r : RMode) (neg : Bool) (m : Nat) (e : Int) (st : Bool) : Coded :=
  let top : Int := e + log2 m
  let q := max (top - l.mw) l.qmin
  let c := cutAt m e st q
  let base := (q - l.qmin).toNat * 2 ^ l.mw
  let tcode := l.signBit neg + base + c.t
  let up := !c.exact && takesU r neg tcode c
  let mag := base + (if up then c.t + 1 else c.t)
  if l.maxCode < mag then
    { code := if overflowNan l r neg then l.nanCode else overflowCode l r neg, fl := flOr flOF flNX }
  else
    -- R56: tiny, by the rounding with the exponent range unbounded below
    let uc := cutAt m e st (top - l.mw)
    -- (where that leaves a stochastic result open, the value delivered decides, log entry 14)
    let wraps := uc.t + 1 = 2 ^ (l.mw + 1) && top + 1 = l.qmin + l.mw && !uc.exact &&
      (if r.rnd = 6 then up && 2 ^ l.mw ≤ mag else takesU r neg (l.signBit neg + uc.t) uc)
    let tiny := top < l.qmin + l.mw && !wraps
    let sub := mag < 2 ^ l.mw
    if r.ftz && sub then { code := l.signBit neg, fl := flOr flUF flNX }
    else { code := l.signBit neg + mag,
           fl := flOr (flIf (!c.exact) flNX) (flIf (tiny && !c.exact) flUF) }

/-- R54, R57: encode(v, fmt, rnd, sat) for a floating-point format. -/
def encodeF (l : Layout) (r : RMode) (v : Num) : Coded :=
  match v with
  | .nan n _ =>
    match l.special with
    | .none => { code := l.signBit n + l.maxCode, fl := flNV }
    | _ => { code := l.nanCode, fl := 0 }
  | .inf n =>
    match l.special with
    | .ieee => { code := l.signBit n + l.infCode, fl := 0 }
    | _ => { code := l.signBit n + l.maxCode, fl := flOr flOF flNX }
  | .fin n m e st =>
    if m = 0 && !st then { code := l.signBit n, fl := 0 }
    else if m = 0 then roundFin l r n 1 (e - 200) true
    else roundFin l r n m e st

/-- The least and greatest integer of an integer format. -/
def intRange (f : Fmt) : Int × Int :=
  if isSigned f then (-(2 ^ (fmtWidth f - 1)), 2 ^ (fmtWidth f - 1) - 1) else (0, 2 ^ fmtWidth f - 1)

/-- An integer's code in w bits. -/
def intCode (w : Nat) (v : Int) : Nat := (v % 2 ^ w).toNat

/-- R55: an exact integer narrowed to a format, clamped when sat = 1. -/
def narrow (f : Fmt) (sat : Bool) (v : Int) : Nat :=
  let (lo, hi) := intRange f
  intCode (fmtWidth f) (if sat then max lo (min hi v) else v)

/-- R52, R53: a value rounded to an integer of w bits: the signed integer and whether it differs. The code of t is
that of the signed integer in w bits. -/
def roundInt (w : Nat) (r : RMode) (neg : Bool) (m : Nat) (e : Int) (st : Bool) : Int × Bool :=
  let c := cutAt m e st 0
  let up := !c.exact && takesU r neg (intCode w (if neg then -(c.t : Int) else c.t)) c
  let n := if up then c.t + 1 else c.t
  (if neg then -(n : Int) else n, !c.exact)

/-- R55, R56: float to integer, always saturating: NV for a NaN or a value out of range, and NX too where the limit that is
delivered differs from the exact value. -/
def encodeI (f : Fmt) (r : RMode) (v : Num) : Coded :=
  let (lo, hi) := intRange f
  match v with
  | .nan _ _ => { code := 0, fl := flNV }
  | .inf n => { code := intCode (fmtWidth f) (if n then lo else hi), fl := flOr flNV flNX }
  | .fin n m e st =>
    let (i, inexact) := if 200 < e + log2 m then ((if n then -(2 ^ 200) else 2 ^ 200), false) else roundInt (fmtWidth f) r n m e st
    if i < lo then { code := intCode (fmtWidth f) lo, fl := flOr flNV flNX }
    else if hi < i then { code := intCode (fmtWidth f) hi, fl := flOr flNV flNX }
    else { code := intCode (fmtWidth f) i, fl := flIf inexact flNX }

/-- R57: any value to E8M0. -/
def encodeScale (v : Num) : Coded :=
  match v with
  | .nan _ _ => { code := 255, fl := flNV }
  | .inf _ => { code := 255, fl := flNV }
  | .fin n m e _ =>
    if m = 0 then { code := 0, fl := flOr flUF flNX }
    else if n then { code := 255, fl := flNV }
    else
      let x : Int := e + log2 m + 127
      { code := (max 0 (min 254 x)).toNat, fl := flIf (m ≠ 2 ^ log2 m || x < 0 || 254 < x) flNX }

/-- R45: the formats in which FTZ acts. -/
def ftzFormat : Fmt → Bool
  | .f32 | .bf16 | .f16 => true
  | _ => false

/-- R57, R45: encode in any format; b32 keeps an integer's low bits. -/
def encodeNum (f : Fmt) (r : RMode) (v : Num) : Coded :=
  match layoutOf f with
  | some l => encodeF l { r with ftz := r.ftz && ftzFormat f } v
  | none => if f = .e8m0 then encodeScale v else encodeI f r v

/-- R57: one element converted between formats. -/
def convertElem (src dst : Fmt) (r : RMode) (x : Nat) : Coded :=
  if src = .b32 || dst = .b32 then { code := x % 2 ^ fmtWidth dst, fl := 0 }
  else
    let v := decodeNum src x
    let nv := flIf v.isSig flNV
    match v with
    | .fin n m _ _ =>
      if !isFloat src && src ≠ .e8m0 && !isFloat dst && dst ≠ .e8m0 then
        { code := narrow dst r.sat (if n then -(m : Int) else m), fl := 0 }
      else
        let c := encodeNum dst r v
        { c with fl := flOr nv c.fl }
    | _ =>
      let c := encodeNum dst r v
      { c with fl := flOr nv c.fl }

/-! ## Elements of a lane word (R49) -/

/-- Element i of a lane word. -/
def elem (f : Fmt) (w : W32) (i : Nat) : Nat := w.toNat / 2 ^ (fmtWidth f * i) % 2 ^ fmtWidth f

/-- A lane word from its elements. -/
def packElems (f : Fmt) (g : Nat → Nat) : W32 :=
  n32 ((List.range (fmtCount f)).foldl (fun a i => a + g i % 2 ^ fmtWidth f * 2 ^ (fmtWidth f * i)) 0)

/-- A lane word with one element replaced. -/
def setElem (f : Fmt) (w : W32) (j x : Nat) : W32 := packElems f fun i => if i = j then x else elem f w i

/-- R58: the group of tags between which tagcheck converts; none for e8m0 and b32. -/
def tagGroup : Fmt → Option Nat
  | .n32 | .i32 | .f32 => some 1
  | .bf16 | .f16 | .i16 | .n16 => some 2
  | .i8 | .n8 | .e4m3 | .e5m2 => some 4
  | .i4 | .n4 | .e2m1 => some 8
  | .e8m0 | .b32 => none

/-! ## Exact sums and products (R59, R60) -/

/-- The signed integer m at exponent e0, which is at most the value's exponent. -/
def atExp (e0 : Int) : Num → Int
  | .fin n m e _ => let v : Int := m * 2 ^ (e - e0).toNat; if n then -v else v
  | _ => 0

/-- The least exponent of a list of finite values. -/
def minExp (l : List Num) : Int :=
  l.foldl (fun a v => match v with | .fin _ 0 _ _ => a | .fin _ _ e _ => min a e | _ => a) 100000

/-- R59: the sign of a zero sum under a mode. -/
def zeroSign (rnd : Nat) (l : List Num) : Bool :=
  if rnd = 3 then !l.all fun v => !v.isNeg else l.all fun v => v.isNeg

/-- R59, R60: an exact sum, with the NaN and infinity rules, and NV for ∞ − ∞. A NaN addend is looked for first: with one
present, ∞ − ∞ raises nothing (DESIGN CHOICE, log entry 80). -/
def sumNums (rnd : Nat) (l : List Num) : Num × Nat :=
  if l.any Num.isNan then (.nan false false, 0)
  else if l.any (fun v => v.isInf && !v.isNeg) && l.any (fun v => v.isInf && v.isNeg) then (.nan false false, flNV)
  else match l.find? Num.isInf with
  | some v => (v, 0)
  | none =>
    let e0 := minExp l
    let t := l.foldl (fun a v => a + atExp e0 v) 0
    if t = 0 then (.zero (zeroSign rnd l), 0) else (.fin (t < 0) t.natAbs e0 false, 0)

/-- A product, with NV for 0 × ∞. -/
def mulNums (a b : Num) : Num × Nat :=
  let n := a.isNeg != b.isNeg
  match a, b with
  | .nan _ _, _ => (.nan false false, 0)
  | _, .nan _ _ => (.nan false false, 0)
  | .inf _, v => if v.isZero then (.nan false false, flNV) else (.inf n, 0)
  | v, .inf _ => if v.isZero then (.nan false false, flNV) else (.inf n, 0)
  | .fin _ m e s, .fin _ k f t => (.fin n (m * k) (e + f) (s || t), 0)

/-- The NV flag of signalling operands (R44). -/
def sigFlags (l : List Num) : Nat := flIf (l.any Num.isSig) flNV

/-- R123 FADD: a + b rounded once. -/
def addOp (f : Fmt) (r : RMode) (a b : Num) : Coded :=
  let (s, nv) := sumNums r.rnd [a, b]
  let c := encodeNum f r s
  { c with fl := flOr (flOr (sigFlags [a, b]) nv) c.fl }

/-- R123 FMUL. -/
def mulOp (f : Fmt) (r : RMode) (a b : Num) : Coded :=
  let (p, nv) := mulNums a b
  let c := encodeNum f r p
  { c with fl := flOr (flOr (sigFlags [a, b]) nv) c.fl }

/-- R123 FFMA: a × b + c rounded once; 0 × ∞ raises NV also when c is a NaN. -/
def fmaOp (f : Fmt) (r : RMode) (a b c : Num) : Coded :=
  let (p, nv) := mulNums a b
  let (s, nv2) := sumNums r.rnd [p, c]
  let x := encodeNum f r s
  { x with fl := flOr (flOr (sigFlags [a, b, c]) (flOr nv nv2)) x.fl }

/-- The order of two numbers, −0 below +0; none when either is a NaN. -/
def numKey (e0 : Int) (v : Num) : Int :=
  match v with
  | .inf n => if n then -(2 ^ 1000) else 2 ^ 1000
  | v => 2 * atExp e0 v + (if v.isNeg then 0 else 1)

/-- R124: −0 ordered below +0. -/
def numLt (a b : Num) : Bool := let e := minExp [a, b]; numKey e a < numKey e b

/-- Compares by value, −0 equal to +0. -/
def numCmp (a b : Num) : Ordering :=
  if a.isZero && b.isZero then .eq
  else if numLt a b then .lt
  else if numLt b a then .gt
  else .eq

/-- R60: dotgroup, the products summed exactly and rounded once to FP32. The zero's sign follows R59. -/
def dotSum (prods : List (Num × Num)) : Num :=
  let ps := prods.map fun (a, b) => (mulNums a b).1
  (sumNums 1 ps).1

/-- A value rounded to FP32 by RNE, as a code, with no flag (R56, last sentence). -/
def f32Of (v : Num) : W32 := n32 (encodeNum .f32 rne v).code

/-- The value of an FP32 word. -/
def f32Val (w : W32) : Num := decodeNum .f32 w.toNat

/-- round(a + b, f32, RNE). -/
def addF32 (a b : Num) : Num := f32Val (f32Of (sumNums 1 [a, b]).1)

/-! ## OCP MX (R50, R51) -/

/-- R51: emax of an element format. -/
def mxEmax : Fmt → Int
  | .e4m3 => 8
  | .e5m2 => 15
  | .e2m1 => 2
  | _ => 0

/-- R51: mxscale(amax, fmt). -/
def mxScale (amax : Num) (f : Fmt) : Nat :=
  match amax with
  | .fin _ m e _ => if m = 0 then 0 else (max 0 (min 254 (e + log2 m - mxEmax f + 127))).toNat
  | _ => 255

/-- R50: an MX element's value before its scale: an MXINT8 code counts 2^−6. -/
def mxElem (f : Fmt) (x : Nat) : Num :=
  match f with
  | .i8 => match Num.ofInt (sext 8 x) with
    | .fin n m e s => .fin n m (e - 6) s
    | v => v
  | _ => decodeNum f x

/-! ## The functions of R126 -/

/-- floor(√n) below 2^k, from the top bit down. -/
def isqrtFrom (n : Nat) : Nat → Nat → Nat
  | 0, r => r
  | k + 1, r => isqrtFrom n k (if (r + 2 ^ k) * (r + 2 ^ k) ≤ n then r + 2 ^ k else r)

/-- floor(√n). -/
def isqrt (n : Nat) : Nat := isqrtFrom n (log2 n / 2 + 1) 0

/-- The fraction bits of the fixed-point work. -/
def fxBits : Nat := 512

/-- ln 2 × 2^512, rounded down. -/
def fxLn2 : Nat :=
  9293584264128987901384440660653081117630633404975079641076009770578364573633075645167623918067512986930843040596952636663673675798576024949780480621393957

/-- 1 / a for a non-zero finite a. -/
def recipNum (m : Nat) (e : Int) (neg : Bool) : Num :=
  .fin neg (2 ^ 256 / m) (-e - 256) (2 ^ 256 % m ≠ 0)

/-- √(m × 2^e) for m > 0, with at least 128 bits. -/
def sqrtNum (m : Nat) (e : Int) : Num :=
  let (m1, e1) := if e % 2 = 0 then (m, e) else (2 * m, e - 1)
  let n := m1 * 2 ^ 256
  let r := isqrt n
  .fin false r (e1 / 2 - 128) (r * r ≠ n)

/-- 1 / √(m × 2^e) for m > 0. -/
def rsqrtNum (m : Nat) (e : Int) : Num :=
  let (m1, e1) := if e % 2 = 0 then (m, e) else (2 * m, e - 1)
  let r := isqrt (2 ^ 512 / m1)
  .fin false r (-(e1 / 2) - 256) (r * r * m1 ≠ 2 ^ 512)

/-- The bits of log₂ x after the point, for x in [1, 2) with `fxBits` fraction bits: squares, most significant
bit first. -/
def log2Bits : Nat → Nat → Nat → Nat
  | 0, _, acc => acc
  | k + 1, x, acc =>
    let y := x * x / 2 ^ fxBits
    if 2 ^ (fxBits + 1) ≤ y then log2Bits k (y / 2) (2 * acc + 1) else log2Bits k y (2 * acc)

/-- log₂(m × 2^e) for m > 0, with 160 fraction bits. -/
def log2Num (m : Nat) (e : Int) : Num :=
  let k := log2 m
  let i : Int := e + k
  if m = 2 ^ k then .ofInt i
  else
    let f := log2Bits 160 (m * 2 ^ fxBits / 2 ^ k) 0
    let v : Int := i * 2 ^ 160 + f
    -- the exact value lies between v and v + 1
    if 0 ≤ v then .fin false v.toNat (-160) true else .fin true (-v - 1).toNat (-160) true

/-- Σ x^i / i! with `fxBits` fraction bits, by Horner's rule from term n. -/
def fxExp (x : Nat) : Nat → Nat → Nat
  | 0, acc => acc
  | n + 1, acc => fxExp x n (2 ^ fxBits + acc * x / ((n + 1) * 2 ^ fxBits))

/-- e^x for a fixed-point x below 1. -/
def fxExpSmall (x : Nat) : Nat := fxExp x 120 (2 ^ fxBits)

/-- A fixed-point number squared n times. -/
def fxSquares (x : Nat) : Nat → Nat
  | 0 => x
  | n + 1 => fxSquares (x * x / 2 ^ fxBits) n

/-- 2^a for |a| ≤ 0.5, a ≠ 0. -/
def exp2Num (neg : Bool) (m : Nat) (e : Int) : Num :=
  let a := if 0 ≤ e + fxBits then m * 2 ^ (e + fxBits).toNat else m / 2 ^ (-(e + fxBits)).toNat
  let y := fxExpSmall (a * fxLn2 / 2 ^ fxBits)
  if neg then .fin false (2 ^ (2 * fxBits) / (y + 1)) (-(fxBits : Int)) true
  else .fin false y (-(fxBits : Int)) true

/-- tanh a for a finite non-zero a. -/
def tanhNum (neg : Bool) (m : Nat) (e : Int) : Num :=
  let top : Int := e + log2 m
  if top < -60 then .fin neg (m * 2 ^ 90 - 1) (e - 90) true
  else if 6 < top then .fin neg (2 ^ 90 - 1) (-90) true
  else
    let a := if 0 ≤ e + fxBits then m * 2 ^ (e + fxBits).toNat else m / 2 ^ (-(e + fxBits)).toNat
    -- E = e^(2a), by e^(a / 2^8) squared nine times
    let y := fxSquares (fxExpSmall (a / 2 ^ 8)) 9
    .fin neg ((y - 2 ^ fxBits) * 2 ^ fxBits / (y + 2 ^ fxBits)) (-(fxBits : Int)) true

/-! ## The hash of R64 -/

/-- R64 rng(key, ctr). -/
def rngHash (key ctr : W32) : W32 :=
  let x := ctr ^^^ key
  let x := (x ^^^ (x >>> 16)) * 0x2C1B3C6D
  let x := (x ^^^ (x >>> 12)) * 0x297A2D39
  x ^^^ (x >>> 15)

end Sys2Proof.Machine
end

