-- ==== Sys2Proof/Machine/FMap.lean ====
section
/-! DEFINITION. The operations over sparse tables: find, put, delete, and the pair that keeps a table with a
default canonical (no entry equal to the default). -/

namespace Sys2Proof.Machine

/-- The value listed at a key. -/
def fget {α : Type} : FMap α → Nat → Option α
  | [], _ => none
  | (j, v) :: r, k => if j = k then some v else fget r k

/-- The table with one key set, the keys still rising. -/
def fput {α : Type} : FMap α → Nat → α → FMap α
  | [], k, v => [(k, v)]
  | (j, u) :: r, k, v =>
    if k < j then (k, v) :: (j, u) :: r
    else if k = j then (k, v) :: r
    else (j, u) :: fput r k v

/-- The table without a key. -/
def fdel {α : Type} : FMap α → Nat → FMap α
  | [], _ => []
  | (j, u) :: r, k => if j = k then fdel r k else (j, u) :: fdel r k

/-- The value at a key of a table with a default. -/
def fgetD {α : Type} (d : α) (m : FMap α) (k : Nat) : α := (fget m k).getD d

/-- The table with one key set, where the default is not listed. -/
def fputD {α : Type} [DecidableEq α] (d : α) (m : FMap α) (k : Nat) (v : α) : FMap α :=
  if v = d then fdel m k else fput m k v

/-- One value changed, where it is listed. -/
def fmod {α : Type} (m : FMap α) (k : Nat) (f : α → α) : FMap α :=
  match fget m k with
  | none => m
  | some v => fput m k (f v)

/-- Every value changed. -/
def fmap {α β : Type} (m : FMap α) (f : Nat → α → β) : FMap β := m.map fun e => (e.1, f e.1 e.2)

/-- The entries that satisfy p. -/
def ffilter {α : Type} (m : FMap α) (p : Nat → α → Bool) : FMap α := m.filter fun e => p e.1 e.2

/-- Keys strictly rising. -/
def rising {α : Type} : FMap α → Bool
  | [] => true
  | (_, _) :: [] => true
  | (j, _) :: (k, v) :: r => j < k && rising ((k, v) :: r)

/-- A sorted list of numbers with one inserted. -/
def ninsert : List Nat → Nat → List Nat
  | [], k => [k]
  | j :: r, k => if k < j then k :: j :: r else if k = j then j :: r else j :: ninsert r k

end Sys2Proof.Machine
end

