-- ==== Sys2Proof/Config.lean ====
section
/-! DEFINITION. What an implementation fixes, and the free values: constants with no body, so that no
proof can see a value of one. -/

namespace Sys2Proof.Config

/-- R53 with WMODE.REPRO = 0: the random words of the stochastic-rounding generators are not
architectural (R5 (e)). Applied to the model's own counter. Log entry 3. -/
opaque freeRandom : Nat → W32

/-- R281: the ADC codes of a tile in service are not architectural (R5 (a)). Applied to the model's own
counter and the plane; the machine keeps the code within 10 bits and within R281's bound. Log entry 4. -/
opaque freeCode : Nat → Nat → Nat

/-- R343: which engine of its die serves a shuttle or collective operation. Applied to the operation's number; the
machine keeps it below 16. Log entry 22. -/
opaque freeEngine : Nat → Nat

/-- R369: SHA-384, which the spec names and does not define. Log entry 5. -/
opaque sha384 : List Byte → List Byte

/-- R199: WDLIM.LIMIT, a value that firmware loads at start-up (1,024 or more). Log entry 6. -/
def wdLimit : Nat := 1048576

/-- R321: TBRATE in kHz, a value of the hardware configuration. Log entry 6. -/
def tbRate : Nat := 100000

/-- The module's number within its pod (R336). Log entry 6. -/
def moduleNo : Nat := 0

/-- The module's pod number, counted from 0 (R177, R391). Log entry 6. -/
def podNo : Nat := 0

/-- R416: the evacuation threshold, a firmware setting, 64 by default. -/
def evacThreshold : Nat := 64

/-- R350: the proposal threshold T, a firmware setting, 4,096 by default. -/
def hotThreshold : Nat := 4096

/-- R359: the bytes of a virtual die's LPDDR pages that firmware keeps for block images: the lowest quarter of its area.
Log entry 85. -/
def imageRoom : Nat := 2 ^ 34

/-- R282, R346, R359: the first LPDDR page of a virtual die that belongs to firmware; its area is the last 64 GiB. Log
entry 85. -/
def firmwarePage : Nat := 32768

end Sys2Proof.Config
end

