-- ==== Sys2Proof/Machine/State.lean ====
section
/-! DEFINITION. The state of one Trelith K4 module as plain data: the warps and their contexts, blocks and
launches, memory, the outstanding operations of the lane pipelines and the engines, the functions and their
management registers, the arrays, power, partitions and the fabric, and the state after reset.

Counters and completion flags (R29, R30) are not fields: they are computed from the list of outstanding
operations, each of which names the paths it belongs to, so that R31 holds by construction. -/

namespace Sys2Proof.Machine

/-- Why the machine stops. No rule of the spec stops the machine; every trap is a next state. -/
inductive Fault where
  /-- Raised by an S-stream or lane instruction that is asked to act for a path that does not exist (no warp
  issues it). The hardware issues no instruction there, so the stop is safe. -/
  | noPath
  deriving DecidableEq, Repr

/-- Why a step has no meaning. -/
inductive Refusal where
  /-- Raised by the dispatch arm of an instruction whose meaning is not written. Safe: no claim about that
  instruction can be proved. -/
  | notModelled (mnemonic : String)
  deriving DecidableEq, Repr

/-! ## Paths and warps (R16 to R42) -/

/-- One entry of an age queue (R22, R23): the lane words, the lanes in which it is valid, its tag, and the
outstanding operation that will deliver it, when it is the result of a load that has not arrived (R147). -/
structure AgeEntry where
  data : Lanes
  valid : W32
  tag : Fmt
  pend : Option Nat
  deriving DecidableEq, Repr

/-- The fields of a clause header (R77). -/
structure Hdr where
  wait : Nat
  setA : Nat
  setB : Nat
  count : Nat
  deriving DecidableEq, Repr

/-- A clause of a clause queue (R97, R110): its number on the path, its address, the masks, the scalar
registers as R33 names them and the privilege level that RUNC captured, the header and the words after it once the
clause has been fetched (R78), whether the clause has started (R29), and the index of the word that issues next. -/
structure Clause where
  seq : Nat
  addr : W64
  k : FMap W32
  x : FMap W64
  priv : BitVec 2
  hdr : Option Hdr
  body : List Nat
  started : Bool
  idx : Nat
  deriving DecidableEq, Repr

/-- A raised cause with what the trap record says of it (R193). `va` is the value of xs3. -/
structure Trap where
  cause : Nat
  lane : Bool
  impr : Bool
  widx : Nat
  code : Nat
  lmask : W32
  clauseAddr : W64
  va : W64
  resume : W64
  deriving DecidableEq, Repr

/-- The state that the core holds for a path while its handler runs (R192), with the cause record that entered xs0 to xs4
(R359). -/
structure Held where
  k0 : W32
  priv : BitVec 2
  lbase : W64
  lane : Bool
  widx : Nat
  both : Bool
  cause : Nat
  queue : List Clause
  record : List W64
  deriving DecidableEq, Repr

/-- What a path waits for beyond the counters, flags and clauses of R97. -/
inductive PWait where
  | none
  | join                       -- at the warp's reconvergence JOIN (R106)
  | exit                       -- at an EXIT that ends the warp (R109)
  | bar (pc : W64) (n : Nat)   -- at a BAR or LBAR while the warp is diverged (R157), with its arrival count
  | phase (level : Bool) (n : Nat)   -- for the phase of named barrier n, or of the level barrier of scope n
  deriving DecidableEq, Repr

/-- A tensor record (R177). -/
structure TRec where
  base : Nat
  space : Nat
  esize : Nat
  rank : Nat
  pod : Nat
  dims : List Nat
  strides : List Int
  deriving DecidableEq, Repr

/-- The forms of shuttle operation (R180). -/
inductive ShKind where
  | copy | fill | gather
  deriving DecidableEq, Repr

/-- One operation of a shuttle batch (R180): the selected parts of the records copied out of their slots, the fill
value or the index of the row in progress, the index offset, the number of elements, the elements transferred so
far, whether the whole source is taken before any element is written (R181, memmove) and what has been taken, the
number below which the path's earlier operations lie (R182), the page fault that the engine waits on, whether the
issuing path was at user level, the pages whose elements stay unwritten (R343), the number of rows whose index has been
read (R180), whether a record lay on another module when the operation was issued (R182), the granules of other modules
that have arrived, with their bytes and poison, the bytes written so far of each destination granule as bits 0 to 63, with
bit 64 for poison (R152), the scratchpad bytes read so far, each read once, with their poison (R164), and the bytes that
wait for the packet of their granule (R401). -/
structure ShOp where
  kind : ShKind
  dst : TRec
  src : TRec
  value : W64
  start : Nat
  total : Nat
  done : Nat
  whole : Bool
  taken : List (Option (Nat × Bool))
  mark : Nat
  stall : Bool
  user : Bool
  skip : List Nat
  rows : Nat
  far : Bool
  inGran : List Nat
  inbox : List Host.Cell
  inPois : List Nat
  cover : FMap Nat
  seen : FMap (Byte × Bool)
  obuf : List Host.Cell
  deriving DecidableEq, Repr

/-- The spin check of a path (R233): the branch last taken, how often in a row, and the registers then. -/
structure Spin where
  branch : W64
  count : Nat
  x : FMap W64
  k : FMap W32
  deriving DecidableEq, Repr

/-- The lane instruction that a path issued last (R410): clause address, word index and effective mask. -/
structure LastLane where
  addr : W64
  widx : Nat
  act : W32
  deriving DecidableEq, Repr

/-- One path of a warp (R16). `synced` holds the address of a BAR.SYNC or LBAR.SYNC whose arrival has been made and
whose wait has not ended (R156), `issued` that of the S-stream instruction issued last (R410). `pend` is the trap
that enters next and `more` those that wait behind it, in the order in which they were raised (R192). `read` holds the record
that a LAUNCH has read and that waits for a place in the function's queue (R117). -/
structure Path where
  live : Bool
  pc : W64
  issued : W64
  lbase : W64
  priv : BitVec 2
  x : FMap W64
  k : FMap W32
  age : List AgeEntry
  queue : List Clause
  nextSeq : Nat
  batch : List ShOp
  wait : PWait
  stopped : Bool
  held : Option Held
  pend : Option Trap
  more : List Trap
  spin : Spin
  demoted : Bool
  residue : Bool
  dropPkt : Bool
  last : Option LastLane
  synced : Option W64
  read : Option (List Byte)
  deriving DecidableEq, Repr

/-- One entry of the divergence stack (R105). -/
structure DEntry where
  jaddr : W64
  mask : W32
  state : Bool
  path : Bool
  toff : BitVec 13
  deriving DecidableEq, Repr

/-- A line of the register cache (R39). -/
structure Line where
  data : Lanes
  dirty : Bool
  deriving DecidableEq, Repr

/-- A live named vector register: its tag, its line when resident (otherwise its value lies in the context
slot), the lanes marked poisoned, and the marks that its copy in the slot carries (R413). A dead register is not listed. -/
structure VReg where
  tag : Fmt
  line : Option Line
  pois : W32
  slot : W32
  deriving DecidableEq, Repr

/-- Kernel warps, supervisor slots and patrol-core firmware (R32, R188, R197). -/
inductive WKind where
  | kernel | supervisor | patrol
  deriving DecidableEq, Repr

/-- R230: the state of a resident warp, and the states off the core. `idle` is the supervisor slot between
records (R197). -/
inductive WSt where
  | ready | rink | blocked | parked | saved | ended | idle
  deriving DecidableEq, Repr

/-- A warp's context (R16, R35, R36) and what the core, the core pair and the block's entry hold for it:
NIDEM (R239), restore state (R240), the watchdog limit (R203), the private high-water mark (R250), PEND and APH
of the named barriers (R156) and of the four level barriers (R159) with their values at the last mark (R240),
a save in progress (R356), a run-on to the next mark (R239), a decision taken to save it as it stands (R239), a context
that must be loaded again (R32), a park on a context fault (R36), the path of a double fault (R194), a header that
has yet to be written to the slot (R38), and the warp whose CTXFL or CTXLD holds this one stopped (R202). -/
structure Warp where
  kind : WKind
  st : WSt
  die : Nat
  core : Nat
  slot : Nat
  fn : Nat
  launch : Nat
  block : Nat
  idx : Nat
  gwi : Nat
  vregs : Nat
  reqtag : Nat
  prio : Nat
  a : Path
  b : Path
  div : Bool
  recon : W64
  dstack : List DEntry
  markv : Bool
  markAddr : W64
  wdc : Nat
  wdlim : Nat
  wmode : W64
  xs : FMap W64
  regs : FMap VReg
  hot : List Nat
  hwm : Nat
  nidem : Bool
  restore : Bool
  pend : W32
  aph : W32
  lpend : BitVec 4
  laph : BitVec 4
  mpend : W32
  maph : W32
  mlpend : BitVec 4
  mlaph : BitVec 4
  saving : Bool
  runOn : Bool
  decided : Bool
  reload : Bool
  parkCtx : Bool
  dblPath : Bool
  unborn : Bool
  frozen : Option Nat
  primed : Bool
  since : Nat
  deriving DecidableEq, Repr

/-! ## Outstanding operations (R29, R30, R147, R164, R179) -/

/-- The spaces a lane instruction names (R144). -/
inductive Space where
  | sp | gs | dm | pv
  deriving DecidableEq, Repr

/-- The lane memory forms. `atom` carries opcode − 0x110 (R150, R400). -/
inductive MemKind where
  | load | store | atom (oper : Nat) | tload
  deriving DecidableEq, Repr

/-- One access of one lane: the byte address at its home (a scratchpad offset for .sp), its size in bytes, the
bit position of the value in the lane word, the nibble of a 4-bit element, the value width, the operands of a
store or atomic, and the module of the home. -/
structure LaneAcc where
  lane : Nat
  addr : Nat
  size : Nat
  shift : Nat
  nib : Nat
  width : Nat
  data : W32
  data2 : W32
  module : Nat
  deriving DecidableEq, Repr

/-- An outstanding LD, ST, LDT or ATOM: `left` holds the lanes not yet performed or accepted into the bobbin,
`wire` the lanes whose packets await their response, `got` the lane words that have arrived, `hold` the granules on the wire
that the core's L1 may hold when they come (R254). -/
structure LaneMem where
  kind : MemKind
  space : Space
  block : Nat
  fmt : Fmt
  signed : Bool
  dst : Option Nat
  act : W32
  accs : List LaneAcc
  left : W32
  wire : W32
  got : Lanes
  ord : Nat
  scope : Scope
  clause : Nat
  vpage : List Nat
  hold : List Nat
  deriving DecidableEq, Repr

/-- The sequencer record of an MMA (R173). `metered` is the first step whose MACs are not counted yet (R398), `seen` the
scratchpad bytes that the sequencer has read so far, each read once (R164). -/
structure SeqRec where
  ctl : W64
  opa0 : W64
  opa1 : W64
  opb0 : W64
  opb1 : W64
  fblk : List Byte
  step : Nat
  z : Bool
  path : Bool
  metered : Nat
  seen : FMap Byte
  deriving DecidableEq, Repr

/-- An outstanding ACC.DRAIN (R168): its descriptor, the first destination and the mask k0 at issue. -/
structure Drain where
  bank : Nat
  row0 : Nat
  nrows : Nat
  zafter : Bool
  dst : Nat
  mask : W32
  deriving DecidableEq, Repr

/-- An outstanding AMV or AMV.T (R175): the region and tile, the input offset and scale, the target bank,
the compensation copy chosen at issue, and the inputs read so far, each read once (R164). -/
structure AmvOp where
  transposed : Bool
  region : Nat
  tile : Nat
  inOff : Nat
  isc : W32
  bank : Nat
  copy : Nat
  seen : FMap Byte
  deriving DecidableEq, Repr

/-- An outstanding collective (R183 to R185), with the page fault that its engine waits on, the pages whose
elements stay unwritten (R343), the granules of other modules that have arrived, and whether the destination has
been written. -/
structure CollOp where
  form : Nat
  group : Nat
  rank : Nat
  oper : Nat
  fmt : Nat
  inst : Nat
  user : Bool
  skip : List Nat
  stall : Bool
  inGran : List Nat
  inbox : List Host.Cell
  inPois : List Nat
  wrote : Bool
  dst : TRec
  src : TRec
  deriving DecidableEq, Repr

/-- What an outstanding operation is. `pois` is a POISON, or an INJECT of kind 1, on granules of other modules: its range,
the packets still to be sent and those not yet acknowledged, by granule. -/
inductive OpBody where
  | mem (m : LaneMem)
  | mma (m : SeqRec) (banks : List Nat)
  | zero (banks : List Nat)
  | drain (d : Drain) (bank : Nat)
  | amv (a : AmvOp) (bank : Nat)
  | batch (items : List ShOp)
  | coll (c : CollOp)
  | pois (va n : Nat) (todo wire : List Nat)
  deriving DecidableEq, Repr

/-- An outstanding operation, in issue order in `State.ops`: its number, the warp that issued it, the paths that
count it (R31), the flag it names (R29), the block whose scratchpad it uses, and its body. -/
structure Op where
  id : Nat
  warp : Nat
  block : Nat
  ownA : Bool
  ownB : Bool
  flag : Option Nat
  body : OpBody
  deriving DecidableEq, Repr

/-! ## Blocks, banks and launches -/

/-- BSTATE (R156). -/
structure Bar where
  expect : Nat
  arrived : Nat
  phase : Bool
  deriving DecidableEq, Repr

/-- An allocated accumulator bank (R166): its block, the band size code, the claimed bands with their claimants,
the positions that do not hold +0, keyed by 32 × row + column, and the poisoned granules, 2 × row + half (R409, R412). A FREE
bank is not listed. -/
structure Bank where
  block : Nat
  band : Nat
  claims : FMap Nat
  vals : FMap W32
  pois : List Nat
  deriving DecidableEq, Repr

/-- A warp's entry in the block save image (R362). -/
structure WEntry where
  pend : W32
  aph : W32
  cntA : List Nat
  cntB : List Nat
  status : Nat
  nidem : Bool
  held : Bool
  wdlim : Nat
  hwm : Nat
  hoff : Nat
  deriving DecidableEq, Repr

/-- The block save image (R359 to R362), less what the block itself keeps holding. -/
structure Image where
  vdie : Nat
  banks : FMap Bank
  entries : FMap WEntry
  nheld : Nat
  size : Nat
  deriving DecidableEq, Repr

/-- A placed or saved block (R227, R228, R356). `order` is its place among placements, `seqs` the records of its stopped
MMAs by number, each with its operation (R173). -/
structure Block where
  launch : Nat
  index : Nat
  die : Nat
  pair : Nat
  placed : Bool
  saving : Bool
  order : Nat
  sp : List Host.Cell
  spPois : List Nat
  bars : FMap Bar
  recs : FMap TRec
  seqs : FMap (Nat × SeqRec)
  img : Option Image
  deriving DecidableEq, Repr

/-- The fields of a launch record (R221). `resv` says that a reserved bit is not zero. -/
structure LaunchRec where
  entry : Nat
  lbase : Nat
  ptab : Nat
  ctxb : Nat
  vregs : Nat
  tag : Nat
  prio : Nat
  repro : Bool
  gang : Bool
  affinity : Nat
  bwarps : Nat
  gridx : Nat
  gridy : Nat
  gridz : Nat
  lastmask : Nat
  spbytes : Nat
  nbar : Nat
  seed : Nat
  pvlimit : Nat
  pvbase : Nat
  pvhwm : Nat
  done : Nat
  pre : List Nat
  gates : List (Nat × Nat)
  resv : Bool
  deriving DecidableEq, Repr

/-- The life of a launch (R224, R225). -/
inductive LSt where
  | queued | admitted | refused | ended | purged
  deriving DecidableEq, Repr

/-- A launch: its identifier, function, record, submission order, the descriptor it was admitted under (R335),
its state and cause, the gate table in force (R223), the blocks of each die placed so far, the saved blocks that
wait to resume (R229), the blocks ended normally, TADM, the fate of its completion record (R225, R226) and the
level barriers (R159) keyed by 4096 × scope + instance. -/
structure Launch where
  id : W64
  fn : Nat
  dev : Bool
  lrec : LaunchRec
  sub : Nat
  xd : XlateDesc
  st : LSt
  cause : Nat
  gate : List (Nat × Nat)
  placedN : List Nat
  back : List Nat
  endedN : Nat
  tadm : Nat
  recWritten : Bool
  recWaits : Bool
  lbars : FMap Bar
  deriving DecidableEq, Repr

/-! ## Functions and fault queues (R320 to R345) -/

/-- What a fault record waits for (R344, R345). -/
inductive Subject where
  | warp (uid : Nat)
  | engine (op item : Nat)
  | doneRec (launch : Nat)
  | shared (leaf uid : Nat)
  | trec (uid : Nat) (path : Bool)
  | trapEntry (uid : Nat) (path : Bool)
  | none
  deriving DecidableEq, Repr

/-- A fault record (R344). -/
structure FRec where
  cause : Nat
  orig : Nat
  flags : Nat
  code : Nat
  va : W64
  addr : W64
  slot : Nat
  core : Nat
  die : Nat
  tag : Nat
  fn : Nat
  pc : W64
  data : W64
  subj : Subject
  deriving DecidableEq, Repr

/-- A function: FSTAT, HVEC and the launch-ring registers (R321), the translation descriptor (R335), the launch
sequence numbers (R118, R322), guest time (R332, R333) with the values held until APPLY (R334), its fault queue
(R344), its partition (R388), its region grants (R374) as (handle, region), the handles it has held, and the
MSI-X vectors raised to it (R320). -/
structure Func where
  enabled : Bool
  ready : Bool
  qerr : Bool
  qcause : Nat
  gterr : Bool
  clr : Bool
  seqx : Bool
  fqerr : Bool
  hvec : W64
  lqbase : W64
  lqEn : Bool
  lqLog2 : Nat
  lqHead : Nat
  lqTail : Nat
  xd : XlateDesc
  devSeq : Nat
  hostSeq : Nat
  gtOff : W64
  gtMul : W64
  newOff : W64
  newMul : W64
  gtMode : Bool
  gtStop : Bool
  gtFrozen : W64
  gtLast : W64
  fqNext : Nat
  fqWait : List FRec
  fqOut : List (Nat × FRec)
  wdlim : Nat
  part : Nat
  grants : List (Nat × Nat)
  oldHandles : List Nat
  vectors : List Nat
  deriving DecidableEq, Repr

/-! ## Cores -/

/-- A line of a core's L1 cache (R254): the owning warp of a .pv line, the home address divided by 128, the virtual
pages through which it was fetched (R201), the 128 bytes, the poison bits of its two granules, and the granules held, as
bits: lines of other modules come granule by granule (R401). -/
structure L1Line where
  core : Nat
  owner : Option Nat
  line : Nat
  vpages : List Nat
  data : List Byte
  pois : Nat
  grans : Nat
  deriving DecidableEq, Repr

/-- A TLB entry (R342): the unit that holds it (a core, or 65536 + an engine), ASID, VMID, the page number, the
two words of the leaf, the first word of the stage-2 leaf for a VF, the home address of the page after both stages, and the
partition that it was filled for (R393). -/
structure TlbEntry where
  unit : Nat
  asid : Nat
  vmid : Nat
  vpage : Nat
  w0 : Nat
  w1 : Nat
  w2 : Nat
  home : Nat
  part : Nat
  deriving DecidableEq, Repr

/-- The supervisor slot of a core (R197): the address of its own handler table, its context base (R383), the records that
wait and the record in progress. Its context is a warp of the state. -/
structure Sup where
  table : W64
  base : W64
  queue : List FRec
  cur : Option FRec
  deriving DecidableEq, Repr

/-- An entry of the replay queue with its operands (R411). -/
structure Replay where
  warp : Nat
  path : Bool
  addr : W64
  widx : Nat
  act : W32
  srcs : List Lanes
  deriving DecidableEq, Repr

/-- A shuttle or collective engine (R393): the operation that it serves, as (operation, item of a batch), and the partition
that it served last. -/
structure Engine where
  op : Nat
  item : Nat
  part : Nat
  deriving DecidableEq, Repr

/-- The core-local structures of the module: L1 lines, TLB entries, supervisor slots and replay queues keyed by
core (128 × virtual die + core), and the engines by their TLB's unit. -/
structure Cores where
  l1 : List L1Line
  tlb : List TlbEntry
  sups : FMap Sup
  replay : FMap (List Replay)
  engines : FMap Engine
  deriving DecidableEq, Repr

/-- A physical site (R2, R3): SD present, array dies, the cores that its fuses disable, and those disabled by an
evacuation, until the next cold start (R417). -/
structure Site where
  present : Bool
  sd : Bool
  ad : Nat
  off : List Nat
  gone : List Nat
  deriving DecidableEq, Repr

/-! ## Power (R375 to R387) -/

/-- CLSTAT.STATE (R378), less ABSENT, which is computed from the enabled cores. -/
inductive CSt where
  | run | quiescing | quiesced | clkoff | railoff | railup | reset
  deriving DecidableEq, Repr

/-- A retention image (R383): its sequence number, the cores that the enable mask leaves out, the redundancy repair, the
clock trims and FSEL, the context bases of the supervisor slots, and its CRC-32C. -/
structure RetImage where
  seq : Nat
  off : List Nat
  repair : W64
  trims : W64
  fsel : Nat
  bases : List W64
  crc : Nat
  deriving DecidableEq, Repr

/-- A core cluster (R377 to R383), with the redundancy repair of its SRAM arrays, its clock trims, and whether an image has
failed its check since the cold start (R384). -/
structure Cluster where
  st : CSt
  clkReq : Bool
  railReq : Bool
  autowake : Bool
  fsel : Nat
  clkAck : Bool
  railGood : Bool
  err : Bool
  img : Option RetImage
  seqReg : Nat
  fresh : Bool
  repair : W64
  trims : W64
  failed : Bool
  deriving DecidableEq, Repr

/-- The patrol core of a site: RETSAVE's count (R207), WAKE.REQ (R385), halted (R208), stopped by a double
fault (R194). -/
structure Patrol where
  retSeq : Nat
  wake : BitVec 4
  halted : Bool
  dead : Bool
  deriving DecidableEq, Repr

/-- Clusters keyed by 4 × site + cluster, patrol cores by site. -/
structure Power where
  clusters : FMap Cluster
  patrol : FMap Patrol
  deriving DecidableEq, Repr

/-! ## Arrays (R273 to R285, R367 to R374) -/

/-- R370. -/
inductive RSt where
  | empty | programming | verifying | calibrating | inService | offline | damaged
  deriving DecidableEq, Repr

/-- A tile: the weights other than 0 that its cells read back as, keyed by 1024 × row + column (R273), how often it has
been rewritten (R371), the weights from which its probe signatures were computed (R371, R372), the current copy, whether a
copy has been published, whether a fit has been published since calibration began, whether its probe is due, whether a probe
forces a refit (R372), its place among the tiles of the site, which says where its two compensation copies and its signatures
lie in the firmware's memory (R282, R373, log entry 85), and the copies (R176). -/
structure Tile where
  w : FMap Int
  tries : Nat
  sigs : Option (FMap Int)
  cur : Nat
  published : Bool
  fitted : Bool
  due : Bool
  refit : Bool
  store : Nat
  c0 : CompCopy
  c1 : CompCopy
  deriving DecidableEq, Repr

/-- A region (R274): site, slices, state (R370), whether a request for it is in progress (R367), the state it enters once
its AMVs have retired (R284), tiles keyed by 256 × RSL + CSL, of which the places are the tile list (R369), the FP32 column
scales, the staged request with its tiles and scales (R368), and the scale destinations of its grants. -/
structure Region where
  site : Nat
  rs : Nat
  cs : Nat
  st : RSt
  busy : Bool
  leaving : Option RSt
  tiles : FMap Tile
  scales : FMap W32
  staged : Option ProgramReq
  image : FMap Tile
  imScales : FMap W32
  dests : List (Nat × Nat)
  deriving DecidableEq, Repr

/-- A journal entry (R369). -/
structure JEntry where
  seq : Nat
  region : Nat
  phase : Nat
  stage : Nat
  digest : List Byte
  deriving DecidableEq, Repr

/-- A request for a region (R367), with the handle that firmware chooses for a GRANT (R374). -/
inductive ArrayReq where
  | program (r : ProgramReq)
  | offline
  | online
  | grant (fn dest handle : Nat)
  | revoke (fn : Nat)
  | free
  deriving DecidableEq, Repr

/-- The arrays of the module: regions by number, the journal of each site, its last SEQ, the stored digests of programmed
tiles keyed by 65536 × region + tile, the requests that wait, in the order of their arrival, by region (R367), and the last
response: its status, and the handle that a GRANT returned (R374). -/
structure Arrays where
  regions : FMap Region
  journal : FMap (List JEntry)
  jseq : FMap Nat
  digests : FMap (List Byte)
  queue : List (Nat × ArrayReq)
  status : Option Nat
  handle : Option Nat
  deriving DecidableEq, Repr

/-! ## Fabric (R400 to R408) -/

/-- A packet in the bobbin (R403): whether it has been sent, whether the last response was REJECT, the route it
went by, and the lane operation or engine operation it serves. -/
structure BEntry where
  pkt : Packet
  sent : Bool
  rejected : Bool
  route : Nat
  op : Option Nat
  warp : Nat
  path : Bool
  lanes : W32
  deriving DecidableEq, Repr

/-- A receiver's sequence window (R404): BASE and the applied entries with the words an ATOMIC returned. -/
structure Window where
  base : Nat
  ents : FMap (List W32)
  deriving DecidableEq, Repr

/-- A route-table entry (R405), with the routes that have failed for want of an answer (R406). -/
structure Route where
  pri : Nat
  pv : Bool
  alt1 : Nat
  a1v : Bool
  alt2 : Nat
  a2v : Bool
  cur : Nat
  failed : List Nat
  deriving DecidableEq, Repr

/-- A granule of another module that has come for a core's or the device's own read (0 for the device, 2^64 for the
walkers), or the loss of its READ (R408). -/
structure FarGran where
  warp : Nat
  gran : Nat
  data : List Byte
  pois : Bool
  lost : Bool
  deriving DecidableEq, Repr

/-- An element that the module's gateway has sent to another pod (R177, R395): the pod, the partition bound there, the
address in its space, the bytes, and whether they are poisoned. -/
structure PodElem where
  pod : Nat
  part : Nat
  va : Nat
  data : List Byte
  pois : Bool
  deriving DecidableEq, Repr

/-- The module's side of the fabric: the bobbin, the next SEQ per (destination, class) keyed by 4 × module +
class, windows per (source, class), routes per destination, the ports whose link is down, the ports' error
counts, the times of the CRC failures at each port within the last microsecond (R409), the packets handed to the links,
latest first, the granules that have come for reads of the cores and the device, and the elements handed to the gateway,
latest first. -/
structure Fabric where
  bobbin : List BEntry
  seqs : FMap Nat
  windows : FMap Window
  routes : FMap Route
  down : List Nat
  errs : FMap Nat
  crcs : FMap (List Nat)
  out : List Packet
  inbox : List FarGran
  away : List PodElem
  deriving DecidableEq, Repr

/-! ## Partitions and meters (R388 to R399) -/

/-- A partition on this module: meters 0 to 12 (R398), snapshots taken (R399), weights (R396, R397), groups
(R394) as lists of (module, function), pod bindings (R395), the collective instances begun per group and rank. -/
structure Part where
  meters : FMap Nat
  snaps : Nat
  wdm : Nat
  wsh : Nat
  wan : Nat
  ports : FMap Nat
  groups : FMap (List (Nat × Nat))
  binds : FMap Nat
  begun : FMap Nat
  deriving DecidableEq, Repr

/-- The partitions of the module, the owner of each cluster (4 × site + cluster), page (2 MiB page number) and
port, the FINAL snapshots of destroyed partitions, the last snapshot read, and the last response status. What
is not listed belongs to partition 0. `farTags` holds the tags of pages of other modules by page number, as their modules keep
them (R389), and `job` the CLUSTER request in progress, as (partition, die, cluster) (R392). -/
structure Parts where
  parts : FMap Part
  clusters : FMap Nat
  pages : FMap Nat
  portOwn : FMap Nat
  finals : FMap (List Byte)
  snapshot : Option (List Byte)
  status : Option Nat
  farTags : FMap Nat
  job : Option (Nat × Nat × Nat)
  deriving DecidableEq, Repr

/-! ## Hotness, reliability, host interface -/

/-- A hotness counter (R350). -/
structure HotCtr where
  port : Nat
  part : Nat
  page : Nat
  src : Nat
  reads : Nat
  writes : Nat
  deriving DecidableEq, Repr

/-- Per-master fields of OWNCTL (R326). -/
structure Master where
  cmd : Nat
  last : Nat
  deriving DecidableEq, Repr

/-- The management interface's ownership (R324): the owner, the open offer's target, OWNCTL.TARGET and the masters'
fields (R326). -/
structure Own where
  owner : Nat
  offer : Option Nat
  target : Nat
  masters : FMap Master
  deriving DecidableEq, Repr

/-- An EVICT that waits for the answers of other modules (R353). -/
structure EvictJob where
  fn : Nat
  entry : Nat
  leaf : Nat
  home : Nat
  bus : Nat
  waits : List Nat
  deriving DecidableEq, Repr

/-- A MOVE in progress (R351), or another copy of a page that firmware makes part by part: a page that comes back from the host
to a home of another module (R352), or a duplicate (R351), whose `entry` is 64 more: the request, the leaves that name the
page with the RES that each had, the physical pages, the parts still to copy, and whether the packets of the part in progress
have been sent to another module. -/
structure MoveJob where
  fn : Nat
  entry : Nat
  leaves : List (Nat × Nat)
  src : Nat
  dst : Nat
  todo : List Nat
  sent : Bool
  deriving DecidableEq, Repr

/-- The host interface and the module-wide registers: ownership, VFCLR (R330), VF Enable, the time base
(R332), pages freed and not yet zeroed (R329), evictions, moves and other copies of pages in progress (R351 to R353), the device
home kept for each leaf whose page the host owns (R353), the virtual dies on which a remapping has stopped dispatch
(R365), the last status of a management request, the corrected-error counts per core pair (R416), hotness counters and
the keys proposed in the epoch, as (port, partition, page, source) (R350), the bytes of a virtual die's LPDDR that hold
block images (R359), the addresses of the device-local pools (R346), the duplicates that stand, as (page, copy) (R249),
the value that a management read returned last (R321), what the dies of other modules lack (R339), keyed by 4 × module +
die: 1 an SD, 2 the die, and the core pairs whose evacuation has begun, as 64 × virtual die + pair (R417). -/
structure Mgmt where
  own : Own
  vfBusy : List Nat
  zpend : Bool
  vfEnable : Bool
  tbRate : Nat
  tb : Nat
  freed : List Nat
  evicts : List EvictJob
  moves : List MoveJob
  copies : List MoveJob
  kept : FMap Nat
  remaps : List Nat
  status : Option Nat
  errors : FMap (FMap Nat)
  hot : List HotCtr
  hotTold : List (List Nat)
  imgRoom : Nat
  pools : List Nat
  dups : List (Nat × Nat)
  rdata : W64
  farDies : FMap Nat
  evac : List Nat
  deriving DecidableEq, Repr

/-! ## The module -/

/-- The path that an S-stream or lane instruction acts for (the model's own). -/
structure Cur where
  warp : Nat
  path : Bool
  deriving DecidableEq, Repr

/-- What may happen next (the model's own): an S-stream issue of a path, an action of its lane pipeline, an event
of the opcode table, the passage of time base ticks, 256 cycles of waiting (R235), the filling or dropping of a
TLB entry (R342), the eviction of a register line (R39, R5 (c)), one element of an operation of an open batch (R179), the
reading of one scratchpad operand byte by an MMA, AMV or AMV.T ahead of its step (R164), the reading of a granule of a
translation table at its home on another module by a walker, and its dropping (R340), what another module makes known of its
pages' tags (R389) and of its dies (R339), what the cells of a tile read back as (R371), the next request of a region (R367), a
request packet that finds the home queue full (R402), elements that another pod's gateway brings (R395), an error in a retained
image (R384), a
write of host memory by the host, a read of a management register (R321), and what firmware does at a start-up of its own:
it starts a patrol core's code (R327), places a supervisor slot's context and handler table (R197), and names a pool
(R346). -/
inductive Choice where
  | issue (warp : Nat) (path : Bool)
  | lane (warp : Nat) (path : Bool)
  | event (i : Instr)
  | tick (n : Nat)
  | waitTick (warp : Nat)
  | tlbFill (core warp : Nat) (va : Nat)
  | tlbDrop (index : Nat)
  | evictLine (warp reg : Nat)
  | openElement (warp : Nat) (path : Bool) (item : Nat)
  | spRead (op addr : Nat)
  | walkRead (fn gran : Nat)
  | walkDrop (gran : Nat)
  | farTag (page part : Nat)
  | farDie (module die lack : Nat)
  | cells (region tile : Nat) (w : FMap Int)
  | arrayServe (region : Nat)
  | homeFull (p : Packet)
  | gateway (part va : Nat) (bytes : List Byte) (pois : Bool)
  | retFlip (die cluster bit : Nat)
  | hostWrite (addr : Nat) (bytes : List Byte)
  | hostRead (master fn offset : Nat)
  | patrolBoot (die : Nat) (pc lbase : W64)
  | supContext (core : Nat) (base table : W64)
  | pool (addr : Nat)
  deriving DecidableEq, Repr

/-- The whole machine. -/
structure State where
  mem : List Host.Cell
  pois : List Nat
  warps : FMap Warp
  blocks : FMap Block
  banks : FMap Bank
  ops : List Op
  launches : FMap Launch
  funcs : FMap Func
  cores : Cores
  sites : FMap Site
  bind : FMap Nat
  power : Power
  arrays : Arrays
  fabric : Fabric
  parts : Parts
  mgmt : Mgmt
  next : Nat
  free : Nat
  cur : Cur
  turn : Nat
  agenda : List Choice
  deriving DecidableEq, Repr

/-! ## Reset -/

/-- R199: the watchdog limit of a function after start-up; the other fields as R321, R332 and R335 reset them. -/
def Func.reset (isPF : Bool) : Func :=
  { enabled := isPF, ready := isPF, qerr := false, qcause := 0, gterr := false, clr := false, seqx := false,
    fqerr := false, hvec := 0, lqbase := 0, lqEn := false, lqLog2 := 0, lqHead := 0, lqTail := 0,
    xd := { s1root := 0, asid := 0, vmid := 0, s2root := 0 }, devSeq := 1, hostSeq := 0, gtOff := 0,
    gtMul := BitVec.ofNat 64 ((10 ^ 6 * 2 ^ 32 * 2 + Config.tbRate) / (2 * Config.tbRate)),
    newOff := 0, newMul := BitVec.ofNat 64 ((10 ^ 6 * 2 ^ 32 * 2 + Config.tbRate) / (2 * Config.tbRate)),
    gtMode := false, gtStop := false, gtFrozen := 0, gtLast := 0, fqNext := 1, fqWait := [], fqOut := [],
    wdlim := Config.wdLimit, part := 0, grants := [], oldHandles := [], vectors := [] }

/-- A fully enabled site (R2). -/
def Site.full : Site := { present := true, sd := true, ad := 8, off := [], gone := [] }

/-- R378, R379, R383: a cluster after a cold start. The repair and the trims are given no value; log entry 115. -/
def Cluster.reset : Cluster :=
  { st := .run, clkReq := true, railReq := true, autowake := false, fsel := 0, clkAck := true, railGood := true,
    err := false, img := none, seqReg := 0, fresh := false, repair := 0, trims := 0, failed := false }

/-- R385, R207: a patrol core after a cold start. -/
def Patrol.reset : Patrol := { retSeq := 0, wake := 0, halted := false, dead := false }

/-- R397: the weights of a partition before QOS sets them are not given; log entry 7. -/
def Part.reset : Part :=
  { meters := [], snaps := 0, wdm := 1, wsh := 1, wan := 1, ports := [], groups := [], binds := [], begun := [] }

/-- R324, R330, R332: the management interface after a cold start. -/
def Mgmt.reset : Mgmt :=
  { own := { owner := 0, offer := none, target := 0, masters := [] }, vfBusy := [], zpend := false, vfEnable := false,
    tbRate := Config.tbRate, tb := 0, freed := [], evicts := [], moves := [], copies := [], kept := [], remaps := [],
    status := none, errors := [], hot := [], hotTold := [], imgRoom := Config.imageRoom, pools := [], dups := [], rdata := 0,
    farDies := [], evac := [] }

/-- The module when a cold start has run its last step (R327): a fully enabled K4, LPDDR zeroed, every cluster in
RUN, the virtual dies bound to the sites in order, the PF ready, no launch, no warp, no owner. -/
def State.reset : State :=
  { mem := [], pois := [], warps := [], blocks := [], banks := [], ops := [], launches := [],
    funcs := (List.range 64).map fun n => (n, Func.reset (n == 0)),
    cores := { l1 := [], tlb := [], sups := [], replay := [], engines := [] },
    sites := [(0, Site.full), (1, Site.full), (2, Site.full), (3, Site.full)],
    bind := [(0, 0), (1, 1), (2, 2), (3, 3)],
    power := { clusters := [], patrol := [] },
    arrays := { regions := [], journal := [], jseq := [], digests := [], queue := [], status := none, handle := none },
    fabric := { bobbin := [], seqs := [], windows := [], routes := [], down := [], errs := [], crcs := [], out := [], inbox := [],
                away := [] },
    parts := { parts := [(0, Part.reset)], clusters := [], pages := [], portOwn := [], finals := [],
               snapshot := none, status := none, farTags := [], job := none },
    mgmt := Mgmt.reset, next := 1, free := 0, cur := { warp := 0, path := false },
    turn := 0, agenda := [] }

end Sys2Proof.Machine
end

