-- ==== Sys2Proof/Machine/Mem.lean ====
section
/-! DEFINITION. Physical memory as one sparse table of bytes (R242, R243, R336): LPDDR at the address of R336,
flat SRAM frames from 2^48, host memory from 2^64; a byte that is not listed reads as zero (log entry 1). The
poison bits of 64-byte granules are a rising list of granule numbers (R152). -/

namespace Sys2Proof.Machine

/-- A byte of a table of cells. -/
def rdByte (m : List Host.Cell) (a : Nat) : Byte := fgetD 0 m a

/-- A table of cells with one byte written. -/
def wrByte (m : List Host.Cell) (a : Nat) (b : Byte) : List Host.Cell := fputD 0 m a b

/-- n bytes in ascending address order. -/
def rdBytes (m : List Host.Cell) (a : Nat) : Nat → List Byte
  | 0 => []
  | n + 1 => rdByte m a :: rdBytes m (a + 1) n

/-- Bytes written in ascending address order. -/
def wrBytes (m : List Host.Cell) (a : Nat) : List Byte → List Host.Cell
  | [] => m
  | b :: r => wrBytes (wrByte m a b) (a + 1) r

/-- R8: an n-byte little-endian value. -/
def rdLe (m : List Host.Cell) (a n : Nat) : Nat := leNat (rdBytes m a n)

/-- R8: an n-byte little-endian value written. -/
def wrLe (m : List Host.Cell) (a n v : Nat) : List Host.Cell := wrBytes m a (leBytes n v)

/-- The range zeroed. -/
def zeroRange (m : List Host.Cell) (a n : Nat) : List Host.Cell := m.filter fun c => !(a ≤ c.1 && c.1 < a + n)

/-- Bytes in a second table written into the first, one by one. -/
def overlay (m : List Host.Cell) : List Host.Cell → List Host.Cell
  | [] => m
  | c :: r => overlay (wrByte m c.1 c.2) r

/-- n bytes copied from a to b within one table (the ranges do not overlap). -/
def copyRange (m : List Host.Cell) (a b n : Nat) : List Host.Cell :=
  overlay (zeroRange m b n) ((m.filter fun c => a ≤ c.1 && c.1 < a + n).map fun c => (c.1 - a + b, c.2))

/-- The canonical form: addresses strictly rising, and no byte listed that holds what an unlisted one reads as. -/
abbrev memWf (m : List Host.Cell) : Bool := rising m && m.all fun c => c.2 != 0

/-! ## Poison (R152) -/

/-- The granule of an address. -/
def granule (a : Nat) : Nat := a / 64

/-- The granules that n bytes from a touch. -/
def granulesOf (a n : Nat) : List Nat :=
  if n = 0 then [] else (List.range (granule (a + n - 1) - granule a + 1)).map (granule a + ·)

/-- Whether any byte of a range lies in a poisoned granule. -/
def poisonedIn (p : List Nat) (a n : Nat) : Bool := p.any fun g => a < 64 * g + 64 && 64 * g < a + n

/-- A granule poisoned. -/
def addPois (p : List Nat) (g : Nat) : List Nat := ninsert p g

/-- A granule cleared. -/
def delPois (p : List Nat) (g : Nat) : List Nat := p.filter (· ≠ g)

/-- R152: a range written whole by one instruction or copy clears the granules it covers in full. -/
def clearCovered (p : List Nat) (a n : Nat) : List Nat := p.filter fun g => !(a ≤ 64 * g && 64 * g + 64 ≤ a + n)

/-- Poison moved with a range that moves. -/
def movePois (p : List Nat) (a b n : Nat) : List Nat :=
  let kept := p.filter fun g => !(granule b ≤ g && g < granule (b + n))
  ((p.filter fun g => granule a ≤ g && g < granule (a + n)).map fun g => g - granule a + granule b).foldl
    addPois kept

/-! ## Regions of the physical address space -/

/-- A page is 2 MiB (R251). -/
def pageSize : Nat := 2 ^ 21

/-- Where flat SRAM frames begin in the model's numbering. -/
def frameBase : Nat := 2 ^ 48

/-- Where host memory begins in the model's numbering. -/
def hostBase : Nat := 2 ^ 64

/-- The kind of storage at a physical address: 0 LPDDR, 1 frame, 2 host (R338). -/
def physKind (a : Nat) : Nat := if hostBase ≤ a then 2 else if frameBase ≤ a then 1 else 0

/-- The module that a physical address belongs to; host memory counts as the issuing module's. -/
def homeModule (a : Nat) : Nat :=
  match physKind a with
  | 0 => fld a 46 39
  | 1 => fld a 36 29
  | _ => Config.moduleNo

/-- The virtual die of a device address. -/
def homeDie (a : Nat) : Nat := if physKind a = 0 then fld a 38 37 else fld a 28 27

/-- R243: the frame number within the die. -/
def homeFrame (a : Nat) : Nat := fld a 26 21

/-- R338: the home page named by HOME (or RHOME) for a kind. -/
def homePage (kind home : Nat) : Nat :=
  match kind with
  | 0 => home % 2 ^ 26 * pageSize
  | 1 => frameBase + fld home 25 18 * 2 ^ 29 + fld home 17 16 * 2 ^ 27 + fld home 5 0 * pageSize
  | _ => hostBase + home % 2 ^ 43 * pageSize

/-- R338: the HOME value of a page's home address, the inverse of homePage. -/
def homeField (a : Nat) : Nat :=
  match physKind a with
  | 0 => a / pageSize % 2 ^ 26
  | 1 => homeModule a * 2 ^ 18 + homeDie a * 2 ^ 16 + homeFrame a
  | _ => (a - hostBase) / pageSize % 2 ^ 43

/-- R343: an access by a unit on the issuing module needs no packet. -/
def isLocal (a : Nat) : Bool := homeModule a = Config.moduleNo

/-- R282: a page of firmware's own memory. -/
def firmwareOwned (p : Nat) : Bool := physKind p = 0 && isLocal p && Config.firmwarePage ≤ p / pageSize % 65536

/-- The physical address of an LPDDR page of a virtual die of this module (R336). -/
def lpddrPage (die n : Nat) : Nat := Config.moduleNo * 2 ^ 39 + die * 2 ^ 37 + n * pageSize

/-- Slot n, of 256 KiB, of the firmware's own memory on a virtual die: the contexts of its cores' supervisor slots (0 to
127) and of its patrol core (128), and from 256 on the compensation copies (R282, R383; DESIGN CHOICE, log entry 85). -/
def fwSlot (die n : Nat) : Nat := lpddrPage die (Config.firmwarePage + 8192) + n * 2 ^ 18

/-- Where the probe signatures of a site's tile n lie, 1 MiB each (R373; DESIGN CHOICE, log entry 85). -/
def fwSig (die n : Nat) : Nat := lpddrPage die (Config.firmwarePage + 12288) + n * 2 ^ 20

/-- Where the staged copies of a site's images lie, in 24 GiB (R368; DESIGN CHOICE, log entry 85). -/
def fwStage (die : Nat) : Nat := lpddrPage die (Config.firmwarePage + 20480)

/-- R249: the address that a read by a unit of a die is served from: the copy on its die where one stands, else the home. -/
def fromCopy (s : State) (die a : Nat) : Nat :=
  match s.mgmt.dups.find? fun d => d.1 ≤ a && a < d.1 + pageSize && homeDie d.2 = die && isLocal d.2 with
  | some d => a - d.1 + d.2
  | none => a

end Sys2Proof.Machine
end

