-- ==== Sys2Proof/Machine/Xlate.lean ====
section
/-! DEFINITION. Translation (R335 to R342): capacities of the virtual dies (R3, R200), the malformed-entry
checks, the two-stage walk, and the TLBs. -/

namespace Sys2Proof.Machine

/-! ## What is present (R3, R200) -/

/-- The physical site that a virtual die is bound to, where it is present. -/
def siteOf (s : State) (die : Nat) : Option (Nat × Site) :=
  match fget s.bind die with
  | none => none
  | some n =>
    match fget s.sites n with
    | none => none
    | some t => if t.present then some (n, t) else none

/-- Whether a virtual die is harvested. -/
def harvested (s : State) (die : Nat) : Bool := (siteOf s die).isNone

/-- Whether a core of a virtual die is enabled. -/
def coreOn (s : State) (die core : Nat) : Bool :=
  match siteOf s die with
  | none => false
  | some (_, t) => core < 128 && !t.off.contains core && !t.gone.contains core

/-- R227: both cores of a core pair are enabled. -/
def pairOn (s : State) (die pair : Nat) : Bool := coreOn s die (2 * pair) && coreOn s die (2 * pair + 1)

/-- Enabled cores of a virtual die. -/
def coreCount (s : State) (die : Nat) : Nat := ((List.range 128).filter fun c => coreOn s die c).length

/-- R200: SD present on a virtual die. -/
def hasSd (s : State) (die : Nat) : Bool :=
  match siteOf s die with
  | none => false
  | some (_, t) => t.sd

/-- R224, check 5: the scratchpad capacity of a core pair. -/
def pairCapacity (s : State) (die : Nat) : Nat := if hasSd s die then 2 ^ 21 else 2 ^ 20

/-- R200: CAPD of a virtual die. A harvested die reads 0. -/
def capd (s : State) (die : Nat) : Nat :=
  match siteOf s die with
  | none => 0
  | some (_, t) =>
    let quads := ((List.range 32).filter fun q => (List.range 4).any fun c => coreOn s die (4 * q + c)).length
    coreCount s die + quads * 2 ^ 8 + b2n t.sd * 2 ^ 14 + (if t.sd then 1024 else 512) * 2 ^ 16 + t.ad * 2 ^ 32

/-! ## Entries (R337 to R339) -/

/-- R338: the permission and state fields of a leaf. -/
structure Leaf where
  w0 : Nat
  w1 : Nat
  deriving DecidableEq, Repr

/-- V. -/
def Leaf.v (l : Leaf) : Bool := bitAt l.w0 0
/-- R. -/
def Leaf.r (l : Leaf) : Bool := bitAt l.w0 1
/-- W. -/
def Leaf.w (l : Leaf) : Bool := bitAt l.w0 2
/-- X. -/
def Leaf.x (l : Leaf) : Bool := bitAt l.w0 3
/-- U. -/
def Leaf.u (l : Leaf) : Bool := bitAt l.w0 4
/-- SH. -/
def Leaf.sh (l : Leaf) : Nat := fld l.w0 6 5
/-- DUP. -/
def Leaf.dup (l : Leaf) : Bool := bitAt l.w0 7
/-- KIND. -/
def Leaf.kind (l : Leaf) : Nat := fld l.w0 9 8
/-- HS. -/
def Leaf.hs (l : Leaf) : Nat := fld l.w0 11 10
/-- HOME. -/
def Leaf.home (l : Leaf) : Nat := fld l.w0 63 16
/-- RES. -/
def Leaf.res (l : Leaf) : Nat := fld l.w1 31 0
/-- RV. -/
def Leaf.rv (l : Leaf) : Bool := bitAt l.w1 32
/-- RHOME. -/
def Leaf.rhome (l : Leaf) : Nat := fld l.w1 59 33

/-- What a die of another module is known to lack: 1 an SD, 2 the die itself. -/
def farLack (s : State) (a : Nat) : Nat := fgetD 0 s.mgmt.farDies (4 * homeModule a + homeDie a)

/-- R244, R339: the die of a home has no SD. -/
def homeNoSd (s : State) (a : Nat) : Bool := if isLocal a then !hasSd s (homeDie a) else farLack s a ≠ 0

/-- R248, R339: the die of a home is harvested. -/
def homeGone (s : State) (a : Nat) : Bool := if isLocal a then harvested s (homeDie a) else farLack s a = 2

/-- R339: a leaf is malformed. `guest` says that the entry is a stage-1 entry under stage 2, whose HOME is an
IPA page and whose KIND must be 0 (R338). A part marked present in a frame of a pair with a disabled core, which backs no
frame, is malformed like the parts of R244 that R339 names (DEDUCED, log entry 90). Of a home on another module the module
judges what the other has made known (log entry 90). -/
def leafBad (s : State) (l : Leaf) (stage2 guest : Bool) : Bool :=
  let home := homePage l.kind l.home
  let mine := homeModule home = Config.moduleNo
  fld l.w0 15 12 ≠ 0 || fld l.w1 63 60 ≠ 0 || l.kind = 3 || l.hs = 3 ||
  (l.w && l.x) || (l.w && !l.r) || (l.res ≠ 0 && l.hs ≠ 2) ||
  (l.kind = 2 && (l.hs ≠ 2 || l.res ≠ 2 ^ 32 - 1 || l.rv)) ||
  (guest && l.kind ≠ 0) ||
  (!guest && l.hs = 2 && l.kind = 1 && homeNoSd s home && fld l.res 31 16 ≠ 0) ||
  (!guest && l.hs = 2 && l.kind = 1 && mine && l.res ≠ 0 && !pairOn s (homeDie home) (homeFrame home)) ||
  (!guest && l.hs = 2 && l.kind ≤ 1 && homeGone s home) ||
  (stage2 && (l.hs ≠ 2 || l.res ≠ 2 ^ 32 - 1 || l.rv || l.sh ≠ 0))

/-- R337: the table that a level-0 or level-1 entry points to. -/
def nextTable (e : Nat) (ipa : Bool) : Nat :=
  let a := e / 4096 * 4096
  if !ipa && bitAt e 1 then hostBase + a else a

/-! ## The walk (R340) -/

/-- What an access does. -/
inductive Acc where
  | read | write | fetch
  deriving DecidableEq, Repr

/-- A failure: its cause, WALK, and the IPA recorded in ADDR (R341). -/
structure XFault where
  cause : Nat
  walk : Bool
  ipa : Nat
  deriving DecidableEq, Repr

/-- The reader that stands for the walkers of the module. -/
def walkReader : Nat := 2 ^ 64

/-- A granule of a translation table of another module that a walker has read. -/
def walkGran (s : State) (a : Nat) : Option FarGran :=
  s.fabric.inbox.find? fun f => f.warp = walkReader && f.gran = granule a

/-- R340: an entry of a table, read at its home: this module's memory, the host's, or what the walker has read of another
module. -/
def tblLe (s : State) (a n : Nat) : Nat :=
  if isLocal a then rdLe s.mem a n else (walkGran s a).elim 0 fun f => leNat ((f.data.drop (a % 64)).take n)

/-- R340: an entry is there to be read. -/
def tblHere (s : State) (a : Nat) : Bool := isLocal a || (walkGran s a).isSome

/-- The mark of a walk that waits for an entry of another module. It is no cause. -/
def walkWait : Nat := 2 ^ 12

/-- Stage 2's permission for an access; U is not checked. -/
def permOk (l : Leaf) : Acc → Bool
  | .read => l.r
  | .write => l.w
  | .fetch => l.x && l.r

/-- Stage 2: the device or host address of an IPA, and the leaf that maps it (R337, R340). -/
def stage2 (s : State) (d : XlateDesc) (ipa : Nat) (acc : Acc) (walk : Bool) : Except XFault (Nat × Leaf) :=
  let bad := fun c => Except.error { cause := c, walk := walk, ipa := ipa }
  let p0 := d.s2root + 8 * fld ipa 47 39
  let e0 := tblLe s p0 8
  let p1 := nextTable e0 false + 8 * fld ipa 38 30
  let e1 := tblLe s p1 8
  let t := nextTable e1 false + 16 * fld ipa 29 21
  let l : Leaf := { w0 := tblLe s t 8, w1 := tblLe s (t + 8) 8 }
  if 2 ^ 48 ≤ ipa then bad 0x70
  else if !tblHere s p0 then bad walkWait
  else if !bitAt e0 0 then bad 0x70
  else if fld e0 11 2 ≠ 0 then bad 0x72
  else if !tblHere s p1 then bad walkWait
  else if !bitAt e1 0 then bad 0x70
  else if fld e1 11 2 ≠ 0 then bad 0x72
  else if !tblHere s t then bad walkWait
  else if !l.v then bad 0x70
  else if leafBad s l true false then bad 0x72
  else if !permOk l acc then bad 0x71
  else .ok (homePage l.kind l.home + ipa % pageSize, l)

/-- The address of the stage-2 leaf of an IPA, where the upper tables reach it. -/
def stage2Leaf (s : State) (d : XlateDesc) (ipa : Nat) : Option Nat :=
  let e0 := tblLe s (d.s2root + 8 * fld ipa 47 39) 8
  let e1 := tblLe s (nextTable e0 false + 8 * fld ipa 38 30) 8
  if !bitAt e0 0 || !bitAt e1 0 then none else some (nextTable e1 false + 16 * fld ipa 29 21)

/-- A table address of stage 1 made physical: through stage 2 for a VF. -/
def tableAddr (s : State) (d : XlateDesc) (vf : Bool) (a : Nat) : Except XFault Nat :=
  if vf then
    match stage2 s d a .read true with
    | .ok (p, _) => .ok p
    | .error f => .error f
  else .ok a

/-- R389: the PTAG of the home at a physical address: the owner of the LPDDR page, or of the cluster whose frames hold it
(R388); for a page of another module the tag that its module has made known (DEDUCED, log entry 113). Host pages carry none,
and a page of firmware's own belongs to no partition (R282). -/
def ptagOf (s : State) (a : Nat) : Option Nat :=
  if physKind a = 2 then none
  else if !isLocal a then some (fgetD 0 s.parts.farTags (a / pageSize))
  else if firmwareOwned a then some 4096
  else if physKind a = 0 then some (fgetD 0 s.parts.pages (a / pageSize))
  else some (fgetD 0 s.parts.clusters (4 * (siteOf s (homeDie a)).elim 0 (·.1) + homeFrame a / 16))

/-- A request for one translation, for a function of partition `part`. `unit` names the TLB, `fill` a context fill
(R340), `kind` the kind that the
space needs, `anyOwner` an access that is made whatever the owner of a shared page (R272). -/
structure XReq where
  d : XlateDesc
  vf : Bool
  user : Bool
  acc : Acc
  fill : Bool
  kind : Option Nat
  unit : Nat
  part : Nat
  anyOwner : Bool := false
  deriving DecidableEq, Repr

/-- The outcome: the physical address; a fault; the leaf of a shared page owned by the host, which the walker
moves to MOVING (R352); or a page that is moving, for which the access waits. -/
inductive XRes where
  | ok (addr : Nat)
  | fault (f : XFault)
  | migrate (leaf : Nat)
  | moving
  deriving DecidableEq, Repr

/-- The checks of R340 once the leaf is known; the tag of the home comes last (R389). `leaf` is its address, for the move of
SH. -/
def leafChecks (s : State) (q : XReq) (va leaf : Nat) (l : Leaf) : XRes :=
  let n := fld va 20 16
  let bad := fun c => XRes.fault { cause := c, walk := false, ipa := 0 }
  if !l.v then bad 0x60
  else if leafBad s l false q.vf then bad 0x63
  else if q.acc = .fetch && !l.x then bad 0x65
  else if (q.acc ≠ .write && !l.r) || (q.acc = .write && !l.w) || (q.user && !l.u) then bad 0x61
  else if l.sh = 2 && !q.anyOwner then .migrate leaf
  else if l.sh = 3 && !q.anyOwner then .moving
  else if l.hs ≠ 2 || (!bitAt l.res n && !l.rv) then bad (if q.fill then 0x80 else 0x62)
  else
    let h := if bitAt l.res n then l.home else l.rhome
    let r := if q.vf then
        match stage2 s q.d (h % 2 ^ 27 * pageSize + va % pageSize) q.acc false with
        | .ok (a, _) => Except.ok a
        | .error f => .error f
      else .ok (homePage l.kind h + va % pageSize)
    match r with
    | .error f => if f.cause = walkWait then .moving else .fault f
    | .ok a =>
      if q.kind.any (· ≠ physKind a) then bad 0x32
      else if (ptagOf s a).getD q.part ≠ q.part then
        .fault { cause := if q.vf then 0x71 else 0x61, walk := false, ipa := if q.vf then h % 2 ^ 27 * pageSize + va % pageSize else 0 }
      else .ok a

/-- The address of the leaf of a VA by the stage-1 tables, or the fault on the way to it. -/
def findLeaf (s : State) (q : XReq) (va : Nat) : Except XFault Nat :=
  let bad := fun c => Except.error { cause := c, walk := false, ipa := 0 }
  match tableAddr s q.d q.vf (q.d.s1root + 8 * fld va 47 39) with
  | .error f => .error f
  | .ok p0 =>
    let e0 := tblLe s p0 8
    if !tblHere s p0 then bad walkWait
    else if !bitAt e0 0 then bad 0x60
    else if fld e0 11 2 ≠ 0 then bad 0x63
    else match tableAddr s q.d q.vf (nextTable e0 q.vf + 8 * fld va 38 30) with
    | .error f => .error f
    | .ok p1 =>
      let e1 := tblLe s p1 8
      if !tblHere s p1 then bad walkWait
      else if !bitAt e1 0 then bad 0x60
      else if fld e1 11 2 ≠ 0 then bad 0x63
      else match tableAddr s q.d q.vf (nextTable e1 q.vf + 16 * fld va 29 21) with
      | .error f => .error f
      | .ok p2 => if tblHere s p2 then .ok p2 else bad walkWait

/-- The leaf at an address. -/
def readLeaf (s : State) (a : Nat) : Leaf := { w0 := tblLe s a 8, w1 := tblLe s (a + 8) 8 }

/-- The walk of R340 by the current tables. An entry of another module is waited for (log entry 40). -/
def walk (s : State) (q : XReq) (va : Nat) : XRes :=
  if 2 ^ 48 ≤ va then .fault { cause := 0x60, walk := false, ipa := 0 }
  else match findLeaf s q va with
  | .error f => if f.cause = walkWait then .moving else .fault f
  | .ok a => leafChecks s q va a (readLeaf s a)

/-- R342: what a TLB entry gives for an access to a part that it holds as present at HOME: its home, or the fault of the
permissions and the kind as they are held; a grant made since takes a TLBI. -/
def tlbGives (q : XReq) (t : TlbEntry) (va : Nat) : XRes :=
  let l : Leaf := { w0 := t.w0, w1 := t.w1 }
  let bad := fun c => XRes.fault { cause := c, walk := false, ipa := 0 }
  if q.acc = .fetch && !l.x then bad 0x65
  else if (q.acc ≠ .write && !l.r) || (q.acc = .write && !l.w) || (q.user && !l.u) then bad 0x61
  else if q.vf && !permOk { w0 := t.w2, w1 := 0 } q.acc then
    .fault { cause := 0x71, walk := false, ipa := l.home % 2 ^ 27 * pageSize + va % pageSize }
  else match q.kind with
  | none => .ok (t.home + va % pageSize)
  | some k => if physKind t.home = k then .ok (t.home + va % pageSize) else bad 0x32

/-- R342: what the TLB entry of the unit, ASID, VMID and page gives; one of another partition gives nothing (R393). A part
that it does not hold as present walks. -/
def tlbHit (s : State) (q : XReq) (va : Nat) : Option XRes :=
  match s.cores.tlb.find? fun t => t.unit = q.unit && t.asid = q.d.asid && t.vmid = q.d.vmid &&
      t.vpage = va / pageSize && t.part = q.part with
  | none => none
  | some t => if bitAt t.w1 (fld va 20 16) then some (tlbGives q t va) else none

/-- Translation of one access (R340, R342). -/
def translate (s : State) (q : XReq) (va : Nat) : XRes :=
  match tlbHit s q va with
  | some r => r
  | none => walk s q va

/-- R342: the entry that a fill brings into a unit's TLB: the leaf's words, those of stage 2, and the page's home. Nothing
is held for a leaf that does not translate. -/
def tlbEntry (s : State) (q : XReq) (va : Nat) : Option TlbEntry :=
  match findLeaf s q va with
  | .error _ => none
  | .ok a =>
    let l := readLeaf s a
    if !l.v || leafBad s l false q.vf || 2 ≤ l.sh || l.hs ≠ 2 then none
    else
      let mk (w2 home : Nat) : Option TlbEntry :=
        if (ptagOf s home).getD q.part ≠ q.part then none
        else some ⟨q.unit, q.d.asid, q.d.vmid, va / pageSize, l.w0, l.w1, w2, home, q.part⟩
      if q.vf then
        match stage2 s q.d (l.home % 2 ^ 27 * pageSize) .read false with
        | .error _ => none
        | .ok (h, l2) => mk l2.w0 h
      else mk 0 (homePage l.kind l.home)

end Sys2Proof.Machine
end

