-- ==== Sys2Proof/Machine/MemOps.lean ====
section
/-! DEFINITION. What the access path does when the lanes of a load, store or atomic are performed (R146, R147,
R150 to R152), the L1 caches (R254 to R256) and poison. -/

namespace Sys2Proof.Machine

/-! ## Storage of a space -/

/-- The scratchpad cells of a block. -/
def spCells (s : State) (b : Nat) : List Host.Cell := (fget s.blocks b).elim [] (·.sp)

/-- The scratchpad poison of a block. -/
def spPoison (s : State) (b : Nat) : List Nat := (fget s.blocks b).elim [] (·.spPois)

/-- The cells that an access of a space reads and writes. -/
def cellsOf (s : State) (space : Space) (b : Nat) : List Host.Cell := if space = .sp then spCells s b else s.mem

/-- The poison of a space. -/
def poisOf (s : State) (space : Space) (b : Nat) : List Nat := if space = .sp then spPoison s b else s.pois

/-- The state with the cells and poison of a space replaced. -/
def setCells (s : State) (space : Space) (b : Nat) (m : List Host.Cell) (p : List Nat) : State :=
  if space = .sp then { s with blocks := fmod s.blocks b fun k => { k with sp := m, spPois := p } }
  else { s with mem := m, pois := p }

/-! ## L1 (R254) -/

/-- The granule of its line that an address lies in, 0 or 1. -/
def halfOf (a : Nat) : Nat := a % 128 / 64

/-- A line of a core that serves an access: a .pv line belongs to its warp. -/
def l1Match (core : Nat) (owner : Option Nat) (a : Nat) (l : L1Line) : Bool :=
  l.core = core && l.owner = owner && l.line = a / 128 && bitAt l.grans (halfOf a)

/-- R254: the line that a relaxed load hits. -/
def l1Find (s : State) (core : Nat) (owner : Option Nat) (a : Nat) : Option L1Line :=
  s.cores.l1.find? (l1Match core owner a)

/-- The lines of the module with those that satisfy p dropped. -/
def l1Drop (s : State) (p : L1Line → Bool) : State :=
  { s with cores := { s.cores with l1 := s.cores.l1.filter fun l => !p l } }

/-- A store or an atomic. -/
def storesOrAtom (m : LaneMem) : Bool :=
  match m.kind with
  | .store | .atom _ => true
  | _ => false

/-- The granules on their way to a core for loads that may hold them, less those that satisfy p (R254, R262). -/
def l1Unhold (s : State) (core : Nat) (p : Nat → Bool) : State :=
  { s with ops := s.ops.map fun o => match o.body with
      | .mem m => if (fget s.warps o.warp).any fun w => 128 * w.die + w.core = core
          then { o with body := .mem { m with hold := m.hold.filter fun g => !p g } } else o
      | _ => o }

/-- A granule on its way to a core that was asked for before this is not held. -/
def l1Stale (s : State) (core : Nat) : State := l1Unhold s core fun _ => true

/-- R255: a core drops every line other than .pv lines. -/
def l1DropCore (s : State) (core : Nat) : State := l1Stale (l1Drop s fun l => l.core = core && l.owner = none) core

/-- R255: the .pv lines of a warp are dropped. -/
def l1DropWarp (s : State) (uid : Nat) : State := l1Drop s fun l => l.owner = some uid

/-- R262: a core drops its line of a granule, and holds no copy of it that is on its way. -/
def l1Forget (s : State) (core g : Nat) : State :=
  l1Unhold (l1Drop s fun l => l.core = core && l.line = g / 2) core (· = g)

/-- R254: the line of an address fetched from its home. -/
def l1Fill (s : State) (core : Nat) (owner : Option Nat) (vp : List Nat) (a : Nat) : State :=
  let b := fromCopy s (core / 128) (a / 128 * 128)
  let l : L1Line := { core := core, owner := owner, line := a / 128, vpages := vp, data := rdBytes s.mem b 128,
                      pois := b2n (s.pois.contains (granule b)) + 2 * b2n (s.pois.contains (granule b + 1)),
                      grans := 3 }
  { s with cores := { s.cores with l1 := l :: s.cores.l1 } }

/-- R254: a store writes the issuing core's line when it is present. -/
def l1Write (s : State) (core a : Nat) (bytes : List Byte) : State :=
  let upd := fun (l : L1Line) =>
    if l.core = core && l.line = a / 128 then
      { l with data := (List.range 128).map fun i =>
          if a % 128 ≤ i && i < a % 128 + bytes.length then bytes.getD (i - a % 128) 0 else l.data.getD i 0 }
    else l
  { s with cores := { s.cores with l1 := s.cores.l1.map upd } }

/-- R152, R254: a granule of another module that a relaxed load has fetched is held in its line, with its poison. -/
def l1FillFar (s : State) (core : Nat) (owner : Option Nat) (vp : List Nat) (g : Nat) (bytes : List Byte) (bad : Bool) :
    State :=
  let mine := fun (l : L1Line) => l.core = core && l.owner = owner && l.line = g / 2
  let old := ((s.cores.l1.find? mine).elim (List.replicate 128 0) (·.data))
  let bits := (s.cores.l1.find? mine).elim 0 (·.grans)
  let l : L1Line := { core := core, owner := owner, line := g / 2,
                      vpages := dedup (vp ++ (s.cores.l1.find? mine).elim [] (·.vpages)),
                      data := if g % 2 = 0 then bytes.take 64 ++ old.drop 64 else old.take 64 ++ bytes.take 64,
                      pois := let p := (s.cores.l1.find? mine).elim 0 (·.pois)
                        if bitAt p (g % 2) = bad then p else if bad then p + 2 ^ (g % 2) else p - 2 ^ (g % 2),
                      grans := if bitAt bits (g % 2) then bits else bits + 2 ^ (g % 2) }
  { s with cores := { s.cores with l1 := l :: s.cores.l1.filter fun x => !mine x } }

/-- R152, R254: the mark of a granule in the issuing core's lines is cleared with the granule. -/
def l1Clear (s : State) (core g : Nat) : State :=
  { s with cores := { s.cores with l1 := s.cores.l1.map fun l =>
      if l.core = core && l.line = g / 2 && bitAt l.pois (g % 2) then { l with pois := l.pois - 2 ^ (g % 2) } else l } }

/-! ## Reads -/

/-- Whether an address lies in the slice of a core (R243). -/
def inSlice (die core a : Nat) : Bool :=
  physKind a = 1 && isLocal a && homeDie a = die && 2 * homeFrame a + a % pageSize % 2 ^ 20 / 512 % 2 = core

/-- R254: whether L1 may serve the accesses of a load: a relaxed LD of .gs, .dm or .pv. -/
def l1May (m : LaneMem) : Bool := m.kind = .load && m.ord = 0 && m.space ≠ .sp

/-- R254: the owner tag of a load's lines. -/
def l1Owner (uid : Nat) (m : LaneMem) : Option Nat := if m.space = .pv then some uid else none

/-- The bytes of one access, from the L1 line that holds them, from the copy on the core's die (R249) or from the home, and
whether they are poisoned. -/
def accRead (s : State) (core uid : Nat) (m : LaneMem) (a : LaneAcc) : Nat × Bool :=
  let b := if m.space = .sp then a.addr else fromCopy s (core / 128) a.addr
  let home := (rdLe (cellsOf s m.space m.block) b a.size, poisonedIn (poisOf s m.space m.block) b a.size)
  if l1May m then
    match l1Find s core (l1Owner uid m) a.addr with
    | some l => (leNat ((List.range a.size).map fun i => l.data.getD (a.addr % 128 + i) 0),
                 bitAt l.pois (halfOf a.addr))
    | none => home
  else home

/-- R146, R149: the part of the lane word that one access supplies. -/
def accValue (m : LaneMem) (a : LaneAcc) (raw : Nat) : Nat :=
  let v := raw / 2 ^ (4 * a.nib) % 2 ^ a.width
  if m.signed then intCode 32 (sext a.width v) else v * 2 ^ a.shift

/-- The lane word of a lane of a load, from the accesses of the lane. -/
def laneValue (s : State) (core uid : Nat) (m : LaneMem) (l : Nat) : W32 :=
  n32 ((m.accs.filter fun a => a.lane = l).foldl (fun t a => t + accValue m a (accRead s core uid m a).1) 0)

/-- R152: whether a lane of a set reads a poisoned granule. -/
def lanesPoisoned (s : State) (core uid : Nat) (m : LaneMem) (lanes : W32) : Bool :=
  m.accs.any fun a => lanes.getLsbD a.lane && (accRead s core uid m a).2

/-- R254: lanes whose bytes on other modules are all held in the core's L1. -/
def l1Lanes (s : State) (core uid : Nat) (m : LaneMem) (lanes : W32) : W32 :=
  maskOf fun l => lanes.getLsbD l && l1May m && m.accs.all fun a =>
    a.lane ≠ l || isLocal a.addr || (l1Find s core (l1Owner uid m) a.addr).isSome

/-- R254: the lines that the lanes of a load bring into L1 from the module's own homes. Lines of the core's own slice are
not held. -/
def l1FillLanes (s : State) (die core key uid : Nat) (m : LaneMem) (lanes : W32) : State :=
  if !l1May m then s
  else m.accs.foldl (fun t a =>
    if lanes.getLsbD a.lane && isLocal a.addr && !inSlice die core a.addr &&
        (l1Find t key (l1Owner uid m) a.addr).isNone
    then l1Fill t key (l1Owner uid m) m.vpage a.addr else t) s

/-! ## Writes -/

/-- R152: granules all of whose bytes the accesses of the instruction write together. -/
def coveredGranules (m : LaneMem) : List Nat :=
  (dedup (m.accs.map fun a => granule a.addr)).filter fun g =>
    64 ≤ ((m.accs.filter fun a => granule a.addr = g).map (·.size)).foldl (· + ·) 0

/-- One lane's bytes written at their home, and through the issuing core's L1 line. -/
def accWrite (s : State) (key : Nat) (m : LaneMem) (a : LaneAcc) : State :=
  let bytes := leBytes a.size a.data.toNat
  let t := setCells s m.space m.block (wrBytes (cellsOf s m.space m.block) a.addr bytes) (poisOf s m.space m.block)
  if m.space = .sp then t else l1Write t key a.addr bytes

/-- R262, R268: a lane's bytes sent to another module. The issuing core's line stays as it was filled until the store has
been performed (log entry 104); a copy of the granule that is on its way is not held. -/
def accSend (s : State) (key : Nat) (a : LaneAcc) : State := l1Unhold s key (· = granule a.addr)

/-- R146, R152: the lanes of a store performed, or on their way to another module; the granules that the store covers whole
are cleared once none of its lanes is left. `key` names the issuing core. -/
def performStore (s : State) (key : Nat) (m : LaneMem) (lanes : W32) : State :=
  let t := m.accs.foldl (fun t a =>
    if !lanes.getLsbD a.lane then t else if isLocal a.addr then accWrite t key m a else accSend t key a) s
  if m.left &&& ~~~ lanes = 0 then
    (coveredGranules m).foldl (fun t g =>
      let u := setCells t m.space m.block (cellsOf t m.space m.block) (delPois (poisOf t m.space m.block) g)
      if m.space = .sp then u else l1Clear u key g) t
  else t

/-- R150: the new word of an atomic, by opcode − 0x110. -/
def atomNew (oper : Nat) (fmt : Fmt) (old b c : W32) : W32 :=
  match oper with
  | 0 => old + b
  | 1 => if fmt = .i32 then (if old.toInt ≤ b.toInt then old else b) else (if old.toNat ≤ b.toNat then old else b)
  | 2 => if fmt = .i32 then (if old.toInt ≤ b.toInt then b else old) else (if old.toNat ≤ b.toNat then b else old)
  | 3 => old &&& b
  | 4 => old ||| b
  | 5 => old ^^^ b
  | 6 => b
  | 7 => if old = b then c else old
  | 8 => if old.toNat < b.toNat then old + 1 else old
  | _ => n32 (addOp .f32 rne (f32Val old) (f32Val b)).code

/-- R150, R151: one lane's read-modify-write, with the old word. -/
def accAtom (s : State) (key : Nat) (m : LaneMem) (oper : Nat) (a : LaneAcc) : State × W32 :=
  let cells := cellsOf s m.space m.block
  let old := n32 (rdLe cells a.addr 4)
  let new := atomNew oper m.fmt old a.data a.data2
  let t := setCells s m.space m.block (wrLe cells a.addr 4 new.toNat) (poisOf s m.space m.block)
  (if m.space = .sp then t else l1Drop t fun l => l.core = key && l.line = a.addr / 128, old)

/-- R151: the lanes of an atomic in ascending order, with the words that they return. -/
def performAtom (s : State) (key : Nat) (m : LaneMem) (oper : Nat) (lanes : W32) : State × Lanes :=
  m.accs.foldl (fun (t : State × Lanes) a =>
    if lanes.getLsbD a.lane && isLocal a.addr then
      let r := accAtom t.1 key m oper a
      (r.1, setAt t.2 a.lane r.2)
    else t) (s, m.got)

/-- The accesses of an instruction that lie on another module, by lane. -/
def remoteLanes (m : LaneMem) : W32 := maskOf fun l => m.accs.any fun a => a.lane = l && !isLocal a.addr && m.space ≠ .sp

/-- The accesses of an instruction that lie on the issuing module. -/
def localLanes (m : LaneMem) : W32 := m.act &&& ~~~ remoteLanes m

/-- Whether two operations touch a common byte of the same space and block. -/
def overlaps (m n : LaneMem) : Bool :=
  (m.space = .sp) = (n.space = .sp) && (m.space ≠ .sp || m.block = n.block) &&
    m.accs.any fun a => n.accs.any fun b => a.addr < b.addr + b.size && b.addr < a.addr + a.size

end Sys2Proof.Machine
end

