-- ==== Sys2Proof/Machine/Base.lean ====
section
/-! DEFINITION. The named operations over warps, paths and registers (R16, R33), and over what a warp belongs to: its
launch, block, function and partition. -/

namespace Sys2Proof.Machine

/-- The outcome of an instruction or a step. -/
abbrev Out := Host.Outcome State Fault Refusal

/-! ## Warps, paths and registers (R16, R33) -/

/-- A path of a warp. -/
def Warp.path (w : Warp) (pf : Bool) : Path := if pf then w.b else w.a

/-- A warp with a path replaced. -/
def Warp.setPath (w : Warp) (pf : Bool) (p : Path) : Warp := if pf then { w with b := p } else { w with a := p }

/-- A warp with a path changed. -/
def Warp.modPath (w : Warp) (pf : Bool) (f : Path → Path) : Warp := w.setPath pf (f (w.path pf))

/-- The state with a warp replaced. -/
def putWarp (s : State) (uid : Nat) (w : Warp) : State := { s with warps := fput s.warps uid w }

/-- The state with a warp changed, where it exists. -/
def modWarp (s : State) (uid : Nat) (f : Warp → Warp) : State := { s with warps := fmod s.warps uid f }

/-- The state with a function changed, where it exists. -/
def modFunc (s : State) (fn : Nat) (f : Func → Func) : State := { s with funcs := fmod s.funcs fn f }

/-- R16, R33: what a scalar register number reads as on a path. -/
def rx (w : Warp) (pf : Bool) (n : Nat) : W64 :=
  let p := w.path pf
  if n = 0 then 0
  else if 48 ≤ n && p.priv != 0 then fgetD 0 w.xs (n - 48)
  else fgetD 0 p.x n

/-- R12, R193: a value as a shadow register holds it: the reserved bits [23:17] of xs0 read 0. -/
def xsWord (n : Nat) (v : W64) : W64 := if n = 0 then v &&& ~~~ n64 (0x7F * 2 ^ 17) else v

/-- R233: demotion lifts when a register changes, and does not come back before the branch has been taken again. -/
def Path.lift (p : Path) (changed : Bool) : Path :=
  if changed then { p with demoted := false, spin := { p.spin with count := min p.spin.count 7 } } else p

/-- R16, R33: a scalar register written. A write to x0 is discarded. A changed register lifts demotion (R233). -/
def wx (w : Warp) (pf : Bool) (n : Nat) (v : W64) : Warp :=
  let p := w.path pf
  if n = 0 then w
  else if 48 ≤ n && p.priv != 0 then
    let u := xsWord (n - 48) v
    { w.setPath pf (p.lift (fgetD 0 w.xs (n - 48) != u)) with xs := fputD 0 w.xs (n - 48) u }
  else w.setPath pf ({ p with x := fputD 0 p.x n v }.lift (fgetD 0 p.x n != v))

/-- A lane mask of a path; k0 is the active mask. -/
def rk (w : Warp) (pf : Bool) (n : Nat) : W32 := fgetD 0 (w.path pf).k n

/-- A lane mask written (the writer's instruction refuses k0, R71, or is BRD, JOIN, EXIT or a trap). -/
def wk (w : Warp) (pf : Bool) (n : Nat) (v : W32) : Warp :=
  w.modPath pf fun p => { p with k := fputD 0 p.k n v }.lift (fgetD 0 p.k n != v)

/-- k0 of a path, whoever changes it. -/
def Path.k0 (p : Path) : W32 := fgetD 0 p.k 0

/-- R192: a raised trap behind those that already wait on the path. -/
def Path.queueTrap (p : Path) (t : Trap) : Path :=
  match p.pend with
  | none => { p with pend := some t }
  | some _ => { p with more := p.more ++ [t] }

/-- R192: the trap that enters next is the oldest that waits. -/
def Path.nextTrap (p : Path) : Path :=
  match p.pend, p.more with
  | none, t :: r => { p with pend := some t, more := r }
  | _, _ => p

/-- A path with another k0. -/
def Path.withK0 (p : Path) (m : W32) : Path := { p with k := fputD 0 p.k 0 m }

/-- R22, R23: an age queue whose every valid bit is clear. -/
def clearAge (l : List AgeEntry) : List AgeEntry := l.map fun e => { e with valid := 0, pend := none }

/-- A new age queue. -/
def freshAge : List AgeEntry := List.replicate 16 { data := zeroLanes, valid := 0, tag := .b32, pend := none }

/-- A path that does not exist. -/
def Path.absent : Path :=
  { live := false, pc := 0, issued := 0, lbase := 0, priv := 0, x := [], k := [], age := freshAge, queue := [], nextSeq := 0,
    batch := [], wait := .none, stopped := false, held := none, pend := none, more := [],
    spin := { branch := 0, count := 0, x := [], k := [] }, demoted := false, residue := false, dropPkt := false,
    last := none, synced := none, read := none }

/-- The path that an S-stream instruction acts for, or the stop of an instruction that no path issues. -/
def onPath (s : State) (f : Warp → Path → Out) : Out :=
  match fget s.warps s.cur.warp with
  | none => .fault .noPath
  | some w => if (w.path s.cur.path).live then f w (w.path s.cur.path) else .fault .noPath

/-- R235: one S-stream instruction counted; the supervisor slot's watchdog does not count (R348). -/
def countIssue (w : Warp) : Warp := if w.kind = .supervisor then w else { w with wdc := w.wdc + 1 }

/-- A path continues at an address, one issue counted. -/
def goto (w : Warp) (pf : Bool) (pc : W64) : Warp :=
  countIssue (w.modPath pf fun p => { p with pc := pc, issued := p.pc })

/-- A path continues at A + 4, one issue counted. -/
def advance (w : Warp) (pf : Bool) : Warp := goto w pf ((w.path pf).pc + 4)

/-- R233: an instruction of chapters 07 to 09, or RUNC, has issued between two takings of a branch. -/
def breakSpin (w : Warp) (pf : Bool) : Warp :=
  w.modPath pf fun p => { p with spin := { p.spin with count := 0 } }

/-- The instruction of the current path retires into warp w. -/
def retire (s : State) (w : Warp) : Out := .next (putWarp s s.cur.warp (advance w s.cur.path))

/-- The instruction of the current path waits: nothing changes. -/
def stall (s : State) : Out := .next s

/-- R98, R239: the region of the warp has ended. -/
def endRegion (w : Warp) : Warp := { w with nidem := true }

/-! ## Launch, block and function of a warp -/

/-- The launch of a warp. -/
def warpLaunch (s : State) (w : Warp) : Option Launch := fget s.launches w.launch

/-- The block of a warp. -/
def warpBlock (s : State) (w : Warp) : Option Block := fget s.blocks w.block

/-- The descriptor of function 0 when nothing else is known. -/
def noXlate : XlateDesc := { s1root := 0, asid := 0, vmid := 0, s2root := 0 }

/-- The current descriptor of a function. -/
def funcXlate (s : State) (fn : Nat) : XlateDesc := (fget s.funcs fn).elim noXlate (·.xd)

/-- R388: the partition of a function. -/
def partOf (s : State) (fn : Nat) : Nat := (fget s.funcs fn).elim 0 (·.part)

/-- R416: the 60 s bucket that the time base stands in (TBRATE is in kHz). -/
def errorBucket (s : State) : Nat := s.mgmt.tb / (60000 * s.mgmt.tbRate)

/-- R416: the corrected errors of a core pair in the last ten buckets. -/
def pairErrors (s : State) (die pair : Nat) : Nat :=
  ((List.range 10).map fun i => if errorBucket s < i then 0
    else fgetD 0 (fgetD [] s.mgmt.errors (64 * die + pair)) (errorBucket s - i)).foldl (· + ·) 0

/-- R416: one more corrected error of a core pair; buckets that have left the window go. -/
def countPair (s : State) (die pair : Nat) : State :=
  let key := 64 * die + pair
  let m := ffilter (fgetD [] s.mgmt.errors key) fun b _ => errorBucket s < b + 10
  { s with mgmt := { s.mgmt with
      errors := fput s.mgmt.errors key (fput m (errorBucket s) (fgetD 0 m (errorBucket s) + 1)) } }

/-- R398: a meter of a partition raised, up to 2^64 − 1. -/
def addMeter (s : State) (part i n : Nat) : State :=
  { s with parts := { s.parts with parts := fmod s.parts.parts part fun p =>
      { p with meters := fputD 0 p.meters i (min (fgetD 0 p.meters i + n) (2 ^ 64 - 1)) } } }

/-- R398: work of a warp of a launch, or of a supervisor slot's handler for its record's function, counted for the
partition; that of a patrol core is not. -/
def meterWarp (s : State) (w : Warp) (i n : Nat) : State :=
  if w.kind ≠ .patrol && n ≠ 0 then addMeter s (partOf s w.fn) i n else s

/-- R335: the descriptor that governs a warp, the one its launch was admitted under. -/
def warpXlate (s : State) (w : Warp) : XlateDesc := (warpLaunch s w).elim (funcXlate s w.fn) (·.xd)

/-- The key of a core: 128 × virtual die + core. -/
def coreKey (w : Warp) : Nat := 128 * w.die + w.core

/-- A translation request of a warp for an access of given kind at its own or a given privilege. -/
def warpReq (s : State) (w : Warp) (user : Bool) (acc : Acc) (kind : Option Nat) : XReq :=
  { d := warpXlate s w, vf := w.fn ≠ 0, user := user, acc := acc, fill := false, kind := kind, unit := coreKey w,
    part := partOf s w.fn }

/-- MSI-X: a vector raised to a function (R320). -/
def raiseVector (s : State) (fn v : Nat) : State := modFunc s fn fun f => { f with vectors := f.vectors ++ [v] }

end Sys2Proof.Machine
end

