-- ==== Sys2Proof/Machine/Links.lean ====
section
/-! DEFINITION. The links of the module (R400 to R406): routes, the acceptance of packets into the bobbin, their sending,
and what a core or the device reads of another module. -/

namespace Sys2Proof.Machine

/-! ## Routes (R396, R405) -/

/-- The route-table entry of a destination. -/
def routeOf (s : State) (dest : Nat) : Route :=
  fgetD { pri := 0, pv := false, alt1 := 0, a1v := false, alt2 := 0, a2v := false, cur := 0, failed := [] } s.fabric.routes dest

/-- The port of a route, where the route is valid. -/
def routePort (r : Route) : Nat → Option Nat
  | 0 => if r.pv then some r.pri else none
  | 1 => if r.a1v then some r.alt1 else none
  | 2 => if r.a2v then some r.alt2 else none
  | _ => none

/-- R396: the weight that a partition holds on a port. -/
def portWeight (s : State) (part port : Nat) : Nat := (fget s.parts.parts part).elim 0 fun p => fgetD 0 p.ports port

/-- R396: a port carries the packets of a partition. -/
def portCarries (s : State) (part port : Nat) : Bool :=
  let o := fgetD 0 s.parts.portOwn port
  if portWeight s o port = 0 then o = part else 0 < portWeight s part port

/-- R405, R406: a route is usable for a partition, and has not failed. -/
def usable (s : State) (part dest k : Nat) : Bool :=
  match routePort (routeOf s dest) k with
  | none => false
  | some p => !s.fabric.down.contains p && portCarries s part p && !(routeOf s dest).failed.contains k

/-- R406: the route of a partition's packets to a destination, from a given route on. -/
def routeFrom (s : State) (part dest k : Nat) : Option Nat :=
  ([0, 1, 2].filter (k ≤ ·)).find? (usable s part dest)

/-- The route that a new packet takes. -/
def routeNow (s : State) (part dest : Nat) : Option Nat := routeFrom s part dest (routeOf s dest).cur

/-! ## Sending (R403) -/

/-- R400: LOWACK of a (destination, class). -/
def lowAckOf (s : State) (dst cls : Nat) : Nat :=
  match s.fabric.bobbin.find? fun e => e.pkt.dst = dst && e.pkt.cls = cls with
  | some e => e.pkt.seq
  | none => fgetD 0 s.fabric.seqs (4 * dst + cls)

/-- R403: a packet may be sent. -/
def maySend (s : State) (p : Packet) : Bool := (p.seq + 2 ^ 16 - lowAckOf s p.dst p.cls) % 2 ^ 16 < 1024

/-- R398: a packet of work that firmware does or of a context save or fill, which is not counted: a fault queue's entry, a
read or write of the device, a context's bytes. -/
def uncounted (e : BEntry) : Bool := e.op.isNone && (e.lanes = 1 || e.lanes = 3 || e.lanes = 4 || e.lanes = 5 || e.lanes = 6)

/-- R398: FABTX, once a packet; R400: a flit is 32 bytes. -/
def countTx (s : State) (e : BEntry) : State :=
  if uncounted e then s else addMeter s e.pkt.part 10 (32 * e.pkt.len)

/-! ## The header flit and CRC (R400) -/

/-- One bit of CRC-32C. -/
def crcBit (c : Nat) : Nat := if c % 2 = 1 then (c / 2) ^^^ 0x82F63B78 else c / 2

/-- One byte of CRC-32C, least significant bit first. -/
def crcByte (c : Nat) (b : Byte) : Nat :=
  crcBit (crcBit (crcBit (crcBit (crcBit (crcBit (crcBit (crcBit (c ^^^ b.toNat))))))))

/-- CRC-32C of bytes: the Castagnoli polynomial, bits reflected, preset and final inversion with ones (PRESUMED, log entry
114). -/
def crc32c (l : List Byte) : Nat := l.foldl crcByte 0xFFFFFFFF ^^^ 0xFFFFFFFF

/-- R400: bytes 0x00 to 0x1B of the header flit. -/
def headerStart (p : Packet) : List Byte :=
  leBytes 1 p.kind ++ leBytes 1 (p.cls % 4 + p.len % 16 * 4) ++ leBytes 2 p.seq ++ leBytes 2 p.lowAck ++ leBytes 1 p.src ++
    leBytes 1 p.dst ++ leBytes 2 (p.part % 4096) ++ leBytes 2 p.tag ++ leBytes 2 p.fn ++ leBytes 1 p.pois ++ leBytes 1 0 ++
    leBytes 8 p.addr ++ leBytes 4 (p.oper % 16 + p.mask % 2 ^ 16 * 2 ^ 4)

/-- R400: the header flit. -/
def headerFlit (p : Packet) : List Byte := headerStart p ++ leBytes 4 p.crc

/-- R400: the payload flits, the last one filled with zeros. -/
def payloadFlits (p : Packet) : List Byte := p.payload ++ List.replicate (32 * p.len - p.payload.length) 0

/-- R400: the CRC of a packet. -/
def packetCrc (p : Packet) : Nat := crc32c (headerStart p ++ payloadFlits p)

/-- R400: a packet with its CRC. -/
def sealPacket (p : Packet) : Packet := { p with crc := packetCrc p }

/-- A packet handed to the links with the LOWACK of the moment. -/
def emit (s : State) (p : Packet) : State :=
  { s with fabric := { s.fabric with out := sealPacket { p with lowAck := lowAckOf s p.dst p.cls } :: s.fabric.out } }

/-- R205, R418: the path's next outgoing packet is lost after it leaves the bobbin. -/
def losesPacket (s : State) (e : BEntry) : Bool :=
  match fget s.warps e.warp with
  | some w => !(e.op.isNone && (e.lanes = 4 || e.lanes = 5)) && (w.path e.path).dropPkt
  | none => false

/-- R396, R407: the route that a waiting packet leaves by, as the routes stand now. -/
def routeOut (s : State) (e : BEntry) : Nat := (routeNow s e.pkt.part e.pkt.dst).getD e.route

/-- The first sending of one packet of the bobbin, by the route of the moment (R396, R407). -/
def sendFirst (s : State) (e : BEntry) : State :=
  if e.sent || !maySend s e.pkt || (routeNow s e.pkt.part e.pkt.dst).isNone then s
  else
    let s1 := countTx { s with fabric := { s.fabric with
      bobbin := s.fabric.bobbin.map fun d => if d = e then { d with sent := true, route := routeOut s e } else d } } e
    if losesPacket s e then
      modWarp s1 e.warp fun w => w.modPath e.path fun p => { p with dropPkt := false }
    else emit s1 e.pkt

/-- R403: every packet that has become sendable is sent, in the order of the bobbin. -/
def pump (s : State) : State := s.fabric.bobbin.foldl sendFirst s

/-- The number of packets that a bobbin holds. -/
def bobbinSize : Nat := 16384

/-- Who sends a packet and for what. A packet of no operation carries a completion record, or by `lanes` 1 an entry of
a fault queue, 2 a read of a path, 3 another write of the device, 4 a context write of the warp, 5 a read of a context, of the
device or of a walker, 6 a SHOOT (R353). -/
structure Sender where
  warp : Nat
  path : Bool
  op : Option Nat
  lanes : W32

/-- R403: a packet accepted: SEQ is assigned, and the packet is sent when it may be. -/
def acceptPacket (s : State) (who : Sender) (p : Packet) (route : Nat) : State :=
  let key := 4 * p.dst + p.cls
  let q := { p with seq := fgetD 0 s.fabric.seqs key }
  let e : BEntry := { pkt := q, sent := false, rejected := false, route := route, op := who.op, warp := who.warp,
                      path := who.path, lanes := who.lanes }
  pump { s with fabric := { s.fabric with bobbin := s.fabric.bobbin ++ [e],
                                          seqs := fputD 0 s.fabric.seqs key ((q.seq + 1) % 2 ^ 16) } }

/-- A packet header of a function. -/
def mkPacket (s : State) (fn tag kind cls dst addr : Nat) : Packet :=
  { kind := kind, cls := cls, len := 0, seq := 0, lowAck := 0, src := Config.moduleNo, dst := dst,
    part := partOf s fn, tag := tag, fn := fn, pois := 0, addr := addr, oper := 0, mask := 0, payload := [],
    crc := 0, port := 0 }

/-- The payload flits of n bytes. -/
def flits (n : Nat) : Nat := (n + 31) / 32

/-! ## What a core or the device reads of another module -/

/-- Who reads bytes that may lie on another module: a path of a warp, or, with `own` false, the warp's context, the device
(0) or the walkers. -/
structure Reader where
  uid : Nat
  path : Bool
  own : Bool
  deriving DecidableEq, Repr

/-- The device as a reader. -/
def Reader.device : Reader := { uid := 0, path := false, own := false }

/-- A warp's context as a reader. -/
def Reader.context (uid : Nat) : Reader := { uid := uid, path := false, own := false }

/-- A path as a reader. -/
def Reader.of (uid : Nat) (pf : Bool) : Reader := { uid := uid, path := pf, own := true }

/-- What a read of bytes that may lie on another module gives: the bytes and whether a granule of them is poisoned, a wait
for the answers of READ packets, or the loss of the route. -/
inductive FarRes where
  | ok (s : State) (bytes : List Byte) (pois : Bool)
  | wait (s : State)
  | lost (s : State)

/-- What has come for a reader about a granule. -/
def farHas (s : State) (uid g : Nat) : Option FarGran := s.fabric.inbox.find? fun f => f.warp = uid && f.gran = g

/-- A packet of the bobbin is a read of a path, a context, the device or a walker. -/
def farRead (e : BEntry) : Bool := e.op.isNone && (e.lanes = 2 || e.lanes = 5)

/-- A READ for a reader is on its way. -/
def farAsked (s : State) (uid g : Nat) : Bool :=
  s.fabric.bobbin.any fun e => farRead e && e.warp = uid && e.pkt.addr = 64 * g

/-- A READ of a granule for a reader (R401), where the bobbin has a place. -/
def farAsk (fn tag : Nat) (who : Reader) (s : State) (g : Nat) : State :=
  if farAsked s who.uid g || (farHas s who.uid g).isSome || bobbinSize ≤ s.fabric.bobbin.length then s
  else
    let p := mkPacket s fn tag 1 0 (homeModule (64 * g)) (64 * g)
    acceptPacket s { warp := who.uid, path := who.path, op := none, lanes := if who.own then 2 else 5 } p
      ((routeNow s p.part p.dst).getD 3)

/-- What has come for a reader about some granules, used up. -/
def farUsed (s : State) (uid : Nat) (gs : List Nat) : State :=
  { s with fabric := { s.fabric with inbox := s.fabric.inbox.filter fun f => !(f.warp = uid && gs.contains f.gran) } }

/-- R249: the address that a reader's access to this module is served from. -/
def readerAt (s : State) (who : Reader) (a : Nat) : Nat :=
  match fget s.warps who.uid with
  | some w => if who.own then fromCopy s w.die a else a
  | none => a

/-- Pieces of memory, each an address and a length within its granules, as a reader of a function gets them. Bytes of another
module are fetched by READ packets and used once; a READ that was lost is a loss of the route, also when a route has come back
since (R190, R408). -/
def farPieces (s : State) (fn tag : Nat) (who : Reader) (l : List (Nat × Nat)) : FarRes :=
  let uid := who.uid
  let gs := l.flatMap fun e => if isLocal e.1 then [] else granulesOf e.1 e.2
  let at' := readerAt s who
  if gs.isEmpty then .ok s (l.flatMap fun e => rdBytes s.mem (at' e.1) e.2) (l.any fun e => poisonedIn s.pois (at' e.1) e.2)
  else if gs.any fun g => (farHas s uid g).any (·.lost) then .lost (farUsed s uid gs)
  else if gs.all fun g => (farHas s uid g).isSome then
    let cells := gs.foldl (fun t g => wrBytes t (64 * g) ((farHas s uid g).elim [] (·.data))) ([] : List Host.Cell)
    .ok (farUsed s uid gs)
      (l.flatMap fun e => if isLocal e.1 then rdBytes s.mem (at' e.1) e.2 else rdBytes cells e.1 e.2)
      (l.any fun e => if isLocal e.1 then poisonedIn s.pois (at' e.1) e.2
        else (granulesOf e.1 e.2).any fun g => (farHas s uid g).any (·.pois))
  else if gs.any fun g => (routeNow s (partOf s fn) (homeModule (64 * g))).isNone then .lost (farUsed s uid gs)
  else .wait (gs.foldl (farAsk fn tag who) s)

/-- Bytes written at a physical address of another module, granule by granule, by WRITE packets; none where the bobbin has no
place for them or the route is lost. -/
def farWrite (fn tag uid : Nat) (s : State) : List (Nat × List Byte) → Option State
  | [] => some s
  | (a, b) :: r =>
    let p := { mkPacket s fn tag 2 1 (homeModule a) a with mask := 2 ^ 16 - 1, payload := b, len := 2 }
    if bobbinSize ≤ s.fabric.bobbin.length then none
    else match routeNow s p.part p.dst with
    | none => none
    | some k => farWrite fn tag uid (acceptPacket s { warp := uid, path := false, op := none, lanes := 4 } p k) r

/-- n bytes at a physical address as a reader gets them. -/
def farBytes (s : State) (fn tag : Nat) (who : Reader) (a n : Nat) : FarRes := farPieces s fn tag who [(a, n)]

/-! ## What the device writes of another module -/

/-- The bobbin has room for n packets of the device's writes to an address (R403). -/
def devRoom (s : State) (a n : Nat) : Bool := isLocal a || s.fabric.bobbin.length + n ≤ bobbinSize

/-- Up to 64 bytes of one granule written by the device for a function, here or by a WRITE packet. A full bobbin takes
none (R403). -/
def devWrite (s : State) (fn a : Nat) (bytes : List Byte) : State :=
  if isLocal a then { s with mem := wrBytes s.mem a bytes }
  else
    let words := (List.range 16).filter fun i => a % 64 / 4 ≤ i && 4 * i < a % 64 + bytes.length
    let p := { mkPacket s fn 0 2 1 (homeModule a) (64 * granule a) with
      mask := words.foldl (fun t i => t + 2 ^ i) 0, len := 2,
      payload := rdBytes (wrBytes ([] : List Host.Cell) (a % 64) bytes) 0 64 }
    match routeNow s p.part p.dst with
    | none => s
    | some k => if bobbinSize ≤ s.fabric.bobbin.length then s
      else acceptPacket s { warp := 0, path := false, op := none, lanes := 3 } p k

/-- Bytes cut into the pieces that lie in one granule each, from an address on. -/
def granulePieces (a : Nat) (bytes : List Byte) : List (Nat × List Byte) :=
  (granulesOf a bytes.length).map fun g =>
    let lo := max a (64 * g)
    (lo, (bytes.drop (lo - a)).take (64 * g + 64 - lo))

/-- Bytes written by the device for a function at an address, granule by granule. -/
def devWriteAll (s : State) (fn a : Nat) (bytes : List Byte) : State :=
  (granulePieces a bytes).foldl (fun t e => devWrite t fn e.1 e.2) s

/-- Bytes of a translation table written by the device, here, or at its home on another module and in what a walker has
read of it. -/
def tblWrite (s : State) (fn a : Nat) (bytes : List Byte) : State :=
  let s1 := devWrite s fn a bytes
  if isLocal a then s1
  else { s1 with fabric := { s1.fabric with inbox := s1.fabric.inbox.map fun f =>
    if f.warp = walkReader && f.gran = granule a then
      { f with data := rdBytes (wrBytes (wrBytes ([] : List Host.Cell) 0 f.data) (a % 64) bytes) 0 64 } else f } }

/-- R340: a walker asks for a granule of a table at its home on another module, for a function. -/
def walkRead (s : State) (fn g : Nat) : State :=
  if isLocal (64 * g) || (routeNow s (partOf s fn) (homeModule (64 * g))).isNone then s
  else farAsk fn 0 { uid := walkReader, path := false, own := false } s g

/-- What the walkers have read of other modules, dropped. -/
def dropWalks (s : State) : State :=
  { s with fabric := { s.fabric with inbox := s.fabric.inbox.filter fun f => f.warp ≠ walkReader } }

end Sys2Proof.Machine
end

