-- ==== Sys2Proof/Machine/Macs.lean ====
section
/-! DEFINITION. The numbers of an MMA's control word and format block (R169, R170), and the meters of its steps (R398). -/

namespace Sys2Proof.Machine

/-- A descriptor of the format block (R170). -/
structure FDesc where
  efmt : Nat
  blen : Nat
  scale : Nat
  resv : Bool

/-- R170: the descriptor at an offset of the format block. -/
def fdesc (b : List Byte) (off : Nat) : FDesc :=
  { efmt := at32 b off 1, blen := at32 b (off + 1) 1, scale := at32 b (off + 4) 4,
    resv := at32 b (off + 2) 2 ≠ 0 || at32 b (off + 8) 8 ≠ 0 }
where
  at32 (b : List Byte) (i n : Nat) : Nat := leNat ((b.drop i).take n)

/-- The numbers that a control word holds (R169). -/
structure MmaShape where
  bank : Nat
  m : Nat
  n : Nat
  k : Nat
  fbo : Nat
  resv : Bool

/-- R169. -/
def mmaShape (c : W64) : MmaShape :=
  let v := c.toNat
  { bank := fld v 5 0, m := fld v 13 6 + 1, n := fld v 21 14 + 1, k := fld v 35 22 + 1, fbo := fld v 56 40,
    resv := fld v 39 36 ≠ 0 || fld v 63 57 ≠ 0 }

/-- R169: MT. -/
def MmaShape.mt (h : MmaShape) : Nat := (h.m + 31) / 32
/-- R169: NT. -/
def MmaShape.nt (h : MmaShape) : Nat := (h.n + 31) / 32
/-- R61: the groups along K. -/
def MmaShape.groups (h : MmaShape) : Nat := (h.k + 31) / 32
/-- R173: the steps. -/
def MmaShape.steps (h : MmaShape) : Nat := h.mt * h.nt * h.groups

/-- R398: the MACs of one step. -/
def stepMacs (h : MmaShape) (t : Nat) : Nat :=
  let o := (t - 1) % (h.mt * h.nt)
  let g := (t - 1) / (h.mt * h.nt)
  min 32 (h.m - 32 * (o / h.nt)) * min 32 (h.n - 32 * (o % h.nt)) * min 32 (h.k - 32 * g)

/-- R398: the meter of a format. -/
def macMeter (efmt : Nat) : Nat :=
  match efmt with
  | 3 => 1 | 4 => 2 | 9 | 10 => 3 | 12 => 4 | _ => 5

/-- R398: the MACs of the steps from `metered` to before a step, counted. -/
def countMacs (s : State) (w : Warp) (r : SeqRec) (upto : Nat) : State :=
  let h := mmaShape r.ctl
  meterWarp s w (macMeter (fdesc r.fblk 0).efmt)
    (((List.range (upto - r.metered)).map fun i => stepMacs h (r.metered + i)).foldl (· + ·) 0)

end Sys2Proof.Machine
end

