-- ==== Sys2Proof/Machine/Ops.lean ====
section
/-! DEFINITION. The named operations over outstanding operations, clauses, vector registers and fault queues; the waits of
R97; the purge (R414, R364); taking a trap (R189 to R194), the default action (R196) and the return from a trap
(R195). -/

namespace Sys2Proof.Machine

/-! ## Outstanding operations, counters and flags (R29 to R31) -/

/-- R31: an operation belongs to a path. -/
def owns (o : Op) (uid : Nat) (pf : Bool) : Bool := o.warp = uid && (if pf then o.ownB else o.ownA)

/-- R147: whether a lane memory operation counts on its space's counter. -/
def inAccess (m : LaneMem) : Bool :=
  match m.kind with
  | .store => m.left ≠ 0
  | _ => true

/-- R30: whether an operation counts on a counter. -/
def countsOn (c : Ctr) (o : Op) : Bool :=
  match o.body with
  | .mem m =>
    match c with
    | .sp => m.space = .sp && inAccess m
    | .gs => m.space = .gs && inAccess m
    | .dm => (m.space = .dm || m.space = .pv) && inAccess m
    | .fb => m.wire ≠ 0 && storesOrAtom m
    | _ => false
  | .mma .. | .zero .. | .drain .. => c = .ac
  | .amv .. => c = .an
  | .batch .. | .coll .. => c = .sh
  | .pois .. => false

/-- R30: a counter of a path. -/
def counter (s : State) (uid : Nat) (pf : Bool) (c : Ctr) : Nat :=
  (s.ops.filter fun o => owns o uid pf && countsOn c o).length

/-- R29: operations that name a flag of a path. -/
def flagCount (s : State) (uid : Nat) (pf : Bool) (f : Nat) : Nat :=
  (s.ops.filter fun o => owns o uid pf && o.flag = some f).length

/-- R29: a flag is pending. -/
def flagPending (s : State) (uid : Nat) (pf : Bool) (f : Nat) : Bool := 0 < flagCount s uid pf f

/-- R72: a counter code. -/
def ctrOf : Nat → Ctr
  | 0 => .sp | 1 => .gs | 2 => .dm | 3 => .ac | 4 => .an | 5 => .sh | _ => .fb

/-- R72: a scope code. -/
def scopeOf : Nat → Scope
  | 0 => .warp | 1 => .block | 2 => .quad | 3 => .die | 4 => .package | 5 => .pod | _ => .fabric

/-- The code of a scope. -/
def scopeCode : Scope → Nat
  | .warp => 0 | .block => 1 | .quad => 2 | .die => 3 | .package => 4 | .pod => 5 | .fabric => 6

/-- An operation issued by a path. -/
def issueOp (s : State) (uid : Nat) (pf : Bool) (block : Nat) (flag : Option Nat) (b : OpBody) : State :=
  { s with ops := s.ops ++ [{ id := s.next, warp := uid, block := block, ownA := !pf, ownB := pf, flag := flag,
                              body := b }],
           next := s.next + 1 }

/-- An outstanding operation. -/
def findOp (s : State) (id : Nat) : Option Op := s.ops.find? fun o => o.id = id

/-- The state without an operation. -/
def dropOp (s : State) (id : Nat) : State := { s with ops := s.ops.filter fun o => o.id ≠ id }

/-- The state with an operation's body replaced. -/
def setOp (s : State) (id : Nat) (b : OpBody) : State :=
  { s with ops := s.ops.map fun o => if o.id = id then { o with body := b } else o }

/-- R31 at a split: operations of path A are counted in both copies. -/
def splitOps (s : State) (uid : Nat) : State :=
  { s with ops := s.ops.map fun o => if o.warp = uid && o.ownA then { o with ownB := true } else o }

/-- R31 at a merge: everything outstanding belongs to path A, counted once. -/
def mergeOps (s : State) (uid : Nat) : State :=
  { s with ops := s.ops.map fun o => if o.warp = uid then { o with ownA := true, ownB := false } else o }

/-! ## Clauses (R78, R97, R110) -/

/-- Every instruction of a clause has issued. -/
def clauseIssued (c : Clause) : Bool :=
  match c.hdr with
  | none => false
  | some h => h.count + 1 < c.idx

/-- A load or atomic of a clause is outstanding. -/
def clauseLoads (s : State) (uid : Nat) (pf : Bool) (c : Clause) : Bool :=
  s.ops.any fun o => owns o uid pf && match o.body with
    | .mem m => m.clause = c.seq && (match m.kind with | .store => false | _ => true)
    | _ => false

/-- R97: a clause has completed. -/
def clauseDone (s : State) (uid : Nat) (pf : Bool) (c : Clause) : Bool := clauseIssued c && !clauseLoads s uid pf c

/-- The clauses of a path that have not completed. -/
def liveQueue (s : State) (uid : Nat) (pf : Bool) (p : Path) : List Clause :=
  p.queue.filter fun c => !clauseDone s uid pf c

/-- R97, the wait of WAITF: every earlier clause has issued all of its instructions. -/
def allIssued (p : Path) : Bool := p.queue.all clauseIssued

/-- R97, the wait of VGET: every earlier clause has completed. -/
def allDone (s : State) (uid : Nat) (pf : Bool) (p : Path) : Bool := (liveQueue s uid pf p).isEmpty

/-- The registers that an ACC.DRAIN writes (R168). -/
def drainDst (d : Drain) : Nat × Nat := (d.dst, d.nrows)

/-- R97, R168: an outstanding drain of the path writes one of n registers from v. -/
def drainPending (s : State) (uid : Nat) (pf : Bool) (v n : Nat) : Bool :=
  s.ops.any fun o => owns o uid pf && match o.body with
    | .drain d _ => d.dst < v + n && v < d.dst + d.nrows
    | _ => false

/-- R261: a lane memory operation is performed, with respect to a scope below POD or at POD and above. -/
def memPerformed (m : LaneMem) (wide : Bool) : Bool :=
  if wide then m.left = 0 && m.wire = 0 else m.left &&& ~~~ remoteLanes m = 0

/-- R154, R164, R261: every earlier access of the path is performed with respect to a scope. -/
def performedAll (s : State) (uid : Nat) (pf : Bool) (wide : Bool) : Bool :=
  s.ops.all fun o => !owns o uid pf || match o.body with
    | .mem m => memPerformed m wide
    | .batch .. | .coll .. => true
    | .pois _ _ todo wire => todo.isEmpty && wire.isEmpty
    | _ => false

/-- R154: the wait of FENCE at a scope code. -/
def fenceReady (s : State) (uid : Nat) (pf : Bool) (scope : Nat) : Bool :=
  performedAll s uid pf (5 ≤ scope) && (scope < 5 || counter s uid pf .fb = 0)

/-- R30: the path's open batch may close: it is empty, or its counter has room. -/
def mayClose (s : State) (uid : Nat) (pf : Bool) (p : Path) : Bool := p.batch.isEmpty || counter s uid pf .sh < 255

/-- R179: the path's open batch closes; an empty one issues nothing. -/
def closeBatch (s : State) (uid : Nat) (pf : Bool) : State :=
  match fget s.warps uid with
  | none => s
  | some w =>
    let p := w.path pf
    if p.batch.isEmpty then s
    else issueOp (putWarp s uid (w.setPath pf { p with batch := [] })) uid pf w.block none (.batch p.batch)

/-- Writes of an operation that wait for their acknowledgement. -/
def writesOut (s : State) (id : Nat) : Bool := s.fabric.bobbin.any fun e => e.op = some id && e.pkt.kind = 8

/-- R179: every element of a batch has been written. -/
def batchWritten (s : State) (id : Nat) (l : List ShOp) : Bool :=
  (l.all fun i => i.total ≤ i.done && i.obuf.isEmpty) && !writesOut s id

/-! ## Vector registers and the register cache (R39) -/

/-- A live register's line is in the context slot and must be filled before the line is used. -/
def missing (w : Warp) (n : Nat) : Bool :=
  match fget w.regs n with
  | some r => r.line.isNone
  | none => false

/-- R39: the lanes of a register; a dead one reads 0. -/
def vread (w : Warp) (n : Nat) : Lanes :=
  match fget w.regs n with
  | some r => r.line.elim zeroLanes (·.data)
  | none => zeroLanes

/-- R39: the tag of a register; a dead one reads as b32. -/
def vtag (w : Warp) (n : Nat) : Fmt := (fget w.regs n).elim .b32 (·.tag)

/-- R39, R42, R413: lanes of a register written, under a tag; a dead register's other lanes become 0, and the
marks of the written lanes are cleared. -/
def vwrite (w : Warp) (n : Nat) (m : W32) (v : Lanes) (tag : Fmt) : Warp :=
  let pois := (fget w.regs n).elim 0 (·.pois)
  let r : VReg :=
    { tag := tag, line := some { data := mergeLanes m v (vread w n), dirty := true }, pois := pois &&& ~~~ m,
      slot := (fget w.regs n).elim 0 (·.slot) }
  { w with regs := fput w.regs n r }

/-! ## Fault queues and parking (R344) -/

/-- A record about a warp. -/
def warpRec (w : Warp) (cause : Nat) (pc : W64) (subj : Subject) : FRec :=
  { cause := cause, orig := 0, flags := 0, code := 0, va := 0, addr := 0, slot := w.slot, core := w.core, die := w.die,
    tag := w.reqtag, fn := w.fn, pc := pc, data := 0, subj := subj }

/-- A record staged for a function's fault queue. -/
def pushRec (s : State) (fn : Nat) (r : FRec) : State := modFunc s fn fun f => { f with fqWait := f.fqWait ++ [r] }

/-- A warp parked (R230). -/
def park (s : State) (uid : Nat) : State := modWarp s uid fun w => { w with st := .parked }

/-- A warp parked on a context fault, which CTXSTAT.PARK shows (R36, R340). -/
def parkContext (s : State) (uid : Nat) : State := modWarp s uid fun w => { w with st := .parked, parkCtx := true }

/-- A supervisor slot that firmware has not written yet: its context lies in the firmware's memory, and it has no handler
table (DESIGN CHOICE, log entry 85). -/
def Sup.reset (core : Nat) : Sup :=
  { table := 0, base := n64 (fwSlot (core / 128) (core % 128)), queue := [], cur := none }

/-- The supervisor slot of a core. -/
def supOf (s : State) (core : Nat) : Sup := (fget s.cores.sups core).getD (Sup.reset core)

/-- A record for a core's supervisor slot; beyond 64 it waits in the die fault queue, in the same order (R197). -/
def pushSup (s : State) (core : Nat) (r : FRec) : State :=
  let sup := supOf s core
  { s with cores := { s.cores with sups := fput s.cores.sups core { sup with queue := sup.queue ++ [r] } } }

/-! ## Purge (R364, R414, R415) -/

/-- The lanes of an operation that have not been performed. -/
def openLanes (m : LaneMem) : W32 := m.left ||| m.wire

/-- R398: accesses of n lanes of a lane memory instruction counted, and `lanes` for the instruction. -/
def meterLanes (s : State) (w : Warp) (m : LaneMem) (n lanes : Nat) : State :=
  let bytes := (m.accs.head?).elim 0 (·.size) * n
  let s1 := meterWarp s w 0 lanes
  match m.space with
  | .sp => s1
  | .gs => meterWarp s1 w 8 bytes
  | _ => meterWarp s1 w 9 bytes

/-- R398: the meters of a lane memory instruction that completes. -/
def meterMem (s : State) (w : Warp) (m : LaneMem) : State := meterLanes s w m (popMask m.act) (popMask m.act)

/-- R364: the accesses that a stopped warp has issued to the issuing module are performed, every lane, and counted (R398);
what a load reads goes to no register any more. An AMV retires and an MMA stops, as the meters show; their banks go with the
block. -/
def flushOp (s : State) (o : Op) : State :=
  match o.body, fget s.warps o.warp with
  | .mem m, some w =>
    let far := openLanes m &&& remoteLanes m
    let here := m.left &&& ~~~ remoteLanes m
    let t := match m.kind with
      | .store => performStore s (coreKey w) m here
      | .atom k => (performAtom s (coreKey w) m k here).1
      | _ => l1FillLanes s w.die w.core (coreKey w) o.warp m here
    meterLanes t w m (popMask (m.act &&& ~~~ far)) (if far = 0 then popMask m.act else 0)
  | .amv a _, some w => meterWarp s w (if a.transposed then 7 else 6) 1
  | .mma r _, some w => countMacs s w r r.step
  | _, _ => s

/-- Warps that leave the module: their issued accesses are performed, their operations and L1 lines dropped. -/
def removeWarps (s : State) (gone : Nat → Warp → Bool) : State :=
  let dead := fun u => (fget s.warps u).elim false (gone u)
  let s1 := (s.ops.filter fun o => dead o.warp).foldl flushOp s
  let s2 := { s1 with ops := s1.ops.filter fun o => !dead o.warp,
                      fabric := { s1.fabric with inbox := s1.fabric.inbox.filter fun g => !dead g.warp },
                      warps := ffilter s1.warps fun u w => !gone u w }
  l1Drop s2 fun l => l.owner.elim false dead

/-- Blocks that leave the module, with their banks. -/
def removeBlocks (s : State) (gone : Nat → Block → Bool) : State :=
  let dead := fun b => (fget s.blocks b).elim false (gone b)
  { s with blocks := ffilter s.blocks fun b k => !gone b k,
           banks := ffilter s.banks fun _ k => !dead k.block }

/-- A launch that a purge concerns: not yet ended. -/
def launchOpen (l : Launch) : Bool := l.st = .queued || l.st = .admitted

/-- R364, R414: the purge of launches: their warps, blocks, images and unplaced blocks go, packets of the key that
are not on the way are dropped, and each launch ends with STATE 3 and the cause. Without `report` no completion
record is written. -/
def purgeLaunches (s : State) (hit : Launch → Bool) (cause : Nat) (report : Bool) : State :=
  let dead := fun n => (fget s.launches n).elim false fun l => launchOpen l && hit l
  let s1 := removeWarps s fun _ w => w.kind = .kernel && dead w.launch
  let s2 := removeBlocks s1 fun _ b => dead b.launch
  { s2 with launches := fmap s2.launches fun n l =>
      if dead n then { l with st := .purged, cause := cause, back := [], recWritten := !report, lbars := [] } else l }

/-- A packet that the device writes for a function: a completion record, an entry of a fault queue, or another write of its
own. -/
def devicePacket (e : BEntry) : Bool := e.op.isNone && (e.lanes = 0 || e.lanes = 1 || e.lanes = 3 || e.lanes = 6)

/-- R414: the purge of a (function, request tag), with completion records or without. A record that the device writes for the
key, one of an earlier purge too (R415), is no work of the key and stays. -/
def purgeWith (s : State) (fn tag cause : Nat) (report : Bool) : State :=
  let s1 := purgeLaunches s (fun l => l.fn = fn && l.lrec.tag = tag) cause report
  { s1 with fabric := { s1.fabric with
      bobbin := s1.fabric.bobbin.filter fun e => !(e.pkt.fn = fn && e.pkt.tag = tag) || (e.sent && !e.rejected) ||
        devicePacket e } }

/-- R414: the purge of a (function, request tag). -/
def purgeKey (s : State) (fn tag cause : Nat) : State := purgeWith s fn tag cause true

/-- R196: the default action on a warp of a launch: the tag of the launch is purged. The supervisor slot and a
patrol core have no tag. -/
def defaultAction (s : State) (uid cause : Nat) : State :=
  match fget s.warps uid with
  | none => s
  | some w => if w.kind = .kernel then purgeKey s w.fn w.reqtag cause else s

/-! ## Taking a trap (R189 to R194) -/

/-- R193: xs0. -/
def trapWord (t : Trap) (pf both : Bool) : W64 :=
  n64 (t.cause + b2n t.lane * 2 ^ 9 + b2n pf * 2 ^ 10 + b2n both * 2 ^ 11 + b2n t.impr * 2 ^ 12 + t.widx * 2 ^ 13 +
    t.code * 2 ^ 24 + t.lmask.toNat * 2 ^ 32)

/-- What the read of a handler-table entry gives (R189, R190). -/
inductive HEntry where
  | none
  | entry (pc lbase : W64)
  | stage2 (f : XFault)
  | bad
  | migrate (leaf : Nat)
  | far (addr : Nat)
  | wait
  deriving DecidableEq, Repr

/-- R189: an entry of a handler table from its 16 bytes. -/
def bytesEntry (b : List Byte) : HEntry :=
  let e := leNat (b.take 8)
  if e = 0 || e % 4 ≠ 0 then .none else .entry (n64 e) (n64 (leNat ((b.drop 8).take 8)))

/-- R189, R190: the handler-table entry of a class for a warp's function; `far` where its page is homed on another
module. -/
def handlerEntry (s : State) (w : Warp) (cls : Nat) : HEntry :=
  let base := ((fget s.funcs w.fn).elim 0 (·.hvec)).toNat
  if base = 0 then .none
  else match translate s (warpReq s w false .read none) (base + 16 * cls) with
  | .ok a =>
    let c := fromCopy s w.die a
    if !isLocal a then .far a else if poisonedIn s.pois c 16 then .bad else bytesEntry (rdBytes s.mem c 16)
  | .fault f => if f.cause / 16 = 7 then .stage2 f else .bad
  | .migrate leaf => .migrate leaf
  | .moving => .wait

/-- R352: a device access of a warp met a page that the host owns: the walker moves SH from 2 to 3 and a record of 6.4 goes
to the function's queue, with ENGINE for an access of an engine (R344); the access waits. A leaf of another module changes at
its home, when the bobbin has room (R403). -/
def migrate (s : State) (uid : Nat) (w : Warp) (engine : Bool) (pc : W64) (leaf va : Nat) : State :=
  if !devRoom s leaf 1 then s
  else pushRec (tblWrite s w.fn leaf (leBytes 8 (tblLe s leaf 8 + 2 ^ 5))) w.fn
    { warpRec w 0x64 pc (.shared leaf uid) with va := n64 va, flags := 2 * b2n engine }

/-- R194: a cause raised at supervisor level. The warp is parked, or the patrol core stops, and 19.2 is recorded. -/
def doubleFault (s : State) (uid : Nat) (pf : Bool) (t : Trap) (w : Warp) : State :=
  match w.kind with
  | .patrol =>
    let site := (siteOf s w.die).elim w.die (·.1)
    let c := (fget s.power.patrol site).getD Patrol.reset
    { s with power := { s.power with patrol := fput s.power.patrol site { c with dead := true, halted := true } } }
  | _ =>
    let asked := t.cause = 0x134 || t.cause = 0x170
    let orig := if asked then fld (fgetD 0 w.xs 0).toNat 8 0 else t.cause
    let ea := (fgetD 0 w.xs 3).toNat
    let priv := (fget s.launches w.launch).elim 0 fun l => l.lrec.pvbase + w.gwi * (32 * l.lrec.pvlimit)
    let va := if asked then (if orig = 0x90 then n64 (priv + 128 * (ea / 4)) else n64 ea) else t.va
    pushRec (park (putWarp s uid { w with dblPath := pf }) uid) w.fn
      { warpRec w 0x132 t.resume (.warp uid) with orig := orig, code := if asked then t.code else 0, va := va }

/-- R192: a class-11 handler runs for both paths. -/
def bothPaths (w : Warp) (pf : Bool) (t : Trap) : Bool := t.cause / 16 = 11 && (w.path !pf).live

/-- R193: the cause record that a trap brings into xs0 to xs4. -/
def recordWords (w : Warp) (pf : Bool) (t : Trap) : List W64 :=
  let both := bothPaths w pf t
  [trapWord t pf both, t.resume, if t.lane then t.clauseAddr else if both then w.b.pc else 0, t.va,
   n64 (w.path pf).k0.toNat]

/-- R192, R193: the handler of a class is entered on a path. A replay mismatch re-issues nothing (R411). -/
def enterHandler (w : Warp) (pf : Bool) (t : Trap) (pc lbase : W64) : Warp :=
  let p := w.path pf
  let both := bothPaths w pf t
  let h : Held := { k0 := p.k0, priv := p.priv, lbase := p.lbase, lane := t.lane && t.cause ≠ 0x21,
                    widx := t.widx, both := both,
                    cause := t.cause, queue := p.queue, record := recordWords w pf t }
  let q := { p with held := some h, pend := none, age := clearAge p.age, priv := 1, lbase := lbase, pc := pc,
                    queue := [], wait := .none, read := none }.withK0 (if t.lane then t.lmask else p.k0)
  let xs2 := if t.lane then t.clauseAddr else if both then w.b.pc else 0
  let xs := fputD 0 (fputD 0 (fputD 0 (fputD 0 (fputD 0 w.xs 0 (trapWord t pf both)) 1 t.resume) 2 xs2) 3 t.va) 4
    (n64 p.k0.toNat)
  let w1 := { w.setPath pf q with xs := xs, wdc := if t.cause = 0xB0 then 0 else w.wdc }
  if both then w1.modPath (!pf) fun o => { o with stopped := true, wait := .none } else w1

/-- R190, R352: the read of a handler-table entry at trap entry: bytes of another module come by packets, and a lost route
(class 17) is a failure of the read. -/
def handlerRead (s : State) (uid : Nat) (pf : Bool) (w : Warp) (t : Trap) : State × HEntry :=
  let va := ((fget s.funcs w.fn).elim 0 (·.hvec)).toNat + 16 * (t.cause / 16)
  match handlerEntry s w (t.cause / 16) with
  | .far a =>
    match farBytes s w.fn w.reqtag (Reader.of uid pf) a 16 with
    | .ok u b bad => (u, if bad then .bad else bytesEntry b)
    | .wait u => (u, .wait)
    | .lost u => (u, .bad)
  | .migrate leaf => (migrate s uid w false t.resume leaf va, .wait)
  | e => (s, e)

/-- R192, R357: no trap of a warp can be taken: it is parked, is being saved, is saved, or has its context to load. -/
def trapsHeld (w : Warp) : Bool := (w.saving && !w.runOn) || w.st = .saved || w.st = .parked || w.reload

/-- R192: a trap that cannot enter yet: another one waits on the path, the other path is in a handler, or the warp takes
none. -/
def trapWaits (w : Warp) (pf : Bool) : Bool :=
  (w.path pf).pend.isSome || (w.path !pf).held.isSome || trapsHeld w

/-- R84, R193: xs1 of a lane, header or imprecise cause is the next S-stream instruction not yet issued when the trap is
delivered; an S-stream mismatch names the checked instruction (R410). -/
def delivered (p : Path) (t : Trap) : Trap :=
  if (t.lane || t.impr) && !(t.cause = 0x20 && !t.lane) then { t with resume := p.pc } else t

/-- R192: a class-11 trap stops the other path before the handler table is read. -/
def stopOther (w : Warp) (pf : Bool) (t : Trap) : Warp :=
  if t.cause / 16 = 11 && (w.path !pf).live then w.modPath (!pf) fun o => { o with stopped := true } else w

/-- R192: trap entry on a path. A trap that cannot enter yet, or whose handler table cannot be read yet, stays pending on
the path, behind those that were raised before it. -/
def enterTrap (s : State) (uid : Nat) (pf : Bool) (t0 : Trap) : State :=
  match fget s.warps uid with
  | none => s
  | some w =>
    let p := w.path pf
    let t := delivered p t0
    let later := fun u => putWarp u uid (w.setPath pf (p.queueTrap t))
    let held := fun u => putWarp u uid ((stopOther w pf t).setPath pf (p.queueTrap t))
    let va := ((fget s.funcs w.fn).elim 0 (·.hvec)) + n64 (16 * (t.cause / 16))
    if trapsHeld w then later s
    else if p.priv ≠ 0 then doubleFault s uid pf t w
    else if trapWaits w pf then later s
    else match handlerRead s uid pf w t with
    | (_, .none) => defaultAction s uid t.cause
    | (u, .entry pc lbase) => putWarp u uid (enterHandler w pf t pc lbase)
    | (u, .stage2 f) =>
      pushRec (park (held u) uid) 0
        { warpRec w f.cause t.resume (.trapEntry uid pf) with flags := b2n f.walk, addr := n64 f.ipa, va := va }
    | (u, .bad) =>
      pushRec (park (held u) uid) w.fn
        { warpRec w 0x139 t.resume (.trapEntry uid pf) with orig := t.cause, va := va }
    | (u, _) => held u

/-- R191: a cause delivered to its receiver. -/
def raiseTrap (s : State) (uid : Nat) (pf : Bool) (t : Trap) : State :=
  match fget s.warps uid with
  | none => s
  | some w =>
    if t.cause = 0x80 then
      pushSup (parkContext s uid) (coreKey w) { warpRec w 0x80 t.resume (.warp uid) with va := t.va }
    else if t.cause = 0x82 then
      pushRec (parkContext s uid) w.fn { warpRec w 0x82 t.resume (.warp uid) with va := t.va }
    else if t.cause = 0x131 then pushRec (park s uid) w.fn (warpRec w 0x131 t.resume (.warp uid))
    else if t.cause = 0x120 || t.cause = 0x121 then
      if w.kind = .kernel then defaultAction s uid t.cause else doubleFault s uid pf t w
    else enterTrap s uid pf t

/-- R341: a translation failure met by a warp: class 7 parks the whole warp and goes to the PF's queue; any other
cause is raised as a trap. -/
def raiseX (s : State) (uid : Nat) (pf : Bool) (t : Trap) (f : XFault) : State :=
  if f.cause / 16 = 7 then
    match fget s.warps uid with
    | none => s
    | some w => pushRec (park s uid) 0
        { warpRec w f.cause t.resume (.warp uid) with flags := b2n f.walk, addr := n64 f.ipa, va := t.va }
  else raiseTrap s uid pf { t with cause := f.cause }

/-- R193: the record of a precise S-stream cause of the path. -/
def sTrap (p : Path) (cause : Nat) : Trap :=
  { cause := cause, lane := false, impr := false, widx := 0, code := 0, lmask := p.k0, clauseAddr := 0, va := 0,
    resume := p.pc }

/-- R13, R83, R235: the current S-stream instruction raises a precise cause; the issue is counted. -/
def trapS (s : State) (cause : Nat) : Out :=
  let uid := s.cur.warp
  let pf := s.cur.path
  match fget s.warps uid with
  | none => .fault .noPath
  | some w => .next (raiseTrap (putWarp s uid (countIssue w)) uid pf (sTrap (w.path pf) cause))

/-- A translation failure of the current S-stream instruction at a VA. -/
def trapSx (s : State) (f : XFault) (va : Nat) : Out :=
  let uid := s.cur.warp
  let pf := s.cur.path
  match fget s.warps uid with
  | none => .fault .noPath
  | some w => .next (raiseX (putWarp s uid (countIssue w)) uid pf { sTrap (w.path pf) f.cause with va := n64 va } f)

/-- The current S-stream instruction continues with the physical address of one translated access, waits for a page
that moves, or meets a failure. -/
def withXlate (s : State) (w : Warp) (q : XReq) (va : Nat) (k : Nat → Out) : Out :=
  match translate s q va with
  | .ok a => k a
  | .fault f => trapSx s f va
  | .migrate leaf => .next (migrate s s.cur.warp w false (w.path s.cur.path).pc leaf va)
  | .moving => stall s

/-- Several accesses translated in order; the first that does not succeed, with its address. -/
def xlateAll (s : State) (q : XReq) : List Nat → Except (Nat × XRes) (List Nat)
  | [] => .ok []
  | va :: r =>
    match translate s q va with
    | .ok a =>
      match xlateAll s q r with
      | .ok l => .ok (a :: l)
      | .error e => .error e
    | x => .error (va, x)

/-- What the current S-stream instruction does when one of its accesses does not translate. -/
def xlateStop (s : State) (w : Warp) (e : Nat × XRes) : Out :=
  match e.2 with
  | .fault f => trapSx s f e.1
  | .migrate leaf => .next (migrate s s.cur.warp w false (w.path s.cur.path).pc leaf e.1)
  | _ => stall s

/-- R33, R71, R82: a privileged form at user level raises 19.0. -/
def privileged (s : State) (f : Warp → Path → Out) : Out :=
  onPath s fun w p => if p.priv = 0 then trapS s 0x130 else f w p

/-! ## Return from a trap (R195) -/

/-- R195: the held queue resumes: its first clause that has not issued whole goes on from the trapping word, from
the one after it, or is dropped. -/
def resumeQueue (skip : Bool) (h : Held) : List Clause → List Clause
  | [] => []
  | c :: r =>
    if clauseIssued c then c :: resumeQueue skip h r
    else if !skip then
      (if h.widx = 0 then { c with idx := 0, hdr := none, started := false } else { c with idx := h.widx }) :: r
    else if h.widx = 0 then r
    else { c with idx := h.widx + 1 } :: r

/-- R195: modes 0 and 1 of RETS on a path in a handler. The other path of a class-11 trap resumes at xs2. The rules name no
check of xs1 or xs2: a value that is not a multiple of 4 becomes the S-PC as it stands, and the fetch takes the four bytes
there (DESIGN CHOICE, log entry 84). A trap that waits behind this one is the next to enter (R192). -/
def returnTrap (w : Warp) (pf : Bool) (h : Held) (skip : Bool) : Warp :=
  let p := w.path pf
  let q := { p with held := none, priv := h.priv, lbase := h.lbase, age := clearAge p.age,
                    pc := fgetD 0 w.xs 1, queue := if h.lane then resumeQueue skip h h.queue else h.queue }.withK0 h.k0
  let w1 := w.setPath pf q.nextTrap
  if h.both then
    { w1.modPath (!pf) fun o => { o with stopped := false, pc := fgetD 0 w.xs 2 } with wdc := 0 }
  else w1

end Sys2Proof.Machine
end

