-- ==== Sys2Proof/Machine/Bobbin.lean ====
section
/-! DEFINITION. The source side of the fabric (R400 to R408): the packets of lane instructions, and their loss when no
route is left. -/

namespace Sys2Proof.Machine

/-! ## Loss -/

/-- R408: 17.0 or 17.1, not precise, on the path that issued a packet, and then the purge of the packet's tag; the work of
the supervisor slot and of a patrol core has no tag (log entry 19). -/
def fabricLoss (s : State) (uid : Nat) (pf : Bool) (fn tag cause : Nat) : State :=
  match fget s.warps uid with
  | some w =>
    let t := raiseTrap s uid pf { sTrap (w.path pf) cause with impr := true, lane := cause = 0x110 }
    if w.kind = .kernel then purgeKey t fn tag cause else t
  | none => purgeKey s fn tag cause

/-! ## The packets of a lane instruction (R401) -/

/-- The accesses of a set of lanes in a granule. -/
def granAccs (m : LaneMem) (lanes : W32) (g : Nat) : List LaneAcc :=
  m.accs.filter fun a => lanes.getLsbD a.lane && granule a.addr = g

/-- R400: the word mask of accesses. -/
def wordMask (l : List LaneAcc) : Nat :=
  (List.range 16).foldl (fun t i => if l.any fun a => a.addr % 64 / 4 = i then t + 2 ^ i else t) 0

/-- A WRITE's payload: the granule's 64 bytes with the lanes' bytes in place, and for accesses narrower than a word
a further flit whose first 8 bytes mask the bytes written (log entry 20). -/
def writePayload (l : List LaneAcc) : List Byte :=
  let cells := l.foldl (fun t a => wrBytes t (a.addr % 64) (leBytes a.size a.data.toNat)) ([] : List Host.Cell)
  let on := fun i => l.any fun a => a.addr % 64 ≤ i && i < a.addr % 64 + a.size
  rdBytes cells 0 64 ++
    (if l.all fun a => a.size = 4 then []
     else leBytes 8 ((List.range 64).foldl (fun t i => if on i then t + 2 ^ i else t) 0))

/-- An ATOMIC's payload: b and c of each lane, in the order of the words, and of the lanes of one word (log entry 20). -/
def atomPayload (l : List LaneAcc) : List Byte :=
  (List.range 16).flatMap fun i => (l.filter fun a => a.addr % 64 / 4 = i).flatMap fun a =>
    leBytes 4 a.data.toNat ++ leBytes 4 a.data2.toNat

/-- R401: the packet of one granule. -/
def lanePacket (s : State) (w : Warp) (m : LaneMem) (lanes : W32) (g : Nat) : Packet :=
  let l := granAccs m lanes g
  let tgt := (l.head?).elim 0 (·.module)
  let base := fun kind cls => mkPacket s w.fn w.reqtag kind cls tgt (64 * g)
  match m.kind with
  | .store => { base 2 1 with mask := wordMask l, payload := writePayload l, len := flits (writePayload l).length }
  | .atom k => { base 3 0 with oper := k, mask := wordMask l, payload := atomPayload l,
                               len := flits (atomPayload l).length }
  | _ => { base 1 0 with mask := wordMask l }

/-- The lanes of a packet. -/
def granLanes (m : LaneMem) (lanes : W32) (g : Nat) : W32 :=
  maskOf fun l => (granAccs m lanes g).any fun a => a.lane = l

/-- The granules that the remote lanes of a set touch, ascending in lane order. -/
def remoteGranules (m : LaneMem) (lanes : W32) : List Nat :=
  dedup ((m.accs.filter fun a => lanes.getLsbD a.lane).map fun a => granule a.addr)

/-- R151, R401: the lanes of a granule by packet: those of an atomic that name one word together have a packet of their own, so
that nothing comes between them (log entry 20). -/
def granSplit (m : LaneMem) (lanes : W32) (g : Nat) : List W32 :=
  let l := granAccs m lanes g
  let of := fun (a : Nat) => maskOf fun j => l.any fun b => b.lane = j && b.addr = a
  let shared := (dedup (l.map (·.addr))).filter fun a => 1 < popMask (of a)
  let all := granLanes m lanes g
  match m.kind with
  | .atom _ =>
    let rest := shared.foldl (fun t a => t &&& ~~~ of a) all
    (if rest = 0 then [] else [rest]) ++ shared.map of
  | _ => [all]

/-- What becomes of an attempt to hand packets to the bobbin. -/
inductive Handed where
  | ok (s : State)
  | full
  | lost

/-- R147, R403, R408: the remote lanes of an operation handed to the bobbin, granule by granule. -/
def handLanes (s : State) (w : Warp) (who : Sender) (m : LaneMem) (lanes : W32) : Handed :=
  let pk := (remoteGranules m lanes).flatMap fun g => (granSplit m lanes g).map fun l => (lanePacket s w m l g, l)
  if bobbinSize < s.fabric.bobbin.length + pk.length then .full
  else
    if pk.any fun p => (routeNow s p.1.part p.1.dst).isNone then .lost
    else .ok (pk.foldl (fun t p => acceptPacket t { who with lanes := p.2 } p.1
      ((routeNow t p.1.part p.1.dst).getD 3)) s)

end Sys2Proof.Machine
end

