-- ==== Sys2Proof/Machine/Operands.lean ====
section
/-! DEFINITION. The operands of lane instructions and the frame that every lane instruction shares: the acting
clause (R110), act (R13), operand forms (R18 to R21), tag checks (R25, R26, R58), interlocks (R147, R211), the age
queue (R22, R23), the result (R119) and lane traps (R83, R84). -/

namespace Sys2Proof.Machine

/-! ## The acting clause -/

/-- What a lane instruction acts with: its warp and path, its clause (none for an instruction that no clause holds),
the masks and scalar values captured, and its effective mask. -/
structure LCtx where
  uid : Nat
  pf : Bool
  w : Warp
  clause : Option Clause
  k : FMap W32
  x : FMap W64
  priv : BitVec 2
  act : W32
  srcs : List Lanes := []
  deriving DecidableEq, Repr

/-- The clause whose instructions issue: the oldest that has not issued whole (R110, R120). -/
def headClause (p : Path) : Option Clause := p.queue.find? fun c => !clauseIssued c

/-- R13, R73: act = k0 AND k[k]; k = 0 gives k0. -/
def actOf (k : FMap W32) (n : Nat) : W32 := fgetD 0 k 0 &&& fgetD 0 k n

/-- The context of the lane instruction that the current path issues. -/
def lctx (s : State) (w : Warp) (p : Path) (o : LaneOp) : LCtx :=
  match headClause p with
  | some c => { uid := s.cur.warp, pf := s.cur.path, w := w, clause := some c, k := c.k, x := c.x, priv := c.priv,
                act := actOf c.k o.k }
  | none => { uid := s.cur.warp, pf := s.cur.path, w := w, clause := none, k := p.k, x := p.x, priv := p.priv,
              act := actOf p.k o.k }

/-- The number of the acting clause. -/
def LCtx.seq (c : LCtx) : Nat := c.clause.elim 0 (·.seq)

/-- A path with its acting clause replaced. -/
def setClause (p : Path) (c : Clause) : Path :=
  { p with queue := p.queue.map fun d => if d.seq = c.seq then c else d }

/-! ## Lane traps -/

/-- R83, R84, R193: the record of a lane cause at the acting instruction. -/
def laneTrap (c : LCtx) (cause : Nat) (lmask : W32) (va : W64) (impr : Bool) : Trap :=
  { cause := cause, lane := true, impr := impr, widx := c.clause.elim 1 (·.idx), code := 0, lmask := lmask,
    clauseAddr := c.clause.elim 0 (·.addr), va := va, resume := (c.w.path c.pf).pc }

/-- R83: an earlier load or atomic of the acting clause is outstanding. -/
def earlierLoads (s : State) (c : LCtx) : Bool := c.clause.any (clauseLoads s c.uid c.pf)

/-- R83: a lane instruction raises a precise cause, once the earlier instructions of its clause have completed. -/
def trapL (s : State) (c : LCtx) (cause : Nat) (lmask : W32) (va : W64) : Out :=
  if earlierLoads s c then stall s else .next (raiseTrap s c.uid c.pf (laneTrap c cause lmask va false))

/-! ## Sources (R18 to R21) -/

/-- R21: the immediate and its tag. -/
def immValue (f : Fmt) (m : Nat) : W32 × Fmt :=
  match f with
  | .i32 => (w32 (sext 24 m), .i32)
  | .n32 => (n32 m, .n32)
  | .f32 => (n32 (m * 2 ^ 8), .f32)
  | .bf16 | .f16 | .i16 | .n16 => (n32 (m % 2 ^ 16 * 65537), f)
  | _ => (n32 m, .b32)

/-- R20: a lane constant. -/
def constValue (s : State) (c : LCtx) (n : Nat) : Lanes × Fmt :=
  let all := fun (v : Nat) (t : Fmt) => (mkLanes fun _ => n32 v, t)
  match n with
  | 0 => (mkLanes fun l => n32 l, .n32)
  | 1 => all c.w.idx .n32
  | 2 => all 0 .b32
  | 3 => all 1 .n32
  | 4 => all 0x3F800000 .f32
  | 5 => all 0xFFFFFFFF .b32
  | 6 => (mkLanes fun l => laneBit l, .n32)
  | 7 => all ((warpBlock s c.w).elim 0 (·.index)) .n32
  | 8 => all c.w.gwi .n32
  | 9 => all c.w.core .n32
  | 10 => all c.w.die .n32
  | 11 => all (b2n c.pf) .n32
  | 12 => (mkLanes fun l => n32 (4 * l), .n32)
  | 13 => all 0x80000000 .b32
  | 14 => all 0x7FC00000 .f32
  | _ => all 0x7F800000 .f32

/-- An age entry of the issuing path. -/
def ageEntry (c : LCtx) (i : Nat) : AgeEntry :=
  (c.w.path c.pf).age.getD i { data := zeroLanes, valid := 0, tag := .b32, pend := none }

/-- R18: the lanes and the tag that a source code delivers. -/
def srcValue (s : State) (c : LCtx) (o : LaneOp) : Src → Lanes × Fmt
  | .v n => (vread c.w n, vtag c.w n)
  | .q i => ((ageEntry c i).data, (ageEntry c i).tag)
  | .x n => (mkLanes fun _ => ((if n = 0 then 0 else fgetD 0 c.x n) : W64).setWidth 32, .b32)
  | .const n => constValue s c n
  | .imm => (mkLanes fun _ => (immValue o.fmt o.mods).1, (immValue o.fmt o.mods).2)

/-- R23: a source reads an age entry that is invalid in a lane of act. -/
def srcInvalid (c : LCtx) : Src → Bool
  | .q i => c.act &&& ~~~ (ageEntry c i).valid ≠ 0
  | _ => false

/-- R17: a source names a register that does not exist. -/
def srcBeyond (c : LCtx) : Src → Bool
  | .v n => c.w.vregs ≤ n
  | _ => false

/-- R147, R168: an operation of the path has yet to write a register. -/
def regPending (s : State) (c : LCtx) (n : Nat) : Bool :=
  drainPending s c.uid c.pf n 1 || s.ops.any fun o => owns o c.uid c.pf && match o.body with
    | .mem m => m.dst = some n
    | _ => false

/-- R39, R147, R211: a source whose value has not been delivered, or whose line is being filled. -/
def srcWaits (s : State) (c : LCtx) : Src → Bool
  | .v n => missing c.w n || regPending s c n
  | .q i => ((ageEntry c i).pend).isSome
  | _ => false

/-- R413: a source word of a lane of act is marked poisoned. -/
def srcPoisoned (c : LCtx) : Src → Bool
  | .v n => match fget c.w.regs n with
    | some r => r.pois &&& c.act ≠ 0
    | none => false
  | _ => false

/-- R39, log entry 16: a destination that cannot be written yet: an earlier operation has yet to write it, or its
line must be filled first. -/
def dstWaits (s : State) (c : LCtx) (d : Option Nat) : Bool :=
  match d with
  | none => false
  | some n => regPending s c n || (missing c.w n && c.act != BitVec.allOnes 32)

/-! ## Rounding of a lane instruction (R52, R53, R75) -/

/-- R53: the random word of a lane and element position. `draw` tells the draws of one instruction apart: 0 for the
result, i + 1 for the conversion of source i. -/
def rndWord (s : State) (c : LCtx) (draw l e tcode d : Nat) : W32 :=
  if wmodeRepro c.w.wmode then
    rngHash (n32 (wmodeSeed c.w.wmode) ^^^ n32 (e * 0x9E3779B9))
      (n32 (c.w.gwi * 32 + l) ^^^ n32 (tcode % 65536 * 65536) ^^^ n32 d)
  else Config.freeRandom (s.free + 256 * draw + 8 * l + e)

/-- How an instruction rounds in a lane and element position. -/
def laneMode (s : State) (c : LCtx) (o : LaneOp) (rok ftz : Bool) (draw l e : Nat) : RMode :=
  { rnd := if rok then resolveRnd c.w.wmode o.rnd else 1, sat := o.sat, ftz := ftz && wmodeFtz c.w.wmode,
    word := rndWord s c draw l e }

/-! ## Tag checks (R25, R58) -/

/-- A source as an instruction reads it: its lanes converted, its tag before conversion, and the flags raised; or
the cause. -/
def tagCheck (s : State) (c : LCtx) (o : LaneOp) (rok : Bool) (draw : Nat) (v : Lanes × Fmt) (want : Fmt) :
    Except Nat (Lanes × Fmt × Nat) :=
  if v.2 = want || v.2 = .b32 || want = .b32 then .ok (v.1, v.2, 0)
  else if (tagGroup v.2).isNone || tagGroup v.2 ≠ tagGroup want then .error 0x11
  else if wmodeTagx c.w.wmode then .error 0x10
  else
    let conv := fun l e => convertElem v.2 want (laneMode s c o rok false draw l e) (elem v.2 (lane v.1 l) e)
    .ok (mkLanes fun l => packElems want fun e => (conv l e).code, v.2,
         flAll ((lanesOf c.act).flatMap fun l => (List.range (fmtCount want)).map fun e => (conv l e).fl))

/-- The sources of an instruction with the formats it expects: their lanes, their tags and the flags raised. An
age entry keeps its tag when its valid bits are cleared (R22, R23; log entry 29). -/
def readSrcs (s : State) (c : LCtx) (o : LaneOp) (rok : Bool) (draw : Nat) :
    List (Src × Fmt) → Except Nat (List Lanes × List Fmt × Nat)
  | [] => .ok ([], [], 0)
  | (x, f) :: r =>
    match tagCheck s c o rok draw (srcValue s c o x) f with
    | .error e => .error e
    | .ok (ls, t, fl) =>
      match readSrcs s c o rok (draw + 1) r with
      | .error e => .error e
      | .ok (lss, ts, fls) => .ok (ls :: lss, t :: ts, flOr fl fls)

/-- What the effect of a lane instruction works on. -/
structure LIn where
  s : State
  c : LCtx
  o : LaneOp
  rok : Bool
  vals : List Lanes
  tags : List Fmt
  fl : Nat
  qbad : Bool
  rbad : Bool

/-- Source i, lane l. -/
def LIn.at (x : LIn) (i l : Nat) : W32 := lane (x.vals.getD i []) l

/-- The tag that source i carried. -/
def LIn.tag (x : LIn) (i : Nat) : Fmt := x.tags.getD i .b32

/-- The rounding of a lane and element position of the instruction's result. -/
def LIn.mode (x : LIn) (l e : Nat) : RMode := laneMode x.s x.c x.o x.rok true 0 l e

/-- R82: 8.1, then the waits, then the tag checks of R25; the effect goes on from there. An instruction whose act is
empty reads nothing (R13). -/
def laneRead (s : State) (o : LaneOp) (rok : Bool) (srcs : List (Src × Fmt)) (k : LIn → Out) : Out :=
  onPath s fun w p =>
    let c := lctx s w p o
    if c.act = 0 then
      k { s := s, c := c, o := o, rok := rok, vals := [], tags := [], fl := 0, qbad := false, rbad := false }
    else if srcs.any (fun x => srcBeyond c x.1) || o.dst.any (c.w.vregs ≤ ·) then trapL s c 0x81 c.act 0
    else if srcs.any (fun x => srcWaits s c x.1) || dstWaits s c o.dst || ((ageEntry c 0).pend.isSome &&
        c.act ≠ BitVec.allOnes 32) then stall s
    else match readSrcs s c o rok 1 srcs with
    | .error cause => trapL s c cause c.act 0
    | .ok (vals, tags, fl) =>
      k { s := s, c := { c with srcs := vals }, o := o, rok := rok, vals := vals, tags := tags, fl := fl,
          qbad := srcs.any fun x => srcInvalid c x.1, rbad := srcs.any fun x => srcPoisoned c x.1 }

/-- R82: the tag rule of R26, then 2.4 (R23), then the poisoned word. R122's list of causes does not hold 18.1, which R413
makes a reading instruction raise; R413, the part that owns the mark, governs (R1; DEDUCED, log entry 83). -/
def laneGuard (x : LIn) (tag : Fmt) (k : Out) : Out :=
  if x.c.act ≠ 0 && x.c.w.div && x.o.dst.any (fun d => vtag x.c.w d ≠ tag) then trapL x.s x.c 0x12 x.c.act 0
  else if x.qbad then trapL x.s x.c 0x24 x.c.act 0
  else if x.rbad then trapL x.s x.c 0x121 x.c.act 0
  else k

/-! ## Results (R22, R24, R119) -/

/-- R22, R23: the age queue after an instruction. -/
def shiftAge (l : List AgeEntry) (act : W32) (res : Lanes) (tag : Fmt) (pend : Option Nat) : List AgeEntry :=
  let q0 := l.headD { data := zeroLanes, valid := 0, tag := .b32, pend := none }
  { data := mergeLanes act res q0.data, valid := act ||| q0.valid, tag := if act = 0 then q0.tag else tag,
    pend := if act = 0 then q0.pend else pend } :: l.take 15

/-- R411: the replay queue of a core holds the last 16 lane instructions with their operands. -/
def pushReplay (s : State) (c : LCtx) : State :=
  let r : Replay := { warp := c.uid, path := c.pf, addr := c.clause.elim 0 (·.addr), widx := c.clause.elim 1 (·.idx),
                      act := c.act, srcs := c.srcs }
  let k := coreKey c.w
  { s with cores := { s.cores with replay := fput s.cores.replay k ((fgetD [] s.cores.replay k ++ [r]).drop
      ((fgetD [] s.cores.replay k).length - 15)) } }

/-- The acting clause moves to its next word. -/
def nextWord (c : LCtx) (p : Path) : Path :=
  match c.clause with
  | none => p
  | some k =>
    match p.queue.find? fun d => d.seq = k.seq with
    | none => p
    | some d => setClause p { d with idx := k.idx + 1 }

/-- R205, R410: an armed residue mismatch is raised by the instruction just checked; its result has been written and
the path's pipeline is held from it. -/
def residueCheck (s : State) (c : LCtx) (w : Warp) : Out :=
  let w1 := w.modPath c.pf fun p => { p with residue := false }
  .next (raiseTrap (pushReplay (putWarp s c.uid w1) c) c.uid c.pf (laneTrap c 0x20 c.act 0 true))

/-- The end of a lane instruction that has completed: the age queue shifts, the flags are raised, and the clause
goes on. -/
def laneEnd (s : State) (c : LCtx) (w : Warp) (res : Lanes) (tag : Fmt) (pend : Option Nat) (fl : Nat) : Out :=
  let w1 := { w.modPath c.pf fun p =>
      { p with age := shiftAge p.age c.act res tag pend,
               last := some { addr := c.clause.elim 0 (·.addr), widx := c.clause.elim 1 (·.idx), act := c.act } } with
    wmode := raiseFlags w.wmode fl }
  if (w1.path c.pf).residue then residueCheck s c w1
  else .next (pushReplay (putWarp s c.uid (w1.modPath c.pf (nextWord c))) c)

/-- What an instruction of 06_insn_lane_arith.md computes: the lane results, the result tag, the flags, and the
captured mask that a compare writes (R130). -/
structure LRes where
  res : Lanes
  tag : Fmt
  fl : Nat
  kd : Option (Nat × W32)

/-- R130: a captured mask of the acting clause written. -/
def writeKd (c : LCtx) (kd : Option (Nat × W32)) (p : Path) : Path :=
  match kd, c.clause with
  | some (n, m), some k => setClause p { k with k := fputD 0 k.k n m }
  | _, _ => p

/-- R53: the counter of free random words advances past the words that an instruction may have drawn. -/
def spend (s : State) : State := { s with free := s.free + 1024 }

/-- R119: the frame of the arithmetic forms. -/
def laneRun (s : State) (o : LaneOp) (rok : Bool) (srcs : List (Src × Fmt)) (f : LIn → LRes) : Out :=
  laneRead s o rok srcs fun x =>
    let r := f x
    laneGuard x r.tag
      (if x.c.act = 0 then laneEnd s x.c x.c.w zeroLanes r.tag none 0
       else
         let w1 := match o.dst with
           | some d => vwrite x.c.w d x.c.act r.res r.tag
           | none => x.c.w
         laneEnd (meterWarp (spend s) x.c.w 0 (popMask x.c.act)) x.c (w1.modPath x.c.pf (writeKd x.c r.kd)) r.res r.tag
           none (flOr x.fl r.fl))

/-- The common case of one result per lane and element position, with flags. -/
def perElem (x : LIn) (f : Fmt) (g : Nat → Nat → Coded) : LRes :=
  { res := mkLanes fun l => if x.c.act.getLsbD l then packElems f fun e => (g l e).code else 0, tag := f,
    fl := flAll ((lanesOf x.c.act).flatMap fun l => (List.range (fmtCount f)).map fun e => (g l e).fl), kd := none }

/-- The common case of one lane word per lane, with no flag. -/
def perLane (x : LIn) (tag : Fmt) (g : Nat → W32) : LRes :=
  { res := mkLanes fun l => if x.c.act.getLsbD l then g l else 0, tag := tag, fl := 0, kd := none }

end Sys2Proof.Machine
end

