-- ==== Sys2Proof/Machine/LMem.lean ====
section
/-! DEFINITION. Lane loads, stores, the transposing load and atomics (R142 to R152): their addresses and checks, their
issue, and the events that perform and complete them. -/

namespace Sys2Proof.Machine

/-! ## The modifier field (R142) -/

/-- The access size in bytes. -/
def memSize (o : LaneOp) : Nat := if fld o.mods 11 10 = 0 then 4 else if fld o.mods 11 10 = 1 then 2 else 1

/-- ORD. -/
def memOrd (o : LaneOp) : Nat := fld o.mods 13 12

/-- SPC of an ATOM. -/
def spaceOf : Nat → Space
  | 0 => .sp | 1 => .gs | 2 => .dm | _ => .pv

/-- The captured base. -/
def memBase (c : LCtx) (o : LaneOp) : Nat :=
  let xb := fld o.mods 23 18
  if xb = 0 then 0 else (fgetD 0 c.x xb : W64).toNat

/-- R143: the effective address for a lane offset. -/
def effAddr (c : LCtx) (o : LaneOp) (a : W32) (unit : Nat) : Nat :=
  let off : Int := if bitAt o.mods 17 then a.toInt else a.toNat
  (w64 ((memBase c o : Int) + off + sext 8 (fld o.mods 7 0) * unit)).toNat

/-! ## Checks (R145) -/

/-- A cause met by the lowest failing lane of act, every lane that meets it, and that lane. -/
def firstCause (act : W32) (f : Nat → Option Nat) : Option (Nat × W32 × Nat) :=
  match (lanesOf act).find? fun l => (f l).isSome with
  | none => none
  | some l => some ((f l).getD 0, maskOf fun j => act.getLsbD j && f j = f l, l)

/-- Step 2: 3.0 and 3.1. -/
def alignCheck (space : Space) (ea size : Nat) : Option Nat :=
  if ea % size ≠ 0 then some 0x30
  else if (space = .gs || space = .dm) && 2 ^ 48 ≤ ea then some 0x31
  else none

/-- The scratchpad bytes of a warp's block. -/
def spSize (s : State) (w : Warp) : Nat := (warpLaunch s w).elim 0 (·.lrec.spbytes)

/-- The private limit of a warp's launch. -/
def pvLimit (s : State) (w : Warp) : Nat := (warpLaunch s w).elim 0 (·.lrec.pvlimit)

/-- R250: the base of a warp's private region. -/
def pvBase (s : State) (w : Warp) : Nat :=
  (warpLaunch s w).elim 0 fun l => l.lrec.pvbase + w.gwi * (32 * l.lrec.pvlimit)

/-- Step 3: 4.0, 9.1 and 9.0. -/
def boundCheck (s : State) (w : Warp) (space : Space) (ea size : Nat) : Option Nat :=
  match space with
  | .sp => if spSize s w < ea + size then some 0x40 else none
  | .pv => if pvLimit s w ≤ ea then some 0x91 else if w.hwm ≤ ea then some 0x90 else none
  | _ => none

/-- R144: the virtual address of a lane's access. -/
def laneVa (s : State) (w : Warp) (space : Space) (l ea : Nat) : Nat :=
  if space = .pv then (n64 (pvBase s w + 128 * (ea / 4) + 4 * l + ea % 4)).toNat else ea

/-- R144: the kind of page that a space needs. -/
def spaceKind (space : Space) : Nat := if space = .gs then 1 else 0

/-- Step 4 for one lane. A private byte beyond the virtual address range raises 3.1 (R335), here because R144 checks
the bounds of .pv first (DESIGN CHOICE, log entry 71). -/
def laneXlate (s : State) (c : LCtx) (space : Space) (acc : Acc) (va : Nat) : XRes :=
  if 2 ^ 48 ≤ va then .fault { cause := 0x31, walk := false, ipa := 0 }
  else translate s (warpReq s c.w (c.priv == 0) acc (some (spaceKind space))) va

/-- The lanes' homes, or what stops the instruction. -/
inductive Placed where
  | ok (homes : FMap Nat)
  | trap (out : Out)

/-- Step 4: every lane translated. A lane that waits for a page (R352) holds the instruction. -/
def placeLanes (s : State) (c : LCtx) (space : Space) (acc : Acc) (eas : Nat → Nat) : Placed :=
  let va := fun l => laneVa s c.w space l (eas l)
  let res := (lanesOf c.act).map fun l => (l, laneXlate s c space acc (va l))
  let cause := fun l => match fgetD .moving res l with
    | .fault f => some f.cause
    | _ => none
  match firstCause c.act cause with
  | some (_, m, l) =>
    match fgetD .moving res l with
    | .fault f => .trap (if earlierLoads s c then stall s else .next (raiseX s c.uid c.pf
        (laneTrap c f.cause m (if f.cause = 0x32 then n64 (eas l) else n64 (va l)) false) f))
    | _ => .trap (.next s)
  | none =>
    match res.find? fun r => match r.2 with | .migrate _ => true | _ => false with
    | some (l, .migrate leaf) => .trap (.next (migrate s s.cur.warp c.w false (c.w.path c.pf).pc leaf (va l)))
    | _ =>
      if res.any fun r => r.2 = .moving then .trap (.next s)
      else .ok (res.map fun r => (r.1, match r.2 with | .ok a => a | _ => 0))

/-- R145: the checks of steps 2 to 4, and the lanes' homes (scratchpad offsets for .sp). -/
def checkLanes (s : State) (c : LCtx) (space : Space) (acc : Acc) (size : Nat) (eas : Nat → Nat)
    (k : FMap Nat → Out) : Out :=
  match firstCause c.act fun l => alignCheck space (eas l) size with
  | some (e, m, l) => trapL s c e m (n64 (eas l))
  | none =>
    match firstCause c.act fun l => boundCheck s c.w space (eas l) size with
    | some (e, m, l) => trapL s c e m (n64 (eas l))
    | none =>
      if space = .sp then k ((lanesOf c.act).map fun l => (l, eas l))
      else match placeLanes s c space acc eas with
      | .ok h => k h
      | .trap o => o

/-! ## Issue (R147) -/

/-- R29: room for one more operation on a counter and a flag of the path. -/
def issueRoom (s : State) (c : LCtx) (ctr : Ctr) (flag : Option Nat) : Bool :=
  counter s c.uid c.pf ctr < 255 && flag.all fun f => flagCount s c.uid c.pf f < 16

/-- R30: stores and atomics of the path that fb counts, or will count once their lanes are in the bobbin. -/
def fbDue (s : State) (uid : Nat) (pf : Bool) : Nat :=
  (s.ops.filter fun o => owns o uid pf && match o.body with
    | .mem m => storesOrAtom m && (m.wire ≠ 0 || m.left &&& remoteLanes m ≠ 0)
    | _ => false).length

/-- R30: a store or atomic with lanes on another module has room on fb, which it will raise (DEDUCED, log entry 104). -/
def fbRoom (s : State) (c : LCtx) (m : LaneMem) : Bool :=
  !storesOrAtom m || remoteLanes m = 0 || fbDue s c.uid c.pf < 255

/-- The counter of a space. -/
def spaceCtr : Space → Ctr
  | .sp => .sp | .gs => .gs | _ => .dm

/-- An instruction whose act is empty: its counter and its flag rise at issue, which needs room for them (R29, R30), and it
completes at once; it has issued, and breaks a spin (R233). -/
def emptyMem (s : State) (x : LIn) (space : Space) (w : Warp) (tag : Fmt) : Out :=
  if !issueRoom s x.c (spaceCtr space) x.o.flag then stall s
  else laneEnd s x.c w zeroLanes tag none 0

/-- The operation enters the list of outstanding ones, and the instruction ends. `pend` says that its result is to
come. No load, store or atomic raises a sticky flag (R146, R150), the conversions of its sources (R58) included (DEDUCED,
log entry 103). -/
def issueMem (s : State) (x : LIn) (w : Warp) (m : LaneMem) (tag : Fmt) (pend : Bool) : Out :=
  if !issueRoom s x.c (spaceCtr m.space) x.o.flag || !fbRoom s x.c m then stall s
  else
    let s1 := issueOp { s with free := s.free + 1024 } x.c.uid x.c.pf w.block x.o.flag (.mem m)
    laneEnd s1 x.c w zeroLanes tag (if pend then some s.next else none) 0

/-- One access of a lane. -/
def laneAcc (l a size : Nat) (d d2 : W32) : LaneAcc :=
  { lane := l, addr := a, size := size, shift := 0, nib := 0, width := 8 * size, data := d, data2 := d2,
    module := homeModule a }

/-- The operation of an instruction. -/
def memOp (x : LIn) (kind : MemKind) (space : Space) (accs : List LaneAcc) (eas : Nat → Nat) (s : State) : LaneMem :=
  { kind := kind, space := space, block := x.c.w.block, fmt := x.o.fmt,
    signed := x.o.fmt = .i32 && memSize x.o ≠ 4, dst := x.o.dst, act := x.c.act, accs := accs, left := x.c.act,
    wire := 0, got := zeroLanes, ord := memOrd x.o, scope := scopeOf (fld x.o.mods 16 14), clause := x.c.seq,
    vpage := if space = .sp then [] else dedup ((lanesOf x.c.act).map fun l =>
      laneVa s x.c.w space l (eas l) / pageSize), hold := [] }

/-- R146: LD. -/
def execLd (space : Space) (o : LaneOp) (s : State) : Out :=
  laneRead s o false [(o.a, .b32)] fun x =>
    laneGuard x o.fmt <|
      if x.c.act = 0 then emptyMem s x space (breakSpin x.c.w x.c.pf) o.fmt
      else
        let eas := fun l => effAddr x.c o (x.at 0 l) (memSize o)
        checkLanes s x.c space .read (memSize o) eas fun h =>
          let accs := (lanesOf x.c.act).map fun l => laneAcc l (fgetD 0 h l) (memSize o) 0 0
          issueMem s x (breakSpin x.c.w x.c.pf) (memOp x .load space accs eas s) o.fmt true

/-- R146: the accesses of an ST that reach memory: of lanes that write the same bytes, the highest. -/
def storeAccs (l : List LaneAcc) : List LaneAcc :=
  l.filter fun a => !(l.any fun b => a.lane < b.lane && a.addr = b.addr)

/-- R146: ST. A store to another module ends the idempotent region (R148). -/
def execSt (space : Space) (o : LaneOp) (s : State) : Out :=
  laneRead s o false [(o.a, .b32), (o.b, o.fmt)] fun x =>
    laneGuard x .n32 <|
      if x.c.act = 0 then emptyMem s x space (breakSpin x.c.w x.c.pf) .n32
      else
        let eas := fun l => effAddr x.c o (x.at 0 l) (memSize o)
        checkLanes s x.c space .write (memSize o) eas fun h =>
          let accs := storeAccs ((lanesOf x.c.act).map fun l => laneAcc l (fgetD 0 h l) (memSize o) (x.at 1 l) 0)
          let m := memOp x .store space accs eas s
          let w := breakSpin x.c.w x.c.pf
          issueMem s x (if remoteLanes m = 0 then w else endRegion w) m .n32 false

/-- R150, R151: ATOM. -/
def execAtom (oper : Nat) (o : LaneOp) (s : State) : Out :=
  laneRead s o false
      (if oper = 7 then [(o.a, .b32), (o.b, o.fmt), (o.c, o.fmt)] else [(o.a, .b32), (o.b, o.fmt)]) fun x =>
    laneGuard x o.fmt <|
      let space := spaceOf (fld o.mods 9 8)
      if space = .pv then trapL s x.c 0xC1 x.c.act 0
      else if oper = 9 && wmodeRepro x.c.w.wmode then trapL s x.c 0xC0 x.c.act 0
      else if x.c.act = 0 then emptyMem s x space (endRegion (breakSpin x.c.w x.c.pf)) o.fmt
      else
        let eas := fun l => effAddr x.c o (x.at 0 l) 4
        checkLanes s x.c space .write 4 eas fun h =>
          let accs := (lanesOf x.c.act).map fun l => laneAcc l (fgetD 0 h l) 4 (x.at 1 l) (x.at 2 l)
          issueMem s x (endRegion (breakSpin x.c.w x.c.pf)) (memOp x (.atom oper) space accs eas s) o.fmt true

/-- R149: the accesses of a lane of LDT: its elements, for origin o and pitch p. -/
def tileAccs (w : Nat) (hi : Bool) (o p l : Nat) : List LaneAcc :=
  (List.range (32 / w)).map fun e =>
    let L := l * (32 / w) + e + (if hi then 32 else 0)
    let row := 4 * (L / 64) + L % 4
    let col := L % 64 / 4
    { lane := l, addr := o + row * p + col * w / 8, size := (w + 7) / 8, shift := e * w,
      nib := if w = 4 then col % 2 else 0, width := w, data := 0, data2 := 0, module := Config.moduleNo }

/-- R149: LDT. -/
def execLdt (o : LaneOp) (s : State) : Out :=
  laneRead s o false [(o.a, .b32), (o.b, .b32)] fun x =>
    laneGuard x o.fmt <|
      match lowLane x.c.act with
      | none => emptyMem s x .sp (breakSpin x.c.w x.c.pf) o.fmt
      | some m =>
        let w := fmtWidth o.fmt
        let org := effAddr x.c o (x.at 0 m) 8
        let p := (x.at 1 m).toNat % 2 ^ 24
        if org % 8 ≠ 0 || p % 8 ≠ 0 || p < 2 * w then trapL s x.c 0x33 x.c.act (n64 org)
        else
          let accs := fun l => tileAccs w (bitAt o.mods 8) org p l
          match firstCause x.c.act fun l =>
              if (accs l).any fun a => spSize s x.c.w < a.addr + a.size then some 0x40 else none with
          | some (e, k, _) => trapL s x.c e k (n64 org)
          | none => issueMem s x (breakSpin x.c.w x.c.pf)
              (memOp x .tload .sp ((lanesOf x.c.act).flatMap accs) (fun _ => 0) s) o.fmt true

/-! ## The instructions -/

/-- R146. -/
def execLdSp (o : LaneOp) (s : State) : Out := execLd .sp o s
/-- R146. -/
def execLdGs (o : LaneOp) (s : State) : Out := execLd .gs o s
/-- R146. -/
def execLdDm (o : LaneOp) (s : State) : Out := execLd .dm o s
/-- R146. -/
def execLdPv (o : LaneOp) (s : State) : Out := execLd .pv o s
/-- R146. -/
def execStSp (o : LaneOp) (s : State) : Out := execSt .sp o s
/-- R146. -/
def execStGs (o : LaneOp) (s : State) : Out := execSt .gs o s
/-- R146. -/
def execStDm (o : LaneOp) (s : State) : Out := execSt .dm o s
/-- R146. -/
def execStPv (o : LaneOp) (s : State) : Out := execSt .pv o s
/-- R150. -/
def execAtomAdd (o : LaneOp) (s : State) : Out := execAtom 0 o s
/-- R150. -/
def execAtomMin (o : LaneOp) (s : State) : Out := execAtom 1 o s
/-- R150. -/
def execAtomMax (o : LaneOp) (s : State) : Out := execAtom 2 o s
/-- R150. -/
def execAtomAnd (o : LaneOp) (s : State) : Out := execAtom 3 o s
/-- R150. -/
def execAtomOr (o : LaneOp) (s : State) : Out := execAtom 4 o s
/-- R150. -/
def execAtomXor (o : LaneOp) (s : State) : Out := execAtom 5 o s
/-- R150. -/
def execAtomExch (o : LaneOp) (s : State) : Out := execAtom 6 o s
/-- R150. -/
def execAtomCas (o : LaneOp) (s : State) : Out := execAtom 7 o s
/-- R150. -/
def execAtomIncb (o : LaneOp) (s : State) : Out := execAtom 8 o s
/-- R150. -/
def execAtomFadd (o : LaneOp) (s : State) : Out := execAtom 9 o s

end Sys2Proof.Machine
end

