-- ==== Sys2Proof/Machine/MemEvents.lean ====
section
/-! DEFINITION. The events that perform and complete lane memory operations (R147, R148, R151, R152, R262, R264,
R269). -/

namespace Sys2Proof.Machine

/-! ## The order within a path -/

/-- An operation that a rewind has taken from its paths (R240, R270). -/
def disowned (o : Op) : Bool := !o.ownA && !o.ownB

/-- R259, R270: two operations of a warp are in the order of one path; those that a rewind left behind are in the order of
each. -/
def samePath (o e : Op) : Bool :=
  e.warp = o.warp && ((e.ownA && o.ownA) || (e.ownB && o.ownB) || disowned e || disowned o)

/-- The operations that a path of an operation issued before it (R259). -/
def earlierOps (s : State) (o : Op) : List Op := (s.ops.takeWhile fun e => e.id ≠ o.id).filter (samePath o)

/-- R148: an acquire read. -/
def isAcquire (m : LaneMem) : Bool :=
  match m.kind with
  | .load => m.ord = 1
  | .atom _ => m.ord = 1 || m.ord = 3
  | _ => false

/-- R148: a release write. -/
def isRelease (m : LaneMem) : Bool :=
  match m.kind with
  | .store => m.ord = 2
  | .atom _ => m.ord = 2 || m.ord = 3
  | _ => false

/-- R262: lanes of two operations touch a common byte. -/
def touch (m : LaneMem) (lm : W32) (n : LaneMem) (ln : W32) : Bool :=
  (m.space = .sp) = (n.space = .sp) && (m.space ≠ .sp || m.block = n.block) &&
    m.accs.any fun a => lm.getLsbD a.lane && n.accs.any fun b =>
      ln.getLsbD b.lane && a.addr < b.addr + b.size && b.addr < a.addr + a.size

/-- R269: lanes of two operations touch a common granule of another module. -/
def touchRemote (m : LaneMem) (lm : W32) (n : LaneMem) (ln : W32) : Bool :=
  m.space ≠ .sp && n.space ≠ .sp && m.accs.any fun a => lm.getLsbD a.lane && !isLocal a.addr && n.accs.any fun b =>
    ln.getLsbD b.lane && granule a.addr = granule b.addr

/-- R148, R262, R264, R269: lanes of an operation wait for an earlier operation of the path. -/
def waitsFor (m : LaneMem) (lanes : W32) (e : Op) : Bool :=
  match e.body with
  | .mem n =>
    touch m lanes n (openLanes n) || isAcquire n || touchRemote m lanes n (openLanes n) ||
      (isRelease m && !memPerformed n (5 ≤ scopeCode m.scope))
  | .batch _ | .coll _ => false
  | _ => isRelease m

/-- R148: a release of scope POD waits until the path's fb is 0. -/
def fbReady (s : State) (o : Op) (m : LaneMem) : Bool :=
  !(isRelease m && 5 ≤ scopeCode m.scope) ||
    ((!o.ownA || counter s o.warp false .fb = 0) && (!o.ownB || counter s o.warp true .fb = 0))

/-- Lanes of an operation may be performed now. -/
def mayPerform (s : State) (o : Op) (m : LaneMem) (lanes : W32) : Bool :=
  fbReady s o m && (earlierOps s o).all fun e => !waitsFor m lanes e

/-! ## Completion -/

/-- The path that an operation's cause goes to. -/
def opPath (o : Op) : Bool := !o.ownA && o.ownB

/-- R152: poison met by a load or an atomic: it writes nothing, raises 18.0, and its tag is purged. One that a rewind left
behind raises nothing. -/
def poisonTrap (s : State) (o : Op) (w : Warp) (m : LaneMem) : State :=
  if disowned o then dropOp s o.id
  else raiseTrap (dropOp s o.id) o.warp (opPath o)
    { cause := 0x120, lane := true, impr := true, widx := 1, code := 0, lmask := m.act, clauseAddr := 0, va := 0,
      resume := (w.path (opPath o)).pc }

/-- R147: the words that arrived, in the age entries that wait for an operation. -/
def fillAge (id : Nat) (m : LaneMem) (l : List AgeEntry) : List AgeEntry :=
  l.map fun e => if e.pend = some id then { e with data := mergeLanes m.act m.got e.data, pend := none } else e

/-- R147: the result of a load or atomic written to its destination and the age queues. -/
def deliver (w : Warp) (id : Nat) (m : LaneMem) : Warp :=
  let w1 := match m.dst with
    | some d => vwrite w d m.act m.got m.fmt
    | none => w
  { w1 with a := { w1.a with age := fillAge id m w1.a.age }, b := { w1.b with age := fillAge id m w1.b.age } }

/-- R39: the destination's line must be filled before some of its lanes are written. -/
def dstMissing (w : Warp) (m : LaneMem) : Bool :=
  match m.dst with
  | some d => missing w d && m.act != BitVec.allOnes 32
  | none => false

/-- R255, R262: what the completion of an acquire drops from its core's L1: every line for a scope of BLOCK or wider, and
at any scope the lines of the bytes that it read at their home, so that no later load returns an older write. -/
def acquireDrop (s : State) (key : Nat) (m : LaneMem) : State :=
  if !isAcquire m then s
  else
    let t := l1Drop s fun l => l.core = key && m.accs.any fun a => m.space ≠ .sp && a.addr / 128 = l.line
    if 1 ≤ scopeCode m.scope then l1DropCore t key else l1Stale t key

/-- R147, R255: an operation all of whose lanes are done completes. -/
def finishMem (s : State) (id : Nat) : State :=
  match findOp s id with
  | none => s
  | some o =>
    match o.body, fget s.warps o.warp with
    | .mem m, some w =>
      if openLanes m ≠ 0 || dstMissing w m then s
      else
        let s1 := meterMem (dropOp s id) w m
        match m.kind with
        | .store => s1
        | _ => acquireDrop (putWarp s1 o.warp (deliver w id m)) (coreKey w) m
    | _, _ => s

/-- R30: a store or atomic that has no packet out yet waits while a path's fb stands at 255. -/
def fbFull (s : State) (o : Op) (m : LaneMem) : Bool :=
  let full := fun pf => 255 ≤ counter s o.warp pf .fb
  m.wire = 0 && storesOrAtom m && ((o.ownA && full false) || (o.ownB && full true))

/-- R147, R403, R408: the remote lanes of an operation handed over, then `k` on the state and the lanes taken; a lost
route ends the operation with 17.0. -/
def withHanded (s : State) (o : Op) (w : Warp) (m : LaneMem) (lanes : W32) (k : State → W32 → State) : Out :=
  if lanes = 0 || fbFull s o m then .next (k s 0)
  else match handLanes s w { warp := o.warp, path := opPath o, op := some o.id, lanes := 0 } m lanes with
  | .ok t => .next (k t lanes)
  | .full => .next (k s 0)
  | .lost => .next (fabricLoss (dropOp s o.id) o.warp (opPath o) w.fn w.reqtag 0x110)

/-- An operation with lanes moved from left to wire, lanes done and words arrived. The granules on the wire may be held in L1
when they come (R254). -/
def advanceMem (m : LaneMem) (done sent : W32) (got : Lanes) : LaneMem :=
  { m with left := m.left &&& ~~~(done ||| sent), wire := m.wire ||| sent, got := got,
           hold := dedup (m.hold ++ remoteGranules m sent) }

/-- The lane memory operation with a number, and its warp. -/
def withMem (s : State) (id : Nat) (k : Op → LaneMem → Warp → Out) : Out :=
  match findOp s id with
  | none => .next s
  | some o =>
    match o.body, fget s.warps o.warp with
    | .mem m, some w => k o m w
    | _, _ => .next s

/-- LOAD_COMPLETE: lanes of a load are performed. -/
def loadLanes (s : State) (o : Op) (m : LaneMem) (w : Warp) (l : W32) : Out :=
  if !mayPerform s o m l then .next s
  else
    let key := coreKey w
    let loc := (l &&& ~~~ remoteLanes m) ||| l1Lanes s key o.warp m l
    if lanesPoisoned s key o.warp m loc then .next (poisonTrap s o w m)
    else
      let got := mkLanes fun j => if loc.getLsbD j then laneValue s key o.warp m j else lane m.got j
      withHanded (l1FillLanes s w.die w.core key o.warp m loc) o w m (l &&& ~~~ loc) fun t sent =>
        finishMem (setOp t o.id (.mem (advanceMem m loc sent got))) o.id

/-- LOAD_COMPLETE (R147). -/
def execLoadComplete (op lanes : Nat) (s : State) : Out :=
  withMem s op fun o m w =>
    match m.kind with
    | .load | .tload => loadLanes s o m w (n32 lanes &&& m.left)
    | _ => .next s

/-- STORE_COMPLETE (R147): lanes of a store are performed, or accepted into the bobbin. -/
def execStoreComplete (op lanes : Nat) (s : State) : Out :=
  withMem s op fun o m w =>
    let l := n32 lanes &&& m.left
    match m.kind with
    | .store =>
      if !mayPerform s o m l then .next s
      else withHanded s o w m (l &&& remoteLanes m) fun t sent =>
        let done := l &&& ~~~ remoteLanes m
        finishMem (setOp (performStore t (coreKey w) m (done ||| sent)) o.id
          (.mem (advanceMem m done sent m.got))) o.id
    | _ => .next s

/-- R151, R307: lanes of a set that may go: the lanes that name one word go together, and nothing comes between them. -/
def atomReady (m : LaneMem) (lanes : W32) : W32 :=
  maskOf fun l => (m.left &&& lanes).getLsbD l && m.accs.any fun a => a.lane = l &&
    m.accs.all fun b => b.addr ≠ a.addr || lanes.getLsbD b.lane

/-- R254: an ATOM's lanes on their way to another module drop the lines of their words. -/
def atomSend (s : State) (key : Nat) (m : LaneMem) (lanes : W32) : State :=
  (remoteGranules m lanes).foldl (fun t g => l1Forget t key g) s

/-- ATOM_COMPLETE (R147, R151): lanes of an atomic are sent to their home, or applied, ascending. `op` is 2^32 × the
operation's number plus the lanes (R258). Poison of a lane's word here stops it before anything is sent; an atomic writes
nothing here before every other module has answered: poison there stops it too (R152; DEDUCED, log entry 86). -/
def execAtomComplete (op : Nat) (s : State) : Out :=
  let lanes := op % 2 ^ 32
  withMem s (op / 2 ^ 32) fun o m w =>
    match m.kind with
    | .atom k =>
      let far := openLanes m &&& remoteLanes m ≠ 0
      let loc := if far then 0 else atomReady m (n32 lanes) &&& ~~~ remoteLanes m
      let rem := atomReady m (n32 lanes) &&& remoteLanes m
      if !mayPerform s o m (loc ||| rem) then .next s
      else if lanesPoisoned s (coreKey w) o.warp m m.left then .next (poisonTrap s o w m)
      else
        let r := performAtom s (coreKey w) m k loc
        withHanded r.1 o w m rem fun t sent =>
          finishMem (setOp (atomSend t (coreKey w) m sent) o.id (.mem (advanceMem m loc sent r.2))) o.id
    | _ => .next s

/-! ## An acquire that is outstanding (R148, R264) -/

/-- R148: an acquire of a path has not been performed: later accesses of the path wait, the engines' and the S-stream's
too. -/
def acquireOut (s : State) (uid : Nat) (pf : Bool) : Bool :=
  s.ops.any fun o => owns o uid pf && match o.body with
    | .mem m => isAcquire m
    | _ => false

/-- R148: an acquire issued before an operation by its path has not been performed. -/
def acquireBefore (s : State) (o : Op) : Bool :=
  (earlierOps s o).any fun e => match e.body with
    | .mem m => isAcquire m
    | _ => false

/-- R262: an outstanding lane access of a path touches n bytes at an address of a space. -/
def bytesOut (s : State) (uid : Nat) (pf : Bool) (sp : Bool) (block a n : Nat) : Bool :=
  s.ops.any fun o => owns o uid pf && match o.body with
    | .mem m => (m.space = .sp) = sp && (!sp || m.block = block) && m.accs.any fun x =>
        (openLanes m).getLsbD x.lane && x.addr < a + n && a < x.addr + x.size
    | _ => false

/-! ## Poison of granules on other modules (R153, R205, R412) -/

/-- The WRITE that poisons a granule: no words, and both data flits poisoned. -/
def poisPacket (s : State) (fn tag g : Nat) : Packet :=
  { mkPacket s fn tag 2 1 (homeModule (64 * g)) (64 * g) with len := 2, pois := 3, payload := List.replicate 64 0 }

/-- Granules sent for a poisoning operation while the bobbin has room: the state, those still to send, those sent. -/
def sendPois (s : State) (o : Op) (fn tag : Nat) : List Nat → List Nat → State × List Nat × List Nat
  | [], wire => (s, [], wire)
  | g :: r, wire =>
    if bobbinSize ≤ s.fabric.bobbin.length then (s, g :: r, wire)
    else
      let p := poisPacket s fn tag g
      sendPois (acceptPacket s { warp := o.warp, path := opPath o, op := some o.id, lanes := 0 } p
        ((routeNow s p.part p.dst).getD 3)) o fn tag r (wire ++ [g])

/-- A poisoning operation goes on. -/
def advancePois (s : State) (id : Nat) : State :=
  match findOp s id with
  | none => s
  | some o =>
    match o.body, fget s.warps o.warp with
    | .pois va n todo wire, some w =>
      let r := sendPois s o w.fn w.reqtag todo wire
      setOp r.1 id (.pois va n r.2.1 r.2.2)
    | _, _ => s

/-- A path's poisoning operation on a range. -/
def poisOp (s : State) (uid : Nat) (pf : Bool) (va n : Nat) : Option Op :=
  s.ops.find? fun o => owns o uid pf && match o.body with
    | .pois v k _ _ => v = va && k = n
    | _ => false

/-- The current instruction poisons granules of other modules, after the effect `here` on this one: it waits for the path's
accesses to those granules (R269), issues their WRITEs, waits until every one has been acknowledged, and goes on with `done`; a lost route ends it with 17.0 (R408). -/
def poisonAway (s : State) (w : Warp) (va n : Nat) (gs : List Nat) (here : State → State) (done : State → Out) : Out :=
  let uid := s.cur.warp
  let pf := s.cur.path
  match poisOp s uid pf va n with
  | some o =>
    match o.body with
    | .pois _ _ [] [] => done (dropOp s o.id)
    | _ => stall (advancePois s o.id)
  | none =>
    if gs.any fun g => bytesOut s uid pf false w.block (64 * g) 64 then stall s
    else if gs.isEmpty then done (here s)
    else if gs.any fun g => (routeNow s (partOf s w.fn) (homeModule (64 * g))).isNone then
      .next (fabricLoss s uid pf w.fn w.reqtag 0x110)
    else stall (advancePois (issueOp (here s) uid pf w.block none (.pois va n gs [])) s.next)

end Sys2Proof.Machine
end

