-- ==== Sys2Proof/Machine/Matrix.lean ====
section
/-! DEFINITION. Accumulator banks and the matrix instructions: ACC.ALLOC, ACC.FREE, ACC.ZERO, ACC.DRAIN, MMA, MMA.Z,
and the events by which their operations act (R166 to R173). -/

namespace Sys2Proof.Machine

/-! ## Banks (R166) -/

/-- The key of a bank of a warp's core pair. -/
def bankKey (w : Warp) (b : Nat) : Nat := 64 * (64 * w.die + w.core / 2) + b

/-- The keys of a range of banks. -/
def bankRange (w : Warp) (first n : Nat) : List Nat := (List.range n).map fun i => bankKey w (first + i)

/-- R166: a bank is allocated to the warp's block. -/
def ownsBank (s : State) (w : Warp) (k : Nat) : Bool := (fget s.banks k).any fun b => b.block = w.block

/-- Banks with their band claims reset. -/
def unclaim (s : State) (ks : List Nat) : State :=
  { s with banks := ks.foldl (fun t k => fmod t k fun b => { b with claims := [] }) s.banks }

/-- The banks whose order an operation has entered. -/
def opBanks (o : Op) : List Nat :=
  match o.body with
  | .mma _ ks => ks
  | .zero ks => ks
  | .drain _ k => [k]
  | .amv _ k => [k]
  | _ => []

/-- R166: the operations ahead of an operation in the order of a bank have retired. -/
def bankReady (s : State) (o : Op) (k : Nat) : Bool :=
  (s.ops.takeWhile fun e => e.id ≠ o.id).all fun e => !(opBanks e).contains k

/-- R166: some operation is in the order of a bank. -/
def bankBusy (s : State) (k : Nat) : Bool := s.ops.any fun e => (opBanks e).contains k

/-- R148, R164: the .sp accesses that a path issued before an operation have been performed, and so have its acquires. -/
def spReady (s : State) (o : Op) : Bool :=
  !acquireBefore s o && (earlierOps s o).all fun e => match e.body with
    | .mem m => m.space ≠ .sp || openLanes m = 0
    | _ => true

/-- An S-stream trap with no lanes and an offset (R171, R180). -/
def trapAt (s : State) (cause off : Nat) : Out :=
  let uid := s.cur.warp
  let pf := s.cur.path
  match fget s.warps uid with
  | none => .fault .noPath
  | some w => .next (raiseTrap (putWarp s uid (countIssue w)) uid pf
      { sTrap (w.path pf) cause with lmask := 0, va := n64 off })

/-- An engine operation issued by the current path: it waits while its counter is full (R30). -/
def engineIssue (s : State) (w : Warp) (c : Ctr) (ends : Bool) (b : OpBody) (ks : List Nat) : Out :=
  let uid := s.cur.warp
  let pf := s.cur.path
  if 255 ≤ counter s uid pf c then stall s
  else
    let w1 := breakSpin (if ends then endRegion w else w) pf
    retire (issueOp (unclaim s ks) uid pf w.block none b) w1

/-! ## ACC.ALLOC, ACC.FREE, ACC.ZERO (R167) -/

/-- R167: the descriptor is bad. -/
def accDescBad (d : Nat) (alloc : Bool) : Bool :=
  let n := fld d 12 6
  n = 0 || 64 < fld d 5 0 + n || fld d 63 16 ≠ 0 || (if alloc then 4 ≤ fld d 15 13 else fld d 15 13 ≠ 0)

/-- R167: all banks of the range, or none. -/
def execAccAlloc (d a : Nat) (s : State) : Out :=
  onPath s fun w p =>
    let pf := s.cur.path
    let desc := (rx w pf a).toNat
    if !allDone s s.cur.warp pf p then stall s
    else if accDescBad desc true then trapS s 0x51
    else
      let ks := bankRange w (fld desc 5 0) (fld desc 12 6)
      let w1 := breakSpin (endRegion w) pf
      if ks.any fun k => (fget s.banks k).isSome then retire s (wx w1 pf d 0)
      else
        let b : Bank := { block := w.block, band := fld desc 15 13, claims := [], vals := [], pois := [] }
        retire { s with banks := ks.foldl (fun t k => fput t k b) s.banks } (wx w1 pf d 1)

/-- R166, R167: every bank is checked before any is freed. -/
def execAccFree (a : Nat) (s : State) : Out :=
  onPath s fun w p =>
    let pf := s.cur.path
    let desc := (rx w pf a).toNat
    if !allDone s s.cur.warp pf p then stall s
    else if accDescBad desc false then trapS s 0x51
    else
      let ks := bankRange w (fld desc 5 0) (fld desc 12 6)
      if ks.any fun k => !ownsBank s w k then trapS s 0x50
      else if ks.any (bankBusy s) then stall s
      else retire { s with banks := ks.foldl fdel s.banks } (breakSpin (endRegion w) pf)

/-- R167. -/
def execAccZero (a : Nat) (s : State) : Out :=
  onPath s fun w p =>
    let desc := (rx w s.cur.path a).toNat
    if !allIssued p then stall s
    else if accDescBad desc false then trapS s 0x51
    else
      let ks := bankRange w (fld desc 5 0) (fld desc 12 6)
      if ks.any fun k => !ownsBank s w k then trapS s 0x50
      else engineIssue s w .ac false (.zero ks) ks

/-- ACC_ZERO_RETIRE (R167), after the path's earlier acquires (R148, R164). -/
def execAccZeroRetire (op : Nat) (s : State) : Out :=
  match findOp s op with
  | none => .next s
  | some o =>
    match o.body with
    | .zero ks =>
      if ks.all (bankReady s o) && !acquireBefore s o then
        .next (dropOp { s with banks := ks.foldl (fun t k => fmod t k fun b => { b with vals := [], pois := [] }) s.banks } op)
      else .next s
    | _ => .next s

/-! ## ACC.DRAIN (R168) -/

/-- R166: rows per band. -/
def bandRows (band : Nat) : Nat := 32 / 2 ^ band

/-- R168: the bands of rows. -/
def bandsOf (band row0 n : Nat) : List Nat := (List.range (n / bandRows band)).map fun i => row0 / bandRows band + i

/-- R166, R361: a band is claimed by another warp. -/
def foreignBand (b : Bank) (w : Warp) (row0 n : Nat) : Bool :=
  (bandsOf b.band row0 n).any fun i => (fget b.claims i).any (· ≠ w.idx)

/-- R168. -/
def execAccDrain (a d : Nat) (s : State) : Out :=
  onPath s fun w p =>
    let uid := s.cur.warp
    let pf := s.cur.path
    let desc := (rx w pf a).toNat
    let dst := (rx w pf d).toNat
    let row0 := fld desc 10 6
    let n := fld desc 15 11 + 1
    let k := bankKey w (fld desc 5 0)
    if !allDone s uid pf p || drainPending s uid pf (dst % 2 ^ 11) n then stall s
    else if fld desc 63 17 ≠ 0 || dst / 2 ^ 11 ≠ 0 || 32 < row0 + n then trapS s 0x51
    else match fget s.banks k with
    | none => trapS s 0x50
    | some b =>
      if b.block ≠ w.block then trapS s 0x50
      else if row0 % bandRows b.band ≠ 0 || n % bandRows b.band ≠ 0 then trapS s 0x53
      else if foreignBand b w row0 n then trapS s 0x52
      else if w.vregs < dst + n then trapS s 0x81
      else if w.div && (List.range n).any fun i => vtag w (dst + i) ≠ .f32 then trapS s 0x12
      else if 255 ≤ counter s uid pf .ac then stall s
      else
        let zafter := bitAt desc 16
        let b1 := { b with claims := (bandsOf b.band row0 n).foldl (fun c i => fput c i w.idx) b.claims }
        let dr : Drain := { bank := fld desc 5 0, row0 := row0, nrows := n, zafter := zafter, dst := dst, mask := p.k0 }
        engineIssue { s with banks := fput s.banks k b1 } w .ac zafter (.drain dr k) []

/-- A row of a bank. -/
def bankRow (b : Bank) (r : Nat) : Lanes := mkLanes fun c => fgetD 0 b.vals (32 * r + c)

/-- R413: words of a register's line marked poisoned. -/
def markWords (r : Nat) (m : W32) (w : Warp) : Warp :=
  { w with regs := fmod w.regs r fun v => { v with pois := v.pois ||| m } }

/-- R412: the lanes of a row of a bank that lie in poisoned granules. -/
def bankPois (b : Bank) (r : Nat) : W32 :=
  (if b.pois.contains (2 * r) then 0xFFFF else 0) ||| (if b.pois.contains (2 * r + 1) then 0xFFFF0000 else 0)

/-- R168: rows of a bank copied into registers; a poisoned position marks the word that it goes to (R412, R413; DEDUCED, log
entry 106). -/
def drainRows (b : Bank) (d : Drain) (w : Warp) : Warp :=
  (List.range d.nrows).foldl (fun t i => markWords (d.dst + i) (bankPois b (d.row0 + i) &&& d.mask)
    (vwrite t (d.dst + i) d.mask (bankRow b (d.row0 + i)) .f32)) w

/-- R39: a destination's line must be filled first. -/
def drainMissing (w : Warp) (d : Drain) : Bool :=
  d.mask != BitVec.allOnes 32 && (List.range d.nrows).any fun i => missing w (d.dst + i)

/-- ACC_DRAIN_RETIRE (R168), after the path's earlier acquires (R148, R164). -/
def execAccDrainRetire (op : Nat) (s : State) : Out :=
  match findOp s op with
  | none => .next s
  | some o =>
    match o.body, fget s.warps o.warp with
    | .drain d k, some w =>
      match fget s.banks k with
      | none => .next s
      | some b =>
        if !bankReady s o k || acquireBefore s o || drainMissing w d then .next s
        else
          let keep := fun (e : Nat × W32) => !(32 * d.row0 ≤ e.1 && e.1 < 32 * (d.row0 + d.nrows))
          let sound := fun (g : Nat) => !(2 * d.row0 ≤ g && g < 2 * (d.row0 + d.nrows))
          let b1 := if d.zafter then { b with vals := b.vals.filter keep, pois := b.pois.filter sound } else b
          .next (dropOp (putWarp { s with banks := fput s.banks k b1 } o.warp (drainRows b d w)) op)
    | _, _ => .next s

/-! ## MMA (R169 to R172) -/

/-- R170: the formats of an MMA. -/
def mmaFmt (c : Nat) : Bool := [3, 4, 7, 9, 10, 12].contains c

/-- R170: the block length, 0 when there are no scales. -/
def blockLen (d : FDesc) : Nat := if d.blen = 1 then 32 else if d.blen = 2 then 16 else 0

/-- R170: a descriptor is invalid by itself. -/
def fdescBad (d : FDesc) : Bool :=
  d.resv || !mmaFmt d.efmt || 3 ≤ d.blen || (d.blen ≠ 0 && (d.efmt = 3 || d.efmt = 4)) ||
    (d.blen = 0 && (d.efmt = 12 || d.efmt = 7))

/-- R170: 14.2. -/
def fblockBad (a b : FDesc) : Bool :=
  fdescBad a || fdescBad b || a.blen ≠ b.blen ||
    (a.efmt ≠ b.efmt && !((a.efmt = 9 && b.efmt = 10) || (a.efmt = 10 && b.efmt = 9)))

/-- An operand matrix (R171). -/
structure MatOp where
  base : Nat
  rpitch : Nat
  tpitch : Nat
  rot : Nat
  resv : Bool

/-- R171: the fields of an operand pair. -/
def matOp (x y : W64) : MatOp :=
  { base := fld x.toNat 31 0, rpitch := fld x.toNat 55 32, tpitch := fld y.toNat 23 0, rot := fld y.toNat 26 24,
    resv := fld x.toNat 63 56 ≠ 0 || fld y.toNat 63 27 ≠ 0 }

/-- R171: the geometry is invalid, but for RPITCH below 2 × w. -/
def matBad (m : MatOp) : Bool :=
  let unit := if m.rot = 0 then 8 else 16 * 2 ^ m.rot
  m.resv || 3 < m.rot || m.base % unit ≠ 0 || m.rpitch % unit ≠ 0 || m.tpitch % unit ≠ 0

/-- R171: the byte offset of element (q, k) for width w, and the bit within it. -/
def matAddr (m : MatOp) (w q k : Nat) : Nat :=
  (m.base + k / 16 * m.tpitch + q * m.rpitch + k % 16 * w / 8) ^^^ (q % 2 ^ m.rot * 16)

/-- R171: one past the highest byte of an operand. -/
def matEnd (m : MatOp) (w rows k : Nat) : Nat :=
  (List.range rows).foldl (fun t q =>
    (List.range 16).foldl (fun u i => max u (matAddr m w q (k - 16 + i) + (w + 7) / 8)) t) 0

/-- R171, R172: the first operand or scale array that passes S. -/
def mmaBeyond (h : MmaShape) (a b : MatOp) (da db : FDesc) (S : Nat) : Option Nat :=
  let past := fun (m : MatOp) (d : FDesc) rows => S < matEnd m (fmtWidth (fmtOf d.efmt)) rows h.k
  let scale := fun (d : FDesc) rows => blockLen d ≠ 0 && S < d.scale + rows * (h.k / blockLen d)
  if past a da h.m then some a.base
  else if past b db h.n then some b.base
  else if scale da h.m then some da.scale
  else if scale db h.n then some db.scale
  else none

/-- R170, R171: 14.3 where K or RPITCH breaks the formats of the format block. -/
def mmaFormatShort (h : MmaShape) (a b : MatOp) (da db : FDesc) : Bool :=
  let long := fun (d : FDesc) => blockLen d ≠ 0 && h.k % blockLen d ≠ 0
  let short := fun (m : MatOp) (d : FDesc) => mmaFmt d.efmt && m.rpitch < 2 * fmtWidth (fmtOf d.efmt)
  long da || long db || short a da || short b db

/-- R169, R171: 14.3 where the registers alone break it. -/
def mmaGeometryBad (h : MmaShape) (a b : MatOp) : Bool := h.resv || h.k % 16 ≠ 0 || matBad a || matBad b

/-- R172: MMA or MMA.Z as issued: its sequencer record, or the check that fails, in the order of R172, with the offset of a
4.0. The format's part of 14.3 is judged with the rest of 14.3, where the format block lies within S. A poisoned format block
raises 18.0 as it is read (R186; DEDUCED, log entry 105). -/
def mmaChecks (s : State) (w : Warp) (pf z : Bool) (d a b : Nat) : Except (Nat × Option Nat) SeqRec :=
  let ctl := rx w pf d
  let h := mmaShape ctl
  let A := matOp (rx w pf a) (rx w pf (a + 1))
  let B := matOp (rx w pf b) (rx w pf (b + 1))
  let S := spSize s w
  let off := 16 * h.fbo
  let fb := rdBytes (spCells s w.block) off 32
  let da := fdesc fb 0
  let db := fdesc fb 16
  if w.core % 2 = 1 then .error (0xE0, none)
  else if a % 2 = 1 || a = 0 || b % 2 = 1 || b = 0 then .error (0xE1, none)
  else if mmaGeometryBad h A B || (off + 32 ≤ S && mmaFormatShort h A B da db) then .error (0xE3, none)
  else if 64 < h.bank + h.mt * h.nt then .error (0x51, none)
  else if S < off + 32 then .error (0x40, some off)
  else if poisonedIn (spPoison s w.block) off 32 then .error (0x120, none)
  else if fblockBad da db then .error (0xE2, none)
  else if (bankRange w h.bank (h.mt * h.nt)).any fun k => !ownsBank s w k then .error (0x50, none)
  else match mmaBeyond h A B da db S with
  | some past => .error (0x40, some past)
  | none => .ok { ctl := ctl, opa0 := rx w pf a, opa1 := rx w pf (a + 1), opb0 := rx w pf b, opb1 := rx w pf (b + 1),
                  fblk := fb, step := 1, z := z, path := pf, metered := 1, seen := [] }

/-- MMA and MMA.Z (R172). The format block is read at issue, after the path's earlier stores to it (R164, R262) and its
acquires (R148). -/
def mma (z : Bool) (d a b : Nat) (s : State) : Out :=
  onPath s fun w p =>
    let uid := s.cur.warp
    let pf := s.cur.path
    let h := mmaShape (rx w pf d)
    if !allIssued p || acquireOut s uid pf || bytesOut s uid pf true w.block (16 * h.fbo) 32 then stall s
    else match mmaChecks s w pf z d a b with
    | .error (c, some off) => trapAt s c off
    | .error (c, none) => trapS s c
    | .ok r =>
      let ks := bankRange w h.bank (h.mt * h.nt)
      engineIssue s w .ac (!z) (.mma r ks) ks

/-- R172. -/
def execMma (d a b : Nat) (s : State) : Out := mma false d a b s
/-- R172. -/
def execMmaZ (d a b : Nat) (s : State) : Out := mma true d a b s

/-! ## The steps of an MMA -/

/-- R170, R171: the value of element (row q, k) of an operand, with its scale. -/
def matElem (cells : List Host.Cell) (m : MatOp) (d : FDesc) (K q k : Nat) : Num :=
  let f := fmtOf d.efmt
  let w := fmtWidth f
  let raw := rdLe cells (matAddr m w q k) ((w + 7) / 8) / 2 ^ (if w = 4 then 4 * (k % 2) else 0) % 2 ^ w
  if blockLen d = 0 then decodeNum f raw
  else
    let sc := rdLe cells (d.scale + q * (K / blockLen d) + k / blockLen d) 1
    (mulNums (decodeNum .e8m0 sc) (mxElem f raw)).1

/-- R60: dotgroup of row i of A and row j of B in a group. -/
def dotGroup (cells : List Host.Cell) (h : MmaShape) (a b : MatOp) (da db : FDesc) (i j g : Nat) : W32 :=
  let ks := (List.range (min 32 (h.k - 32 * g))).map fun t => 32 * g + t
  f32Of (dotSum (ks.map fun k => (matElem cells a da h.k i k, matElem cells b db h.k j k)))

/-- R61, R172: one position after a group. -/
def mmaPos (z : Bool) (g : Nat) (old d : W32) : W32 :=
  if z && g = 0 then d else f32Of (sumNums 1 [f32Val old, f32Val d]).1

/-- R172: one step: group g of the bank at offset o. A granule that group 0 of MMA.Z writes whole is no longer poisoned. -/
def stepBank (cells : List Host.Cell) (h : MmaShape) (r : SeqRec) (o g : Nat) (b : Bank) : Bank :=
  let A := matOp r.opa0 r.opa1
  let B := matOp r.opb0 r.opb1
  let da := fdesc r.fblk 0
  let db := fdesc r.fblk 16
  let i0 := 32 * (o / h.nt)
  let j0 := 32 * (o % h.nt)
  let rows := min 32 (h.m - i0)
  let cols := min 32 (h.n - j0)
  let whole := fun (n : Nat) => r.z && g = 0 && n / 2 < rows && 16 * (n % 2 + 1) ≤ cols
  { b with vals := (List.range rows).foldl (fun t i => (List.range cols).foldl (fun u j =>
      fputD 0 u (32 * i + j) (mmaPos r.z g (fgetD 0 b.vals (32 * i + j))
        (dotGroup cells h A B da db (i0 + i) (j0 + j) g))) t) b.vals,
           pois := b.pois.filter fun n => !whole n }

/-- R171: the scratchpad bytes that step g of the bank at offset o reads of an operand, with its scales. -/
def operandBytes (m : MatOp) (d : FDesc) (K row0 rows g : Nat) : List Nat :=
  let w := fmtWidth (fmtOf d.efmt)
  (List.range rows).flatMap fun i => (List.range (min 32 (K - 32 * g))).flatMap fun t =>
    let k := 32 * g + t
    (List.range ((w + 7) / 8)).map (matAddr m w (row0 + i) k + ·) ++
      (if blockLen d = 0 then [] else [d.scale + (row0 + i) * (K / blockLen d) + k / blockLen d])

/-- R84, R180: a cause of an engine operation raised on its path; one that a rewind left behind raises nothing. -/
def lateTrap (s : State) (o : Op) (cause : Nat) : State :=
  match fget s.warps o.warp with
  | none => s
  | some w =>
    if disowned o then s else raiseTrap s o.warp (opPath o) { sTrap (w.path (opPath o)) cause with impr := true }

/-- R164: a scratchpad byte that an engine operation reads, once, as it stands then. -/
def latchByte (cells : List Host.Cell) (seen : FMap Byte) (a : Nat) : FMap Byte :=
  if (fget seen a).isSome then seen else fput seen a (rdByte cells a)

/-- The scratchpad bytes that step g of the bank at offset o of an MMA reads. -/
def stepBytes (h : MmaShape) (r : SeqRec) (o g : Nat) : List Nat :=
  let i0 := 32 * (o / h.nt)
  let j0 := 32 * (o % h.nt)
  operandBytes (matOp r.opa0 r.opa1) (fdesc r.fblk 0) h.k i0 (min 32 (h.m - i0)) g ++
    operandBytes (matOp r.opb0 r.opb1) (fdesc r.fblk 16) h.k j0 (min 32 (h.n - j0)) g

/-- R164: the bytes that an MMA has read when a step that reads some bytes runs: those of earlier reads as they were
read, and the others as they now stand. -/
def mmaLatch (cells : List Host.Cell) (r : SeqRec) (l : List Nat) : FMap Byte := l.foldl (latchByte cells) r.seen

/-- R412: a step reads a byte for the first time that is poisoned. -/
def stepPoisoned (pois : List Nat) (r : SeqRec) (l : List Nat) : Bool :=
  l.any fun a => (fget r.seen a).isNone && poisonedIn pois a 1

/-- R172: the next step of an MMA run, or its retirement after the last. Poison that a step reads raises 18.0, which is not
precise, and the MMA ends there (R186, R412; DEDUCED, log entry 105). Its sequencer record is empty once it runs on (R173). -/
def mmaRun (s : State) (o : Op) (r : SeqRec) (ks : List Nat) (w : Warp) : State :=
  let h := mmaShape r.ctl
  let i := (r.step - 1) % (h.mt * h.nt)
  let g := (r.step - 1) / (h.mt * h.nt)
  let k := ks.getD i 0
  let l := stepBytes h r i g
  if !bankReady s o k || !spReady s o then s
  else if stepPoisoned (spPoison s o.block) r l then
    lateTrap (dropOp (countMacs s w r r.step) o.id) o 0x120
  else
    let seen := mmaLatch (spCells s o.block) r l
    let s1 := { s with
      banks := fmod s.banks k fun b => stepBank seen h r i g b
      blocks := fmod s.blocks o.block fun b => { b with seqs := ffilter b.seqs fun _ e => e.1 ≠ o.id } }
    if h.steps ≤ r.step then dropOp (countMacs s1 w r (r.step + 1)) o.id
    else setOp s1 o.id (.mma { r with step := r.step + 1, seen := seen } ks)

/-- R164: a scratchpad byte that an MMA, AMV or AMV.T reads ahead of its step, at some time after its issue. -/
def spRead (s : State) (id a : Nat) : State :=
  match findOp s id with
  | none => s
  | some o =>
    if !spReady s o || poisonedIn (spPoison s o.block) a 1 then s
    else match o.body with
    | .mma r ks => setOp s id (.mma { r with seen := latchByte (spCells s o.block) r.seen a } ks)
    | .amv v k =>
      if v.inOff ≤ a && a < v.inOff + 1024
        then setOp s id (.amv { v with seen := latchByte (spCells s o.block) v.seen a } k) else s
    | _ => s

/-- MMA_STEP (R172). -/
def execMmaStep (op : Nat) (s : State) : Out :=
  match findOp s op with
  | none => .next s
  | some o =>
    match o.body, fget s.warps o.warp with
    | .mma r ks, some w => if w.st = .saved then .next s else .next (mmaRun s o r ks w)
    | _, _ => .next s

end Sys2Proof.Machine
end

