-- ==== Sys2Proof/Machine/Analogue.lean ====
section
/-! DEFINITION. AMV and AMV.T (R62, R174 to R176, R280 to R283). -/

namespace Sys2Proof.Machine

/-! ## Issue (R174, R175) -/

/-- R374: the region that a handle names for a function. -/
def grantedRegion (s : State) (fn handle : Nat) : Option Nat :=
  match fget s.funcs fn with
  | none => none
  | some f => if handle = 0 then none else (f.grants.find? fun g => g.1 = handle).map (·.2)

/-- R284, R370: a region takes AMVs. -/
def inService (r : Region) : Bool := r.st = .inService && r.leaving = none

/-- The key of a tile of a region. -/
def tileKey (rsl csl : Nat) : Nat := 256 * rsl + csl

/-- AMV and AMV.T (R175). -/
def amv (transposed : Bool) (d a b : Nat) (s : State) : Out :=
  onPath s fun w p =>
    let pf := s.cur.path
    let va := (rx w pf a).toNat
    let vb := (rx w pf b).toNat
    let vd := (rx w pf d).toNat
    let inOff := fld vb 31 0
    let rsl := fld va 39 32
    let csl := fld va 47 40
    if !allIssued p then stall s
    else if fld va 63 48 ≠ 0 || fld vd 63 6 ≠ 0 || inOff % 64 ≠ 0 then trapS s 0xF3
    else match grantedRegion s w.fn (fld va 31 0) with
    | none => trapS s 0xF0
    | some rg =>
      match fget s.arrays.regions rg with
      | none => trapS s 0xF0
      | some r =>
        if r.rs ≤ rsl || r.cs ≤ csl then trapS s 0xF1
        else if !inService r then trapS s 0xF2
        else if spSize s w < inOff + 1024 then trapAt s 0x40 inOff
        else
          let k := bankKey w (fld vd 5 0)
          if !ownsBank s w k then trapS s 0x50
          else match fget r.tiles (tileKey rsl csl) with
          | none => trapS s 0x100
          | some t =>
            if !t.published then trapS s 0x100
            else
              let op : AmvOp := { transposed := transposed, region := rg, tile := tileKey rsl csl, inOff := inOff,
                                  isc := n32 (fld vb 63 32), bank := fld vd 5 0, copy := t.cur, seen := [] }
              engineIssue s w .an true (.amv op k) [k]

/-- R175. -/
def execAmv (d a b : Nat) (s : State) : Out := amv false d a b s
/-- R175, R283. -/
def execAmvT (d a b : Nat) (s : State) : Out := amv true d a b s

/-! ## Compensation copies (R282) -/

/-- R280: the word of a nominal copy: off −512 and g 32. R280 does not give the drift factors; they are 0 (DESIGN CHOICE, log
entry 107). -/
def nominalWord (i : Nat) : W32 :=
  let j := if i < 0x1800 then some i else if 0x2800 ≤ i && i < 0x4000 then some (i - 0x2800) else none
  match j with
  | none => 0
  | some j => if j % 6 = 0 then 0xC4000000 else if j % 6 = 1 then 0x42000000 else 0

/-- The FP32 word of a copy at a word offset. -/
def copyWord (c : CompCopy) (i : Nat) : W32 :=
  match fget c.words i with
  | some v => v
  | none => if c.nominal then nominalWord i else 0

/-- The copy of a tile by its number. -/
def tileCopy (t : Tile) (n : Nat) : CompCopy := if n = 0 then t.c0 else t.c1

/-- R282: the virtual die that a site's firmware memory lies on: the one bound to the site. -/
def siteDie (s : State) (site : Nat) : Nat := (s.bind.find? fun e => e.2 = site).elim site (·.1)

/-- R282: the address of a compensation copy of a tile. -/
def copyAddr (s : State) (r : Region) (t : Tile) (copy : Nat) : Nat :=
  fwSlot (siteDie s r.site) (256 + t.store) + 0x14000 * copy

/-- R282: the poison of the half of a copy that an AMV or AMV.T reads. An error in the other half raises nothing: the form
reads no byte of it (DEDUCED, log entry 108). -/
def copyPoisoned (s : State) (r : Region) (t : Tile) (a : AmvOp) : Bool :=
  poisonedIn s.pois (copyAddr s r t a.copy + if a.transposed then 0xA000 else 0) 0xA000

/-- R282: factor m (0 off, 1 g, 2 to 5 u) of output j. -/
def outFactor (c : CompCopy) (tr : Bool) (j m : Nat) : Num :=
  f32Val (copyWord c ((if tr then 0x2800 else 0) + 6 * j + m))

/-- R282: drift factor m of input i. -/
def inFactor (c : CompCopy) (tr : Bool) (i m : Nat) : Num :=
  f32Val (copyWord c ((if tr then 0x4000 else 0x1800) + 4 * i + m))

/-! ## One output (R62) -/

/-- The weights that an output sums, by input: a column's for AMV, a row's for AMV.T (R280, R283). -/
def outWeights (t : Tile) (tr : Bool) (j : Nat) : List (Nat × Int) :=
  if tr then (t.w.filter fun e => e.1 / 1024 = j).map fun e => (e.1 % 1024, e.2)
  else (t.w.filter fun e => e.1 % 1024 = j).map fun e => (e.1 / 1024, e.2)

/-- R280: the plane sum of an output. -/
def planeSum (ws : List (Nat × Int)) (xs : List Byte) (p : Nat) : Int :=
  (ws.map fun e => if (xs.getD e.1 0).getLsbD p then e.2 else 0).foldl (· + ·) 0

/-- R280: the nominal code of a plane sum, ties to even. -/
def nominalCode (d : Int) : Nat :=
  let q := d / 32
  let r := d % 32
  let n := 512 + (if r < 16 then q else if 16 < r then q + 1 else if q % 2 = 0 then q else q + 1)
  (max 0 (min 1023 n)).toNat

/-- R62: acc from the codes of the eight planes. -/
def accOf (code : Nat → Nat) : Int :=
  ((List.range 8).map fun p => (if p = 7 then -1 else 1) * (2 ^ p : Int) * code p).foldl (· + ·) 0

/-- R62: y, rounded once. -/
def yOf (acc : Int) (off g cs isc : Num) : W32 :=
  let diff := (sumNums 1 [.ofInt acc, off.neg]).1
  f32Of (mulNums (mulNums (mulNums diff g).1 cs).1 isc).1

/-- A finite number. -/
def Num.isFin : Num → Bool
  | .fin _ _ _ _ => true
  | _ => false

/-- The magnitude of a number. -/
def Num.abs (v : Num) : Num := v.withSign false

/-- R281: the bound on y, for the exact sum Σ w x. It is not judged for a scale that is no number. -/
def yInBound (y : W32) (sum : Int) (cs isc : Num) : Bool :=
  let sc := (mulNums cs isc).1
  if !sc.isFin then true
  else if !(f32Val y).isFin then false
  else
    let want := (mulNums sc (.ofInt sum)).1
    let err := (sumNums 1 [f32Val y, want.neg]).1
    !numLt (mulNums (.ofInt 15360) sc.abs).1 err.abs

/-- R281: whether every output of a direction keeps the bound with a copy. With g and off the output's factors, its y leaves
the exact sum S by at most |S| × |g/32 − 1| + |g| × (127.5 + |512 + off|), where |S| ≤ 15 × 128 × 1,024 and the codes are
the nominal ones; one unit of the bound is kept for the rounding of y (DESIGN CHOICE, log entry 4). -/
def outputKeeps (c : CompCopy) (tr : Bool) (j : Nat) : Bool :=
  let off := outFactor c tr j 0
  let g := outFactor c tr j 1
  let gain := (sumNums 1 [(mulNums g (f32Val 0x3D000000)).1, .ofInt (-1)]).1
  let lean := (sumNums 1 [(sumNums 1 [.ofInt 512, off]).1.abs, f32Val 0x42FF0000]).1
  let err := (sumNums 1 [(mulNums gain.abs (.ofInt 1966080)).1, (mulNums g.abs lean).1]).1
  off.isFin && g.isFin && !numLt (.ofInt 15359) err

/-- R281: a copy keeps the bound. Outputs whose words a nominal copy does not list are nominal. -/
def copyKeeps (c : CompCopy) : Bool :=
  let listed := fun (tr : Bool) j =>
    !c.nominal || (List.range 6).any fun m => (fget c.words ((if tr then 0x2800 else 0) + 6 * j + m)).isSome
  [false, true].all fun tr => ((List.range 1024).filter (listed tr)).all (outputKeeps c tr)

/-- R281: the codes of an output. They are not architectural: the free codes, where they keep the bound; otherwise
the nominal ones (log entry 4). -/
def codesOf (seed : Nat) (ws : List (Nat × Int)) (xs : List Byte) (off g cs isc : Num) : Nat → Nat :=
  let free := fun p => Config.freeCode seed p % 1024
  let sum := (ws.map fun e => e.2 * (xs.getD e.1 0).toInt).foldl (· + ·) 0
  if yInBound (yOf (accOf free) off g cs isc) sum cs isc then free else fun p => nominalCode (planeSum ws xs p)

/-- R62: z_m. -/
def zOf (c : CompCopy) (tr : Bool) (xs : List Byte) (isc : Num) (m : Nat) : W32 :=
  let terms := (List.range 1024).map fun i => (mulNums (inFactor c tr i m) (.ofInt (xs.getD i 0).toInt)).1
  f32Of (mulNums isc (sumNums 1 terms).1).1

/-- R62: y + e of output j, with the codes of the run. -/
def amvOut (seed : Nat) (t : Tile) (c : CompCopy) (tr : Bool) (xs : List Byte) (isc cs : Num) (zs : List W32)
    (j : Nat) : W32 :=
  let ws := outWeights t tr j
  let off := outFactor c tr j 0
  let g := outFactor c tr j 1
  let y := yOf (accOf (codesOf (seed + j) ws xs off g cs isc)) off g cs isc
  let e := f32Of (dotSum ((List.range 4).map fun m => (outFactor c tr j (2 + m), f32Val (zs.getD m 0))))
  f32Of (sumNums 1 [f32Val y, f32Val e]).1

/-- R175: the results added to the bank, output j at position (j div 32, j mod 32). -/
def amvBank (s : State) (r : Region) (t : Tile) (a : AmvOp) (xs : List Byte) (b : Bank) : Bank :=
  let c := tileCopy t a.copy
  let isc := f32Val a.isc
  let zs := (List.range 4).map fun m => zOf c a.transposed xs isc m
  let cs := fun j => if a.transposed then f32Val 0x3F800000
    else f32Val (fgetD 0 r.scales (1024 * (a.tile % 256) + j))
  { b with vals := (List.range 1024).foldl (fun v j =>
      fputD 0 v j (f32Of (sumNums 1 [f32Val (fgetD 0 b.vals j),
        f32Val (amvOut s.free t c a.transposed xs isc (cs j) zs j)]).1)) b.vals }

/-- R164, R175: the inputs: those read early as they stood then, the others as they stand now. -/
def amvInputs (cells : List Host.Cell) (a : AmvOp) : List Byte :=
  (List.range 1024).map fun i => (fget a.seen (a.inOff + i)).getD (rdByte cells (a.inOff + i))

/-- AMV_RETIRE (R175). A poisoned input granule, or an uncorrectable error in the part of the copy that the form reads
(R282), raises 18.0, and the bank is not changed. -/
def execAmvRetire (op : Nat) (s : State) : Out :=
  match findOp s op with
  | none => .next s
  | some o =>
    match o.body, fget s.warps o.warp with
    | .amv a k, some w =>
      match fget s.arrays.regions a.region, fget s.banks k with
      | some r, some b =>
        match fget r.tiles a.tile with
        | none => .next s
        | some t =>
          if !bankReady s o k || !spReady s o then .next s
          else if poisonedIn (spPoison s o.block) a.inOff 1024 || copyPoisoned s r t a then
            .next (lateTrap (dropOp s op) o 0x120)
          else
            let xs := amvInputs (spCells s o.block) a
            let s1 := { s with banks := fput s.banks k (amvBank s r t a xs b), free := s.free + 1024 }
            .next (dropOp (meterWarp s1 w (if a.transposed then 7 else 6) 1) op)
      | _, _ => .next s
    | _, _ => .next s

end Sys2Proof.Machine
end

