-- ==== Sys2Proof/Machine/LaunchRec.lean ====
section
/-! DEFINITION. Launch records in memory (R221) and the queue that LAUNCH and the ring fill (R117, R322). -/

namespace Sys2Proof.Machine

/-- n little-endian bytes at an offset of a structure. -/
def at' (b : List Byte) (off n : Nat) : Nat := leNat ((b.drop off).take n)

/-- R221: the fields of a launch record. -/
def parseRec (b : List Byte) : LaunchRec :=
  { entry := at' b 0x00 8, lbase := at' b 0x08 8, ptab := at' b 0x10 8, ctxb := at' b 0x18 8, vregs := at' b 0x20 2,
    tag := at' b 0x22 2, prio := at' b 0x24 1 % 8, repro := bitAt (at' b 0x25 1) 0, gang := bitAt (at' b 0x25 1) 1,
    affinity := at' b 0x26 1 % 16, bwarps := at' b 0x27 1, gridx := at' b 0x28 4, gridy := at' b 0x2C 4,
    gridz := at' b 0x30 4, lastmask := at' b 0x34 4, spbytes := at' b 0x38 4, nbar := at' b 0x3C 1,
    seed := at' b 0x40 4, pvlimit := at' b 0x44 4, pvbase := at' b 0x48 8, pvhwm := at' b 0x50 4, done := at' b 0x58 8,
    pre := (List.range 4).map fun i => at' b (0x60 + 8 * i) 8,
    gates := (List.range 4).map fun d => (at' b (0x80 + 8 * d) 4, at' b (0x84 + 8 * d) 4),
    resv := at' b 0x24 1 / 8 ≠ 0 || at' b 0x25 1 / 4 ≠ 0 || at' b 0x26 1 / 16 ≠ 0 || at' b 0x3D 3 ≠ 0 ||
      at' b 0x54 4 ≠ 0 || at' b 0xA0 32 ≠ 0 }

/-- R222: the blocks of a grid. -/
def gridSize (r : LaunchRec) : Nat := r.gridx * r.gridy * r.gridz

/-- R34: the slot size in bytes. -/
def slotSize (vregs : Nat) : Nat := roundUp (4096 + 128 * vregs) 4096

/-- R117, R322: a record placed on the function's admission queue under an identifier. -/
def enqueueLaunch (s : State) (fn : Nat) (dev : Bool) (r : LaunchRec) (id : Nat) : State :=
  let l : Launch :=
    { id := n64 id, fn := fn, dev := dev, lrec := r, sub := s.next, xd := funcXlate s fn, st := .queued, cause := 0,
      gate := [], placedN := [], back := [], endedN := 0, tadm := 0, recWritten := false, recWaits := false,
      lbars := [] }
  { s with launches := fput s.launches s.next l, next := s.next + 1 }

/-- R117: device launches of a function not yet admitted. -/
def devQueued (s : State) (fn : Nat) : Nat :=
  (s.launches.filter fun e => e.2.fn = fn && e.2.dev && e.2.st = .queued).length

end Sys2Proof.Machine
end

