-- ==== Sys2Proof/Machine/Slot.lean ====
section
/-! DEFINITION. Context slots: where they lie (R34), the header (R35, R36, R105), register lines (R37, R39), and their
translation (R340). -/

namespace Sys2Proof.Machine

/-! ## Addresses (R34) -/

/-- The virtual address of a warp's slot; for firmware's own contexts, the physical address of the supervisor slot's
context base (R383) or of the patrol core's (log entry 85). -/
def slotVa (s : State) (w : Warp) : Nat :=
  match w.kind with
  | .kernel => (warpLaunch s w).elim 0 fun l => l.lrec.ctxb + w.gwi * slotSize l.lrec.vregs
  | .supervisor => (supOf s (coreKey w)).base.toNat
  | .patrol => fwSlot w.die 128

/-- The virtual address of a register's line. -/
def regVa (s : State) (w : Warp) (n : Nat) : Nat := slotVa s w + 0x1000 + 128 * n

/-- What the translation of a context address gives (R340). -/
inductive CtxRes where
  | ok (addr : Nat)
  | bad (cause : Nat)
  | migrate (leaf : Nat)
  | far (uid addr n : Nat)
  | lost
  | wait
  deriving DecidableEq, Repr

/-- R37: whether the page of an address is mapped with user access. -/
def userPage (s : State) (q : XReq) (va : Nat) : Bool :=
  match findLeaf s q va with
  | .ok a => (readLeaf s a).u
  | .error _ => false

/-- R340: a context fill or write-back translated: 8.0 for an absent part, 8.2 for any other failure and for a page
with U = 1. Firmware's own contexts lie in its own pages, at physical addresses. -/
def ctxXlate (s : State) (w : Warp) (acc : Acc) (va : Nat) : CtxRes :=
  if w.kind ≠ .kernel then .ok va
  else
    let q := { warpReq s w false acc none with fill := true }
    match walk s q va with
    | .ok a => if userPage s q va then .bad 0x82 else .ok a
    | .fault f => .bad (if f.cause = 0x80 then 0x80 else 0x82)
    | .migrate leaf => .migrate leaf
    | .moving => .wait

/-- R352, R401, R408: what a context access that has to wait does: a page that the host owns is asked for, bytes of another
module are fetched, and a lost route ends the launch as that of a lane access does (DEDUCED, log entry 101). -/
def ctxWait (s : State) (uid : Nat) (w : Warp) (va : Nat) : CtxRes → State
  | .migrate leaf => migrate s uid w false (if w.a.live then w.a.pc else w.b.pc) leaf va
  | .far u a n => match farBytes s w.fn w.reqtag (Reader.context u) a n with
    | .wait t => t
    | _ => s
  | .lost => purgeKey s w.fn w.reqtag 0x110
  | _ => s

/-- A context lies here: firmware's own contexts, and those whose page has its home on this module. -/
def ctxHere (w : Warp) (a : Nat) : Bool := w.kind ≠ .kernel || isLocal a

/-- A context write to these bytes of another module has not been acknowledged. -/
def ctxUnsent (s : State) (a n : Nat) : Bool :=
  s.fabric.bobbin.any fun e => e.op.isNone && e.lanes = 4 && a ≤ e.pkt.addr && e.pkt.addr < a + n

/-- Bytes of a context, with whether they are poisoned. Those of another module come by READ packets, after the writes to
them (log entry 101). -/
def ctxRead (s : State) (uid : Nat) (w : Warp) (a n : Nat) : Except CtxRes (State × List Byte × Bool) :=
  if ctxHere w a then .ok (s, rdBytes s.mem a n, poisonedIn s.pois a n)
  else if ctxUnsent s a n then .error .wait
  else match farBytes s w.fn w.reqtag (Reader.context uid) a n with
    | .ok t b bad => .ok (t, b, bad)
    | .wait _ => .error (.far uid a n)
    | .lost _ => .error .lost

/-- Bytes of a context written, whole granules of them; those of another module by WRITE packets. -/
def ctxWrite (s : State) (uid : Nat) (w : Warp) (a : Nat) (b : List Byte) : Except CtxRes State :=
  if ctxHere w a then .ok { s with mem := wrBytes s.mem a b }
  else
    let pieces := (List.range (b.length / 64)).map fun i => (a + 64 * i, (b.drop (64 * i)).take 64)
    if (routeNow s (partOf s w.fn) (homeModule a)).isNone then .error .lost
    else match farWrite w.fn w.reqtag uid s pieces with
    | some t => .ok t
    | none => .error .wait

/-! ## The header (R35, R36) -/

/-- The level that CTXSTAT shows for a warp: that of its path A, or of path B when A has ended. -/
def warpPriv (w : Warp) : BitVec 2 := if w.a.live then w.a.priv else w.b.priv

/-- R36, with the level of a given path. -/
def ctxstat (w : Warp) (priv : BitVec 2) : Nat :=
  priv.toNat + b2n w.div * 2 ^ 2 + b2n (w.st = .parked && w.parkCtx) * 2 ^ 3 + w.dstack.length % 64 * 2 ^ 4 +
    b2n w.markv * 2 ^ 10 + w.reqtag % 2 ^ 16 * 2 ^ 16 + w.wdc % 2 ^ 32 * 2 ^ 32

/-- Zero bytes. -/
def zeros (n : Nat) : List Byte := List.replicate n 0

/-- R35: the block of a path, with its flags as they stand. The seven counters are zero: a context is written once they
have drained, and what the engines still owe is kept with the block's state (R37, R165, R362). -/
def pathBlock (s : State) (uid : Nat) (w : Warp) (pf : Bool) : List Byte :=
  let flags := (List.range 12).foldl (fun t f => t + b2n (flagPending s uid pf f) * 2 ^ f) 0
  ((List.range 16).flatMap fun i => leBytes 4 (rk w pf i).toNat) ++ leBytes 4 flags ++
    zeros 14 ++ zeros 46

/-- R35: the x registers of a path. -/
def xBlock (p : Path) : List Byte := (List.range 64).flatMap fun n => leBytes 8 (fgetD 0 p.x n : W64).toNat

/-- R105: an entry of the divergence stack. -/
def entryBytes (e : DEntry) : List Byte :=
  leBytes 16 (e.jaddr.toNat + e.mask.toNat * 2 ^ 64 + b2n e.state * 2 ^ 96 + b2n e.path * 2 ^ 97 +
    e.toff.toNat * 2 ^ 98)

/-- R35: the hot list; 0xFFFF marks an empty entry. -/
def hotBytes (w : Warp) : List Byte :=
  ((List.range 64).flatMap fun i => leBytes 2 (w.hot.getD i 0xFFFF))

/-- R35: the dead bitmap. -/
def deadBytes (w : Warp) : List Byte :=
  (List.range 192).flatMap fun i =>
    leBytes 1 ((List.range 8).foldl (fun t b => t + b2n (fget w.regs (8 * i + b)).isNone * 2 ^ b) 0)

/-- R35: the tags, two to a byte. -/
def tagBytes (w : Warp) : List Byte :=
  (List.range 768).flatMap fun i => leBytes 1 (fmtCode (vtag w (2 * i)) + 16 * fmtCode (vtag w (2 * i + 1)))

/-- R35: the 4 KiB header of a warp. -/
def headerBytes (s : State) (uid : Nat) (w : Warp) : List Byte :=
  leBytes 8 (ctxstat w (warpPriv w)) ++ leBytes 8 w.a.pc.toNat ++ leBytes 8 w.b.pc.toNat ++ leBytes 8 w.wmode.toNat ++
  leBytes 8 w.recon.toNat ++ leBytes 8 w.markAddr.toNat ++ zeros 16 ++
  pathBlock s uid w false ++ pathBlock s uid w true ++ xBlock w.a ++ xBlock w.b ++
  ((w.dstack.flatMap entryBytes ++ zeros 512).take 512) ++ hotBytes w ++
  ((List.range 16).flatMap fun n => leBytes 8 (fgetD 0 w.xs n : W64).toNat) ++ deadBytes w ++ tagBytes w ++ zeros 1024

/-! ## Reading a header back -/

/-- A table of the non-zero values of n fields. -/
def tableOf {α : Type} [DecidableEq α] (d : α) (n : Nat) (f : Nat → α) : FMap α :=
  ((List.range n).map fun i => (i, f i)).filter fun e => e.2 ≠ d

/-- R35: a path as a header gives it. -/
def loadPath (b : List Byte) (p : Path) (pc block xs : Nat) (live : Bool) (priv : BitVec 2) : Path :=
  { Path.absent with
    live := live, pc := n64 (at' b pc 8), lbase := p.lbase, priv := priv,
    k := tableOf 0 16 fun i => n32 (at' b (block + 4 * i) 4),
    x := fdel (tableOf 0 64 fun i => n64 (at' b (xs + 8 * i) 8)) 0, nextSeq := p.nextSeq }

/-- R105: the entries of the divergence stack in a header. -/
def loadStack (b : List Byte) (n : Nat) : List DEntry :=
  (List.range n).map fun i =>
    let v := at' b (0x540 + 16 * i) 16
    { jaddr := n64 (fld v 63 0), mask := n32 (fld v 95 64), state := bitAt v 96, path := bitAt v 97,
      toff := BitVec.ofNat 13 (fld v 110 98) }

/-- R35, R39: the registers that a header declares live, their lines in the slot. Marks travel with the lines
(R413). -/
def loadRegs (b : List Byte) (w : Warp) : FMap VReg :=
  ((List.range w.vregs).filter fun n => !bitAt (at' b (0x840 + n / 8) 1) (n % 8)).map fun n =>
    (n, { tag := fmtOf (fld (at' b (0x900 + n / 2) 1) (4 * (n % 2) + 3) (4 * (n % 2))), line := none,
          pois := (fget w.regs n).elim 0 (·.pois), slot := (fget w.regs n).elim 0 (·.pois) })

/-- R27: a word as WMODE holds it: its reserved bits read 0. -/
def wmodeOf (v : Nat) : W64 := n64 (fld v 5 0 + fld v 12 8 * 2 ^ 8 + fld v 63 32 * 2 ^ 32)

/-- R32, R37, R38: a warp with the state of a header. Reserved bytes and bits are ignored, and counters load as zero. The
spec gives DSP from 0 to 32: a larger value is taken mod 33; and hot-list entries from 0 to 1535 and 0xFFFF: any other entry
is dropped as empty (both DESIGN CHOICE, log entry 87). -/
def loadHeader (w : Warp) (b : List Byte) : Warp :=
  let st := at' b 0 8
  let priv := BitVec.ofNat 2 (fld st 1 0)
  let div := bitAt st 2
  let p (block : Nat) : Bool := at' b block 4 ≠ 0
  { w with
    a := loadPath b w.a 0x08 0x40 0x140 (!div || p 0x40) priv,
    b := if div then loadPath b w.b 0x10 0xC0 0x340 (p 0xC0) priv else Path.absent,
    div := div, recon := n64 (at' b 0x20 8), markv := bitAt st 10, markAddr := n64 (at' b 0x28 8),
    wmode := wmodeOf (at' b 0x18 8), dstack := loadStack b (fld st 9 4 % 33), wdc := fld st 63 32,
    hot := ((List.range 64).map fun i => at' b (0x740 + 2 * i) 2).filter (· < 1536),
    xs := tableOf 0 16 fun i => xsWord i (n64 (at' b (0x7C0 + 8 * i) 8)), regs := loadRegs b w }

/-! ## Lines -/

/-- The bytes of a line. -/
def lineBytes (v : Lanes) : List Byte := (List.range 32).flatMap fun l => leBytes 4 (lane v l).toNat

/-- A line's lanes from the 128 bytes of its granules. -/
def readLine (b : List Byte) : Lanes := mkLanes fun l => n32 (at' b (4 * l) 4)

/-- R39, R412: the line of a register from its slot, with the lanes that lie in poisoned granules. -/
def lineRead (s : State) (uid : Nat) (w : Warp) (a : Nat) : Except CtxRes (State × Lanes × W32) := do
  let (t, b, _) ← ctxRead s uid w a 128
  let (_, _, low) ← ctxRead s uid w a 64
  let (_, _, high) ← ctxRead s uid w (a + 64) 64
  return (t, readLine b, maskOf fun l => if l < 16 then low else high)

/-- R37: the dirty registers of a warp. -/
def dirtyRegs (w : Warp) : List Nat :=
  (w.regs.filter fun e => e.2.line.elim false (·.dirty)).map (·.1)

/-- Lines of a warp written to their slot, in ascending order; the first whose write fails. -/
def writeLines (s : State) (uid : Nat) (w : Warp) : List Nat → Except (Nat × CtxRes) State
  | [] => .ok s
  | n :: r =>
    match ctxXlate s w .write (regVa s w n) with
    | .ok a =>
      match ctxWrite s uid w a (lineBytes (vread w n)) with
      | .ok t => writeLines t uid w r
      | .error e => .error (regVa s w n, e)
    | e => .error (regVa s w n, e)

/-- The header of a warp written to its slot. -/
def writeHeader (s : State) (uid : Nat) (w : Warp) : Except (Nat × CtxRes) State :=
  match ctxXlate s w .write (slotVa s w) with
  | .ok a => (ctxWrite s uid w a (headerBytes s uid w)).mapError fun e => (slotVa s w, e)
  | e => .error (slotVa s w, e)

/-- R37: the header and the dirty lines of a warp written. -/
def writeContext (s : State) (uid : Nat) (w : Warp) : Except (Nat × CtxRes) State :=
  match writeHeader s uid w with
  | .ok t => writeLines t uid w (dirtyRegs w)
  | .error e => .error e

/-- R38: the header of a new warp written to its slot. Where the slot's page cannot be written yet the warp issues nothing,
and the write is tried again (DEDUCED, log entry 88). -/
def bornHeader (s : State) (uid : Nat) : State :=
  match fget s.warps uid with
  | none => s
  | some w =>
    match writeHeader s uid w with
    | .ok t => putWarp t uid { w with unborn := false }
    | .error (va, .bad c) => raiseTrap s uid (!w.a.live) { sTrap (w.path (!w.a.live)) c with va := n64 va }
    | .error (va, x) => ctxWait s uid w va x

/-- Every line of a warp made clean; the marks have gone to the slot with the lines (R413). -/
def cleanLines (w : Warp) : Warp :=
  { w with regs := fmap w.regs fun _ r => { r with line := r.line.map fun l => { l with dirty := false }, slot := r.pois } }

/-- Every line of a warp that has been saved dropped, the registers' tags and marks kept (R413). -/
def dropLines (w : Warp) : Warp := { w with regs := fmap w.regs fun _ r => { r with line := none, slot := r.pois } }

/-- R202: every line of a warp dropped without writeback: the marks that are left are those of the slot (R413). -/
def discardLines (w : Warp) : Warp := { w with regs := fmap w.regs fun _ r => { r with line := none, pois := r.slot } }

end Sys2Proof.Machine
end

