-- ==== Sys2Proof/Machine/Context.lean ====
section
/-! DEFINITION. Pre-emption (R229, R239), the rewind (R238, R240), the save of a block (R355 to R362), its restoring
(R363), and the purge (R414). -/

namespace Sys2Proof.Machine

/-! ## Warps as they are created (R38) -/

/-- R27: WMODE at creation. -/
def freshWmode (r : LaunchRec) : W64 := n64 (1 + b2n r.repro * 2 ^ 5 + r.seed % 2 ^ 32 * 2 ^ 32)

/-- R222: k0 at creation. -/
def freshK0 (r : LaunchRec) (idx : Nat) : W32 :=
  if idx = r.bwarps - 1 && r.lastmask ≠ 0 then n32 r.lastmask else BitVec.allOnes 32

/-- The path A of a warp at creation. -/
def freshPath (r : LaunchRec) (idx : Nat) : Path :=
  { Path.absent with live := true, pc := n64 r.entry, lbase := n64 r.lbase }.withK0 (freshK0 r idx)

/-- R38: warp idx of a block, on a core and slot, with the watchdog limit of its function. -/
def newWarp (launch : Nat) (l : Launch) (block bindex idx die core slot wdlim : Nat) : Warp :=
  { kind := .kernel, st := .ready, die := die, core := core, slot := slot, fn := l.fn, launch := launch,
    block := block, idx := idx, gwi := bindex * l.lrec.bwarps + idx, vregs := l.lrec.vregs, reqtag := l.lrec.tag,
    prio := l.lrec.prio, a := freshPath l.lrec idx, b := Path.absent, div := false, recon := 0, dstack := [],
    markv := false, markAddr := 0, wdc := 0, wdlim := wdlim, wmode := freshWmode l.lrec, xs := [], regs := [],
    hot := [], hwm := l.lrec.pvhwm, nidem := false, restore := false, pend := 0, aph := 0, lpend := 0, laph := 0,
    mpend := 0, maph := 0, mlpend := 0, mlaph := 0, saving := false, runOn := false,
    decided := false, reload := false, parkCtx := false, dblPath := false, unborn := true, frozen := none, primed := false, since := 0 }

/-! ## The pattern table (R238) -/

/-- What a read of the core for a save gives: a value; nothing, where the table holds no entry or the read faults; or a wait for a
page that moves or that the host owns, for an entry of a table of another module, or for bytes of one. -/
inductive CoreRes (α : Type) where
  | ok (a : α)
  | none
  | wait (s : State)

/-- What follows a read of the core. -/
def CoreRes.andThen {α β : Type} (r : CoreRes α) (f : α → CoreRes β) : CoreRes β :=
  match r with
  | .ok a => f a
  | .none => .none
  | .wait s => .wait s

/-- Bytes of physical addresses as the core reads them; what has come from other modules stays until the save decides. -/
def coreBytes (s : State) (uid : Nat) (w : Warp) (l : List Nat) : CoreRes (List Byte) :=
  let gs := dedup ((l.filter fun a => !isLocal a).map granule)
  let has := farHas s uid
  let lost := gs.any fun g => (has g).elim (routeNow s (partOf s w.fn) (homeModule (64 * g))).isNone fun f => f.lost || f.pois
  if lost || l.any (fun a => isLocal a && poisonedIn s.pois a 1) then .none
  else if gs.all fun g => (has g).isSome then
    .ok (l.map fun a => if isLocal a then rdByte s.mem a else (has (granule a)).elim 0 fun f => f.data.getD (a % 64) 0)
  else .wait (gs.foldl (farAsk w.fn w.reqtag (Reader.context uid)) s)

/-- Bytes that the core reads at a virtual address of a warp (R239); nothing when any byte does not translate or is poisoned, or
when the route to its home is lost. -/
def coreRead (s : State) (uid : Nat) (w : Warp) (va n : Nat) : CoreRes (List Byte) :=
  match xlateAll s (warpReq s w false .read none) ((List.range n).map fun i => (n64 (va + i)).toNat) with
  | .ok l => coreBytes s uid w l
  | .error (_, .fault _) => .none
  | .error (a, .migrate leaf) => .wait (migrate s uid w false w.a.pc leaf a)
  | .error _ => .wait s

/-- What an entry says: the pattern's address, the pinned x registers as bits, and the pinned vector registers. -/
structure Pattern where
  start : Option W64
  pinx : Nat
  pinv : List Nat

/-- R238: the entry for a mark, among n entries from an address on, in ascending MARK offset. -/
def findPattern (s : State) (uid : Nat) (w : Warp) (want : Nat) : Nat → Nat → CoreRes (List Byte)
  | 0, _ => .none
  | n + 1, va =>
    (coreRead s uid w va 32).andThen fun b =>
      if at' b 0 4 = want then .ok b else if want < at' b 0 4 then .none else findPattern s uid w want n (va + 32)

/-- R239: the entry of a warp's mark, with its list; nothing when the table holds none or a read of it faults. -/
def markPattern (s : State) (uid : Nat) (w : Warp) : CoreRes Pattern :=
  match warpLaunch s w with
  | none => .none
  | some l =>
    let r := l.lrec
    if r.ptab = 0 then .none
    else
      (coreRead s uid w r.ptab 8).andThen fun n =>
      (findPattern s uid w (w.markAddr - n64 r.entry).toNat (min (leNat n) (2 ^ 30)) (r.ptab + 8)).andThen fun e =>
      (coreRead s uid w (r.ptab + at' e 0x10 4) (2 * at' e 0x14 2)).andThen fun v =>
      .ok { start := if at' e 4 4 = 2 ^ 32 - 1 then none else some (n64 (r.entry + at' e 4 4)), pinx := at' e 8 8,
            pinv := (List.range (at' e 0x14 2)).map fun i => at' v (2 * i) 2 }

/-! ## The rewind (R240) -/

/-- R116: the lanes that were live at the mark. -/
def markLanes (w : Warp) : W32 := w.dstack.foldl (fun m e => m ||| e.mask) (w.a.k0 ||| w.b.k0)

/-- R240: a warp rewound to its mark. Its open batch was left open before the mark, and stays (R179). -/
def rewindMark (w : Warp) (e : Pattern) : Warp :=
  let src := if w.a.live then w.a else w.b
  let p := { Path.absent with
    live := true, pc := e.start.getD w.markAddr, lbase := src.lbase, x := src.x.filter fun v => bitAt e.pinx v.1,
    batch := w.a.batch ++ w.b.batch,
    nextSeq := max w.a.nextSeq w.b.nextSeq }.withK0 (markLanes w)
  { w with a := p, b := Path.absent, div := false, recon := 0, dstack := [],
           regs := ffilter w.regs fun n _ => e.pinv.contains n, wdc := 0, pend := w.mpend, aph := w.maph,
           lpend := w.mlpend, laph := w.mlaph, restore := e.start.isSome, nidem := false }

/-- R239: a warp re-created at the kernel entry; its high-water mark stays (R250). -/
def rewindEntry (s : State) (w : Warp) : Warp :=
  match warpLaunch s w with
  | none => w
  | some l =>
    { w with a := freshPath l.lrec w.idx, b := Path.absent, div := false, recon := 0, dstack := [], wdc := 0,
             wmode := freshWmode l.lrec, xs := [], regs := [], hot := [], restore := false, pend := 0, aph := 0,
             lpend := 0, laph := 0, nidem := false }

/-- A path of the warp is in a handler. -/
def inHandler (w : Warp) : Bool := w.a.held.isSome || w.b.held.isSome

/-- R239: the rewind that the table gives a warp that does not run on; nothing for a full save. -/
def rewound (s : State) (uid : Nat) (w : Warp) : CoreRes Warp :=
  if inHandler w || w.st = .parked || w.nidem then .none
  else if !w.markv then .ok (rewindEntry s w)
  else (markPattern s uid w).andThen fun e => .ok (rewindMark w e)

/-- R165, R240: an operation of a rewound warp. Its loads, MMA.Z, ACC.ZERO and ACC.DRAIN are abandoned. Every store and
atomic that it has issued is performed (R270), and any other engine operation ends as it would; no path counts them. -/
def abandonOp (o : Op) : Option Op :=
  let free := { o with ownA := false, ownB := false, flag := none }
  match o.body with
  | .mem m =>
    match m.kind with
    | .load | .tload => none
    | _ => some { free with body := .mem { m with dst := none } }
  | .mma r _ => if r.z then none else some free
  | .zero _ | .drain .. => none
  | .pois va n _ wire => if wire.isEmpty then none else some { free with body := .pois va n [] wire }
  | _ => some free

/-- R165, R240: the operations of a rewound warp. -/
def abandonOps (s : State) (uid : Nat) : State :=
  { s with ops := s.ops.filterMap fun o => if o.warp = uid then abandonOp o else some o }

/-- R239: a warp that stops for a save is decided once: rewound when R239 says so, else saved as it stands; it is undecided while a
read of the pattern table waits. -/
def settleWarp (s : State) (uid : Nat) : State :=
  let used := { s with fabric := { s.fabric with inbox := s.fabric.inbox.filter fun f => f.warp ≠ uid } }
  match fget s.warps uid with
  | none => s
  | some w =>
    if !w.saving || w.runOn || w.decided || w.st = .ended then s
    else match rewound s uid w with
    | .none => putWarp used uid { w with decided := true }
    | .ok v => putWarp (abandonOps used uid) uid { v with decided := true }
    | .wait t => t

/-! ## Pre-emption (R229, R239, R356) -/

/-- The warps of a block, by number. -/
def blockWarps (s : State) (b : Nat) : List (Nat × Warp) :=
  s.warps.filter fun e => e.2.block = b && e.2.kind = .kernel

/-- R382: the records of a warp that wait for the supervisor slot, and the one that the slot works on, go to its function's
queue, as if answered by RETS.skip; the slot's own answer then acts on nothing. -/
def takeSupRecords (s : State) (uid : Nat) : State :=
  let mine := fun (r : FRec) => r.subj = .warp uid
  let moved := s.cores.sups.flatMap fun e => (e.2.cur.toList ++ e.2.queue).filter mine
  let s1 := { s with cores := { s.cores with sups := fmap s.cores.sups fun _ u =>
      { u with queue := u.queue.filter fun r => !mine r,
               cur := u.cur.map fun r => if mine r then { r with subj := .none } else r } } }
  moved.foldl (fun t r => pushRec t r.fn r) s1

/-- R239: a warp pre-empted. A warp past the end of its region runs on to its next mark. -/
def preemptWarp (s : State) (uid : Nat) : State :=
  match fget s.warps uid with
  | none => s
  | some w =>
    if w.st = .ended || w.st = .saved || w.saving then s
    else
      let on := w.nidem && !inHandler w && w.st ≠ .parked
      settleWarp (takeSupRecords (putWarp s uid { w with saving := true, runOn := on }) uid) uid

/-- R356: the save of one block begins. -/
def saveBlock (s : State) (b : Nat) : State :=
  match fget s.blocks b with
  | none => s
  | some k =>
    if !k.placed || k.saving then s
    else
      let s1 := { s with blocks := fput s.blocks b { k with saving := true } }
      (blockWarps s1 b).foldl (fun t e => preemptWarp t e.1) s1

/-- R358: the blocks that are saved together with a block: those of its gang launch on the die. -/
def gangMates (s : State) (b : Nat) : List Nat :=
  match fget s.blocks b with
  | none => []
  | some k =>
    if (fget s.launches k.launch).any (·.lrec.gang) then
      (s.blocks.filter fun e => e.2.launch = k.launch && e.2.die = k.die && e.2.placed).map (·.1)
    else [b]

/-- R356, R358: the save of a block, with its gang, begins. -/
def startSave (s : State) (b : Nat) : State := (gangMates s b).foldl saveBlock s

/-- The blocks placed on pairs that satisfy p are saved. -/
def saveWhere (s : State) (p : Nat → Nat → Bool) : State :=
  (s.blocks.filter fun e => e.2.placed && p e.2.die e.2.pair).foldl (fun t e => startSave t e.1) s

/-- PREEMPT_MARK_TIMEOUT (R239): a full save after 2 µs without a mark. -/
def execPreemptMarkTimeout (warp : Nat) (s : State) : Out :=
  .next (modWarp s warp fun w => if w.saving && w.runOn then { w with runOn := false } else w)

/-! ## The save of a block (R356) -/

/-- A batch reads or writes the block's scratchpad (R356, step 4). -/
def batchSp (l : List ShOp) : Bool := l.any fun i => i.dst.space = 0 || i.src.space = 0 || i.kind = .gather

/-- Steps 2 to 4: an operation that a save waits for. An MMA may stop, and a POISON between two of its granules. R356 asks of a
batch that its elements be written, though its counter falls in the order of closing. -/
def holdsSave (s : State) (o : Op) : Bool :=
  match o.body with
  | .mem _ | .zero _ | .drain .. | .amv .. => true
  | .mma .. => false
  | .pois _ _ _ wire => !wire.isEmpty
  | .batch l => batchSp l && !batchWritten s o.id l
  | .coll c => c.dst.space = 0 || c.src.space = 0

/-- The outstanding MMAs of a block, in issue order. -/
def blockMmas (s : State) (b : Nat) : List Op :=
  s.ops.filter fun o => o.block = b && match o.body with | .mma .. => true | _ => false

/-- Step 2: the clauses of a path have run to completion, or are held by a trap, the path's own or one of class 11 (R192). -/
def pathQuiet (s : State) (uid : Nat) (w : Warp) (pf : Bool) : Bool :=
  let p := w.path pf
  !p.live || p.pend.isSome || p.stopped || w.st = .parked || (liveQueue s uid pf p).isEmpty

/-- A warp may be saved. Step 4 leaves no open batch with a scratchpad record. -/
def warpQuiet (s : State) (e : Nat × Warp) : Bool :=
  let quiet := fun pf => pathQuiet s e.1 e.2 pf && !batchSp (e.2.path pf).batch
  e.2.st = .ended || (e.2.saving && e.2.decided && !e.2.runOn && quiet false && quiet true)

/-- Steps 1 to 4 are over. -/
def saveReady (s : State) (b : Nat) : Bool :=
  (blockWarps s b).all (warpQuiet s) && !(s.ops.any fun o => o.block = b && holdsSave s o) &&
    (blockMmas s b).length ≤ 16

/-- R356, step 4: the open batches of a stopped warp that have a scratchpad record close, so that they complete before the save
does. -/
def closeSp (s : State) (uid : Nat) : State :=
  [false, true].foldl (fun t pf =>
    match fget t.warps uid with
    | none => t
    | some w => if w.saving && w.decided && batchSp (w.path pf).batch && mayClose t uid pf (w.path pf) then closeBatch t uid pf
                else t) s

/-- A warp waits for the driver to answer a record of 8.2 about its write-back (R340). -/
def writeBackWaits (s : State) (uid : Nat) : Bool :=
  let mine := fun (r : FRec) => r.subj = .warp uid && r.cause = 0x82
  s.funcs.any fun e => e.2.fqWait.any mine || e.2.fqOut.any fun r => mine r.2

/-- R362: the entry of a warp. -/
def warpEntry (s : State) (uid : Nat) (w : Warp) : WEntry :=
  let cnt := fun pf => [counter s uid pf .ac, counter s uid pf .an, counter s uid pf .sh]
  { pend := w.pend, aph := w.aph, cntA := cnt false, cntB := cnt true,
    status := if w.st = .ended then 2 else b2n w.restore, nidem := w.nidem,
    held := inHandler w || w.a.pend.isSome || w.b.pend.isSome, wdlim := w.wdlim, hwm := w.hwm, hoff := 0 }

/-- R359, R362: the entries with the offsets of the held-state areas, from an offset on. -/
def placeHeld : Nat → FMap WEntry → FMap WEntry
  | _, [] => []
  | off, (i, e) :: r => if e.held then (i, { e with hoff := off }) :: placeHeld (off + 20480) r
      else (i, e) :: placeHeld off r

/-- R165, R398: a stopped MMA adds the steps that it has completed and leaves the orders of its banks. It reads each byte once
(R164): what it has read stays read (DEDUCED, log entry 89). -/
def stopMma (s : State) (o : Op) : State :=
  match o.body, fget s.warps o.warp with
  | .mma r _, some w => setOp (countMacs s w r r.step) o.id (.mma { r with metered := r.step } [])
  | _, _ => s

/-- The sequencer record of an MMA, with its operation (R173). -/
def seqOf (o : Op) : List (Nat × SeqRec) := match o.body with | .mma r _ => [(o.id, r)] | _ => []

/-- R165: the records that a block's outstanding MMAs take, in the order of issue. -/
def seqTable (s : State) (b : Nat) : FMap (Nat × SeqRec) :=
  ((blockMmas s b).flatMap seqOf).zipIdx.map fun e => (e.2, e.1)

/-- The banks of a block, by their number in the pair. -/
def heldBanks (s : State) (b : Nat) : FMap Bank :=
  (s.banks.filter fun e => e.2.block = b).map fun e => (e.1 % 64, e.2)

/-- Steps 5 and 6 for a block whose warps have been written: the image is made and the pair's resources are free. R229 says only
that saved blocks return to the front of their launch's sub-grid; of several, the one saved last stands first (DESIGN CHOICE, log
entry 116). -/
def makeImage (s : State) (b : Nat) (k : Block) : State :=
  let l := fget s.launches k.launch
  let s1 := (blockMmas s b).foldl stopMma s
  let held := heldBanks s1 b
  let base := 0x2000 + 4096 * held.length + (l.elim 0 (·.lrec.spbytes))
  let ents := placeHeld base ((blockWarps s1 b).map fun e => (e.2.idx, warpEntry s1 e.1 e.2))
  let nheld := (ents.filter fun e => e.2.held).length
  let img : Image := { vdie := k.die, banks := held, entries := ents, nheld := nheld, size := base + 20480 * nheld }
  let k1 := { k with placed := false, saving := false, seqs := seqTable s1 b, img := some img }
  let gone := fun (w : Warp) => w.block = b && w.kind = .kernel && w.st ≠ .ended
  let s2 := { s1 with
    blocks := fput s1.blocks b k1, banks := ffilter s1.banks fun _ x => x.block ≠ b,
    launches := fmod s1.launches k.launch fun n => { n with back := b :: n.back },
    warps := fmap s1.warps fun _ w => if gone w
      then { dropLines w with st := .saved, saving := false, decided := false, primed := false } else w }
  l1Drop s2 fun x => x.owner.elim false fun u => (fget s.warps u).elim false gone

/-- Step 5: the contexts of the warps written; the first warp whose write-back fails. -/
def writeWarps (s : State) : List (Nat × Warp) → Except (Nat × Warp × Nat × CtxRes) State
  | [] => .ok s
  | (u, w) :: r =>
    if w.st = .ended then writeWarps s r
    else match writeContext s u w with
    | .ok t => writeWarps t r
    | .error (va, x) => .error (u, w, va, x)

/-- BLOCK_SAVE_COMPLETE (R356). A purged block is gone (R364). -/
def execBlockSaveComplete (block : Nat) (s : State) : Out :=
  match fget s.blocks block with
  | none => .next s
  | some k =>
    if !k.saving then .next s
    else
      let s1 := (blockWarps s block).foldl (fun t e => closeSp (settleWarp t e.1) e.1) s
      let ws := blockWarps s1 block
      if !saveReady s1 block || ws.any fun e => writeBackWaits s1 e.1 then .next s1
      else match writeWarps s1 ws with
      | .ok t => .next (makeImage t block ((fget t.blocks block).getD k))
      | .error (u, w, va, x) =>
        match x with
        | .bad _ => .next (pushRec (parkContext s1 u) w.fn
            { warpRec w 0x82 (if w.a.live then w.a.pc else w.b.pc) (.warp u) with va := n64 va })
        | _ => .next (ctxWait s1 u w va x)

/-! ## Loading a context (R32, R202, R363) -/

/-- The header of a warp's slot read; the failure of the read. -/
def readHeader (s : State) (uid : Nat) (w : Warp) : Except CtxRes (State × List Byte) :=
  match ctxXlate s w .read (slotVa s w) with
  | .ok a => (ctxRead s uid w a 4096).map fun e => (e.1, e.2.1)
  | e => .error e

/-- A path loaded from a header with what the core and the block's image hold for it: held state, pending traps, clause
queues, the stop by a class-11 trap (R357), the open batch, and the arrival that a BAR.SYNC or LBAR.SYNC has made (log entry
25). -/
def keepHeld (inside : Bool) (n o : Path) : Path :=
  { n with queue := o.queue, held := o.held, pend := o.pend, more := o.more, stopped := o.stopped, batch := o.batch,
           priv := if inside then o.priv else n.priv, lbase := o.lbase, nextSeq := o.nextSeq, synced := o.synced }

/-- R32, R38, R202: a warp's state taken from its slot, with every line in the slot; 19.1 for a level that no code
runs at. While the slot's page waits (R352) the warp is ready and issues nothing, and the load is tried again. -/
def reloadWarp (s : State) (uid : Nat) : State :=
  match fget s.warps uid with
  | none => s
  | some w =>
    let r := fun cause => { warpRec w cause w.a.pc (.warp uid) with va := n64 (slotVa s w) }
    let stop := fun ctx => putWarp s uid { w with st := .parked, reload := true, parkCtx := ctx }
    match readHeader s uid w with
    | .error (.bad c) =>
      if c = 0x80 then pushSup (stop true) (coreKey w) (r 0x80) else pushRec (stop true) w.fn (r c)
    | .error x => ctxWait (putWarp s uid { w with st := .ready, reload := true }) uid w (slotVa s w) x
    | .ok (t, b) =>
      if 2 ≤ fld (at' b 0 8) 1 0 then pushRec (stop false) w.fn (r 0x131)
      else
        let v := loadHeader w b
        putWarp t uid { v with a := keepHeld (inHandler w) v.a w.a, b := keepHeld (inHandler w) v.b w.b, st := .ready,
                               reload := false }

/-- A parked warp becomes READY (R230, R345); one whose context could not be loaded loads it again. -/
def unpark (s : State) (uid : Nat) : State :=
  match fget s.warps uid with
  | none => s
  | some w =>
    if w.st ≠ .parked then s
    else if w.reload then reloadWarp (putWarp s uid { w with parkCtx := false }) uid
    else putWarp s uid { w with parkCtx := false, st := if w.kind = .supervisor then .rink else .ready }

/-! ## Purge -/

/-- R354: the number of details that a class assigns from 0 on, and the others. -/
def causeDetails : Nat → Nat × List Nat
  | 0 => (11, []) | 1 => (3, []) | 2 => (2, [4, 5]) | 3 => (5, []) | 4 => (1, []) | 5 => (4, []) | 6 => (6, [])
  | 7 => (3, []) | 8 => (3, []) | 9 => (2, []) | 10 => (12, []) | 11 => (1, []) | 12 => (2, []) | 13 => (11, [])
  | 14 => (5, []) | 15 => (4, []) | 16 => (1, []) | 17 => (2, []) | 18 => (3, []) | 19 => (10, []) | 20 => (8, [13, 14])
  | 21 => (3, []) | 22 => (3, []) | 23 => (1, []) | _ => (0, [])

/-- R354: a code that the table of causes assigns. -/
def causeAssigned (c : Nat) : Bool := c % 16 < (causeDetails (c / 16)).1 || (causeDetails (c / 16)).2.contains (c % 16)

/-- PURGE (R414). The trigger names one of the assigned causes (R354); those of a VF clear, an FLR and a warm start write no
completion record. -/
def execPurge (fn tag cause : Nat) (s : State) : Out :=
  if causeAssigned cause then .next (purgeWith s fn tag cause (!(cause = 0x150 || cause = 0x151))) else .next s

end Sys2Proof.Machine
end

