-- ==== Sys2Proof/Machine/Pages.lean ====
section
/-! DEFINITION. The pages of the module as firmware sees them: the leaves that the functions' tables reach, the pages
and parts in use, free pages, and the move of a page's home (R160, R245, R270, R351). -/

namespace Sys2Proof.Machine

/-! ## The leaves in force -/

/-- The valid entries of an upper table at a physical address, as the tables they point to. -/
def tableNexts (s : State) (t : Nat) : List Nat :=
  (List.range 512).filterMap fun i =>
    let e := tblLe s (t + 8 * i) 8
    if bitAt e 0 then some (nextTable e false) else none

/-- The addresses of the valid leaves under a root whose tables lie at physical addresses, with the page that each
maps. -/
def leavesOf (s : State) (root : Nat) : List Nat :=
  (tableNexts s root).flatMap fun t1 => (tableNexts s t1).flatMap fun t2 =>
    (List.range 512).filterMap fun k => if bitAt (tblLe s (t2 + 16 * k) 8) 0 then some (t2 + 16 * k) else none

/-- The root of the tables that name a function's physical homes: stage 1 for the PF, stage 2 for a VF (R335). -/
def homeRoot (fn : Nat) (d : XlateDesc) : Nat := if fn = 0 then d.s1root else d.s2root

/-- Those roots of every function and of every launch that is not over; a VF that has not been enabled and whose descriptor
nothing has written has none. -/
def roots (s : State) : List Nat :=
  dedup (((s.funcs.filter fun e => e.2.enabled || e.2.xd.s2root ≠ 0).map fun e => homeRoot e.1 e.2.xd) ++
    (s.launches.filter fun e => launchOpen e.2).map fun e => homeRoot e.2.fn e.2.xd)

/-- Every leaf that names a physical home. -/
def allLeaves (s : State) : List Nat := dedup ((roots s).flatMap (leavesOf s))

/-- Whether a leaf names the page at a physical address, as its home or as RHOME. -/
def leafNames (l : Leaf) (page : Nat) : Bool :=
  (l.hs = 2 && homePage l.kind l.home = page) || (l.rv && homePage l.kind l.rhome = page)

/-- The addresses of the valid stage-1 leaves of a VF, through its stage 2. -/
def guestLeaves (s : State) (d : XlateDesc) : List Nat :=
  let nexts := fun (t : Nat) => (List.range 512).filterMap fun i =>
    match tableAddr s d true (t + 8 * i) with
    | .ok a => if bitAt (tblLe s a 8) 0 then some (nextTable (tblLe s a 8) true) else none
    | .error _ => none
  (nexts d.s1root).flatMap fun t1 => (nexts t1).flatMap fun t2 => (List.range 512).filterMap fun i =>
    match tableAddr s d true (t2 + 16 * i) with
    | .ok a => if bitAt (tblLe s a 8) 0 then some a else none
    | .error _ => none

/-- The translation descriptors in force: those of the functions that have one and of the launches that are not over, with
whether stage 2 applies. -/
def descs (s : State) : List (Bool × XlateDesc) :=
  dedup (((s.funcs.filter fun e => e.2.enabled || e.2.xd.s2root ≠ 0).map fun e => (e.1 != 0, e.2.xd)) ++
    (s.launches.filter fun e => launchOpen e.2).map fun e => (e.2.fn != 0, e.2.xd))

/-- The address of a stage-1 leaf, the page that its HOME names, through stage 2 for a VF, and whether an access may write
through it. -/
def leafMap (s : State) (vf : Bool) (d : XlateDesc) (a : Nat) : Nat × Option Nat × Bool :=
  let l := readLeaf s a
  if !vf then (a, some (homePage l.kind l.home), l.w)
  else match stage2 s d (l.home % 2 ^ 27 * pageSize) .read false with
  | .ok (p, l2) => (a, some p, l.w && l2.w)
  | .error _ => (a, none, l.w)

/-- The stage-1 leaves of the module with a home: address, page, and whether an access may write through them. -/
def mapsOf (s : State) : List (Nat × Option Nat × Bool) :=
  (descs s).flatMap fun e =>
    (((if e.1 then guestLeaves s e.2 else leavesOf s e.2.s1root).filter fun a => (readLeaf s a).hs = 2).map (leafMap s e.1 e.2))

/-- R249: some entry maps a page with write permission; under stage 2 both entries must give it (DEDUCED, log entry 91). -/
def pageWritable (s : State) (page : Nat) : Bool := (mapsOf s).any fun m => m.2.1 = some page && m.2.2

/-- A page is mapped by some leaf. -/
def pageMapped (s : State) (page : Nat) : Bool := (allLeaves s).any fun a => leafNames (readLeaf s a) page

/-- Whether a page holds any byte that is not zero. -/
def pageUsed (s : State) (page : Nat) : Bool := s.mem.any fun c => page ≤ c.1 && c.1 < page + pageSize


/-- R243, R245: the parts of a frame that some leaf marks present. -/
def partsMapped (s : State) (die frame : Nat) : List Nat :=
  let base := frameBase + Config.moduleNo * 2 ^ 29 + die * 2 ^ 27 + frame * pageSize
  (List.range 32).filter fun n => (allLeaves s).any fun a =>
    let l := readLeaf s a
    l.kind = 1 && l.hs = 2 && bitAt l.res n && homePage 1 l.home = base

/-- R346: the homes that stand in a device-local pool, from TAKE on. -/
def poolHomes (s : State) (pool : Nat) : List Nat :=
  let avail := rdLe s.mem pool 4
  let take := rdLe s.mem (pool + 4) 4
  (List.range (min 1024 ((avail + 2 ^ 32 - take) % 2 ^ 32))).map fun i =>
    let w := rdLe s.mem (pool + 0x40 + 8 * ((take + i) % 1024)) 8
    homePage (fld w 9 8) (fld w 63 16)

/-- R346: a page is a home that stands in a pool. -/
def pooled (s : State) (page : Nat) : Bool := (s.mgmt.pools.flatMap (poolHomes s)).contains page

/-- R249, R351 to R353: a page is allocated without an entry that names it: the home kept of a page that the host owns, a
copy that DUP has made, or where firmware copies a page. -/
def pageKept (s : State) (p : Nat) : Bool :=
  (s.mgmt.kept.any fun e => e.2 = p) || (s.mgmt.dups.any fun d => d.2 = p) || (s.mgmt.moves.any fun j => j.dst = p) ||
    s.mgmt.copies.any fun j => j.dst = p

/-- A page of a partition (R388) outside the firmware's memory that no leaf names, that stands in no pool, that is not
allocated and that holds nothing (log entry 21). -/
def freePage (s : State) (part die : Nat) : Option Nat :=
  let named := (s.mgmt.pools.flatMap (poolHomes s)) ++ (allLeaves s).flatMap fun a =>
    let l := readLeaf s a
    [homePage l.kind l.home, homePage l.kind l.rhome]
  ((List.range Config.firmwarePage).map (lpddrPage die)).find? fun p =>
    !named.contains p && !pageUsed s p && !s.mgmt.freed.contains p && !pageKept s p &&
      fgetD 0 s.parts.pages (p / pageSize) = part

/-- R417: the slots of a pool from TAKE on that hold a page, given another home. -/
def movePool (page tgt : Nat) (s : State) (pool : Nat) : State :=
  let take := rdLe s.mem (pool + 4) 4
  (List.range (poolHomes s pool).length).foldl (fun t i =>
    let a := pool + 0x40 + 8 * ((take + i) % 1024)
    let w := rdLe t.mem a 8
    if homePage (fld w 9 8) (fld w 63 16) = page
    then { t with mem := wrLe t.mem a 8 (w % 2 ^ 8 + physKind tgt * 2 ^ 8 + fld w 15 10 * 2 ^ 10 + homeField tgt * 2 ^ 16) }
    else t) s

/-- R243, R245, R346, R353: the frames of a die that lend nothing to the dispatcher: some entry names them as its home or its
RHOME (a page that moves has parts in both), they stand in a pool, or they are kept for a page that the host owns or for a
copy. -/
def homedPairs (s : State) (die : Nat) : List Nat :=
  let homes := (allLeaves s).flatMap fun a =>
    let l := readLeaf s a
    (if l.kind = 1 && l.hs = 2 then [homePage 1 l.home] else []) ++ (if l.kind = 1 && l.rv then [homePage 1 l.rhome] else [])
  ((homes ++ s.mgmt.pools.flatMap (poolHomes s) ++ s.mgmt.kept.map (·.2) ++ s.mgmt.dups.map (·.2)).filter fun h =>
    physKind h = 1 && homeModule h = Config.moduleNo && homeDie h = die).map homeFrame

/-! ## The move of a home -/

/-- A leaf whose DUP is clear: its page has no duplicates. -/
def leafUndup (l : Leaf) : Leaf := if l.dup then { l with w0 := l.w0 - 2 ^ 7 } else l

/-- R249: the duplicates of a page dropped. -/
def dropDups (s : State) (page : Nat) : State :=
  { s with mgmt := { s.mgmt with dups := s.mgmt.dups.filter fun d => d.1 ≠ page } }

/-- A leaf with another home: KIND and HOME replaced, and RHOME where it named the page. -/
def leafMoved (l : Leaf) (page tgt : Nat) : Leaf :=
  let w0 := if l.hs = 2 && homePage l.kind l.home = page
    then l.w0 % 2 ^ 16 - fld l.w0 9 8 * 2 ^ 8 + physKind tgt * 2 ^ 8 + homeField tgt * 2 ^ 16 else l.w0
  let w1 := if l.rv && homePage l.kind l.rhome = page
    then fld l.w1 32 0 + homeField tgt % 2 ^ 27 * 2 ^ 33 + fld l.w1 63 60 * 2 ^ 60 else l.w1
  { w0 := w0, w1 := w1 }

/-- A leaf's two words written, where the table lies (R340). -/
def putLeaf (s : State) (a : Nat) (l : Leaf) : State :=
  if isLocal a then { s with mem := wrLe (wrLe s.mem a 8 l.w0) (a + 8) 8 l.w1 }
  else tblWrite s 0 a (leBytes 8 l.w0 ++ leBytes 8 l.w1)

/-- R249: before an entry grants write permission to a page, its duplicates are dropped: DUP is cleared in the entries that map
it. -/
def pruneDups (s : State) : State :=
  if s.mgmt.dups.isEmpty then s
  else
    let gone := (dedup (s.mgmt.dups.map (·.1))).filter (pageWritable s)
    gone.foldl (fun t page =>
      ((mapsOf s).filter fun m => m.2.1 = some page).foldl (fun u m => putLeaf u m.1 (leafUndup (readLeaf u m.1)))
        (dropDups t page)) s

/-- Every leaf that names a page changed. -/
def modLeaves (s : State) (page : Nat) (f : Leaf → Leaf) : State :=
  (allLeaves s).foldl (fun t a => if leafNames (readLeaf t a) page then putLeaf t a (f (readLeaf t a)) else t) s

/-- An address of a page that moves. -/
def moveAddr (page tgt a : Nat) : Nat := if page ≤ a && a < page + pageSize then a - page + tgt else a

/-- R270: an access issued and not performed is performed at the new home. -/
def moveOps (page tgt : Nat) (l : List Op) : List Op :=
  l.map fun o => match o.body with
    | .mem m => if m.space = .sp then o else
        { o with body := .mem { m with accs := m.accs.map fun a =>
            { a with addr := moveAddr page tgt a.addr, module := homeModule (moveAddr page tgt a.addr) } } }
    | _ => o

/-- The bytes of a page moved to another page of the module, with its poison; the old page reads zero. -/
def moveBytes (s : State) (page tgt : Nat) : State :=
  { s with mem := zeroRange (copyRange s.mem page tgt pageSize) page pageSize,
           pois := (movePois s.pois page tgt pageSize).filter fun g => !(granule page ≤ g && g < granule (page + pageSize)) }

/-- TLB entries and L1 lines of a page dropped. -/
def dropPage (s : State) (page : Nat) : State :=
  { s with cores := { s.cores with
      tlb := s.cores.tlb.filter fun t => t.home ≠ page,
      l1 := s.cores.l1.filter fun l => !(page ≤ 128 * l.line && 128 * l.line < page + pageSize) } }

/-- R160, R270: the home of a page moved. The owners of both pages stay (R388). -/
def moveHome (s : State) (page tgt : Nat) : State :=
  let s1 := moveBytes (modLeaves s page fun l => leafMoved l page tgt) page tgt
  dropPage { s1 with ops := moveOps page tgt s1.ops } page

end Sys2Proof.Machine
end

