-- ==== Sys2Proof/Machine/Time.lean ====
section
/-! DEFINITION. Guest time (R206, R332 to R334). -/

namespace Sys2Proof.Machine

/-- R332: guest time by an offset and a multiplier. -/
def timeBy (off mul : W64) (tb : Nat) : W64 := off + n64 (tb * mul.toNat / 2 ^ 32)

/-- R332, R333: the guest time of a function. -/
def guestTime (s : State) (f : Func) : W64 :=
  if f.gtStop && f.gtMode then f.gtFrozen else timeBy f.gtOff f.gtMul s.mgmt.tb

/-- R332: a read of guest time raises GTLAST. -/
def readTime (s : State) (fn : Nat) : State × W64 :=
  match fget s.funcs fn with
  | none => (s, 0)
  | some f =>
    let g := guestTime s f
    (modFunc s fn fun f => { f with gtLast := if f.gtLast.toNat < g.toNat then g else f.gtLast }, g)

end Sys2Proof.Machine
end

