-- ==== Sys2Proof/Machine/Launch.lean ====
section
/-! DEFINITION. Launches: the doorbell and the ring (R322), admission (R223 to R225), block placement (R227 to R229,
R363), and completion records (R225, R226). -/

namespace Sys2Proof.Machine

/-! ## The writers of registers (R323) -/

/-- R323: a master is the owner. -/
def isOwner (s : State) (m : Nat) : Bool := m ≠ 0 && s.mgmt.own.owner = m

/-- R326: the fields of a master before its first command. -/
def Master.reset : Master := { cmd := 0, last := 0 }

/-- R323: what a master other than the owner writes is dropped, and its LAST reads 2. -/
def dropMaster (s : State) (m : Nat) : State :=
  if m = 0 || 3 < m then s
  else { s with mgmt := { s.mgmt with own := { s.mgmt.own with
    masters := fput s.mgmt.own.masters m { fgetD Master.reset s.mgmt.own.masters m with last := 2 } } } }

/-- R323: a request that takes effect when it is the owner's; `f` is what it does. -/
def ownerReq (s : State) (m : Nat) (f : State) : State := if isOwner s m then f else dropMaster s m

/-- R323: the master that an access names, 0 for a VF's own driver; an access that names neither a master nor a VF is the PF
driver's, master 1 (DEDUCED, log entry 93). -/
def masterOf (fn : Nat) : Nat := if fn = 0 then 1 else fn / 64

/-- R323: the function that an access names. -/
def funcOf (fn : Nat) : Nat := fn % 64

/-- R323: a write of a function's register by the writer that an access names: a VF's own driver writes the VF's space, and
every other write is a master's. -/
def writerReq (s : State) (fn : Nat) (f : State) : State :=
  if masterOf fn = 0 then f else ownerReq s (masterOf fn) f

/-! ## Doorbell and ring (R322) -/

/-- R321: a launch-queue error with its QCAUSE; vector 1 is raised. -/
def queueError (s : State) (fn cause : Nat) : State :=
  raiseVector (modFunc s fn fun f => { f with qerr := true, qcause := cause }) fn 1

/-- R329: the management space of a function takes writes. -/
def barOpen (f : Func) : Bool := f.enabled && !f.clr

/-- R322: LQTAIL of a function written. -/
def ringBell (s : State) (fn v : Nat) (f : Func) : State :=
  if !f.ready then queueError s fn 3
  else if 2 ^ f.lqLog2 < (v + 2 ^ 32 - f.lqHead) % 2 ^ 32 then queueError s fn 1
  else modFunc s fn fun f => { f with lqTail := v }

/-- LAUNCH_DOORBELL (R322), by a writer (R323). -/
def execLaunchDoorbell (fn value : Nat) (s : State) : Out :=
  match fget s.funcs (funcOf fn) with
  | none => .next s
  | some f =>
    if !barOpen f then .next s
    else .next (writerReq s fn (ringBell s (funcOf fn) (value % 2 ^ 32) f))

/-- A request by which the device reads or writes a function's own structures, whatever the owner of their pages
(R272). -/
def deviceReq (s : State) (fn : Nat) (acc : Acc) : XReq :=
  { d := funcXlate s fn, vf := fn ≠ 0, user := false, acc := acc, fill := false, kind := none, unit := 2 ^ 20 + fn,
    part := partOf s fn, anyOwner := true }

/-- Bytes at a virtual address of a function, read in 64-byte pieces, here or on another module; `lost` when a piece does not
translate, is poisoned, or has no route. A walk that waits for a table of another module is waited for (R340). -/
def deviceRead (s : State) (fn va n : Nat) : FarRes :=
  match xlateAll s (deviceReq s fn .read) ((List.range (n / 64)).map fun i => (n64 (va + 64 * i)).toNat) with
  | .error (_, .moving) => .wait s
  | .error _ => .lost s
  | .ok l =>
    match farPieces s fn 0 Reader.device (l.map fun a => (a, 64)) with
    | .ok t b bad => if bad then .lost t else .ok t b false
    | x => x

/-- RING_ENTRY_CONSUME (R322). -/
def execRingEntryConsume (fn : Nat) (s : State) : Out :=
  match fget s.funcs fn with
  | none => .next s
  | some f =>
    if !f.lqEn || f.clr || f.lqHead = f.lqTail || f.seqx then .next s
    else match deviceRead s fn (f.lqbase.toNat + 192 * (f.lqHead % 2 ^ f.lqLog2)) 192 with
    | .lost t => .next (modFunc (queueError t fn 2) fn fun f => { f with lqEn := false })
    | .wait t => .next t
    | .ok t b _ =>
      let r := parseRec b
      let s1 := enqueueLaunch t fn false r (r.tag * 2 ^ 48 + 2 ^ 47 + f.hostSeq)
      let s2 := modFunc s1 fn fun f => { f with hostSeq := f.hostSeq + 1, lqHead := (f.lqHead + 1) % 2 ^ 32 }
      .next (if f.hostSeq + 1 < 2 ^ 47 then s2 else raiseVector (modFunc s2 fn fun f => { f with seqx := true }) fn 1)

/-! ## What a partition has on a die (R390) -/

/-- R388: the owner of a cluster of a virtual die. -/
def clusterOwner (s : State) (die cluster : Nat) : Nat :=
  match siteOf s die with
  | none => 0
  | some (n, _) => fgetD 0 s.parts.clusters (4 * n + cluster)

/-- R390: a core that a partition sees. -/
def coreSeen (s : State) (part die core : Nat) : Bool := coreOn s die core && clusterOwner s die (core / 32) = part

/-- R390: CAPD as a function of a partition sees it. -/
def capdSeen (s : State) (part die : Nat) : Nat :=
  match siteOf s die with
  | none => 0
  | some _ =>
    let cores := ((List.range 128).filter (coreSeen s part die)).length
    let quads := ((List.range 32).filter fun q => (List.range 4).any fun c => coreSeen s part die (4 * q + c)).length
    capd s die / 2 ^ 14 * 2 ^ 14 + quads * 2 ^ 8 + cores

/-- Dies with a core for a partition. -/
def dieHasCores (s : State) (part die : Nat) : Bool := (List.range 128).any (coreSeen s part die)

/-- Core pairs of a partition on a die with both cores enabled. -/
def partPairs (s : State) (part die : Nat) : List Nat :=
  (List.range 64).filter fun p => pairOn s die p && clusterOwner s die (p / 16) = part

/-! ## Admission (R223, R224) -/

/-- R221, R250: check 1. -/
def recLimits (r : LaunchRec) : Bool :=
  let g := gridSize r
  !r.resv && r.entry % 4 = 0 && r.lbase % 4 = 0 && r.vregs ≤ 1536 && 1 ≤ r.bwarps && r.bwarps ≤ 64 && 1 ≤ r.gridx &&
    1 ≤ r.gridy && 1 ≤ r.gridz && r.spbytes % 4096 = 0 && r.spbytes ≤ 2 ^ 21 && r.nbar ≤ 32 && r.pvlimit % 128 = 0 &&
    r.pvhwm ≤ r.pvlimit && r.done % 64 = 0 && g ≤ 2 ^ 32 &&
    (r.pvlimit = 0 || (r.pvbase % 4096 = 0 && r.pvbase + g * r.bwarps * (32 * r.pvlimit) ≤ 2 ^ 64))

/-- The dies that an affinity mask names and that have cores for a partition. -/
def maskDies (s : State) (part : Nat) (r : LaunchRec) : List Nat :=
  (List.range 4).filter fun d => bitAt r.affinity d && dieHasCores s part d

/-- R223: the gate table was written. -/
def gateWritten (r : LaunchRec) : Bool := r.gates.any fun g => g ≠ (0, 0)

/-- R223: the gate table in force, one (first, count) per virtual die. -/
def gateOf (s : State) (part : Nat) (r : LaunchRec) : List (Nat × Nat) :=
  if gateWritten r then r.gates
  else
    let ds := maskDies s part r
    let n := ds.length
    let g := gridSize r
    (List.range 4).map fun d =>
      match ds.idxOf? d with
      | none => (0, 0)
      | some i => (i * g / n, (i + 1) * g / n - i * g / n)

/-- R224: check 4 on a written table. -/
def gateBad (s : State) (part : Nat) (r : LaunchRec) : Bool :=
  let used := (List.range 4).filter fun d => (r.gates.getD d (0, 0)).2 ≠ 0
  let at' := fun d => r.gates.getD d (0, 0)
  let hit := fun d e => d ≠ e && (at' d).1 < (at' e).1 + (at' e).2 && (at' e).1 < (at' d).1 + (at' d).2
  used.any (fun d => used.any (hit d)) ||
    (used.map fun d => (at' d).2).foldl (· + ·) 0 ≠ gridSize r ||
    used.any (fun d => gridSize r < (at' d).1 + (at' d).2) ||
    used.any fun d => !(maskDies s part r).contains d

/-- R224, check 6: the blocks of a launch that one empty pair of a die holds. -/
def perPair (s : State) (die : Nat) (r : LaunchRec) : Nat :=
  let bySlots := 64 / ((r.bwarps + 1) / 2)
  let byBars := if r.nbar = 0 then bySlots else 32 / r.nbar
  let bySp := if r.spbytes = 0 then bySlots else pairCapacity s die / r.spbytes
  min bySlots (min byBars bySp)

/-- R117: the launch of a function with an identifier. -/
def launchById (s : State) (fn : Nat) (id : Nat) : Option Launch :=
  (s.launches.find? fun e => e.2.fn = fn && e.2.id.toNat = id).map (·.2)

/-- R224: checks 1 to 7, in order. -/
def admissionFault (s : State) (l : Launch) : Option Nat :=
  let r := l.lrec
  let part := partOf s l.fn
  let gate := gateOf s part r
  let dies := (List.range 4).filter fun d => (gate.getD d (0, 0)).2 ≠ 0
  if !recLimits r then some 0x140
  else if r.ctxb % 4096 ≠ 0 || 2 ^ 64 < r.ctxb + gridSize r * r.bwarps * slotSize r.vregs then some 0x141
  else if (maskDies s part r).isEmpty then some 0x142
  else if gateWritten r && gateBad s part r then some 0x143
  else if dies.any fun d => (partPairs s part d).isEmpty || pairCapacity s d < r.spbytes then some 0x144
  else if r.gang && dies.any fun d => (partPairs s part d).length * perPair s d r < (gate.getD d (0, 0)).2 then some 0x145
  else if r.pre.any fun i => i ≠ 0 && (launchById s l.fn i).isNone then some 0x146
  else none

/-- R225: the prerequisites of a launch, as they stand. -/
def prereqs (s : State) (l : Launch) : List Launch :=
  (l.lrec.pre.filter (· ≠ 0)).filterMap (launchById s l.fn)

/-- A launch that is over. -/
def launchOver (l : Launch) : Bool := !launchOpen l

/-- R225: a queued launch whose prerequisites have all completed with STATE 1. -/
def launchReady (s : State) (l : Launch) : Bool := l.st = .queued && (prereqs s l).all fun p => p.st = .ended

/-- R225: another ready launch of the function goes before. -/
def goesBefore (a b : Launch) : Bool := b.lrec.prio < a.lrec.prio || (a.lrec.prio = b.lrec.prio && a.sub < b.sub)

/-- A launch refused (R224). -/
def refuseLaunch (s : State) (n cause : Nat) : State :=
  { s with launches := fmod s.launches n fun l => { l with st := .refused, cause := cause } }

/-- LAUNCH_ADMISSION (R224, R225). -/
def execLaunchAdmission (launch : Nat) (s : State) : Out :=
  match fget s.launches launch with
  | none => .next s
  | some l =>
    if l.st ≠ .queued || !((fget s.funcs l.fn).any fun f => !f.clr) then .next s
    else match admissionFault s l with
    | some c => .next (refuseLaunch s launch c)
    | none =>
      if !(prereqs s l).all launchOver then .next s
      else if (prereqs s l).any fun p => p.st ≠ .ended then .next (refuseLaunch s launch 0x147)
      else if s.launches.any fun e => e.2.fn = l.fn && launchReady s e.2 && goesBefore e.2 l &&
          (admissionFault s e.2).isNone then .next s
      else
        let (s1, t) := readTime s l.fn
        .next { s1 with
          launches := fput s1.launches launch
            { l with st := .admitted, tadm := t.toNat, xd := funcXlate s l.fn, gate := gateOf s (partOf s l.fn) l.lrec,
                     placedN := [0, 0, 0, 0], sub := s.next },
          next := s1.next + 1 }

/-! ## Room on a core pair (R227) -/

/-- The blocks resident on a pair. -/
def pairBlocks (s : State) (die pair : Nat) : List (Nat × Block) :=
  s.blocks.filter fun e => e.2.placed && e.2.die = die && e.2.pair = pair

/-- The slots taken on a core, less those of some blocks. -/
def slotsUsed (s : State) (die core : Nat) (less : List Nat) : List Nat :=
  (s.warps.filter fun e => e.2.kind = .kernel && e.2.die = die && e.2.core = core && e.2.st ≠ .saved &&
    e.2.st ≠ .ended && !less.contains e.2.block).map fun e => e.2.slot

/-- The record of a block's launch. -/
def blockRec (s : State) (k : Block) : Option LaunchRec := (fget s.launches k.launch).map (·.lrec)

/-- What a pair offers: free slots on its even and odd core, free scratchpad bytes, free barriers, free banks, and the bytes
that its die has left for block images (R359). -/
structure Room where
  even : Nat
  odd : Nat
  sp : Nat
  bars : Nat
  image : Nat
  banks : List Nat

/-- R359: the bytes of a block's image. -/
def imageNeed (r : LaunchRec) : Nat := 0x2000 + 64 * 4096 + r.spbytes + 20480 * r.bwarps

/-- R359: the bytes that a virtual die has left for images; a saved block keeps its reservation. -/
def imageLeft (s : State) (die : Nat) : Nat :=
  s.mgmt.imgRoom - (((s.blocks.filter fun e => e.2.die = die).map fun e => (blockRec s e.2).elim 0 imageNeed).foldl (· + ·) 0)

/-- The frame of one pair is such a home. -/
def frameHomed (s : State) (die pair : Nat) : Bool := (homedPairs s die).contains pair

/-- What a pair offers once some of its blocks are gone; `homed` lists the pairs whose frames are homes. -/
def roomOf (s : State) (homed : List Nat) (die pair : Nat) (less : List Nat) : Room :=
  let bs := (pairBlocks s die pair).filter fun e => !less.contains e.1
  let sum := fun (f : LaunchRec → Nat) => (bs.map fun e => (blockRec s e.2).elim 0 f).foldl (· + ·) 0
  { even := 64 - (slotsUsed s die (2 * pair) less).length, odd := 64 - (slotsUsed s die (2 * pair + 1) less).length,
    sp := if homed.contains pair then 0 else pairCapacity s die - sum (·.spbytes),
    bars := 32 - sum (·.nbar), image := imageLeft s die,
    banks := (List.range 64).filter fun b => (fget s.banks (64 * (64 * die + pair) + b)).all fun x =>
      less.contains x.block }

/-- What a block needs of a pair. A saved block holds its image already. -/
structure Need where
  r : LaunchRec
  image : Nat
  banks : List Nat

/-- R227, R359: a block fits. A block that resumes also needs its banks (R363). -/
def fits (q : Room) (n : Need) : Bool :=
  (n.r.bwarps + 1) / 2 ≤ q.even && n.r.bwarps / 2 ≤ q.odd && (n.r.spbytes = 0 || n.r.spbytes ≤ q.sp) &&
    n.r.nbar ≤ q.bars && n.image ≤ q.image && n.banks.all q.banks.contains

/-- R207, R365, R380, R417: a pair of a partition to which dispatch is open. -/
def dispatchOpen (s : State) (part die pair : Nat) : Bool :=
  match siteOf s die with
  | none => false
  | some (n, _) =>
    pairOn s die pair && clusterOwner s die (pair / 16) = part &&
      ((fget s.power.clusters (4 * n + pair / 16)).elim true fun c => c.st = .run) &&
      pairErrors s die pair ≤ Config.evacThreshold && !s.mgmt.evac.contains (64 * die + pair) && !s.mgmt.remaps.contains die

/-- The pairs of a die to which dispatch is open for a partition. -/
def openPairs (s : State) (part die : Nat) : List Nat := (List.range 64).filter (dispatchOpen s part die)

/-- R227: the pair with the most free warp slots among those that can take a block, the lowest-numbered on a tie. -/
def choosePair (s : State) (part die : Nat) (n : Need) : Option Nat :=
  let homed := homedPairs s die
  let free := fun p =>
    let q := roomOf s homed die p []
    128 - (q.even + q.odd)
  minBy free ((openPairs s part die).filter fun p => fits (roomOf s homed die p []) n)

/-! ## Placing a block (R228, R363) -/

/-- The lowest n free slots of a core. -/
def freeSlots (s : State) (die core n : Nat) : List Nat :=
  ((List.range 64).filter fun i => !(slotsUsed s die core []).contains i).take n

/-- The core and slot of warp w of a block of n warps placed on a pair. -/
def warpSeat (s : State) (die pair n w : Nat) : Nat × Nat :=
  (2 * pair + w % 2, (freeSlots s die (2 * pair + w % 2) n).getD (w / 2) 0)

/-- R255: the placement of a block drops the L1 lines of both cores. -/
def placeL1 (s : State) (die pair : Nat) : State :=
  l1DropCore (l1DropCore s (128 * die + 2 * pair)) (128 * die + 2 * pair + 1)

/-- R227, R228: a new block placed on a pair. -/
def placeNew (s : State) (n : Nat) (l : Launch) (die pair index : Nat) : State :=
  let b := s.next
  let k : Block := { launch := n, index := index, die := die, pair := pair, placed := true, saving := false, order := b,
                     sp := [], spPois := [], bars := [], recs := [], seqs := [], img := none }
  let lim := (fget s.funcs l.fn).elim Config.wdLimit (·.wdlim)
  let ws := (List.range l.lrec.bwarps).map fun i =>
    let c := warpSeat s die pair l.lrec.bwarps i
    (b + 1 + i, { newWarp n l b index i die c.1 c.2 lim with since := s.turn })
  let s1 := placeL1 { s with
    blocks := fput s.blocks b k, warps := ws.foldl (fun t e => fput t e.1 e.2) s.warps,
    launches := fput s.launches n { l with placedN := setAt l.placedN die (l.placedN.getD die 0 + 1) },
    next := b + 1 + l.lrec.bwarps } die pair
  ws.foldl (fun t e => bornHeader t e.1) s1

/-- R165, R363: the stopped MMAs of a block enter the bank orders of the pair on which it resumes. -/
def rebankOps (b die pair : Nat) (l : List Op) : List Op :=
  l.map fun o => if o.block ≠ b then o else match o.body with
    | .mma r _ =>
      let h := mmaShape r.ctl
      { o with body := .mma r ((List.range (h.mt * h.nt)).map fun i => 64 * (64 * die + pair) + h.bank + i) }
    | _ => o

/-- R173: a sequencer record of a warp that breaks R169 to R171 when it is reloaded: the core, the geometry, the range of
banks, the format block and the bytes that lie beyond the block's allocation. The record does not hold the register numbers
that 14.1 judges. -/
def seqBad (s : State) (w : Warp) (r : SeqRec) : Bool :=
  let h := mmaShape r.ctl
  let A := matOp r.opa0 r.opa1
  let B := matOp r.opb0 r.opb1
  let da := fdesc r.fblk 0
  let db := fdesc r.fblk 16
  w.core % 2 = 1 || mmaGeometryBad h A B || mmaFormatShort h A B da db || 64 < h.bank + h.mt * h.nt ||
    spSize s w < 16 * h.fbo + 32 || fblockBad da db || (mmaBeyond h A B da db (spSize s w)).isSome || r.step = 0 ||
    h.steps < r.step

/-- R173: the records of a block that fail the check end with 14.4 in the warps that issued them. -/
def checkSeqs (s : State) (b : Nat) : State :=
  (blockMmas s b).foldl (fun t o =>
    match o.body, fget t.warps o.warp with
    | .mma r _, some w =>
      if seqBad t w r then raiseTrap (dropOp t o.id) o.warp (opPath o) (sTrap (w.path (opPath o)) 0xE4) else t
    | .mma .., none => dropOp t o.id
    | _, _ => t) s

/-- R363: a saved block resumes on a pair. A sequencer record stays readable until its MMA runs on (R173; DEDUCED, log entry
109). -/
def placeSaved (s : State) (b : Nat) (k : Block) (pair : Nat) : State :=
  let n := (blockWarps s b).length
  let ws := (blockWarps s b).foldl (fun t e =>
    if e.2.st = .ended then t else
      let c := warpSeat s k.die pair n e.2.idx
      fput t e.1 { e.2 with core := c.1, slot := c.2, die := k.die, since := s.turn }) s.warps
  let banks := (k.img.elim [] (·.banks)).foldl (fun t e => fput t (64 * (64 * k.die + pair) + e.1) e.2) s.banks
  let s1 := { s with
    blocks := fput s.blocks b { k with pair := pair, placed := true, saving := false, order := s.next, img := none },
    warps := ws, banks := banks, ops := rebankOps b k.die pair s.ops, next := s.next + 1,
    launches := fmod s.launches k.launch fun l => { l with back := l.back.filter (· ≠ b) } }
  let s2 := (blockWarps s1 b).foldl (fun t e => if e.2.st = .saved then reloadWarp t e.1 else t) (placeL1 s1 k.die pair)
  checkSeqs s2 b

/-! ## The dispatcher (R227, R229) -/

/-- A block that waits on a die: a saved one, or the next of a launch's sub-grid. -/
inductive Waiting where
  | saved (b : Nat)
  | fresh (index : Nat)
  deriving DecidableEq

/-- R223: the blocks of a launch's sub-grid on a die that have not been placed, in ascending index. -/
def freshBlocks (l : Launch) (die : Nat) : List Nat :=
  let g := l.gate.getD die (0, 0)
  let d := l.placedN.getD die 0
  (List.range (g.2 - d)).map fun i => g.1 + d + i

/-- The blocks of a launch that wait on a die: saved blocks stand in front (R229). -/
def waitingOf (s : State) (l : Launch) (die : Nat) : List Waiting :=
  ((l.back.filter fun b => (fget s.blocks b).any fun k => k.die = die).map Waiting.saved) ++
    (freshBlocks l die).map Waiting.fresh

/-- R227: admitted launches in descending priority, then in order of admission. -/
def dispatchOrder (s : State) : List (Nat × Launch) :=
  let open' := s.launches.filter fun e => e.2.st = .admitted
  (List.range 8).reverse.flatMap fun p =>
    let l := open'.filter fun e => e.2.lrec.prio = p
    (l.mergeSort fun a b => a.2.sub ≤ b.2.sub)

/-- What a waiting block needs. -/
def needOf (s : State) (l : Launch) : Waiting → Need
  | .fresh _ => { r := l.lrec, image := imageNeed l.lrec, banks := [] }
  | .saved b =>
    let k := fget s.blocks b
    { r := l.lrec, image := 0, banks := (k.bind (·.img)).elim [] fun i => i.banks.map (·.1) }

/-- One waiting block placed, where a pair can take it. -/
def placeOne (s : State) (n : Nat) (die : Nat) (x : Waiting) : Option State :=
  match fget s.launches n with
  | none => none
  | some l =>
    match choosePair s (partOf s l.fn) die (needOf s l x), x with
    | none, _ => none
    | some p, .fresh i => some (placeNew s n l die p i)
    | some p, .saved b => (fget s.blocks b).map fun k => placeSaved s b k p

/-- R227, R358: every waiting block of a gang sub-grid placed, or none. -/
def placeGang (s : State) (n die : Nat) : List Waiting → Option State
  | [] => some s
  | x :: r =>
    match placeOne s n die x with
    | none => none
    | some t => placeGang t n die r

/-- The first of a list that gives a result. -/
def firstSome {α β : Type} (f : α → Option β) : List α → Option β
  | [] => none
  | a :: r => match f a with | some b => some b | none => firstSome f r

/-- R227: a launch's next placement on a die. Of new blocks that all need the same, only the first is tried. -/
def placeLaunch (s : State) (die n : Nat) (l : Launch) : Option State :=
  let ws := waitingOf s l die
  if l.lrec.gang then
    (if ws.isEmpty || s.blocks.any (fun e => e.2.launch = n && e.2.die = die && e.2.saving) then none
     else placeGang s n die ws)
  else
    let saved := ws.filter fun x => match x with | .saved _ => true | _ => false
    let fresh := (ws.filter fun x => match x with | .fresh _ => true | _ => false).take 1
    firstSome (placeOne s n die) (saved ++ fresh)

/-- R227: the first placement in dispatch order. A gang sub-grid that waits at the head holds back what follows. -/
def dispatch (s : State) (die : Nat) : Bool → List (Nat × Launch) → Option State
  | _, [] => none
  | head, (n, l) :: r =>
    if (waitingOf s l die).isEmpty then dispatch s die head r
    else match placeLaunch s die n l with
    | some t => some t
    | none => if l.lrec.gang && head then none else dispatch s die false r

/-- The priority of a block. -/
def blockPrio (s : State) (k : Block) : Nat := (blockRec s k).elim 0 (·.prio)

/-- R229: the blocks of a pair below a priority, in the order in which they are pre-empted. -/
def victims (s : State) (die pair prio : Nat) : List Nat :=
  let l := (pairBlocks s die pair).filter fun e => blockPrio s e.2 < prio
  (l.mergeSort fun a b =>
    blockPrio s a.2 < blockPrio s b.2 || (blockPrio s a.2 = blockPrio s b.2 && b.2.order ≤ a.2.order)).map (·.1)

/-- The shortest beginning of the victims whose saving lets the block be placed. -/
def enough (s : State) (homed : List Nat) (die pair : Nat) (n : Need) : List Nat → List Nat → List Nat
  | taken, [] => taken
  | taken, v :: r =>
    if fits (roomOf s homed die pair taken) n then taken else enough s homed die pair n (taken ++ [v]) r

/-- R229: what a pair would offer, so that more is less: slots first, then scratchpad, then barriers. -/
def offerKey (q : Room) : Nat := (128 - (q.even + q.odd)) * 2 ^ 40 + (2 ^ 22 - q.sp) * 2 ^ 8 + (32 - q.bars)

/-- R229: some pair of a die holds only blocks below a priority. -/
def pairBelow (s : State) (part die prio : Nat) : Bool :=
  (openPairs s part die).any fun p =>
    let l := pairBlocks s die p
    !l.isEmpty && l.all fun e => blockPrio s e.2 < prio

/-- R229: the pair on which blocks below a priority are pre-empted for a block. -/
def preemptPair (s : State) (homed : List Nat) (part die prio : Nat) (n : Need) : Option Nat :=
  minBy (fun p => offerKey (roomOf s homed die p (victims s die p prio)))
    ((openPairs s part die).filter fun p => fits (roomOf s homed die p (victims s die p prio)) n)

/-- R229: the blocks that a waiting block of a launch pre-empts on a die. -/
def preemptOne (s : State) (homed : List Nat) (die : Nat) (x : Launch) (w : Waiting) : Option (List Nat) :=
  let n := needOf s x w
  if !pairBelow s (partOf s x.fn) die x.lrec.prio then none
  else match (preemptPair s homed (partOf s x.fn) die x.lrec.prio n).map fun p =>
      enough s homed die p n [] (victims s die p x.lrec.prio) with
  | some (v :: r) => some (v :: r)
  | _ => none

/-- What the module would be without some blocks: their slots, scratchpads, barriers and banks are free. -/
def vacate (s : State) (l : List Nat) : State :=
  { s with blocks := fmap s.blocks fun b k => if l.contains b then { k with placed := false } else k,
           banks := ffilter s.banks fun _ k => !l.contains k.block,
           warps := fmap s.warps fun _ w => if w.kind = .kernel && l.contains w.block then { w with st := .saved } else w }

/-- R227, R229: the blocks that a gang sub-grid pre-empts on a die, so that all of its blocks are placed at once: block after
block, each where it fits, or where the blocks below its priority leave it room; none where some block finds no room (DEDUCED,
log entry 116). -/
def preemptGang (s : State) (homed : List Nat) (die n : Nat) (x : Launch) : List Waiting → Option (List Nat)
  | [] => some []
  | w :: r =>
    match placeOne s n die w with
    | some t => preemptGang t homed die n x r
    | none =>
      match preemptPair s homed (partOf s x.fn) die x.lrec.prio (needOf s x w) with
      | none => none
      | some p =>
        let l := enough s homed die p (needOf s x w) [] (victims s die p x.lrec.prio)
        match placeOne (vacate s l) n die w with
        | none => none
        | some t => (preemptGang t homed die n x r).map (l ++ ·)

/-- R227: the launches whose blocks may be placed now: a gang sub-grid that waits at the head holds back the others. -/
def contenders (s : State) (die : Nat) (l : List (Nat × Launch)) : List (Nat × Launch) :=
  let ws := l.filter fun x => !(waitingOf s x.2 die).isEmpty
  match ws with
  | x :: r => if x.2.lrec.gang then [x] else x :: r
  | [] => []

/-- R229: the blocks that a launch pre-empts on a die: those of its whole sub-grid for a gang, or those of its first waiting
block that a pair can help, saved blocks first and then the next new one. -/
def preemptLaunch (s : State) (homed : List Nat) (die : Nat) (e : Nat × Launch) : Option (List Nat) :=
  let ws := waitingOf s e.2 die
  if e.2.lrec.gang then
    (if !pairBelow s (partOf s e.2.fn) die e.2.lrec.prio then none
     else match preemptGang s homed die e.1 e.2 ws with
     | some (v :: r) => some (v :: r)
     | _ => none)
  else
    firstSome (preemptOne s homed die e.2) ((ws.filter fun w => match w with | .saved _ => true | _ => false) ++
      (ws.filter fun w => match w with | .fresh _ => true | _ => false).take 1)

/-- R229: the pre-emption that the first launch causes, in dispatch order, that a pair can help. -/
def preemptFor (s : State) (die : Nat) (l : List (Nat × Launch)) : State :=
  match firstSome (preemptLaunch s (homedPairs s die) die) (contenders s die l) with
  | some vs => vs.foldl startSave s
  | none => s

/-- R363: saved blocks that no pair of the site can hold: the first such block's launch. -/
def misfit (s : State) (die : Nat) : Option Launch :=
  (s.launches.find? fun e => e.2.st = .admitted && pairCapacity s die < e.2.lrec.spbytes &&
    e.2.back.any fun b => (fget s.blocks b).any fun k => k.die = die).map (·.2)

/-- R386: a waiting block raises wake requests for the clusters of the die that are not running. -/
def askWake (s : State) (die : Nat) : State :=
  match siteOf s die with
  | none => s
  | some (n, _) =>
    let want := (List.range 4).filter fun c => (fget s.power.clusters (4 * n + c)).any fun x => x.st ≠ .run && x.autowake
    if want.isEmpty then s
    else
      let p := (fget s.power.patrol n).getD Patrol.reset
      let req := want.foldl (fun m c => m ||| BitVec.ofNat 4 (2 ^ c)) p.wake
      { s with power := { s.power with patrol := fput s.power.patrol n { p with wake := req } } }

/-- BLOCK_PLACEMENT (R227, R229, R363). -/
def execBlockPlacement (die : Nat) (s : State) : Out :=
  let l := dispatchOrder s
  match misfit s die with
  | some x => .next (purgeKey s x.fn x.lrec.tag 0x152)
  | none =>
    match dispatch s die true l with
    | some t => .next t
    | none =>
      if l.all fun e => (waitingOf s e.2 die).isEmpty then .next s
      else if s.blocks.any fun e => e.2.die = die && e.2.saving then .next (askWake s die)
      else .next (askWake (preemptFor s die l) die)

/-! ## Completion records (R225, R226) -/

/-- R225: STATE of a launch that is over. -/
def stateCode (l : Launch) : Nat := match l.st with | .ended => 1 | .refused => 2 | .purged => 3 | _ => 0

/-- R225: the 64 bytes of a record. -/
def doneBytes (l : Launch) (tend : W64) : List Byte :=
  leBytes 8 l.id.toNat ++ leBytes 2 (stateCode l) ++ leBytes 2 (if l.st = .ended then 0 else l.cause) ++
    leBytes 4 l.endedN ++ leBytes 8 (if l.st = .refused then 0 else l.tadm) ++ leBytes 8 tend.toNat ++
    List.replicate 32 0

/-- R225: a launch whose record is due: it is over, or every block has ended. -/
def recordDue (l : Launch) : Option Launch :=
  if l.recWritten || l.recWaits then none
  else match l.st with
  | .refused | .purged | .ended => some l
  | .admitted => if l.endedN = gridSize l.lrec then some { l with st := .ended } else none
  | .queued => none

/-- R226: the record that a failed write leaves; the write waits. -/
def recordFault (s : State) (n : Nat) (l : Launch) (cause : Nat) (f : XFault) : State :=
  let r : FRec := { cause := cause, orig := 0, flags := 8 + b2n f.walk, code := 0, va := n64 l.lrec.done, addr := n64 f.ipa,
                    slot := 0, core := 0, die := 0, tag := l.lrec.tag, fn := l.fn, pc := 0, data := 0,
                    subj := .doneRec n }
  let s1 := { s with launches := fput s.launches n { l with recWaits := true } }
  pushRec s1 (if cause / 16 = 7 then 0 else l.fn) r

/-- R226: the record written at a physical address, here or on another module; it waits while the bobbin is full (R403). -/
def putRecord (s : State) (n : Nat) (l : Launch) (a : Nat) : State :=
  let (s1, t) := readTime s l.fn
  let b := doneBytes l t
  let ovr := raiseVector { s1 with launches := fput s1.launches n { l with recWritten := true } } l.fn 0
  if isLocal a then { ovr with mem := wrBytes ovr.mem a b, pois := clearCovered ovr.pois a 64 }
  else
    let p := { mkPacket s l.fn l.lrec.tag 2 1 (homeModule a) a with mask := 2 ^ 16 - 1, payload := b, len := 2 }
    match routeNow s p.part p.dst with
    | none => recordFault s n l 0x110 { cause := 0x110, walk := false, ipa := 0 }
    | some r => if bobbinSize ≤ s.fabric.bobbin.length then s
      else acceptPacket ovr { warp := 0, path := false, op := none, lanes := 0 } p r

/-- LAUNCH_COMPLETION_RECORD (R225, R226). The record is written whatever the owner of its page (R272). -/
def execLaunchCompletionRecord (launch : Nat) (s : State) : Out :=
  match (fget s.launches launch).bind recordDue with
  | none => .next s
  | some l =>
    let q := { deviceReq s l.fn .write with
      d := if l.st = .refused then funcXlate s l.fn else l.xd }
    match translate s q l.lrec.done with
    | .ok a => .next (putRecord s launch l a)
    | .fault f => .next (recordFault s launch l f.cause f)
    | _ => .next s

end Sys2Proof.Machine
end

