-- ==== Sys2Proof/Machine/Arrays.lean ====
section
/-! DEFINITION. Array programming and calibration (R367 to R374, R284): the ARRAY commands, the journal, verification
and the tailor engine. -/

namespace Sys2Proof.Machine

/-! ## Requests -/

/-- The state with a region replaced. -/
def putRegion (s : State) (n : Nat) (r : Region) : State :=
  { s with arrays := { s.arrays with regions := fput s.arrays.regions n r } }

/-- R367: the status of a response. -/
def arrayStatus (s : State) (v : Nat) : State := { s with arrays := { s.arrays with status := some v } }

/-- R367, R374: the response to a GRANT. -/
def grantStatus (s : State) (handle : Nat) : State :=
  { s with arrays := { s.arrays with status := some 0, handle := some handle } }

/-- R367: a request for a region is in progress. -/
def regionBusy (s : State) (region : Nat) : Bool := (fget s.arrays.regions region).any (·.busy)

/-- R367: a request waits behind those of its region that came before. -/
def queueReq (s : State) (region : Nat) (q : ArrayReq) : State :=
  { s with arrays := { s.arrays with queue := s.arrays.queue ++ [(region, q)] } }

/-- R284: an AMV of a region is outstanding. -/
def amvOut? (s : State) (region : Nat) : Bool :=
  s.ops.any fun o => match o.body with
    | .amv a _ => a.region = region
    | _ => false

/-! ## Images (R368) -/

/-- R368: a read through the PF's translation. -/
def pfReq (s : State) : XReq := { deviceReq s 0 .read with anyOwner := false }

/-- The byte of the PF's memory at a virtual address; none when it does not translate or is poisoned. -/
def pfByte (s : State) (va : Nat) : Option Byte :=
  match translate s (pfReq s) (n64 va).toNat with
  | .ok a => if poisonedIn s.pois a 1 then none else some (rdByte s.mem a)
  | _ => none

/-- R352: the first page of n bytes of the PF's memory that belongs to the host or moves: its address, and its leaf where the
walker is to move SH. -/
def pfBlocked (s : State) (va n : Nat) : Option (Nat × Option Nat) :=
  firstSome (fun i =>
    let a := (n64 (va / pageSize * pageSize + pageSize * i)).toNat
    match translate s (pfReq s) a with
    | .migrate leaf => some (a, some leaf)
    | .moving => some (a, none)
    | _ => none) (List.range ((va % pageSize + n + pageSize - 1) / pageSize))

/-- R352: a device access of the PF met a page that the host owns. -/
def pfMigrate (s : State) (leaf va : Nat) : State :=
  if !devRoom s leaf 1 then s
  else pushRec (tblWrite s 0 leaf (leBytes 8 (tblLe s leaf 8 + 2 ^ 5))) 0
    { cause := 0x64, orig := 0, flags := 0, code := 0, va := n64 va, addr := 0, slot := 0, core := 0, die := 0, tag := 0,
      fn := 0, pc := 0, data := 0, subj := .shared leaf 0 }

/-- The granules of other modules that n bytes of the PF's memory lie in. -/
def pfFar (s : State) (va n : Nat) : List Nat :=
  (List.range ((va % 64 + n + 63) / 64)).filterMap fun i =>
    match translate s (pfReq s) (n64 (va / 64 * 64 + 64 * i)).toNat with
    | .ok a => if isLocal a then none else some a
    | _ => none

/-- The granules of other modules that the image and the scales of a request lie in. -/
def imageFar (s : State) (r : ProgramReq) : List Nat :=
  pfFar s r.image (2 ^ 20 * (r.rs * r.cs)) ++ pfFar s r.scale (4096 * r.cs)

/-- Granules put into memory from their bytes one after another. -/
def putGranules (m : List Host.Cell) : List Nat → List Byte → List Host.Cell
  | [], _ => m
  | a :: r, b => putGranules (wrBytes m a (b.take 64)) r (b.drop 64)

/-- R48, R368: the non-zero weights of n bytes from an address, by their offset; none when a byte cannot be read or lies
outside −15 to +15. -/
def readTile (s : State) (va : Nat) : Nat → Option (FMap Int)
  | 0 => some []
  | n + 1 =>
    match readTile s va n, pfByte s (va + n) with
    | some l, some b =>
      if b.toInt < -15 || 15 < b.toInt then none else some (if b = 0 then l else l ++ [(n, b.toInt)])
    | _, _ => none

/-- A tile that has just been written. -/
def freshTile (w : FMap Int) : Tile :=
  let c : CompCopy := { nominal := false, words := [] }
  { w := w, tries := 0, sigs := none, cur := 0, published := false, fitted := false, due := false, refit := false,
    store := 0, c0 := c, c1 := c }

/-- R368: the tiles of an image, in ascending (RSL, CSL). -/
def readImage (s : State) (r : ProgramReq) : Nat → Option (FMap Tile)
  | 0 => some []
  | k + 1 =>
    match readImage s r k, readTile s (r.image + 2 ^ 20 * k) (2 ^ 20) with
    | some l, some w => some (fput l (tileKey (k / r.cs) (k % r.cs)) (freshTile w))
    | _, _ => none

/-- R273, R369: the places of a site's tiles that regions other than one hold, with those that a staged image is to take. -/
def tilesHeld (s : State) (site region : Nat) : List Nat :=
  (s.arrays.regions.filter fun e => e.1 ≠ region).flatMap fun e =>
    (if e.2.site = site then e.2.tiles.map (·.2.store) else []) ++
      (if (e.2.staged.elim e.2.site (·.site)) = site then e.2.image.map (·.2.store) else [])

/-- R273: the places of a site's tiles that no other region holds. -/
def freeTiles (s : State) (site region : Nat) : List Nat :=
  let held := tilesHeld s site region
  (List.range ((fget s.sites site).elim 0 fun t => if t.present then 2048 * t.ad else 0)).filter fun n => !held.contains n

/-- R368: the tiles of an image, each on the lowest-numbered free place (DESIGN CHOICE, log entry 85). -/
def seatTiles (s : State) (site region : Nat) (l : FMap Tile) : FMap Tile :=
  (l.zip (freeTiles s site region)).map fun e => (e.1.1, { e.1.2 with store := e.2 })

/-- R368: the column scales; none when one cannot be read or is not finite. -/
def readScales (s : State) (va : Nat) : Nat → Option (FMap W32)
  | 0 => some []
  | n + 1 =>
    match readScales s va n, (List.range 4).mapM fun i => pfByte s (va + 4 * n + i) with
    | some l, some b =>
      let v := n32 (leNat b)
      if (f32Val v).isFin then some (if v = 0 then l else l ++ [(n, v)]) else none
    | _, _ => none

/-! ## The journal (R369) -/

/-- R369: the digest of a tile. -/
def tileDigest (t : Tile) : List Byte :=
  Config.sha384 ((List.range (2 ^ 20)).map fun i => BitVec.ofInt 8 (fgetD 0 t.w i : Int))

/-- R369: DIGEST, over the digests of the tiles in ascending order. -/
def imageDigest (l : FMap Tile) : List Byte := Config.sha384 (l.flatMap fun e => tileDigest e.2)

/-- An entry that is open. -/
def JEntry.isOpen (e : JEntry) : Bool := e.phase = 1 || e.phase = 2

/-- The journal of a site. -/
def journalOf (s : State) (site : Nat) : List JEntry := fgetD [] s.arrays.journal site

/-- R369: every one of the 16 entries is open. -/
def journalFull (s : State) (site : Nat) : Bool := 16 ≤ ((journalOf s site).filter (·.isOpen)).length

/-- R369: the 128 bytes of an entry. -/
def journalBytes (e : JEntry) : List Byte :=
  leBytes 8 e.seq ++ leBytes 2 e.region ++ leBytes 1 e.phase ++ List.replicate 5 0 ++ leBytes 8 e.stage ++
    e.digest.take 48 ++ List.replicate (48 - e.digest.length) 0 ++ List.replicate 56 0

/-- R368: the bytes of a staged copy: the tiles, and then the scales. -/
def stageSize (q : ProgramReq) : Nat := 2 ^ 20 * (q.rs * q.cs) + 4096 * q.cs

/-- R368, R369: the staged copies of a site that open entries need, as (address, end). -/
def stagesUsed (s : State) (site : Nat) : List (Nat × Nat) :=
  ((journalOf s site).filter (·.isOpen)).map fun e =>
    (e.stage, e.stage + ((fget s.arrays.regions e.region).bind (·.staged)).elim 0 stageSize)

/-- R368: where a request's staged copy lies: at the beginning of the room or after another copy (DESIGN CHOICE, log entry 85);
none while no place is left. -/
def stageAt (s : State) (q : ProgramReq) : Option Nat :=
  let used := stagesUsed s q.site
  let base := fwStage (siteDie s q.site)
  (base :: used.map (·.2)).find? fun a =>
    a + stageSize q ≤ base + 24 * 2 ^ 30 && used.all fun u => a + stageSize q ≤ u.1 || u.2 ≤ a

/-- R369: an entry opened for a region; a closed entry makes room. -/
def openEntry (s : State) (region : Nat) (r : Region) (stage : Nat) : State :=
  let seq := fgetD 0 s.arrays.jseq r.site + 1
  let e : JEntry := { seq := seq, region := region, phase := 1, stage := stage, digest := imageDigest r.image }
  let l := journalOf s r.site
  let l1 := if l.length < 16 then l else (l.filter (·.isOpen)) ++ ((l.filter fun x => !x.isOpen).drop 1)
  { s with arrays := { s.arrays with journal := fput s.arrays.journal r.site (l1 ++ [e]),
                                     jseq := fput s.arrays.jseq r.site seq } }

/-- R369: the open entry of a region moves to another phase. -/
def setPhase (s : State) (region : Nat) (r : Region) (phase : Nat) : State :=
  let l := (journalOf s r.site).map fun e => if e.region = region && e.isOpen then { e with phase := phase } else e
  { s with arrays := { s.arrays with journal := fput s.arrays.journal r.site l } }

/-! ## Programming (R368, R370) -/

/-- R368: what programming waits for: an entry of the journal and room for the staged copy. -/
def mayProgram (s : State) (q : ProgramReq) : Option Nat := if journalFull s q.site then none else stageAt s q

/-- R368: programming begins on the site of the request: the journal entry is opened. Tiles on another site are given up. -/
def beginProgram (s : State) (region : Nat) (r : Region) (q : ProgramReq) (stage : Nat) : State :=
  let r1 := { r with st := .programming, leaving := none, site := q.site, tiles := if r.site = q.site then r.tiles else [] }
  putRegion (openEntry s region r1 stage) region r1

/-- A region that has been staged: its old tiles stay until AMVs have retired. -/
def stageRegion (old : Option Region) (q : ProgramReq) (img : FMap Tile) (sc : FMap W32) : Region :=
  match old with
  | some r => { r with busy := true, staged := some q, image := img, imScales := sc }
  | none => { site := q.site, rs := q.rs, cs := q.cs, st := .empty, busy := true, leaving := none, tiles := [], scales := [],
              staged := some q, image := img, imScales := sc, dests := [] }

/-- R367, R368: a request whose image and scales have been read: checked for room, and staged. It waits while all journal
entries are open. The Bool says that the request has been taken. -/
def program (s : State) (region : Nat) (q : ProgramReq) (old : Option Region) (img : FMap Tile) (sc : FMap W32) : State × Bool :=
  if (freeTiles s q.site region).length < q.rs * q.cs then (arrayStatus s 3, true)
  else match mayProgram s q with
  | none => (s, false)
  | some stage =>
    let x := stageRegion old q (seatTiles s q.site region img) sc
    if x.st = .inService && amvOut? s region then (putRegion s region { x with leaving := some .programming }, true)
    else (beginProgram s region x q stage, true)

/-- R368: the request once its bytes are at hand: `v` is the state with those of other modules in place. -/
def programFrom (v s : State) (region : Nat) (q : ProgramReq) (old : Option Region) : State × Bool :=
  match readImage v q (q.rs * q.cs), readScales v q.scale (1024 * q.cs) with
  | some img, some sc => program s region q old img sc
  | _, _ => (arrayStatus s 1, true)

/-- R352, R368: the page that a request has to wait for. -/
def programBlocked (s : State) (q : ProgramReq) : Option (Nat × Option Nat) :=
  match pfBlocked s q.image (2 ^ 20 * (q.rs * q.cs)) with
  | some x => some x
  | none => pfBlocked s q.scale (4096 * q.cs)

/-- PROGRAM (R368). A page that moves or that the host owns is waited for (R352), and bytes of the image that lie on other
modules are fetched by READ packets first. An RS or CS of 0 or above 256, for which the rules name no status, finds no room
(DESIGN CHOICE, log entry 118). -/
def serveProgram (s : State) (region : Nat) (q : ProgramReq) : State × Bool :=
  let old := fget s.arrays.regions region
  if q.rs = 0 || q.cs = 0 || 256 < q.rs || 256 < q.cs then (arrayStatus s 3, true)
  else match programBlocked s q with
  | some (va, some leaf) => (pfMigrate s leaf va, false)
  | some (_, none) => (s, false)
  | none =>
    let far := imageFar s q
    if far.isEmpty then programFrom s s region q old
    else match farPieces s 0 0 Reader.device (far.map fun a => (a, 64)) with
    | .wait t => (t, false)
    | .lost t => (arrayStatus t 1, true)
    | .ok t b bad =>
      if bad then (arrayStatus t 1, true)
      else programFrom { t with mem := putGranules t.mem far b } t region q old

/-! ## The other commands (R367, R370, R374) -/

/-- OFFLINE (R367, R284): done once the region is OFFLINE. -/
def serveOffline (s : State) (region : Nat) : State :=
  match fget s.arrays.regions region with
  | none => arrayStatus s 2
  | some r =>
    if r.st ≠ .inService then arrayStatus s 2
    else if amvOut? s region then putRegion s region { r with leaving := some .offline, busy := true }
    else putRegion (arrayStatus s 0) region { r with st := .offline, leaving := none }

/-- R370, R372: calibration begins: no copy is published. -/
def beginCalibration (r : Region) : Region :=
  { r with st := .calibrating,
           tiles := fmap r.tiles fun _ t => { t with published := false, fitted := false, refit := false } }

/-- ONLINE (R367, R370). -/
def serveOnline (s : State) (region : Nat) : State :=
  match fget s.arrays.regions region with
  | none => arrayStatus s 2
  | some r => if r.st = .offline then putRegion s region { beginCalibration r with busy := true } else arrayStatus s 2

/-- R374: RS, CS and the column scales that a grant receives (log entry 23). -/
def scaleBytes (r : Region) : List Byte :=
  leBytes 4 r.rs ++ leBytes 4 r.cs ++
    (List.range (1024 * r.cs)).flatMap fun j => leBytes 4 (fgetD 0 r.scales j : W32).toNat

/-- R374: they are written at a device physical address, here or on another module. -/
def deliverScales (s : State) (r : Region) (dest : Nat) : State :=
  let b := scaleBytes r
  if isLocal dest then { s with mem := wrBytes s.mem dest b, pois := clearCovered s.pois dest b.length }
  else devWriteAll s 0 dest b

/-- R403: room in the bobbin for the scales of some destinations. -/
def scalesRoom (s : State) (r : Region) (dests : List Nat) : Bool :=
  let far := (dests.filter fun d => !isLocal d).length
  far = 0 || s.fabric.bobbin.length + far * (64 * r.cs + 2) ≤ bobbinSize

/-- R374: a handle that firmware may choose for a function. -/
def handleOk (f : Func) (handle : Nat) : Bool :=
  handle ≠ 0 && handle < 2 ^ 32 && !f.oldHandles.contains handle && f.grants.all fun g => g.1 ≠ handle

/-- R374: the handle that a function gets: the one that firmware has proposed, or the lowest other one that it may choose (DESIGN
CHOICE, log entry 56). -/
def newHandle (f : Func) (handle : Nat) : Nat :=
  ((handle :: (List.range (f.oldHandles.length + f.grants.length + 1)).map (· + 1)).find? (handleOk f)).getD handle

/-- GRANT (R374), with the handle that firmware chooses. A function that holds the region gets its existing handle. The Bool says
that the request has been taken. -/
def serveGrant (s : State) (region fn dest handle : Nat) : State × Bool :=
  match fget s.arrays.regions region, fget s.funcs fn with
  | some r, some f =>
    if r.st = .empty then (arrayStatus s 2, true)
    else match f.grants.find? fun g => g.2 = region with
    | some g => (grantStatus s g.1, true)
    | none =>
      if !scalesRoom s r [dest] then (s, false)
      else
        let h := newHandle f handle
        let s1 := modFunc s fn fun g => { g with grants := g.grants ++ [(h, region)], oldHandles := h :: g.oldHandles }
        (grantStatus (deliverScales (putRegion s1 region { r with dests := r.dests ++ [(fn, dest)] }) r dest) h, true)
  | _, _ => (arrayStatus s 2, true)

/-- R374: a function's grant of a region ends. -/
def dropGrant (s : State) (region fn : Nat) : State :=
  let s1 := modFunc s fn fun f => { f with grants := f.grants.filter fun g => g.2 ≠ region }
  { s1 with arrays := { s1.arrays with
      regions := fmod s1.arrays.regions region fun r => { r with dests := r.dests.filter fun d => d.1 ≠ fn } } }

/-- FREE (R367): a region that is OFFLINE or DAMAGED and that no function holds. -/
def serveFree (s : State) (region : Nat) : State :=
  match fget s.arrays.regions region with
  | none => arrayStatus s 2
  | some r =>
    if (r.st ≠ .offline && r.st ≠ .damaged) || s.funcs.any fun e => e.2.grants.any fun g => g.2 = region
    then arrayStatus s 2
    else arrayStatus { s with arrays := { s.arrays with
      regions := fdel s.arrays.regions region,
      digests := s.arrays.digests.filter fun e => e.1 / 65536 ≠ region } } 0

/-- R367: a request served; the Bool says that it has been taken, and else it waits. -/
def serveReq (s : State) (region : Nat) : ArrayReq → State × Bool
  | .program q => serveProgram s region q
  | .offline => (serveOffline s region, true)
  | .online => (serveOnline s region, true)
  | .grant fn dest handle => serveGrant s region fn dest handle
  | .revoke fn => (arrayStatus (dropGrant s region fn) 0, true)
  | .free => (serveFree s region, true)

/-- R367: a request of the owner for a region number; status 4 for another master. Requests for one region are served one at a
time, in the order in which they arrive. -/
def arrayReq (s : State) (m region : Nat) (q : ArrayReq) : Out :=
  if !isOwner s m then .next (arrayStatus (dropMaster s m) 4)
  else if region = 0 || 4095 < region then .next (arrayStatus s 2)
  else if regionBusy s region || s.arrays.queue.any (·.1 = region) then .next (queueReq s region q)
  else
    let t := serveReq s region q
    .next (if t.2 then t.1 else queueReq t.1 region q)

/-- R367: the next request of a region is served, once the one before it is done. -/
def arrayServe (s : State) (region : Nat) : State :=
  match s.arrays.queue.find? (·.1 = region) with
  | none => s
  | some e =>
    if regionBusy s region then s
    else
      let t := serveReq s region e.2
      if t.2 then { t.1 with arrays := { t.1.arrays with queue := t.1.arrays.queue.erase e } } else t.1

/-- PROGRAM (R367, R368). -/
def execProgram (m region : Nat) (r : ProgramReq) (s : State) : Out := arrayReq s m region (.program r)
/-- OFFLINE (R367). -/
def execOffline (m region : Nat) (s : State) : Out := arrayReq s m region .offline
/-- ONLINE (R367). -/
def execOnline (m region : Nat) (s : State) : Out := arrayReq s m region .online
/-- GRANT (R367, R374). -/
def execGrant (m region fn dest handle : Nat) (s : State) : Out := arrayReq s m region (.grant fn dest handle)
/-- REVOKE (R367, R374). -/
def execRevoke (m region fn : Nat) (s : State) : Out := arrayReq s m region (.revoke fn)
/-- FREE (R367). -/
def execFreeRegion (m region : Nat) (s : State) : Out := arrayReq s m region .free

/-! ## The course of programming (R370, R371, R284) -/

/-- REGION_LEAVE_SERVICE (R284): once the AMVs of its tiles have retired. An OFFLINE request is then done. -/
def execRegionLeaveService (region : Nat) (s : State) : Out :=
  match fget s.arrays.regions region with
  | none => .next s
  | some r =>
    match r.leaving, r.staged with
    | none, _ => .next s
    | some .programming, some q =>
      if amvOut? s region then .next s
      else match mayProgram s q with
      | none => .next s
      | some stage => .next (beginProgram s region r q stage)
    | some st, _ =>
      if amvOut? s region then .next s
      else
        let off := putRegion s region { r with st := st, leaving := none, busy := false }
        .next (if r.busy then arrayStatus off 0 else off)

/-- R369: the digests of a region's tiles stored. -/
def storeDigests (s : State) (region : Nat) (l : FMap Tile) : State :=
  { s with arrays := { s.arrays with
      digests := l.foldl (fun d e => fput d (65536 * region + e.1) (tileDigest e.2))
        (s.arrays.digests.filter fun e => e.1 / 65536 ≠ region) } }

/-- R370: the staged tiles and scales become the region's. -/
def writeTiles (r : Region) : Region :=
  { r with rs := r.staged.elim r.rs (·.rs), cs := r.staged.elim r.cs (·.cs), tiles := r.image, scales := r.imScales }

/-- TILES_WRITTEN (R370): the record and the digests are written, then PHASE 2. -/
def execTilesWritten (region : Nat) (s : State) : Out :=
  match fget s.arrays.regions region with
  | none => .next s
  | some r =>
    if r.st ≠ .programming then .next s
    else
      let r1 := { writeTiles r with st := .verifying }
      .next (setPhase (storeDigests (putRegion s region r1) region r1.tiles) region r1 2)

/-- R371: a tile's cells, read back, have the digest that is stored for it. The cells of a tile whose writing was cut short,
which `tries` 4 stands for, match nothing. -/
def tileMatches (s : State) (region : Nat) (e : Nat × Tile) : Bool :=
  e.2.tries < 4 && fgetD [] s.arrays.digests (65536 * region + e.1) = tileDigest e.2

/-- R371: a tile fails: it does not match after three rewrites. -/
def tileFailed (s : State) (region : Nat) (e : Nat × Tile) : Bool := 3 ≤ e.2.tries && !tileMatches s region e

/-- R48, R273: weights that cells read back as. -/
def weightsOk (w : FMap Int) : Bool := w.all fun e => e.1 < 2 ^ 20 && e.2 ≠ 0 && -15 ≤ e.2 && e.2 ≤ 15

/-- R371: what the cells of a tile read back as after its writing, or after a rewrite that a mismatch causes, of which there
are three. -/
def writeCells (s : State) (region tile : Nat) (w : FMap Int) : State :=
  match fget s.arrays.regions region with
  | none => s
  | some r =>
    match fget r.tiles tile with
    | none => s
    | some t =>
      let ok := tileMatches s region (tile, t)
      if r.st ≠ .verifying || !weightsOk w || (ok && t.tries ≠ 0) || (!ok && 3 ≤ t.tries) then s
      else
        let t1 := { t with w := w.foldl (fun m e => fput m e.1 e.2) [], tries := t.tries + b2n (!ok) }
        putRegion s region { r with tiles := fput r.tiles tile t1 }

/-- R373: where a tile's signatures lie. -/
def sigAddr (s : State) (r : Region) (t : Tile) : Nat := fwSig (siteDie s r.site) t.store

/-- R371: the signatures of a region's tiles computed from the weights that their cells read back as. -/
def signTiles (s : State) (r : Region) : State × Region :=
  ({ s with pois := r.tiles.foldl (fun p e => clearCovered p (sigAddr s r e.2) (2 ^ 20)) s.pois },
   { r with tiles := fmap r.tiles fun _ t => { t with sigs := some t.w } })

/-- R370, R374: a verified region: PHASE 3, and the scales go to every grant. -/
def acceptTiles (s : State) (region : Nat) (r : Region) : State :=
  let t := signTiles s (beginCalibration r)
  let s1 := setPhase (putRegion t.1 region t.2) region r 3
  r.dests.foldl (fun t d => deliverScales t r d.2) s1

/-- TILE_VERIFY (R370, R371): every tile verified, or a tile has failed three rewrites. -/
def execTileVerify (region : Nat) (verified : Bool) (s : State) : Out :=
  match fget s.arrays.regions region with
  | none => .next s
  | some r =>
    if r.st ≠ .verifying then .next s
    else if verified then
      .next (if r.tiles.all (tileMatches s region) && scalesRoom s r (r.dests.map (·.2)) then acceptTiles s region r else s)
    else if r.tiles.any (tileFailed s region) then
      let t := setPhase (putRegion s region { r with st := .damaged, busy := false }) region r 4
      .next (if r.busy then arrayStatus t 5 else t)
    else .next s

/-! ## The tailor engine (R176, R372) -/

/-- The state with a tile of a region changed. -/
def modTile (s : State) (region : Nat) (r : Region) (tile : Nat) (f : Tile → Tile) : State :=
  putRegion s region { r with tiles := fmod r.tiles tile f }

/-- R284, R372: the tailor engine takes a region out of service, or ends its calibration. -/
def failService (s : State) (region : Nat) (r : Region) : State :=
  if r.st = .calibrating then
    let t := putRegion s region { r with st := .offline, busy := false }
    if r.busy then arrayStatus t 5 else t
  else
    let off := if amvOut? s region then { r with leaving := some .offline } else { r with st := .offline }
    raiseVector (putRegion s region off) 0 3

/-! ### Probes (R372) -/

/-- R372: the inputs of probe k. -/
def probeInputs (k : Nat) : List Byte :=
  (List.range 1024).map fun i => (rngHash (n32 (0x7A110000 + k)) (n32 i)).setWidth 8

/-- R372: a signature of probe k: the plane sum of an output, from the weights that firmware has read back. -/
def signature (t : Tile) (tr : Bool) (k j p : Nat) : Int :=
  planeSum (outWeights { t with w := t.sigs.getD [] } tr j) (probeInputs k) p

/-- R280, R372: the exact sum of an output that the signatures of probe k give. -/
def probeSum (t : Tile) (tr : Bool) (k j : Nat) : Int :=
  ((List.range 8).map fun p => (if p = 7 then -1 else 1) * (2 ^ p : Int) * signature t tr k j p).foldl (· + ·) 0

/-- R372: the codes of an output of a probe are not architectural (R5 (a)): free codes (log entry 4). -/
def probeCode (seed k : Nat) (tr : Bool) (j p : Nat) : Nat := Config.freeCode (seed + 2048 * k + 1024 * b2n tr + j) p % 1024

/-- R372: the error of an output of probe k under a copy stands within 2^−8 of the tile's full scale 15 × 128 × 1,024, in units
of the scales. -/
def codesClose (t : Tile) (c : CompCopy) (k : Nat) (tr : Bool) (j : Nat) (codes : Nat → Nat) : Bool :=
  let g := outFactor c tr j 1
  let y := (mulNums (sumNums 1 [.ofInt (accOf codes), (outFactor c tr j 0).neg]).1 g).1
  let err := (sumNums 1 [y, (Num.ofInt (probeSum t tr k j)).neg]).1
  y.isFin && !numLt (.ofInt 7680) err.abs

/-- The same of the codes that the probe gives. -/
def probeClose (t : Tile) (c : CompCopy) (seed k : Nat) (tr : Bool) (j : Nat) : Bool :=
  codesClose t c k tr j (probeCode seed k tr j)

/-- R372: every output of probe k, in both directions, stands within the limit under a copy. -/
def probeWithin (t : Tile) (c : CompCopy) (seed k : Nat) : Bool :=
  [false, true].all fun tr => (List.range 1024).all (probeClose t c seed k tr)

/-- R373: an uncorrectable error in a signature of a tile. -/
def sigsPoisoned (s : State) (r : Region) (t : Tile) : Bool := t.sigs.isNone || poisonedIn s.pois (sigAddr s r t) (2 ^ 20)

/-- R281, R372, R373: a fit stands within the limit for all 16 probes, and keeps the bound of R281. An error in a signature makes
it fail. -/
def fitWithin (s : State) (r : Region) (t : Tile) (c : CompCopy) : Bool :=
  !sigsPoisoned s r t && copyKeeps c && (List.range 16).all (probeWithin t c s.free)

/-- R372: another tile of the site that no probe has reached for 100 ms takes the slot first. -/
def dueElse (s : State) (r : Region) (t : Tile) : Bool :=
  !t.due && s.arrays.regions.any fun e => e.2.site = r.site && e.2.tiles.any fun x => x.2.due

/-- R372: the probe that runs in a slot; the rules do not say which of the 16 (log entry 119). -/
def probeNo (s : State) : Nat := (Config.freeRandom s.free).toNat % 16

/-- TAILOR_PROBE (R372). `withinLimit` is the outcome that the event reports; one that the codes do not give does not happen. A
probe outside the limit forces an immediate refit. -/
def execTailorProbe (region tile : Nat) (withinLimit : Bool) (s : State) : Out :=
  match fget s.arrays.regions region with
  | none => .next s
  | some r =>
    match fget r.tiles tile with
    | none => .next s
    | some t =>
      if (r.st ≠ .inService && r.st ≠ .calibrating) || !t.published || dueElse s r t then .next s
      else if probeWithin t (tileCopy t t.cur) s.free (probeNo s) ≠ withinLimit then .next s
      else
        let t1 := { t with due := false, refit := t.refit || (!withinLimit && r.st = .inService && r.leaving.isNone) }
        .next { putRegion s region { r with tiles := fput r.tiles tile t1 } with free := s.free + 32768 }

/-- PROBE_DEADLINE (R372): the tile takes one slot first. -/
def execProbeDeadline (region tile : Nat) (s : State) : Out :=
  match fget s.arrays.regions region with
  | none => .next s
  | some r => .next (modTile s region r tile fun t => { t with due := true })

/-- R176: an AMV that chose a copy of a tile is outstanding. -/
def copyInUse (s : State) (region tile copy : Nat) : Bool :=
  s.ops.any fun o => match o.body with
    | .amv a _ => a.region = region && a.tile = tile && a.copy = copy
    | _ => false

/-- R176: the copy that is not current written, and then current. -/
def publish (t : Tile) (c : CompCopy) : Tile :=
  if t.cur = 0 then { t with c1 := c, cur := 1 } else { t with c0 := c, cur := 0 }

/-- R280: the copy that is published first. -/
def nominalCopy : CompCopy := { nominal := true, words := [] }

/-- R370: a calibrating region all of whose tiles have a fit goes into service. -/
def finishCalibration (s : State) (region : Nat) : State :=
  match fget s.arrays.regions region with
  | none => s
  | some r =>
    if r.st = .calibrating && r.tiles.all fun e => e.2.published && e.2.fitted then
      let t := putRegion s region { r with st := .inService, busy := false }
      if r.busy then arrayStatus t 0 else t
    else s

/-- R152, R282: a copy rewritten whole holds no poison. -/
def clearCopy (s : State) (r : Region) (t : Tile) (copy : Nat) : State :=
  { s with pois := clearCovered s.pois (copyAddr s r t copy) 0x14000 }

/-- TAILOR_PUBLISH (R176, R281, R372): in CALIBRATING first the nominal copy, then a fit; later a new fit. A fit outside the limit
is not published: the tailor engine takes the region out of service, or ends its calibration. -/
def execTailorPublish (region tile : Nat) (fit : CompCopy) (s : State) : Out :=
  match fget s.arrays.regions region with
  | none => .next s
  | some r =>
    match fget r.tiles tile with
    | none => .next s
    | some t =>
      let open' := r.st = .calibrating || (r.st = .inService && r.leaving.isNone)
      let s1 := clearCopy s r t (1 - t.cur)
      if !open' || copyInUse s region tile (1 - t.cur) then .next s
      else if !t.published then .next (modTile s1 region r tile fun t => { publish t nominalCopy with published := true })
      else if !fitWithin s r t fit then .next { failService s region r with free := s.free + 32768 }
      else
        let s2 := modTile s1 region r tile fun t => { publish t fit with fitted := true, refit := false }
        .next { finishCalibration s2 region with free := s.free + 32768 }

/-! ## Starts (R371) -/

/-- R371: the regions with an open entry, after a warm start: rewritten from the staged copy, and then verified by events of
their own, which close the entry (DEDUCED, log entry 120). -/
def replayJournal (s : State) : State :=
  s.arrays.regions.foldl (fun t e =>
    let mine := (journalOf t e.2.site).find? fun j => j.region = e.1 && j.isOpen
    match mine with
    | none => t
    | some j =>
      let r := { writeTiles e.2 with st := .verifying, busy := false }
      if imageDigest e.2.image = j.digest then setPhase (storeDigests (putRegion t e.1 r) e.1 r.tiles) e.1 r 2
      else setPhase (putRegion t e.1 { e.2 with st := .damaged, busy := false }) e.1 e.2 4) s

/-- R371: a region after a cold start: damaged where its entry is open or a tile does not match its stored digest. The tiles
of a region whose programming was cut short match nothing. -/
def coldRegion (s : State) (n : Nat) (r : Region) : Region :=
  let mine := (journalOf s r.site).find? fun j => j.region = n && j.isOpen
  let torn := mine.any fun j => j.phase = 1
  let bad := r.tiles.any fun e => !tileMatches s n e
  let tiles := fmap r.tiles fun _ t =>
    { freshTile t.w with tries := if torn then 4 else t.tries, sigs := some t.w, cur := t.cur, store := t.store }
  let blank := { r with busy := false, leaving := none, staged := none, image := [], imScales := [], dests := [], tiles := tiles }
  if mine.isSome || bad then { blank with st := .damaged } else beginCalibration blank

/-- R371: every open entry closes. -/
def closeJournal (l : List JEntry) : List JEntry := l.map fun e => if e.isOpen then { e with phase := 4 } else e

/-- R369, R371: the arrays after a cold start: the record stores and the journal are kept. -/
def coldArrays (s : State) : Arrays :=
  { s.arrays with regions := fmap s.arrays.regions (coldRegion s),
                  journal := fmap s.arrays.journal fun _ l => closeJournal l, queue := [], status := none, handle := none }

end Sys2Proof.Machine
end

