-- ==== Sys2Proof/Machine/LFloat.lean ====
section
/-! DEFINITION. Lane floating-point arithmetic and FCMP (R123 to R130). -/

namespace Sys2Proof.Machine

/-- Element e of source i in lane l, in the instruction's format. -/
def LIn.num (x : LIn) (i l e : Nat) : Num := decodeNum x.o.fmt (elem x.o.fmt (x.at i l) e)

/-- Element e of source i in lane l, as a code. -/
def LIn.code (x : LIn) (i l e : Nat) : Nat := elem x.o.fmt (x.at i l) e

/-- A form of two sources in fmt with one rounded result per element. -/
def float2 (s : State) (o : LaneOp) (rok : Bool) (f : RMode → Num → Num → Coded) : Out :=
  laneRun s o rok [(o.a, o.fmt), (o.b, o.fmt)] fun x =>
    perElem x o.fmt fun l e => f (x.mode l e) (x.num 0 l e) (x.num 1 l e)

/-- A form of one source in fmt with one result per element. -/
def float1 (s : State) (o : LaneOp) (rok : Bool) (f : RMode → Num → Coded) : Out :=
  laneRun s o rok [(o.a, o.fmt)] fun x => perElem x o.fmt fun l e => f (x.mode l e) (x.num 0 l e)

/-- R123. -/
def execFadd (o : LaneOp) (s : State) : Out := float2 s o true fun r a b => addOp o.fmt r a b
/-- R123: a − b is a + (−b); a NaN b keeps its kind. -/
def execFsub (o : LaneOp) (s : State) : Out := float2 s o true fun r a b => addOp o.fmt r a b.neg
/-- R123. -/
def execFmul (o : LaneOp) (s : State) : Out := float2 s o true fun r a b => mulOp o.fmt r a b
/-- R123. -/
def execFfma (o : LaneOp) (s : State) : Out :=
  laneRun s o true [(o.a, o.fmt), (o.b, o.fmt), (o.c, o.fmt)] fun x =>
    perElem x o.fmt fun l e => fmaOp o.fmt (x.mode l e) (x.num 0 l e) (x.num 1 l e) (x.num 2 l e)

/-- R124: minimumNumber or maximumNumber of two elements; the result is one operand's code. -/
def minMax (f : Fmt) (wantMax : Bool) (ca cb : Nat) : Coded :=
  let a := decodeNum f ca
  let b := decodeNum f cb
  let nan := (layoutOf f).elim 0 (·.nanCode)
  let code :=
    if a.isNan && b.isNan then nan
    else if a.isNan then cb
    else if b.isNan then ca
    else if numLt a b != wantMax then ca else cb
  { code := code, fl := sigFlags [a, b] }

/-- R124. -/
def execFmin (o : LaneOp) (s : State) : Out :=
  laneRun s o false [(o.a, o.fmt), (o.b, o.fmt)] fun x =>
    perElem x o.fmt fun l e => minMax o.fmt false (x.code 0 l e) (x.code 1 l e)
/-- R124. -/
def execFmax (o : LaneOp) (s : State) : Out :=
  laneRun s o false [(o.a, o.fmt), (o.b, o.fmt)] fun x =>
    perElem x o.fmt fun l e => minMax o.fmt true (x.code 0 l e) (x.code 1 l e)

/-- The sign bit of an element of fmt. -/
def signOf (f : Fmt) : Nat := 2 ^ (fmtWidth f - 1)

/-- R125. -/
def execFabs (o : LaneOp) (s : State) : Out :=
  laneRun s o false [(o.a, o.fmt)] fun x =>
    perElem x o.fmt fun l e => { code := x.code 0 l e % signOf o.fmt, fl := 0 }
/-- R125. -/
def execFneg (o : LaneOp) (s : State) : Out :=
  laneRun s o false [(o.a, o.fmt)] fun x =>
    perElem x o.fmt fun l e => { code := x.code 0 l e + signOf o.fmt, fl := 0 }
/-- R125. -/
def execFcpys (o : LaneOp) (s : State) : Out :=
  laneRun s o false [(o.a, o.fmt), (o.b, o.fmt)] fun x =>
    perElem x o.fmt fun l e =>
      { code := x.code 0 l e % signOf o.fmt + x.code 1 l e / signOf o.fmt * signOf o.fmt, fl := 0 }

/-! ## The functions of R126 -/

/-- R126: a NaN operand gives the canonical NaN, NV when it is signalling; any other operand goes on. -/
def onNumber (f : Fmt) (r : RMode) (a : Num) (k : Bool → Num → Num × Nat) : Coded :=
  if a.isNan then { code := (layoutOf f).elim 0 (·.nanCode), fl := flIf a.isSig flNV }
  else
    let v := k a.isNeg a
    let c := encodeNum f r v.1
    { c with fl := flOr v.2 c.fl }

/-- An invalid operand: the canonical NaN with NV. -/
def invalid : Num × Nat := (.nan false false, flNV)

/-- R126. -/
def frcpOf (neg : Bool) : Num → Num × Nat
  | .inf n => (.zero n, 0)
  | .fin n m e _ => if m = 0 then (.inf neg, flDZ) else (recipNum m e n, 0)
  | v => (v, 0)

/-- R126. -/
def frsqOf (neg : Bool) : Num → Num × Nat
  | .inf n => if n then invalid else (.zero false, 0)
  | .fin n m e _ => if m = 0 then (.inf neg, flDZ) else if n then invalid else (rsqrtNum m e, 0)
  | v => (v, 0)

/-- R126. -/
def fsqrtOf (neg : Bool) : Num → Num × Nat
  | .inf n => if n then invalid else (.inf false, 0)
  | .fin n m e _ => if m = 0 then (.zero neg, 0) else if n then invalid else (sqrtNum m e, 0)
  | v => (v, 0)

/-- R126. -/
def flog2Of : Num → Num × Nat
  | .inf n => if n then invalid else (.inf false, 0)
  | .fin n m e _ => if m = 0 then (.inf true, flDZ) else if n then invalid else (log2Num m e, 0)
  | v => (v, 0)

/-- R126. -/
def ftanhOf : Num → Num × Nat
  | .inf n => (.fin n 1 0 false, 0)
  | .fin n m e _ => if m = 0 then (.zero n, 0) else (tanhNum n m e, 0)
  | v => (v, 0)

/-- R126: outside [−0.5, 0.5] is invalid. -/
def fexpfOf : Num → Num × Nat
  | .inf _ => invalid
  | .fin n m e st =>
    if m = 0 then (.ofInt 1, 0)
    else if numLt (.fin false 1 (-1) false) (.fin false m e st) then invalid
    else (exp2Num n m e, 0)
  | v => (v, 0)

/-- R126. -/
def execFrcp (o : LaneOp) (s : State) : Out := float1 s o false fun r a => onNumber o.fmt r a frcpOf
/-- R126. -/
def execFrsq (o : LaneOp) (s : State) : Out := float1 s o false fun r a => onNumber o.fmt r a frsqOf
/-- R126. -/
def execFsqrt (o : LaneOp) (s : State) : Out := float1 s o false fun r a => onNumber o.fmt r a fsqrtOf
/-- R126. -/
def execFlog2 (o : LaneOp) (s : State) : Out := float1 s o false fun r a => onNumber o.fmt r a fun _ => flog2Of
/-- R126. -/
def execFtanh (o : LaneOp) (s : State) : Out := float1 s o false fun r a => onNumber o.fmt r a fun _ => ftanhOf
/-- R126. -/
def execFexpf (o : LaneOp) (s : State) : Out := float1 s o false fun r a => onNumber o.fmt r a fun _ => fexpfOf

/-- R127: b rounded toward zero to an integer, kept within ±100,000, beyond which every result overflows or
vanishes alike. -/
def truncInt : Num → Int
  | .fin n m e _ =>
    let v : Int := if 20 < e + log2 m then 100000
      else if 0 ≤ e then m * 2 ^ e.toNat else m / 2 ^ (-e).toNat
    if n then -v else v
  | _ => 0

/-- R127. -/
def scaleOp (f : Fmt) (r : RMode) (a b : Num) : Coded :=
  let nan := (layoutOf f).elim 0 (·.nanCode)
  if a.isNan || b.isNan then { code := nan, fl := sigFlags [a, b] }
  else
    match b, a with
    | .inf n, a =>
      if !n then (if a.isZero then { code := nan, fl := flNV } else encodeNum f r (.inf a.isNeg))
      else (if a.isInf then { code := nan, fl := flNV } else encodeNum f r (.zero a.isNeg))
    | b, .fin n m e st => if m = 0 then encodeNum f r a else encodeNum f r (.fin n m (e + truncInt b) st)
    | _, a => encodeNum f r a

/-- R127. -/
def execFscale (o : LaneOp) (s : State) : Out := float2 s o true fun r a b => scaleOp o.fmt r a b

/-- R128: rounded to an integral value of the same format, the sign kept on a zero. -/
def rintOp (f : Fmt) (r : RMode) (a : Num) : Coded :=
  match a with
  | .nan _ sig => { code := (layoutOf f).elim 0 (·.nanCode), fl := flIf sig flNV }
  | .inf _ => encodeNum f r a
  | .fin n m e st =>
    if 0 ≤ e || m = 0 then encodeNum f r a
    else
      let c := cutAt m e st 0
      let tcode := (encodeNum f rne (.fin n c.t 0 false)).code
      let odd7 := c.t % 2 = 0
      let up := !c.exact && (if r.rnd = 7 then odd7 else if r.rnd = 6 then takesU r n tcode c else takesU r n c.t c)
      let v : Nat := if up then c.t + 1 else c.t
      let x := encodeNum f { r with rnd := 1 } (if v = 0 then .zero n else .fin n v 0 false)
      { x with fl := flOr x.fl (flIf (!c.exact) flNX) }

/-- R128. -/
def execFrint (o : LaneOp) (s : State) : Out := float1 s o true fun r a => rintOp o.fmt r a

/-- R129: the class of a code. -/
def classBit (f : Fmt) (x : Nat) : Nat :=
  let l := (layoutOf f).getD ⟨8, 23, 127, .ieee⟩
  let mag := x % signOf f
  let neg := x / signOf f = 1
  match decodeNum f x with
  | .nan _ sig => if sig then 8 else 9
  | .inf _ => if neg then 0 else 7
  | _ =>
    if mag = 0 then (if neg then 3 else 4)
    else if mag < 2 ^ l.mw then (if neg then 2 else 5)
    else if neg then 1 else 6

/-- R129: .f32 delivers an n32 mask, the packed forms one mask per half. -/
def execFclass (o : LaneOp) (s : State) : Out :=
  laneRun s o false [(o.a, o.fmt)] fun x =>
    perElem x (if o.fmt = .f32 then .n32 else .n16) fun l e => { code := 2 ^ classBit o.fmt (x.code 0 l e), fl := 0 }

/-! ## Compares (R130) -/

/-- R130: the condition of a compare of two values. -/
def condOf (cond : Nat) (un : Bool) (c : Ordering) : Bool :=
  match cond with
  | 0 => !un && c == .eq
  | 1 => un || c != .eq
  | 2 => !un && c == .lt
  | 3 => !un && c != .gt
  | 4 => !un && c == .gt
  | 5 => !un && c != .lt
  | 6 => !un
  | _ => un

/-- R130: the ballot of a compare as the result of every active lane. -/
def ballot (x : LIn) (test : Nat → Bool) (fl : Nat) : LRes :=
  let m := maskOf fun l => x.c.act.getLsbD l && test l
  let kd := fld x.o.mods 7 4
  { res := mkLanes fun l => if x.c.act.getLsbD l then m else 0, tag := .b32, fl := fl,
    kd := if kd = 0 then none else some (kd, m) }

/-- R130. -/
def execFcmp (o : LaneOp) (s : State) : Out :=
  laneRun s o false [(o.a, o.fmt), (o.b, o.fmt)] fun x =>
    let el := fld o.mods 9 8
    let pair := fun l => (x.num 0 l el, x.num 1 l el)
    let un := fun (l : Nat) => (pair l).1.isNan || (pair l).2.isNan
    let bad := fun l => sigFlags [(pair l).1, (pair l).2] ≠ 0 || (bitAt o.mods 10 && un l)
    ballot x (fun l => condOf (fld o.mods 3 0) (un l) (numCmp (pair l).1 (pair l).2))
      (flIf ((lanesOf x.c.act).any bad) flNV)

end Sys2Proof.Machine
end

