-- ==== Sys2Proof/Machine/Shuttle.lean ====
section
/-! DEFINITION. Tensor records, TREC and the shuttle batches: SH.COPY, SH.FILL, SH.GATHER, SH.CLOSE, the transfer of
their elements and the completion of a batch (R177 to R182, R343, R391, R395). -/

namespace Sys2Proof.Machine

/-! ## Tensor records (R177) -/

/-- The number of elements of a record. -/
def recCount (t : TRec) : Nat := t.dims.foldl (· * ·) 1

/-- The bytes of an element. -/
def recSize (t : TRec) : Nat := 2 ^ t.esize

/-- The extent of the outermost dimension. -/
def recOuter (t : TRec) : Nat := t.dims.getD (t.rank - 1) 1

/-- The elements of one outermost index. -/
def recInner (t : TRec) : Nat := (t.dims.take (t.rank - 1)).foldl (· * ·) 1

/-- The record of 64 bytes. -/
def parseTRec (b : List Byte) : TRec :=
  { base := at' b 0 8, space := at' b 8 1, esize := at' b 9 1, rank := at' b 0x0A 1, pod := at' b 0x0C 2,
    dims := (List.range (at' b 0x0A 1)).map fun d => at' b (0x10 + 4 * d) 4,
    strides := (List.range (at' b 0x0A 1)).map fun d => sext 64 (at' b (0x20 + 8 * d) 8) }

/-- R177: the 64 bytes are no valid record. -/
def trecBad (b : List Byte) : Bool :=
  let t := parseTRec b
  let size : Nat := 2 ^ t.esize
  2 < t.space || 3 < t.esize || t.rank = 0 || 4 < t.rank || at' b 0x0B 1 ≠ 0 || at' b 0x0E 2 ≠ 0 || 512 < t.pod ||
    (t.pod ≠ 0 && t.space = 0) || t.dims.any (· = 0) || t.strides.any (fun v => v % size ≠ 0) ||
    (List.range 4).any (fun d => t.rank ≤ d && (at' b (0x10 + 4 * d) 4 ≠ 0 || at' b (0x20 + 8 * d) 8 ≠ 0)) ||
    t.base % size ≠ 0 || 2 ^ 32 < recCount t * size

/-- The offset of an element from its index, dimension 0 varying fastest. -/
def elemOff : List Nat → List Int → Nat → Int
  | d :: ds, v :: vs, n => ((n % d : Nat) : Int) * v + elemOff ds vs (n / d)
  | _, _, _ => 0

/-- The address of an element. -/
def elemVa (t : TRec) (n : Nat) : Nat := (w64 ((t.base : Int) + elemOff t.dims t.strides n)).toNat

/-- R177. -/
def contiguous (t : TRec) : Bool :=
  t.strides.getD 0 0 = (recSize t : Int) &&
    (List.range (t.rank - 1)).all fun d => t.strides.getD (d + 1) 0 = t.strides.getD d 0 * (t.dims.getD d 0 : Nat)

/-- R180: the outermost indices start to start + n − 1 of a record. -/
def selectOuter (t : TRec) (start n : Nat) : TRec :=
  { t with base := (w64 ((t.base : Int) + start * t.strides.getD (t.rank - 1) 0)).toNat,
           dims := setAt t.dims (t.rank - 1) n }

/-- R181: the bounding range of a record's bytes; none when it selects no element. -/
def recBounds (t : TRec) : Option (Int × Int) :=
  if recCount t = 0 then none
  else
    let ext := (t.dims.zip t.strides).map fun e => ((e.1 : Int) - 1) * e.2
    some ((t.base : Int) + (ext.map (min 0)).foldl (· + ·) 0,
          (t.base : Int) + (ext.map (max 0)).foldl (· + ·) 0 + recSize t)

/-- R177: the pod that a record names, where it is another pod. -/
def otherPod (t : TRec) : Option Nat := if t.pod = 0 || t.pod - 1 = Config.podNo then none else some (t.pod - 1)

/-- R181: the bounding ranges of two records intersect. -/
def recOverlap (a b : TRec) : Bool :=
  a.space = b.space && otherPod a = otherPod b &&
    match recBounds a, recBounds b with
    | some (l, h), some (m, k) => l < k && m < h
    | _, _ => false

/-- R180: a .sp record reaches beyond the block's allocation; the offset is the lowest of its bytes. -/
def recBeyond (S : Nat) (t : TRec) : Option Nat :=
  if t.space ≠ 0 then none
  else match recBounds t with
  | none => none
  | some (l, h) => if l < 0 || (S : Int) < h then some (w64 l).toNat else none

/-- The record in a slot of the warp's block (R178). -/
def trecSlot (s : State) (w : Warp) (n : Nat) : Option TRec := (warpBlock s w).bind fun b => fget b.recs n

/-- R178: the 64 bytes of a record that a TREC has read put into its slot. -/
def trecPut (s : State) (w : Warp) (slot : Nat) (b : List Byte) (pois : Bool) : Out :=
  if pois then trapS s 0x120
  else if trecBad b then trapS s 0xD0
  else retire { s with blocks := fmod s.blocks w.block fun k => { k with recs := fput k.recs slot (parseTRec b) } }
    (breakSpin w s.cur.path)

/-- R178, R262: the read of a record at a physical address, here or on another module. -/
def trecRead (s : State) (w : Warp) (slot h : Nat) : Out :=
  let uid := s.cur.warp
  let pf := s.cur.path
  if bytesOut s uid pf false 0 h 64 then stall s
  else match farBytes s w.fn w.reqtag (Reader.of uid pf) h 64 with
  | .ok t b pois => trecPut t w slot b pois
  | .wait t => stall t
  | .lost t => .next (fabricLoss t uid pf w.fn w.reqtag 0x110)

/-- R343: the record of a translation fault of a TREC issued by the supervisor slot: for the slot, behind the one in progress,
or for the PF where the class is 7. -/
def trecFault (s : State) (w : Warp) (uid : Nat) (pf : Bool) (f : XFault) (va : W64) : State :=
  let r := { warpRec w f.cause 0 (.trec uid pf) with flags := 2 + b2n f.walk, va := va, addr := n64 f.ipa }
  if f.cause / 16 = 7 then pushRec s 0 r else pushSup s (coreKey w) r

/-- R343: the fault of a TREC issued by the supervisor slot: the tensor-record engine waits for the answer, and the slot's
code goes on; the slot holds no tensor record (DEDUCED, log entry 45). -/
def trecRecord (s : State) (w : Warp) (f : XFault) (va : Nat) : Out :=
  retire (trecFault s w s.cur.warp s.cur.path f (n64 va)) (breakSpin w s.cur.path)

/-- TREC (R178): it faults as a lane read does (R335, R343). -/
def execTrec (slot a : Nat) (s : State) : Out :=
  onPath s fun w p =>
    let va := (rx w s.cur.path a).toNat
    if !allIssued p || acquireOut s s.cur.warp s.cur.path then stall s
    else if va % 64 ≠ 0 then trapS s 0xD0
    else match (if 2 ^ 48 ≤ va then .fault { cause := 0x31, walk := false, ipa := 0 }
        else translate s (warpReq s w (p.priv == 0) .read none) va) with
    | .ok h => trecRead s w slot h
    | .fault f => if w.kind = .supervisor then trecRecord s w f va else trapSx s f va
    | .migrate leaf => .next (migrate s s.cur.warp w false p.pc leaf va)
    | .moving => stall s

/-! ## The engine's accesses (R343) -/

/-- The number by which an engine knows an operation of a batch, or a collective. -/
def engineOp (id item : Nat) : Nat := 2 ^ 32 * id + item

/-- The TLB of the engine that serves an operation. -/
def engineUnit (w : Warp) (eop : Nat) : Nat := 65536 + 16 * w.die + Config.freeEngine eop % 16

/-- A translation request of an engine for an operation of a warp. -/
def engineReq (s : State) (w : Warp) (eop : Nat) (user : Bool) (acc : Acc) (space : Nat) : XReq :=
  { warpReq s w user acc (some (if space = 1 then 1 else 0)) with unit := engineUnit w eop }

/-- R393: an operation of a batch, or a collective, that its engine has not finished. -/
def engineAt (s : State) (e : Engine) : Bool :=
  (findOp s e.op).any fun o => match o.body with
    | .batch l => l[e.item]?.any fun i => i.done < i.total || !i.obuf.isEmpty
    | .coll c => !c.wrote
    | _ => false

/-- R393: the engine of an operation serves another one. -/
def engineBusy (s : State) (w : Warp) (id item : Nat) : Bool :=
  (fget s.cores.engines (engineUnit w (engineOp id item))).any fun e => !(e.op = id && e.item = item) && engineAt s e

/-- R393: the engine of an operation begins to serve it; the TLB entries of another partition are dropped first. -/
def engineBegin (s : State) (w : Warp) (id item : Nat) : State :=
  let u := engineUnit w (engineOp id item)
  let part := partOf s w.fn
  let other := (fget s.cores.engines u).any fun e => e.part ≠ part
  { s with cores := { s.cores with
      tlb := if other then s.cores.tlb.filter fun t => t.unit ≠ u else s.cores.tlb
      engines := fput s.cores.engines u { op := id, item := item, part := part } } }

/-- The place of an element. -/
inductive ElemAt where
  | home (addr : Nat)
  | skip
  | far (pod : Nat)
  | wait
  | fault (f : XFault)
  | migrate (leaf : Nat)

/-- Where an element of a record lies, for an operation that leaves some pages unwritten. An address beyond 48 bits raises 6.0
(DESIGN CHOICE, log entry 71). -/
def locate (s : State) (w : Warp) (id : Nat) (user : Bool) (skip : List Nat) (acc : Acc) (t : TRec) (va : Nat) :
    ElemAt :=
  if t.space = 0 then .home va
  else match otherPod t with
  | some p => .far p
  | none =>
    if skip.contains (va / pageSize) then .skip
    else if 2 ^ 48 ≤ va then .fault { cause := 0x60, walk := false, ipa := 0 }
    else match translate s (engineReq s w id user acc t.space) va with
    | .ok a => .home a
    | .fault f => .fault f
    | .migrate leaf => .migrate leaf
    | .moving => .wait

/-- R182: an element of a record lies on another module, or the record in another pod. -/
def recFar (s : State) (w : Warp) (id : Nat) (user : Bool) (acc : Acc) (t : TRec) : Bool :=
  (otherPod t).isSome || (t.space ≠ 0 && (List.range (recCount t)).any fun n =>
    match locate s w id user [] acc t (elemVa t n) with
    | .home a => !isLocal a
    | _ => false)

/-! ## Adding an operation to the batch (R179, R180) -/

/-- R179: an operation added to the path's open batch; a batch of 64 closes first, when its counter has room (R30). -/
def addToBatch (s : State) (w : Warp) (p : Path) (op : ShOp) : Out :=
  let uid := s.cur.warp
  let pf := s.cur.path
  if p.batch.length < 64 then
    retire s (breakSpin ((endRegion w).setPath pf { p with batch := p.batch ++ [op] }) pf)
  else if !mayClose s uid pf p then stall s
  else
    let s1 := closeBatch s uid pf
    retire s1 (breakSpin ((endRegion w).setPath pf { p with batch := [op] }) pf)

/-- A new operation. The homes of its records are judged when it is issued (R182; DEDUCED, log entry 97). -/
def newShOp (s : State) (w : Warp) (p : Path) (kind : ShKind) (dst src : TRec) (value : W64) (start : Nat) (whole : Bool) :
    ShOp :=
  { kind := kind, dst := dst, src := src, value := value, start := start, total := recCount dst, done := 0,
    whole := whole, taken := [], mark := s.next, stall := false, user := p.priv == 0, skip := [], rows := 0,
    far := recFar s w (engineOp s.next 0) (p.priv == 0) .write dst ||
      (kind ≠ .fill && recFar s w (engineOp s.next 0) (p.priv == 0) .read src),
    inGran := [], inbox := [], inPois := [], cover := [], seen := [], obuf := [] }

/-- R180: the range register applied to a record: START and the count of outermost indices, or 13.6. -/
def shRange (x : W64) (t : TRec) : Option (Nat × Nat) :=
  let start := fld x.toNat 31 0
  let cnt := fld x.toNat 63 32
  if recOuter t < start + cnt then none else some (start, if cnt = 0 then recOuter t - start else cnt)

/-- R180, R181: the checks that every form ends with, on the selected records: 4.0, then 13.5. -/
def shTail (s : State) (w : Warp) (p : Path) (dst src : TRec) (k : Bool → ShOp) : Out :=
  let S := spSize s w
  match recBeyond S dst with
  | some off => trapAt s 0x40 off
  | none =>
    match recBeyond S src with
    | some off => trapAt s 0x40 off
    | none =>
      let ovr := recOverlap dst src
      if ovr && !(contiguous dst && contiguous src) then trapS s 0xD5 else addToBatch s w p (k ovr)

/-- SH.COPY (R180). -/
def execShCopy (d a b : Nat) (s : State) : Out :=
  onPath s fun w p =>
    let x := rx w s.cur.path b
    if !allIssued p then stall s
    else match trecSlot s w d, trecSlot s w a with
    | some td, some ts =>
      match shRange x td, shRange x ts with
      | some (i, n), some (j, m) =>
        let dst := selectOuter td i n
        let src := selectOuter ts j m
        if recSize dst ≠ recSize src || recCount dst ≠ recCount src then trapS s 0xD2
        else shTail s w p dst src fun ovr => newShOp s w p .copy dst src 0 0 ovr
      | _, _ => trapS s 0xD6
    | _, _ => trapS s 0xD1

/-- SH.FILL (R180). -/
def execShFill (d a b : Nat) (s : State) : Out :=
  onPath s fun w p =>
    let x := rx w s.cur.path b
    if !allIssued p then stall s
    else match trecSlot s w d with
    | none => trapS s 0xD1
    | some td =>
      match shRange x td with
      | none => trapS s 0xD6
      | some (i, n) =>
        let dst := selectOuter td i n
        match recBeyond (spSize s w) dst with
        | some off => trapAt s 0x40 off
        | none => addToBatch s w p (newShOp s w p .fill dst dst (rx w s.cur.path a) 0 false)

/-- SH.GATHER (R180). -/
def execShGather (d a b : Nat) (s : State) : Out :=
  onPath s fun w p =>
    let x := (rx w s.cur.path b).toNat
    let ix := fld x 31 0
    if !allIssued p then stall s
    else match trecSlot s w d, trecSlot s w a with
    | some dst, some src =>
      if ix % 4 ≠ 0 || fld x 63 32 ≠ 0 then trapS s 0xD7
      else if spSize s w < ix + 4 * recOuter dst then trapAt s 0x40 ix
      else if recInner dst ≠ recInner src || recSize dst ≠ recSize src then trapS s 0xD2
      else shTail s w p dst src fun ovr => newShOp s w p .gather dst src 0 ix ovr
    | _, _ => trapS s 0xD1

/-- SH.CLOSE (R179). It does not end the idempotent region (R163). -/
def execShClose (s : State) : Out :=
  onPath s fun w p =>
    let uid := s.cur.warp
    let pf := s.cur.path
    if !allIssued p || !mayClose s uid pf p then stall s
    else
      let w1 := breakSpin (w.setPath pf { p with batch := [] }) pf
      retire (closeBatch s uid pf) w1

/-! ## The engine's faults and packets (R343, R403) -/

/-- R343: the record of an engine's fault: to the supervisor slot of the issuing core, or to the PF's queue for
class 7 (R341). -/
def engineFault (s : State) (w : Warp) (f : XFault) (va id item : Nat) : State :=
  let r := { warpRec w f.cause 0 (.engine id item) with
    flags := 2 + b2n f.walk, va := n64 va, addr := n64 f.ipa }
  if f.cause / 16 = 7 then pushRec s 0 r else pushSup s (coreKey w) r

/-- R362: while the block of an operation's warp is saved, the retirement of its batch or collective lowers the count in the
issuing path's entry. -/
def lowerEntry (s : State) (o : Op) : State :=
  let dec := fun (b : Bool) (l : List Nat) => if b then l.modify 2 (· - 1) else l
  match fget s.warps o.warp with
  | none => s
  | some w => { s with blocks := fmod s.blocks w.block fun k => { k with img := k.img.map fun m =>
      { m with entries := fmod m.entries w.idx fun e => { e with cntA := dec o.ownA e.cntA, cntB := dec o.ownB e.cntB } } } }

/-- A batch or collective leaves its counter. -/
def dropBatch (s : State) (o : Op) : State := dropOp (lowerEntry s o) o.id

/-- A packet of an engine handed to the bobbin; a lost route ends in 17.1 (R408). -/
def sendEngine (s : State) (o : Op) (p : Packet) : Handed :=
  if bobbinSize ≤ s.fabric.bobbin.length then .full
  else match routeNow s p.part p.dst with
  | none => .lost
  | some r => .ok (acceptPacket s { warp := o.warp, path := opPath o, op := some o.id, lanes := 0 } p r)

/-- The state after an engine's packet was handed over, where the engine goes no further now. -/
def afterHand (s : State) (o : Op) (w : Warp) : Handed → State
  | .ok t => t
  | .full => s
  | .lost => fabricLoss (dropBatch s o) o.warp (opPath o) w.fn w.reqtag 0x111

/-- A READ of an operation is on its way for a granule. -/
def readOut (s : State) (id g : Nat) : Bool :=
  s.fabric.bobbin.any fun e => e.op = some id && e.pkt.kind = 1 && e.pkt.addr = 64 * g

/-- R398: engine bytes of a space counted. -/
def meterEngine (s : State) (w : Warp) (t : TRec) : State :=
  match t.space with
  | 0 => s
  | 1 => meterWarp s w 8 (recSize t)
  | _ => meterWarp s w 9 (recSize t)

/-- The bytes of an element at its home, or the state in which the engine waits for them. -/
inductive Got where
  | val (v : Nat) (pois : Bool)
  | halt (s : State)

/-- An element's bytes read: from the module's memory, where a copy on the die serves it (R249), or scratchpad, or from a granule that another module has sent,
which is asked for when it has not come (R401). -/
def readElem (s : State) (o : Op) (w : Warp) (inGran : List Nat) (inbox : List Host.Cell) (inPois : List Nat) (t : TRec)
    (a : Nat) : Got :=
  let space : Space := if t.space = 0 then .sp else .dm
  if t.space = 0 || isLocal a then
    let b := if t.space = 0 then a else fromCopy s w.die a
    .val (rdLe (cellsOf s space o.block) b (recSize t)) (poisonedIn (poisOf s space o.block) b (recSize t))
  else if inGran.contains (granule a) then .val (rdLe inbox a (recSize t)) (inPois.contains (granule a))
  else if readOut s o.id (granule a) then .halt s
  else .halt (afterHand s o w (sendEngine s o
    (mkPacket s w.fn w.reqtag 1 0 (homeModule a) (64 * granule a))))

/-! ## The transfer of elements (R180, R181, R182) -/

/-- An item of a batch replaced. -/
def setItem (s : State) (id item : Nat) (f : ShOp → ShOp) : State :=
  { s with ops := s.ops.map fun o => if o.id = id then
      match o.body with
      | .batch l => { o with body := .batch (match l[item]? with | some i => l.set item (f i) | none => l) }
      | _ => o
    else o }

/-- R182, R270: every access that the path issued before the SH instruction has been performed, at the scope of the farther
of the operation's two records, the accesses of its engine operations too (R164). Batches are unordered among themselves
(R179). -/
def shOrdered (s : State) (o : Op) (it : ShOp) : Bool :=
  s.ops.all fun e => !(e.id < it.mark && samePath o e) ||
    match e.body with
    | .mem m => !isAcquire m && memPerformed m it.far
    | .batch _ => true
    | _ => false

/-- R343: what a place that is no home makes of the transfer: the engine waits, after its fault or the migration has
been reported. -/
def noHome (s : State) (o : Op) (w : Warp) (item va : Nat) : ElemAt → State
  | .fault f => engineFault (setItem s o.id item fun i => { i with stall := true }) w f va o.id item
  | .migrate leaf => migrate s o.warp w true 0 leaf va
  | _ => s

/-- The source of an element: its address; zeros for a row out of range; a constant. -/
inductive ElemSrc where
  | va (a : Nat)
  | zero
  | const (v : Nat)

/-- R164: scratchpad bytes that a shuttle operation reads, each once, with the poison that it had then. -/
def latchSp (s : State) (o : Op) (seen : FMap (Byte × Bool)) (a n : Nat) : FMap (Byte × Bool) :=
  ((List.range n).map (a + ·)).foldl (fun t i => if (fget t i).isSome then t
    else fput t i (rdByte (spCells s o.block) i, poisonedIn (spPoison s o.block) i 1)) seen

/-- The value of bytes that have been read, and whether any was poisoned. -/
def seenLe (seen : FMap (Byte × Bool)) (a n : Nat) : Nat × Bool :=
  let l := (List.range n).map fun i => fgetD (0, false) seen (a + i)
  (leNat (l.map (·.1)), l.any (·.2))

/-- R180: the source of element n of an operation that has read the index of its row. -/
def elemSrc (it : ShOp) (n : Nat) : ElemSrc :=
  match it.kind with
  | .copy => .va (elemVa it.src n)
  | .fill => .const (it.value.toNat % 2 ^ (8 * recSize it.dst))
  | .gather =>
    if recOuter it.src ≤ it.value.toNat then .zero
    else .va (elemVa it.src (it.value.toNat * recInner it.src + n % recInner it.dst))

/-- R164, R180: the index of the row of element n is read once, when the row begins; 13.3 where it is out of range. -/
def readIndex (s : State) (o : Op) (item : Nat) (it : ShOp) (n : Nat) : State × ShOp :=
  let row := n / recInner it.dst
  if it.kind ≠ .gather || row < it.rows then (s, it)
  else
    let seen := latchSp s o it.seen (it.start + 4 * row) 4
    let it1 := { it with seen := seen, rows := row + 1, value := n64 (seenLe seen (it.start + 4 * row) 4).1 }
    let s1 := setItem s o.id item fun _ => it1
    (if recOuter it.src ≤ it1.value.toNat then lateTrap s1 o 0xD3 else s1, it1)

/-- The value of a source element, with the item as it stands after. -/
inductive Took where
  | val (s : State) (v : Nat) (pois : Bool)
  | skip (s : State)
  | halt (s : State)

/-- The pod of a record is bound for the partition of a warp (R395). -/
def podBound (s : State) (w : Warp) (pod : Nat) : Bool :=
  (fget ((fget s.parts.parts (partOf s w.fn)).elim [] (·.binds)) pod).isSome

/-- The source of element n taken. -/
def takeElem (s : State) (o : Op) (w : Warp) (item : Nat) (it : ShOp) (n : Nat) : Took :=
  let (s1, it1) := readIndex s o item it n
  match elemSrc it1 n with
  | .const v => .val s1 v false
  | .zero => .val s1 0 false
  | .va va =>
    match locate s1 w (engineOp o.id item) it.user it.skip .read it.src va with
    | .skip => .skip s1
    | .far p =>
      if !podBound s w p then .skip s1
      else
        let v := (Config.freeRandom s.free).toNat + (Config.freeRandom (s.free + 1)).toNat * 2 ^ 32
        .val { meterWarp s1 w 12 (recSize it.src) with free := s.free + 1024 } (v % 2 ^ (8 * recSize it.src)) false
    | .home a =>
      if it.src.space = 0 then
        let seen := latchSp s1 o it1.seen a (recSize it.src)
        .val (setItem s1 o.id item fun i => { i with seen := seen }) (seenLe seen a (recSize it.src)).1
          (seenLe seen a (recSize it.src)).2
      else match readElem s1 o w it.inGran it.inbox it.inPois it.src a with
      | .halt t => .halt t
      | .val v p => .val (meterEngine s1 w it.src) v p
    | x => .halt (noHome s1 o w item va x)

/-- The bytes of a granule that a write of n bytes covers, as bits. -/
def granBits (a n : Nat) : Nat := (2 ^ n - 1) * 2 ^ (a % 64)

/-- R152: every byte of a granule has been written, none of them poisoned. -/
def wholeGran : Nat := 2 ^ 64 - 1

/-- R152: what has been written of a granule after a further write; bit 64 says that poison came with it. -/
def coverAfter (it : ShOp) (a size : Nat) (pois : Bool) : Nat :=
  fgetD 0 it.cover (granule a) ||| granBits a size ||| (if pois then 2 ^ 64 else 0)

/-- R152, R180: the poison of a destination granule after part of it was written: poison comes with poisoned data,
and a granule that the operation has written whole is clear. -/
def coverElem (s : State) (o : Op) (item : Nat) (it : ShOp) (space : Space) (a size : Nat) (pois : Bool) : State :=
  let g := granule a
  let n := coverAfter it a size pois
  let p := poisOf s space o.block
  let p1 := if pois then addPois p g else if n = wholeGran then delPois p g else p
  setItem (setCells s space o.block (cellsOf s space o.block) p1) o.id item fun i => { i with cover := fput i.cover g n }

/-- An element written at its home; one of another module joins the packet of its granule (R401). -/
def writeElem (s : State) (o : Op) (w : Warp) (item : Nat) (it : ShOp) (a v : Nat) (pois : Bool) : State :=
  let size := recSize it.dst
  let space : Space := if it.dst.space = 0 then .sp else .dm
  if it.dst.space = 0 || isLocal a then
    let s1 := setCells s space o.block (wrLe (cellsOf s space o.block) a size v) (poisOf s space o.block)
    coverElem (meterEngine s1 w it.dst) o item it space a size pois
  else
    setItem (meterEngine s w it.dst) o.id item fun i =>
      { i with obuf := (leBytes size v).zipIdx.foldl (fun l e =>
                 l.filter (fun c => c.1 ≠ a + e.2) ++ [(a + e.2, e.1)]) i.obuf,
               cover := fput i.cover (granule a) (coverAfter it a size pois) }

/-- R401: a granule of another module whose bytes go out now: one that is written whole, or any when the last element has
been transferred. -/
def readyGran (it : ShOp) : Option Nat :=
  (it.obuf.find? fun c => it.total ≤ it.done || fgetD 0 it.cover (granule c.1) % 2 ^ 64 = wholeGran).map
    fun c => granule c.1

/-- The run of adjacent bytes of a granule that leaves first: its address and bytes. -/
def firstRun (l : List Host.Cell) (g : Nat) : Nat × List Byte :=
  let held := fun a => (l.find? fun c => c.1 = a).map (·.2)
  let offs := (List.range 64).dropWhile fun i => (held (64 * g + i)).isNone
  let run := offs.takeWhile fun i => (held (64 * g + i)).isSome
  (64 * g + run.headD 0, run.filterMap fun i => held (64 * g + i))

/-- R401, R412: the EWRITE of a run of bytes of a granule handed to the bobbin. -/
def flushGran (s : State) (o : Op) (w : Warp) (item : Nat) (it : ShOp) (g : Nat) : State :=
  let (a, bytes) := firstRun it.obuf g
  let n := flits bytes.length
  let p := { mkPacket s w.fn w.reqtag 8 1 (homeModule a) a with
    payload := bytes, len := n, pois := if bitAt (fgetD 0 it.cover g) 64 then 2 ^ n - 1 else 0 }
  let rest := it.obuf.filter fun c => !(a ≤ c.1 && c.1 < a + bytes.length)
  match sendEngine s o p with
  | .ok t => setItem t o.id item fun i =>
      { i with obuf := rest, cover := if rest.any fun c => granule c.1 = g then i.cover else fdel i.cover g }
  | h => afterHand s o w h

/-- R177, R395: an element handed to the gateway for another pod. -/
def sendPod (s : State) (w : Warp) (pod va : Nat) (bytes : List Byte) (pois : Bool) : State :=
  let part := fgetD 0 ((fget s.parts.parts (partOf s w.fn)).elim [] (·.binds)) pod
  { s with fabric := { s.fabric with
      away := { pod := pod, part := part, va := va, data := bytes, pois := pois } :: s.fabric.away } }

/-- The value of element n written to its destination; `none` of it when the engine cannot go on now. -/
def placeElem (s : State) (o : Op) (w : Warp) (item : Nat) (it : ShOp) (n v : Nat) (pois : Bool) : Except State State :=
  let va := elemVa it.dst n
  match locate s w (engineOp o.id item) it.user it.skip .write it.dst va with
  | .skip => .ok s
  | .far p =>
    if !podBound s w p then .ok s
    else .ok (sendPod (meterWarp s w 12 (recSize it.dst)) w p va (leBytes (recSize it.dst) v) pois)
  | .home a => .ok (writeElem s o w item it a v pois)
  | x => .error (noHome s o w item va x)

/-- R181: one element of the source taken ahead of every write. -/
def stepTake (s : State) (o : Op) (w : Warp) (item : Nat) (it : ShOp) : State :=
  match takeElem s o w item it it.taken.length with
  | .val t v p => setItem t o.id item fun i => { i with taken := i.taken ++ [some (v, p)] }
  | .skip t => setItem t o.id item fun i => { i with taken := i.taken ++ [none] }
  | .halt t => t

/-- One element finished. -/
def nextElem (s : State) (o : Op) (item : Nat) : State := setItem s o.id item fun i => { i with done := i.done + 1 }

/-- One element read and written. -/
def moveElem (s : State) (o : Op) (w : Warp) (item : Nat) (it : ShOp) : State :=
  let got := if it.whole then
      match it.taken.getD it.done none with
      | some (v, p) => Took.val s v p
      | none => .skip s
    else takeElem s o w item it it.done
  match got with
  | .skip t => nextElem t o item
  | .halt t => t
  | .val t v p =>
    match placeElem t o w item it it.done v p with
    | .ok u => nextElem u o item
    | .error u => u

/-- One step of the transfer of an operation by its engine: the bytes of a granule sent to another module, an element of the
source taken, or an element written. -/
def stepElem (s : State) (o : Op) (w : Warp) (item : Nat) (it : ShOp) : State :=
  if it.stall || engineBusy s w o.id item || !shOrdered s o it then s
  else
    let s1 := engineBegin s w o.id item
    match readyGran it with
    | some g => flushGran s1 o w item it g
    | none =>
      if it.total ≤ it.done then s
      else if it.whole && it.taken.length < it.total then stepTake s1 o w item it
      else moveElem s1 o w item it

/-- R395: an operation with a record in a pod that is not bound: nothing of it is transferred, and 13.4 is raised. -/
def unbound (s : State) (w : Warp) (it : ShOp) : Bool :=
  let no := fun (t : TRec) => (otherPod t).any fun p => !podBound s w p
  no it.dst || (it.kind ≠ .fill && no it.src)

/-- The item of a batch with its operation and warp. -/
def withItem (s : State) (id item : Nat) (k : Op → Warp → ShOp → State) : State :=
  match findOp s id with
  | none => s
  | some o =>
    match o.body, fget s.warps o.warp with
    | .batch l, some w => (l[item]?).elim s (k o w)
    | _, _ => s

/-- Up to n steps of a transfer. -/
def runElems (id item : Nat) : Nat → State → State
  | 0, s => s
  | n + 1, s => runElems id item n (withItem s id item fun o w it => stepElem s o w item it)

/-- SHUTTLE_TRANSFER (R180). -/
def execShuttleTransfer (op item n : Nat) (s : State) : Out :=
  .next (withItem s op item fun o w it =>
    if it.done < it.total && unbound s w it then
      lateTrap (setItem s op item fun i => { i with done := i.total }) o 0xD4
    else runElems op item n s)

/-- R179, R316: an element of an operation of a path's open batch is transferred before the batch is closed, where that
takes no packet and reports no fault. -/
def openElement (s : State) (uid : Nat) (pf : Bool) (item : Nat) : State :=
  match fget s.warps uid with
  | none => s
  | some w =>
    let id := s.next
    let s1 := issueOp s uid pf w.block none (.batch (w.path pf).batch)
    let t := withItem s1 id item fun o v it => if unbound s1 v it then s1 else stepElem s1 o v item it
    match (findOp t id).map fun o => o.body with
    | some (OpBody.batch l) =>
      if t.fabric.bobbin = s.fabric.bobbin && t.cores.sups = s.cores.sups && t.funcs = s.funcs then
        modWarp { dropOp t id with next := s.next } uid fun v => v.modPath pf fun p => { p with batch := l }
      else s
    | _ => s

/-! ## Completion (R179) -/

/-- An earlier batch or collective of a path of an operation is outstanding. -/
def laterBatch (s : State) (o : Op) : Bool :=
  (earlierOps s o).any fun e => match e.body with
    | .batch _ | .coll _ => true
    | _ => false

/-- R185: an operation of this module that joined the instance of a collective. -/
def sameColl (s : State) (part : Nat) (c : CollOp) (e : Op) : Bool :=
  match e.body, fget s.warps e.warp with
  | .coll d, some w => d.group = c.group && d.inst = c.inst && partOf s w.fn = part
  | _, _ => false

/-- R185: the destinations of the members of this module have been written. -/
def collWritten (s : State) (o : Op) (c : CollOp) : Bool :=
  let part := (fget s.warps o.warp).elim 0 fun w => partOf s w.fn
  c.wrote && s.ops.all fun e => !sameColl s part c e || !writesOut s e.id

/-- A batch, or a collective whose destinations have been written, leaves its counter, in the order of closing. -/
def finishBatch (s : State) (id : Nat) : State :=
  match findOp s id with
  | none => s
  | some o =>
    let ovr := match o.body with
      | .batch l => batchWritten s id l
      | .coll c => collWritten s o c
      | _ => false
    if ovr && !laterBatch s o then dropBatch s o else s

/-- SH_BATCH_COMPLETE (R179). -/
def execShBatchComplete (op : Nat) (s : State) : Out := .next (finishBatch s op)

end Sys2Proof.Machine
end

