-- ==== Sys2Proof/Machine/Coll.lean ====
section
/-! DEFINITION. Collectives (R183 to R185, R394). -/

namespace Sys2Proof.Machine

/-! ## Issue (R183) -/

/-- The fields of the group register. -/
structure CollReq where
  group : Nat
  oper : Nat
  fmt : Nat
  resv : Bool
  rank : Nat

/-- R183. -/
def collReq (x : W64) : CollReq :=
  let v := x.toNat
  { group := fld v 15 0, oper := fld v 19 16, fmt := fld v 24 20, resv := fld v 31 25 ≠ 0, rank := fld v 63 32 }

/-- R183: a reducing form (ALLREDUCE, REDUCESCATTER). -/
def reduces (form : Nat) : Bool := form = 0 || form = 2

/-- R183: 13.8. -/
def collBad (form : Nat) (q : CollReq) (dst src : TRec) : Bool :=
  let width := fmtWidth (fmtOf q.fmt) / 8
  q.resv ||
    (if reduces form then
      2 < q.oper || !([0, 1, 2, 3, 4].contains q.fmt) || recSize dst ≠ width || recSize src ≠ width
     else q.oper ≠ 0 || q.fmt ≠ 15)

/-- The element size of a copying collective's records differs: it is no element-wise copy. -/
def collSizeBad (dst src : TRec) : Bool := recSize dst ≠ recSize src

/-- R183: the element counts break the form's rule. -/
def collCountBad (form n es ed : Nat) : Bool :=
  match form with
  | 0 => ed ≠ es
  | 1 => ed ≠ n * es
  | 2 => es ≠ n * ed
  | _ => ed ≠ es || es % n ≠ 0

/-- The members of a group of a function's partition. -/
def groupOf (s : State) (part g : Nat) : Option (List (Nat × Nat)) :=
  (fget s.parts.parts part).bind fun p => fget p.groups g

/-- R184: how many collectives a rank has begun on a group. -/
def begunKey (g rank : Nat) : Nat := g * 2 ^ 32 + rank

/-- The collective that the current path issues; its release is over when the earlier accesses are performed. -/
def collIssue (s : State) (w : Warp) (p : Path) (c : CollOp) : Out :=
  let uid := s.cur.warp
  let pf := s.cur.path
  if 255 ≤ counter s uid pf .sh + b2n (!p.batch.isEmpty) then stall s
  else if !performedAll s uid pf true then stall s
  else
    let s1 := closeBatch s uid pf
    let key := begunKey c.group c.rank
    let s2 := { s1 with parts := { s1.parts with parts := fmod s1.parts.parts (partOf s w.fn) fun q =>
        { q with begun := fputD 0 q.begun key (fgetD 0 q.begun key + 1) } } }
    retire (issueOp s2 uid pf w.block none (.coll c))
      (breakSpin ((endRegion w).setPath pf { p with batch := [] }) pf)

/-- COLL (R183, R185). The spec does not place 4.0 among the causes: it comes after 13.2 and before 13.5 (DESIGN CHOICE, log
entry 112). -/
def coll (form d a b : Nat) (s : State) : Out :=
  onPath s fun w p =>
    let q := collReq (rx w s.cur.path b)
    if !allIssued p then stall s
    else match trecSlot s w d, trecSlot s w a with
    | some dst, some src =>
      if collBad form q dst src then trapS s 0xD8
      else match groupOf s (partOf s w.fn) q.group with
      | none => trapS s 0xDA
      | some l =>
        if l.length ≤ q.rank then trapS s 0xDA
        else if collCountBad form l.length (recCount src) (recCount dst) || collSizeBad dst src then trapS s 0xD2
        else match recBeyond (spSize s w) dst, recBeyond (spSize s w) src with
        | some off, _ => trapAt s 0x40 off
        | none, some off => trapAt s 0x40 off
        | none, none =>
          if (d = a && form ≠ 0) || (d ≠ a && recOverlap dst src && !(contiguous dst && contiguous src)) then
            trapS s 0xD5
          else
            let inst := fgetD 0 ((fget s.parts.parts (partOf s w.fn)).elim [] (·.begun)) (begunKey q.group q.rank)
            collIssue s w p
              { form := form, group := q.group, rank := q.rank, oper := q.oper, fmt := q.fmt, inst := inst,
                user := p.priv == 0, skip := [], stall := false, inGran := [], inbox := [], inPois := [],
                wrote := false, dst := dst, src := src }
    | _, _ => trapS s 0xD1

/-- R183. -/
def execCollAllreduce (d a b : Nat) (s : State) : Out := coll 0 d a b s
/-- R183. -/
def execCollAllgather (d a b : Nat) (s : State) : Out := coll 1 d a b s
/-- R183. -/
def execCollReducescatter (d a b : Nat) (s : State) : Out := coll 2 d a b s
/-- R183. -/
def execCollAlltoall (d a b : Nat) (s : State) : Out := coll 3 d a b s

/-! ## The members of an instance (R184) -/

/-- A member of this module: its operation, its part and its warp. -/
structure Member where
  o : Op
  c : CollOp
  w : Warp

/-- R394: the function that a collective was issued for is the member that its group names for the rank. -/
def isMember (s : State) (w : Warp) (c : CollOp) : Bool :=
  (groupOf s (partOf s w.fn) c.group).all fun l => l[c.rank]? = some (Config.moduleNo, w.fn)

/-- The operations of this module that joined the instance of an operation; one that names another member's rank joins
nothing (R394; DEDUCED, log entry 110). -/
def members (s : State) (part : Nat) (c : CollOp) : List Member :=
  s.ops.filterMap fun o => match o.body, fget s.warps o.warp with
    | .coll d, some w => if sameColl s part c o && isMember s w d then some ⟨o, d, w⟩ else none
    | _, _ => none

/-- R185: members agree on form, OP, FMT and element counts. -/
def collAgree (c : CollOp) (ms : List Member) (others : List CollPart) : Bool :=
  (ms.all fun m => m.c.form = c.form && m.c.oper = c.oper && m.c.fmt = c.fmt &&
      recCount m.c.src = recCount c.src && recCount m.c.dst = recCount c.dst) &&
    others.all fun p => p.form = c.form && p.oper = c.oper && p.fmt = c.fmt && p.es = recCount c.src &&
      p.ed = recCount c.dst

/-- Every rank of a group of n has joined, each once. -/
def collWhole (n : Nat) (ms : List Member) (others : List CollPart) : Bool :=
  (List.range n).all fun r =>
    ((ms.filter fun m => m.c.rank = r).length + (others.filter fun p => p.rank = r).length) = 1

/-- The state with the collectives of some operations changed. -/
def modColl (s : State) (ids : List Nat) (f : CollOp → CollOp) : State :=
  { s with ops := s.ops.map fun o => if ids.contains o.id then
      match o.body with
      | .coll c => { o with body := .coll (f c) }
      | _ => o
    else o }

/-! ## Reading the sources -/

/-- The elements of one member's source, each with its poison; or the state in which the engine waits. An element whose page
stays unresolved, or whose pod is not bound, is absent, and what depends on it stays unwritten (R180, R395; DEDUCED, log entry
111). -/
def readSource (s : State) (m : Member) : Nat → Except State (List (Option (Nat × Bool)))
  | 0 => .ok []
  | n + 1 =>
    match readSource s m n with
    | .error t => .error t
    | .ok l =>
      let va := elemVa m.c.src n
      match locate s m.w (engineOp m.o.id 0) m.c.user m.c.skip .read m.c.src va with
      | .skip => .ok (l ++ [none])
      | .far p => .ok (l ++ [if podBound s m.w p
          then some ((Config.freeRandom (s.free + n)).toNat % 2 ^ (8 * recSize m.c.src), false) else none])
      | .home a =>
        match readElem s m.o m.w m.c.inGran m.c.inbox m.c.inPois m.c.src a with
        | .val v p => .ok (l ++ [some (v, p)])
        | .halt t => .error t
      | .fault f => .error (engineFault (modColl s [m.o.id] fun c => { c with stall := true }) m.w f va m.o.id 0)
      | .migrate leaf => .error (migrate s m.o.warp m.w true 0 leaf va)
      | .wait => .error s

/-- The source of every member of this module, by rank. -/
def readSources (s : State) : List Member → Except State (FMap (List (Option (Nat × Bool))))
  | [] => .ok []
  | m :: r =>
    if m.c.stall then .error s
    else match readSource s m (recCount m.c.src) with
    | .error t => .error t
    | .ok l =>
      match readSources s r with
      | .error t => .error t
      | .ok k => .ok (fput k m.c.rank l)

/-- The source of a member of another module, from its bytes, with the poison that came with them (R412). -/
def partSource (size : Nat) (p : CollPart) : List (Option (Nat × Bool)) :=
  (List.range p.es).map fun i => some (leNat ((p.data.drop (i * size)).take size), p.pois.contains i)

/-- R398: the source elements that a member's engine has read, counted. -/
def meterSource (s : State) (m : Member) (l : List (Option (Nat × Bool))) : State :=
  let n := (l.filter Option.isSome).length * recSize m.c.src
  if (otherPod m.c.src).isSome then meterWarp s m.w 12 n
  else match m.c.src.space with
  | 0 => s
  | 1 => meterWarp s m.w 8 n
  | _ => meterWarp s m.w 9 n

/-! ## The fold (R184) -/

/-- Two contributions combined: FP32 codes for a float format, words for an integer one. -/
def collPair (oper : Nat) (f : Fmt) (a b : Nat) : Nat :=
  if isFloat f then
    match oper with
    | 0 => (addOp .f32 rne (decodeNum .f32 a) (decodeNum .f32 b)).code
    | 1 => (minMax .f32 false a b).code
    | _ => (minMax .f32 true a b).code
  else
    let less := if f = .i32 then sext 32 a < sext 32 b else a % 2 ^ 32 < b % 2 ^ 32
    match oper with
    | 0 => (a + b) % 2 ^ 32
    | 1 => if less then a else b
    | _ => if less then b else a

/-- A contribution as the fold takes it: a float exactly in FP32. -/
def collIn (f : Fmt) (v : Nat) : Nat := if isFloat f then (encodeNum .f32 rne (decodeNum f v)).code else v

/-- The result as it is delivered: rounded once to FMT. -/
def collOut (f : Fmt) (v : Nat) : Nat := if isFloat f then (encodeNum f rne (decodeNum .f32 v)).code else v

/-- The left fold. -/
def foldLeft (oper : Nat) (f : Fmt) : List Nat → Nat
  | [] => 0
  | a :: r => r.foldl (collPair oper f) a

/-- Position i and the next combined. -/
def joinAt (oper : Nat) (f : Fmt) : Nat → List Nat → List Nat
  | 0, a :: b :: r => collPair oper f a b :: r
  | n + 1, a :: r => a :: joinAt oper f n r
  | _, l => l

/-- A fold bracketed in a way that the free values choose (R184, R5). -/
def foldAny (oper : Nat) (f : Fmt) (free : Nat) : Nat → List Nat → Nat
  | 0, l => foldLeft oper f l
  | n + 1, l =>
    if l.length ≤ 1 then foldLeft oper f l
    else foldAny oper f free n (joinAt oper f ((Config.freeRandom (free + n)).toNat % (l.length - 1)) l)

/-- R184: contributions folded, in reproducibility mode from the left. -/
def collFold (c : CollOp) (repro : Bool) (free : Nat) (l : List (Option (Nat × Bool))) : Option (Nat × Bool) :=
  let f := fmtOf c.fmt
  let k := l.filterMap id
  let v := k.map fun e => collIn f e.1
  if l.all Option.isSome
    then some (collOut f (if repro then foldLeft c.oper f v else foldAny c.oper f free v.length v), k.any (·.2)) else none

/-- R184: element i of the destination of rank q; none where a contribution is absent. -/
def collElem (c : CollOp) (repro : Bool) (free n q i : Nat) (src : FMap (List (Option (Nat × Bool)))) :
    Option (Nat × Bool) :=
  let at' := fun p j => (fgetD [] src p).getD j none
  let es := recCount c.src
  let ed := recCount c.dst
  match c.form with
  | 0 => collFold c repro free ((List.range n).map fun p => at' p i)
  | 1 => at' (i / es) (i % es)
  | 2 => collFold c repro free ((List.range n).map fun p => at' p (q * ed + i))
  | _ => at' (i / (es / n)) (q * (es / n) + i % (es / n))

/-! ## Writing the destinations -/

/-- The places of the destination of a member; or the state in which the engine waits. -/
def placesOf (s : State) (m : Member) : Nat → Except State (List (Option Nat))
  | 0 => .ok []
  | n + 1 =>
    match placesOf s m n with
    | .error t => .error t
    | .ok l =>
      let va := elemVa m.c.dst n
      match locate s m.w (engineOp m.o.id 0) m.c.user m.c.skip .write m.c.dst va with
      | .home a => .ok (l ++ [some a])
      | .skip | .far _ => .ok (l ++ [none])
      | .fault f => .error (engineFault (modColl s [m.o.id] fun c => { c with stall := true }) m.w f va m.o.id 0)
      | .migrate leaf => .error (migrate s m.o.warp m.w true 0 leaf va)
      | .wait => .error s

/-- The places of every member of this module. -/
def placesAll (s : State) : List Member → Except State (List (Member × List (Option Nat)))
  | [] => .ok []
  | m :: r =>
    match placesOf s m (recCount m.c.dst) with
    | .error t => .error t
    | .ok l =>
      match placesAll s r with
      | .error t => .error t
      | .ok k => .ok ((m, l) :: k)

/-- Elements that another module holds. -/
def farPlaces (t : TRec) (l : List (Option Nat)) : Nat :=
  (l.filter fun a => a.any fun x => t.space ≠ 0 && !isLocal x).length

/-- One element of a member's destination written, locally or by an EWRITE. -/
def collWrite (s : State) (m : Member) (a : Nat) (v : Nat × Bool) : State :=
  let size := recSize m.c.dst
  let space : Space := if m.c.dst.space = 0 then .sp else .dm
  let s1 := meterEngine s m.w m.c.dst
  if m.c.dst.space = 0 || isLocal a then
    let p := poisOf s1 space m.o.block
    setCells s1 space m.o.block (wrLe (cellsOf s1 space m.o.block) a size v.1) (if v.2 then addPois p (granule a) else p)
  else match sendEngine s1 m.o { mkPacket s1 m.w.fn m.w.reqtag 8 1 (homeModule a) a with
      payload := leBytes size v.1, len := 1, pois := b2n v.2 } with
  | .ok t => t
  | h => afterHand s1 m.o m.w h

/-- One element of a destination in another pod, where the pod is bound (R177, R395, R398). -/
def collAway (s : State) (m : Member) (i : Nat) (v : Nat × Bool) : State :=
  match otherPod m.c.dst with
  | some p =>
    if !podBound s m.w p then s
    else sendPod (meterWarp s m.w 12 (recSize m.c.dst)) m.w p (elemVa m.c.dst i) (leBytes (recSize m.c.dst) v.1) v.2
  | none => s

/-- R152: the granules that a member's destination covers whole, cleared before the elements are written. -/
def collClear (s : State) (m : Member) (l : List Nat) : State :=
  let size := recSize m.c.dst
  let space : Space := if m.c.dst.space = 0 then .sp else .dm
  let here := l.filter fun x => m.c.dst.space = 0 || isLocal x
  let bits := fun g => (here.filter fun x => granule x = g).foldl (fun t x => t ||| granBits x size) 0
  let full := (dedup (here.map granule)).filter fun g => bits g = wholeGran
  setCells s space m.o.block (cellsOf s space m.o.block) (full.foldl delPois (poisOf s space m.o.block))

/-- A member's destination written: every element whose contributions are there. -/
def collStore (n : Nat) (src : FMap (List (Option (Nat × Bool)))) (s : State) (m : Member) (l : List (Option Nat)) : State :=
  let repro := wmodeRepro m.w.wmode
  let val := fun i => collElem m.c repro (s.free + 1024 * i) n m.c.rank i src
  let put := fun (t : State) i => match val i, l.getD i none with
    | none, _ => t
    | some v, some a => collWrite t m a v
    | some v, none => collAway t m i v
  (List.range l.length).foldl put
    (collClear s m ((List.range l.length).filterMap fun i => if (val i).isSome then l.getD i none else none))

/-- Collectives that end: their destinations count as written, and each leaves its counter when it may. -/
def collEnd (s : State) (ms : List Member) : State :=
  let ids := ms.map (·.o.id)
  ids.foldl finishBatch (modColl s ids fun c => { c with wrote := true })

/-- R185, R394: members that disagree, or whose group is gone: each receives 13.9. -/
def collDisagree (s : State) (ms : List Member) : State :=
  ms.foldl (fun t m => lateTrap t m.o 0xD9) (collEnd s ms)

/-- R395: a member with a record in a pod that is not bound. -/
def collUnbound (s : State) (m : Member) : Bool :=
  [m.c.dst, m.c.src].any fun t => (otherPod t).any fun p => !podBound s m.w p

/-- R393: an engine of a member serves an operation outside the instance. -/
def collBusy (s : State) (ms : List Member) : Bool :=
  ms.any fun m => (fget s.cores.engines (engineUnit m.w (engineOp m.o.id 0))).any fun e =>
    !(ms.any fun x => x.o.id = e.op) && engineAt s e

/-- COLL_COMPLETE (R185). `others` is what the members of other modules brought. -/
def execCollComplete (op : Nat) (others : List CollPart) (s : State) : Out :=
  match findOp s op with
  | none => .next s
  | some o =>
    match o.body, fget s.warps o.warp with
    | .coll c, some w =>
      if c.wrote then .next (finishBatch s op)
      else
        let ms := members s (partOf s w.fn) c
        match groupOf s (partOf s w.fn) c.group with
        | none => .next (collDisagree s ms)
        | some l =>
          if !collWhole l.length ms others then .next s
          else if !collAgree c ms others then .next (collDisagree s ms)
          else if collBusy s ms then .next s
          else
          let s0 := ms.foldl (fun t m => engineBegin t m.w m.o.id 0) s
          match readSources s0 ms with
          | .error t => .next t
          | .ok k =>
            let src := others.foldl (fun t p => fput t p.rank (partSource (recSize c.src) p)) k
            match placesAll s0 ms with
            | .error t => .next t
            | .ok ps =>
              if bobbinSize < s.fabric.bobbin.length + (ps.map fun e => farPlaces e.1.c.dst e.2).foldl (· + ·) 0 then
                .next s
              else
                let sm := ms.foldl (fun t m => meterSource t m (fgetD [] k m.c.rank)) s0
                let s1 := ps.foldl (fun t e => collStore l.length src t e.1 e.2) sm
                let s2 := collEnd { s1 with free := s1.free + 2 ^ 20 } ms
                .next (ms.foldl (fun t m => if collUnbound t m then lateTrap t m.o 0xD4 else t) s2)
    | _, _ => .next s

end Sys2Proof.Machine
end

