-- ==== Sys2Proof/WellFormed.lean ====
section
/-! DEFINITION. Which terms of `Instr` are instructions: operand ranges of R67 to R73 and the values that
R71, R72, R76, R80, R115, R142 and R162 accept. A device event has no encoding, so its terms carry no
encoding condition. -/

namespace Sys2Proof

open Sys2Proof.Machine

/-- The operands of a lane instruction are ones that its fields can hold (R18, R73, R75, R77). -/
def laneOperandsWf (o : LaneOp) : Bool :=
  (match o.dst with | none => true | some d => d < 1536) && srcWf o.a && srcWf o.b && srcWf o.c &&
    o.rnd < 8 && o.k < 16 && (match o.flag with | none => true | some f => f < 12) && o.mods < 2 ^ 24

/-- A lane instruction is one that R81 raises nothing for (its flag declared by its header). -/
def laneWf (op : Nat) (o : LaneOp) : Bool := laneOperandsWf o && (laneFault none (rawOf op o)).isNone

/-- An instruction's operands are in range and its encoding raises no class-0 cause. -/
def wellFormed : Instr → Bool
  | .add d a b => d < 64 && a < 64 && b < 64
  | .sub d a b => d < 64 && a < 64 && b < 64
  | .mul d a b => d < 64 && a < 64 && b < 64
  | .mulhI64 d a b => d < 64 && a < 64 && b < 64
  | .mulhN64 d a b => d < 64 && a < 64 && b < 64
  | .divI64 d a b => d < 64 && a < 64 && b < 64
  | .divN64 d a b => d < 64 && a < 64 && b < 64
  | .remI64 d a b => d < 64 && a < 64 && b < 64
  | .remN64 d a b => d < 64 && a < 64 && b < 64
  | .and d a b => d < 64 && a < 64 && b < 64
  | .or d a b => d < 64 && a < 64 && b < 64
  | .xor d a b => d < 64 && a < 64 && b < 64
  | .andn d a b => d < 64 && a < 64 && b < 64
  | .shl d a b => d < 64 && a < 64 && b < 64
  | .shr d a b => d < 64 && a < 64 && b < 64
  | .sra d a b => d < 64 && a < 64 && b < 64
  | .ror d a b => d < 64 && a < 64 && b < 64
  | .minI64 d a b => d < 64 && a < 64 && b < 64
  | .minN64 d a b => d < 64 && a < 64 && b < 64
  | .maxI64 d a b => d < 64 && a < 64 && b < 64
  | .maxN64 d a b => d < 64 && a < 64 && b < 64
  | .sltI64 d a b => d < 64 && a < 64 && b < 64
  | .sltN64 d a b => d < 64 && a < 64 && b < 64
  | .clz d a => d < 64 && a < 64
  | .popc d a => d < 64 && a < 64
  | .sextI8 d a => d < 64 && a < 64
  | .sextI16 d a => d < 64 && a < 64
  | .sextI32 d a => d < 64 && a < 64
  | .zextN8 d a => d < 64 && a < 64
  | .zextN16 d a => d < 64 && a < 64
  | .zextN32 d a => d < 64 && a < 64
  | .brev d a => d < 64 && a < 64
  | .nop => true
  | .addi d a imm => d < 64 && a < 64 && imm < 4096
  | .andi d a imm => d < 64 && a < 64 && imm < 4096
  | .ori d a imm => d < 64 && a < 64 && imm < 4096
  | .xori d a imm => d < 64 && a < 64 && imm < 4096
  | .shli d a sh => d < 64 && a < 64 && sh < 64
  | .shri d a sh => d < 64 && a < 64 && sh < 64
  | .srai d a sh => d < 64 && a < 64 && sh < 64
  | .sltiI64 d a imm => d < 64 && a < 64 && imm < 4096
  | .sltiN64 d a imm => d < 64 && a < 64 && imm < 4096
  | .ldi d pos imm => d < 64 && pos < 4 && imm < 65536
  | .ldiK d pos imm => d < 64 && pos < 4 && imm < 65536
  | .b off => off < 524288
  | .call n off => n < 64 && off < 524288
  | .ret a => a < 64
  | .brd kn toff joff => kn < 16 && toff < 1024 && joff < 2048 && 1 ≤ joff
  | .join => true
  | .loop a off => a < 64 && off < 8192
  | .exit => true
  | .beq a b off => a < 64 && b < 64 && off < 8192
  | .bne a b off => a < 64 && b < 64 && off < 8192
  | .blt a b off => a < 64 && b < 64 && off < 8192
  | .bge a b off => a < 64 && b < 64 && off < 8192
  | .bltu a b off => a < 64 && b < 64 && off < 8192
  | .bgeu a b off => a < 64 && b < 64 && off < 8192
  | .kand d a b => d < 16 && a < 16 && b < 16 && 1 ≤ d
  | .kor d a b => d < 16 && a < 16 && b < 16 && 1 ≤ d
  | .kxor d a b => d < 16 && a < 16 && b < 16 && 1 ≤ d
  | .kandn d a b => d < 16 && a < 16 && b < 16 && 1 ≤ d
  | .knot d a => d < 16 && a < 16 && 1 ≤ d
  | .kmov d a => d < 16 && a < 16 && 1 ≤ d
  | .ksetx d n => d < 16 && n < 64 && 1 ≤ d
  | .kgetx n a => n < 64 && a < 16
  | .vget n vn lane => n < 64 && lane < 32 && vn < 1536
  | .vput n vn lane => n < 64 && lane < 32 && vn < 1536
  | .runc n off => n < 64 && off < 524288
  | .waitf mask => mask < 4096
  | .waitc a ctr => a < 64 && ctr < 7
  | .barArrive bn a => bn < 32 && a < 64
  | .barWait bn => bn < 32
  | .barSync bn a => bn < 32 && a < 64
  | .lbarArrive scope => scope < 8 && 2 ≤ scope && scope ≤ 5
  | .lbarWait scope => scope < 8 && 2 ≤ scope && scope ≤ 5
  | .lbarSync scope => scope < 8 && 2 ≤ scope && scope ≤ 5
  | .fence scope => scope < 7
  | .claim d a b => d < 64 && a < 64 && b < 64
  | .liveDead vn cnt => vn < 2048 && cnt < 2048 && vn + cnt ≤ 1535
  | .liveHot vn cnt => vn < 2048 && cnt < 2048 && vn + cnt ≤ 1535 && cnt ≤ 63
  | .mark => true
  | .poison a b => a < 64 && b < 64
  | .launch d a => d < 64 && a < 64
  | .mma d a b => d < 64 && a < 64 && b < 64
  | .mmaZ d a b => d < 64 && a < 64 && b < 64
  | .accAlloc d a => d < 64 && a < 64
  | .accFree a => a < 64
  | .accZero a => a < 64
  | .accDrain a b => a < 64 && b < 64
  | .amv d a b => d < 64 && a < 64 && b < 64
  | .amvT d a b => d < 64 && a < 64 && b < 64
  | .trec slot a => a < 64 && slot < 16
  | .shCopy d s b => b < 64 && d < 16 && s < 16
  | .shFill d a b => a < 64 && b < 64 && d < 16
  | .shGather d s b => b < 64 && d < 16 && s < 16
  | .shClose => true
  | .collAllreduce d s b => b < 64 && d < 16 && s < 16
  | .collAllgather d s b => b < 64 && d < 16 && s < 16
  | .collReducescatter d s b => b < 64 && d < 16 && s < 16
  | .collAlltoall d s b => b < 64 && d < 16 && s < 16
  | .trap code => code < 256
  | .rets => true
  | .retsSkip => true
  | .retsDecline => true
  | .sysrd d a reg => d < 64 && a < 64 && reg < 256
  | .syswr v a reg => v < 64 && a < 64 && reg < 256
  | .tlbiAll scope => scope < 3
  | .tlbiVa d a scope => d < 64 && a < 64 && scope < 3
  | .tlbiAsid a scope => a < 64 && scope < 3
  | .tlbiVmid a scope => a < 64 && scope < 3
  | .ctxfl d a => d < 64 && a < 64
  | .ctxld a => a < 64
  | .quiesce d a => d < 64 && a < 64
  | .retsave d a => d < 64 && a < 64
  | .retload d a => d < 64 && a < 64
  | .wdogSet a => a < 64
  | .wdogKick => true
  | .brk code => code < 256
  | .inject d a => d < 64 && a < 64
  | .gtime d => d < 64
  | .halt => true
  | .fadd o => laneWf 0x010 o
  | .fsub o => laneWf 0x011 o
  | .fmul o => laneWf 0x012 o
  | .ffma o => laneWf 0x013 o
  | .fmin o => laneWf 0x014 o
  | .fmax o => laneWf 0x015 o
  | .fcmp o => laneWf 0x016 o
  | .fabs o => laneWf 0x017 o
  | .fneg o => laneWf 0x018 o
  | .fcpys o => laneWf 0x019 o
  | .frcp o => laneWf 0x020 o
  | .frsq o => laneWf 0x021 o
  | .fsqrt o => laneWf 0x022 o
  | .flog2 o => laneWf 0x023 o
  | .ftanh o => laneWf 0x024 o
  | .fexpf o => laneWf 0x025 o
  | .fscale o => laneWf 0x026 o
  | .frint o => laneWf 0x027 o
  | .fclass o => laneWf 0x028 o
  | .cvt o => laneWf 0x040 o
  | .pack o => laneWf 0x041 o
  | .unpack o => laneWf 0x042 o
  | .qnt o => laneWf 0x043 o
  | .dqnt o => laneWf 0x044 o
  | .iadd o => laneWf 0x060 o
  | .isub o => laneWf 0x061 o
  | .imul o => laneWf 0x062 o
  | .imad o => laneWf 0x063 o
  | .imulh o => laneWf 0x064 o
  | .imin o => laneWf 0x065 o
  | .imax o => laneWf 0x066 o
  | .icmp o => laneWf 0x067 o
  | .iabs o => laneWf 0x068 o
  | .isad o => laneWf 0x069 o
  | .andB32 o => laneWf 0x080 o
  | .orB32 o => laneWf 0x081 o
  | .xorB32 o => laneWf 0x082 o
  | .notB32 o => laneWf 0x083 o
  | .bool3 o => laneWf 0x084 o
  | .shlB32 o => laneWf 0x085 o
  | .shrN32 o => laneWf 0x086 o
  | .sraI32 o => laneWf 0x087 o
  | .popcB32 o => laneWf 0x088 o
  | .clzB32 o => laneWf 0x089 o
  | .brevB32 o => laneWf 0x08A o
  | .bfe o => laneWf 0x08B o
  | .bfi o => laneWf 0x08C o
  | .sel o => laneWf 0x08D o
  | .perm o => laneWf 0x08E o
  | .dp4 o => laneWf 0x0A0 o
  | .dp8 o => laneWf 0x0A1 o
  | .mov o => laneWf 0x0C0 o
  | .shfl o => laneWf 0x0C1 o
  | .shflx o => laneWf 0x0C2 o
  | .bcst o => laneWf 0x0C3 o
  | .scan o => laneWf 0x0C4 o
  | .red o => laneWf 0x0C5 o
  | .rng o => laneWf 0x0C6 o
  | .ldSp o => laneWf 0x100 o
  | .ldGs o => laneWf 0x101 o
  | .ldDm o => laneWf 0x102 o
  | .ldPv o => laneWf 0x103 o
  | .stSp o => laneWf 0x104 o
  | .stGs o => laneWf 0x105 o
  | .stDm o => laneWf 0x106 o
  | .stPv o => laneWf 0x107 o
  | .ldt o => laneWf 0x108 o
  | .atomAdd o => laneWf 0x110 o
  | .atomMin o => laneWf 0x111 o
  | .atomMax o => laneWf 0x112 o
  | .atomAnd o => laneWf 0x113 o
  | .atomOr o => laneWf 0x114 o
  | .atomXor o => laneWf 0x115 o
  | .atomExch o => laneWf 0x116 o
  | .atomCas o => laneWf 0x117 o
  | .atomIncb o => laneWf 0x118 o
  | .atomFadd o => laneWf 0x119 o
  | .clauseFetch => true
  | .clauseStart => true
  | .mmaStep _ => true
  | .accZeroRetire _ => true
  | .accDrainRetire _ => true
  | .amvRetire _ => true
  | .shuttleTransfer _ _ _ => true
  | .shBatchComplete _ => true
  | .collComplete _ _ => true
  | .loadComplete _ _ => true
  | .storeComplete _ _ => true
  | .atomComplete _ => true
  | .registerFill _ _ => true
  | .lodgePrime _ => true
  | .rinkExchange _ => true
  | .lodgeAgeExchange _ => true
  | .spinDemotion _ _ => true
  | .watchdogExpiry _ => true
  | .trapEntry _ _ => true
  | .supervisorRecordEntry _ => true
  | .checkerMismatch _ _ _ => true
  | .replayQueueCheck _ _ _ => true
  | .patrolScrub _ _ => true
  | .predictiveEvacuation _ _ => true
  | .l1LineExpiry _ _ => true
  | .warpEnd _ => true
  | .launchDoorbell _ _ => true
  | .ringEntryConsume _ => true
  | .launchAdmission _ => true
  | .blockPlacement _ => true
  | .preemptMarkTimeout _ => true
  | .blockSaveComplete _ => true
  | .launchCompletionRecord _ => true
  | .purge _ _ _ => true
  | .faultRecordWrite _ => true
  | .faultResponse _ _ => true
  | .fqerrClear _ => true
  | .hotnessProposal _ _ _ _ => true
  | .hotnessEpoch _ => true
  | .move _ _ => true
  | .dup _ _ => true
  | .evict _ _ => true
  | .setxd _ _ _ => true
  | .shoot _ _ => true
  | .ownerClaim _ => true
  | .ownerRelease _ => true
  | .ownerOffer _ _ => true
  | .ownerAccept _ => true
  | .ownerWithdraw _ => true
  | .ownerBeat _ => true
  | .ownerInvalidCmd _ _ => true
  | .offerTimeout => true
  | .ownerLapse => true
  | .coldStart => true
  | .warmStart => true
  | .vfEnableClear => true
  | .flr _ => true
  | .gtctlApply _ => true
  | .gtctlStop _ _ => true
  | .registerWrite _ _ _ => true
  | .program _ _ _ => true
  | .offline _ _ => true
  | .online _ _ => true
  | .grant _ _ _ _ _ => true
  | .revoke _ _ _ => true
  | .freeRegion _ _ => true
  | .tilesWritten _ => true
  | .tileVerify _ _ => true
  | .regionLeaveService _ => true
  | .tailorProbe _ _ _ => true
  | .probeDeadline _ _ => true
  | .tailorPublish _ _ _ => true
  | .create _ _ => true
  | .destroy _ _ => true
  | .cluster _ _ _ _ => true
  | .funcJoin _ _ _ => true
  | .pages _ _ _ _ => true
  | .port _ _ _ _ => true
  | .qos _ _ _ _ _ => true
  | .group _ _ _ _ => true
  | .bind _ _ _ _ => true
  | .getMeasurements _ _ _ => true
  | .remapMove _ _ _ => true
  | .remapSwap _ _ _ => true
  | .wake _ _ _ => true
  | .patrolWake _ => true
  | .clctlClkreq _ _ _ => true
  | .clctlRailreq _ _ _ => true
  | .clctlResume _ _ => true
  | .clusterQuiesced _ _ => true
  | .clkackChange _ _ => true
  | .railgoodChange _ _ => true
  | .route _ _ _ => true
  | .read _ => true
  | .write _ => true
  | .atomic _ => true
  | .ewrite _ => true
  | .rdata _ => true
  | .ack _ => true
  | .aresult _ => true
  | .reject _ => true
  | .rejectResend _ => true
  | .invalidPacket _ _ => true
  | .linkDown _ => true
  | .ackTimeout _ => true
  | .linkUp _ => true
  | .malformedEncoding _ => true
  | .laneOpcodeUnassigned _ => true
  | .instructionFetchFault _ => true
  | .shootAnswer _ _ => true
  | .vfClearComplete _ => true
  | .freedPageZeroed => true
  | .powerLoss => true

end Sys2Proof
end

