-- ==== Sys2Proof/Decode.lean ====
section
/-! DEFINITION. The decoder of both streams, total on any word, and after it the encoder written from the same
tables of 03_encoding.md. A word that is no instruction is refused with the detail of its class-0 cause (R81),
in the order of R82. -/

namespace Sys2Proof

open Sys2Proof.Machine

/-! ## S-stream words (R67 to R72) -/

/-- R82: a non-zero reserved field raises 0.5 before an unassigned value raises 0.1. -/
def accept (reserved assigned : Bool) (i : Instr) : Except Nat Instr :=
  if !reserved then .error 5 else if !assigned then .error 1 else .ok i

/-- R70: the scalar ALU forms of major 0x02 with two sources. -/
def decodeAlu2 (f d a b : Nat) : Except Nat Instr :=
  match f with
  | 0x00 => .ok (.add d a b) | 0x01 => .ok (.sub d a b) | 0x02 => .ok (.mul d a b)
  | 0x03 => .ok (.mulhI64 d a b) | 0x04 => .ok (.mulhN64 d a b) | 0x05 => .ok (.divI64 d a b)
  | 0x06 => .ok (.divN64 d a b) | 0x07 => .ok (.remI64 d a b) | 0x08 => .ok (.remN64 d a b)
  | 0x09 => .ok (.and d a b) | 0x0A => .ok (.or d a b) | 0x0B => .ok (.xor d a b)
  | 0x0C => .ok (.andn d a b) | 0x0D => .ok (.shl d a b) | 0x0E => .ok (.shr d a b)
  | 0x0F => .ok (.sra d a b) | 0x10 => .ok (.ror d a b) | 0x11 => .ok (.minI64 d a b)
  | 0x12 => .ok (.minN64 d a b) | 0x13 => .ok (.maxI64 d a b) | 0x14 => .ok (.maxN64 d a b)
  | 0x15 => .ok (.sltI64 d a b) | 0x16 => .ok (.sltN64 d a b)
  | _ => .error 1

/-- R70: the unary forms CLZ to BREV; anything above is unassigned. -/
def decodeAlu1 (f d a b : Nat) : Except Nat Instr :=
  match f with
  | 0x17 => accept (b = 0) true (.clz d a) | 0x18 => accept (b = 0) true (.popc d a)
  | 0x19 => accept (b = 0) true (.sextI8 d a) | 0x1A => accept (b = 0) true (.sextI16 d a)
  | 0x1B => accept (b = 0) true (.sextI32 d a) | 0x1C => accept (b = 0) true (.zextN8 d a)
  | 0x1D => accept (b = 0) true (.zextN16 d a) | 0x1E => accept (b = 0) true (.zextN32 d a)
  | 0x1F => accept (b = 0) true (.brev d a)
  | _ => .error 1

/-- R71: the mask operations. kd = 0 raises 0.1 in every form that writes kd. -/
def decodeKop (w : Nat) : Except Nat Instr :=
  let d := fld w 24 21
  let a := fld w 20 17
  let b := fld w 16 13
  let n := fld w 12 7
  match fld w 6 0 with
  | 0 => accept (n = 0) (d ≠ 0) (.kand d a b)
  | 1 => accept (n = 0) (d ≠ 0) (.kor d a b)
  | 2 => accept (n = 0) (d ≠ 0) (.kxor d a b)
  | 3 => accept (n = 0) (d ≠ 0) (.kandn d a b)
  | 4 => accept (n = 0 && b = 0) (d ≠ 0) (.knot d a)
  | 5 => accept (n = 0 && b = 0) (d ≠ 0) (.kmov d a)
  | 6 => accept (a = 0 && b = 0) (d ≠ 0) (.ksetx d n)
  | 7 => accept (d = 0 && b = 0) true (.kgetx n a)
  | _ => .error 1

/-- R71, R72: BAR, with bits [8:0] reserved and scope 0; bop 3 is unassigned. -/
def decodeBar (w : Nat) : Except Nat Instr :=
  let ok := fld w 8 0 = 0 && fld w 19 17 = 0
  let n := fld w 24 20
  let a := fld w 14 9
  match fld w 16 15 with
  | 0 => accept ok true (.barArrive n a)
  | 1 => accept (ok && a = 0) true (.barWait n)
  | 2 => accept ok true (.barSync n a)
  | _ => accept ok false (.barWait n)

/-- R72: LBAR, with bn and xa reserved and scope 2 to 5. -/
def decodeLbar (w : Nat) : Except Nat Instr :=
  let ok := fld w 8 0 = 0 && fld w 24 20 = 0 && fld w 14 9 = 0
  let s := fld w 19 17
  let sc := 2 ≤ s && s ≤ 5
  match fld w 16 15 with
  | 0 => accept ok sc (.lbarArrive s)
  | 1 => accept ok sc (.lbarWait s)
  | 2 => accept ok sc (.lbarSync s)
  | _ => accept ok false (.lbarWait s)

/-- R71: the tensor engines' majors, with the slot limits of R162. -/
def decodeEngine (m f d a b : Nat) : Except Nat Instr :=
  match m, f with
  | 0x38, 0 => .ok (.mma d a b)
  | 0x38, 1 => .ok (.mmaZ d a b)
  | 0x39, 0 => accept (b = 0) true (.accAlloc d a)
  | 0x39, 1 => accept (d = 0 && b = 0) true (.accFree a)
  | 0x39, 2 => accept (d = 0 && b = 0) true (.accZero a)
  | 0x39, 3 => accept (d = 0) true (.accDrain a b)
  | 0x3A, 0 => .ok (.amv d a b)
  | 0x3A, 1 => .ok (.amvT d a b)
  | 0x3C, f => accept (f = 0 && b = 0) (d < 16) (.trec d a)
  | 0x3D, 0 => accept true (d < 16 && a < 16) (.shCopy d a b)
  | 0x3D, 1 => accept true (d < 16) (.shFill d a b)
  | 0x3D, 2 => accept true (d < 16 && a < 16) (.shGather d a b)
  | 0x3D, 3 => accept (d = 0 && a = 0 && b = 0) true .shClose
  | 0x3E, 0 => accept true (d < 16 && a < 16) (.collAllreduce d a b)
  | 0x3E, 1 => accept true (d < 16 && a < 16) (.collAllgather d a b)
  | 0x3E, 2 => accept true (d < 16 && a < 16) (.collReducescatter d a b)
  | 0x3E, 3 => accept true (d < 16 && a < 16) (.collAlltoall d a b)
  | _, _ => .error 1

/-- R71: the SYS functions. RETS carries its mode and TLBI its scope in imm8. -/
def decodeSys (w : Nat) : Except Nat Instr :=
  let d := fld w 24 19
  let a := fld w 18 13
  let i := fld w 12 5
  match fld w 4 0 with
  | 0x00 => accept (d = 0 && a = 0) true (.trap i)
  | 0x01 =>
    match i with
    | 0 => accept (d = 0 && a = 0) true .rets
    | 1 => accept (d = 0 && a = 0) true .retsSkip
    | 2 => accept (d = 0 && a = 0) true .retsDecline
    | _ => .error 5
  | 0x02 => .ok (.sysrd d a i)
  | 0x03 => .ok (.syswr d a i)
  | 0x04 => accept (d = 0 && a = 0 && i < 3) true (.tlbiAll i)
  | 0x05 => accept (i < 3) true (.tlbiVa d a i)
  | 0x06 => accept (d = 0 && i < 3) true (.tlbiAsid a i)
  | 0x07 => accept (d = 0 && i < 3) true (.tlbiVmid a i)
  | 0x08 => accept (i = 0) true (.ctxfl d a)
  | 0x09 => accept (d = 0 && i = 0) true (.ctxld a)
  | 0x0A => accept (i = 0) true (.quiesce d a)
  | 0x0B => accept (i = 0) true (.retsave d a)
  | 0x0C => accept (i = 0) true (.retload d a)
  | 0x0D => accept (d = 0 && i = 0) true (.wdogSet a)
  | 0x0E => accept (d = 0 && a = 0 && i = 0) true .wdogKick
  | 0x0F => accept (d = 0 && a = 0) true (.brk i)
  | 0x10 => accept (i = 0) true (.inject d a)
  | 0x11 => accept (a = 0 && i = 0) true (.gtime d)
  | 0x12 => accept (d = 0 && a = 0 && i = 0) true .halt
  | _ => .error 1

/-- The majors below 0x10 (R69). -/
def decodeLow (m w : Nat) : Except Nat Instr :=
  let d := fld w 24 19
  let a := fld w 18 13
  let b := fld w 12 7
  let v := fld w 12 12
  let i := fld w 11 0
  let sh := fld w 5 0
  match m with
  | 0x01 => accept (fld w 24 0 = 0) true .nop
  | 0x02 => if fld w 6 0 < 0x17 then decodeAlu2 (fld w 6 0) d a b else decodeAlu1 (fld w 6 0) d a b
  | 0x03 => accept (v = 0) true (.addi d a i)
  | 0x04 => accept (v = 0) true (.andi d a i)
  | 0x05 => accept (v = 0) true (.ori d a i)
  | 0x06 => accept (v = 0) true (.xori d a i)
  | 0x07 => accept (v = 0 && fld w 11 6 = 0) true (.shli d a sh)
  | 0x08 => accept (v = 0 && fld w 11 6 = 0) true (.shri d a sh)
  | 0x09 => accept (v = 0 && fld w 11 6 = 0) true (.srai d a sh)
  | 0x0A => if v = 0 then .ok (.sltiI64 d a i) else .ok (.sltiN64 d a i)
  | 0x0B => if fld w 18 18 = 0 then .ok (.ldi d (fld w 17 16) (fld w 15 0))
            else .ok (.ldiK d (fld w 17 16) (fld w 15 0))
  | _ => .error 0

/-- The majors 0x10 to 0x2F (R69). -/
def decodeMid (m w : Nat) : Except Nat Instr :=
  let d := fld w 24 19
  let a := fld w 18 13
  let b := fld w 12 7
  let o19 := fld w 18 0
  let o13 := fld w 12 0
  match m with
  | 0x10 => accept (d = 0) true (.b o19)
  | 0x11 => .ok (.call d o19)
  | 0x12 => accept (d = 0 && o13 = 0) true (.ret a)
  | 0x13 => accept true (fld w 10 0 ≠ 0) (.brd (fld w 24 21) (fld w 20 11) (fld w 10 0))
  | 0x14 => accept (fld w 24 0 = 0) true .join
  | 0x15 => accept (a = 0) true (.loop d o13)
  | 0x16 => accept (fld w 24 0 = 0) true .exit
  | 0x18 => .ok (.beq d a o13)
  | 0x19 => .ok (.bne d a o13)
  | 0x1A => .ok (.blt d a o13)
  | 0x1B => .ok (.bge d a o13)
  | 0x1C => .ok (.bltu d a o13)
  | 0x1D => .ok (.bgeu d a o13)
  | 0x20 => decodeKop w
  | 0x21 =>
    if fld w 2 0 = 0 then accept true (fld w 18 8 < 1536) (.vget d (fld w 18 8) (fld w 7 3))
    else if fld w 2 0 = 1 then accept true (fld w 18 8 < 1536) (.vput d (fld w 18 8) (fld w 7 3))
    else .error 1
  | 0x22 => .ok (.runc d o19)
  | 0x23 => accept (fld w 24 12 = 0) true (.waitf (fld w 11 0))
  | 0x24 => accept (fld w 15 0 = 0) (fld w 18 16 < 7) (.waitc d (fld w 18 16))
  | 0x28 => decodeBar w
  | 0x29 => decodeLbar w
  | 0x2A => accept (fld w 24 20 = 0 && fld w 16 0 = 0) (fld w 19 17 < 7) (.fence (fld w 19 17))
  | 0x2C => accept (fld w 6 0 = 0) true (.claim d a b)
  | 0x2D =>
    if fld w 2 0 = 0 then accept true (fld w 24 14 + fld w 13 3 ≤ 1535) (.liveDead (fld w 24 14) (fld w 13 3))
    else if fld w 2 0 = 1 then
      accept true (fld w 24 14 + fld w 13 3 ≤ 1535 && fld w 13 3 ≤ 63) (.liveHot (fld w 24 14) (fld w 13 3))
    else .error 1
  | 0x2E => accept (fld w 24 0 = 0) true .mark
  | 0x2F => accept (d = 0 && fld w 6 0 = 0) true (.poison a b)
  | _ => .error 0

/-- R69: the S-stream decoder. The error is the detail of the class-0 cause. -/
def decodeS (w : Nat) : Except Nat Instr :=
  let m := fld w 31 25
  let d := fld w 24 19
  let a := fld w 18 13
  let b := fld w 12 7
  let f := fld w 6 0
  if m < 0x10 then decodeLow m w
  else if m < 0x30 then decodeMid m w
  else if m = 0x30 then accept (b = 0 && f = 0) true (.launch d a)
  else if m = 0x60 then decodeSys w
  else if m = 0x38 || m = 0x39 || m = 0x3A || m = 0x3C || m = 0x3D || m = 0x3E then decodeEngine m f d a b
  else .error 0

/-- The instruction at an S-stream word: a word that is none is the table's row for it (R81). -/
def decodeWord (w : Nat) : Instr :=
  match decodeS w with
  | .ok i => i
  | .error d => .malformedEncoding d

/-! ## Lane words (R73, R80) -/

/-- The instruction of a lane opcode. -/
def laneInstr (op : Nat) (o : LaneOp) : Option Instr :=
  match op with
  | 0x010 => some (.fadd o)
  | 0x011 => some (.fsub o)
  | 0x012 => some (.fmul o)
  | 0x013 => some (.ffma o)
  | 0x014 => some (.fmin o)
  | 0x015 => some (.fmax o)
  | 0x016 => some (.fcmp o)
  | 0x017 => some (.fabs o)
  | 0x018 => some (.fneg o)
  | 0x019 => some (.fcpys o)
  | 0x020 => some (.frcp o)
  | 0x021 => some (.frsq o)
  | 0x022 => some (.fsqrt o)
  | 0x023 => some (.flog2 o)
  | 0x024 => some (.ftanh o)
  | 0x025 => some (.fexpf o)
  | 0x026 => some (.fscale o)
  | 0x027 => some (.frint o)
  | 0x028 => some (.fclass o)
  | 0x040 => some (.cvt o)
  | 0x041 => some (.pack o)
  | 0x042 => some (.unpack o)
  | 0x043 => some (.qnt o)
  | 0x044 => some (.dqnt o)
  | 0x060 => some (.iadd o)
  | 0x061 => some (.isub o)
  | 0x062 => some (.imul o)
  | 0x063 => some (.imad o)
  | 0x064 => some (.imulh o)
  | 0x065 => some (.imin o)
  | 0x066 => some (.imax o)
  | 0x067 => some (.icmp o)
  | 0x068 => some (.iabs o)
  | 0x069 => some (.isad o)
  | 0x080 => some (.andB32 o)
  | 0x081 => some (.orB32 o)
  | 0x082 => some (.xorB32 o)
  | 0x083 => some (.notB32 o)
  | 0x084 => some (.bool3 o)
  | 0x085 => some (.shlB32 o)
  | 0x086 => some (.shrN32 o)
  | 0x087 => some (.sraI32 o)
  | 0x088 => some (.popcB32 o)
  | 0x089 => some (.clzB32 o)
  | 0x08A => some (.brevB32 o)
  | 0x08B => some (.bfe o)
  | 0x08C => some (.bfi o)
  | 0x08D => some (.sel o)
  | 0x08E => some (.perm o)
  | 0x0A0 => some (.dp4 o)
  | 0x0A1 => some (.dp8 o)
  | 0x0C0 => some (.mov o)
  | 0x0C1 => some (.shfl o)
  | 0x0C2 => some (.shflx o)
  | 0x0C3 => some (.bcst o)
  | 0x0C4 => some (.scan o)
  | 0x0C5 => some (.red o)
  | 0x0C6 => some (.rng o)
  | 0x100 => some (.ldSp o)
  | 0x101 => some (.ldGs o)
  | 0x102 => some (.ldDm o)
  | 0x103 => some (.ldPv o)
  | 0x104 => some (.stSp o)
  | 0x105 => some (.stGs o)
  | 0x106 => some (.stDm o)
  | 0x107 => some (.stPv o)
  | 0x108 => some (.ldt o)
  | 0x110 => some (.atomAdd o)
  | 0x111 => some (.atomMin o)
  | 0x112 => some (.atomMax o)
  | 0x113 => some (.atomAnd o)
  | 0x114 => some (.atomOr o)
  | 0x115 => some (.atomXor o)
  | 0x116 => some (.atomExch o)
  | 0x117 => some (.atomCas o)
  | 0x118 => some (.atomIncb o)
  | 0x119 => some (.atomFadd o)
  | _ => none

/-- The lane decoder, given the flags that the clause header declares. The error is the detail of R81. -/
def decodeLane (decl : Option (Nat × Nat)) (w : Nat) : Except Nat Instr :=
  let r := laneFields w
  match laneFault decl r with
  | some d => .error d
  | none =>
    match laneInstr r.op (opOf r) with
    | some i => .ok i
    | none => .error 4

/-- The instruction at a 96-bit or 32-bit word of a table row; none where the decoder refuses. -/
def decodeTableWord (nbits w : Nat) : Option Instr :=
  if nbits = 32 then (decodeS (w % 2 ^ 32)).toOption
  else if nbits = 96 then (decodeLane none (w % 2 ^ 96)).toOption
  else none

/-! ## The encoder -/

/-- The opcode and the fields of a lane instruction. -/
def laneParts : Instr → Option (Nat × LaneOp)
  | .add _ _ _ => none
  | .sub _ _ _ => none
  | .mul _ _ _ => none
  | .mulhI64 _ _ _ => none
  | .mulhN64 _ _ _ => none
  | .divI64 _ _ _ => none
  | .divN64 _ _ _ => none
  | .remI64 _ _ _ => none
  | .remN64 _ _ _ => none
  | .and _ _ _ => none
  | .or _ _ _ => none
  | .xor _ _ _ => none
  | .andn _ _ _ => none
  | .shl _ _ _ => none
  | .shr _ _ _ => none
  | .sra _ _ _ => none
  | .ror _ _ _ => none
  | .minI64 _ _ _ => none
  | .minN64 _ _ _ => none
  | .maxI64 _ _ _ => none
  | .maxN64 _ _ _ => none
  | .sltI64 _ _ _ => none
  | .sltN64 _ _ _ => none
  | .clz _ _ => none
  | .popc _ _ => none
  | .sextI8 _ _ => none
  | .sextI16 _ _ => none
  | .sextI32 _ _ => none
  | .zextN8 _ _ => none
  | .zextN16 _ _ => none
  | .zextN32 _ _ => none
  | .brev _ _ => none
  | .nop => none
  | .addi _ _ _ => none
  | .andi _ _ _ => none
  | .ori _ _ _ => none
  | .xori _ _ _ => none
  | .shli _ _ _ => none
  | .shri _ _ _ => none
  | .srai _ _ _ => none
  | .sltiI64 _ _ _ => none
  | .sltiN64 _ _ _ => none
  | .ldi _ _ _ => none
  | .ldiK _ _ _ => none
  | .b _ => none
  | .call _ _ => none
  | .ret _ => none
  | .brd _ _ _ => none
  | .join => none
  | .loop _ _ => none
  | .exit => none
  | .beq _ _ _ => none
  | .bne _ _ _ => none
  | .blt _ _ _ => none
  | .bge _ _ _ => none
  | .bltu _ _ _ => none
  | .bgeu _ _ _ => none
  | .kand _ _ _ => none
  | .kor _ _ _ => none
  | .kxor _ _ _ => none
  | .kandn _ _ _ => none
  | .knot _ _ => none
  | .kmov _ _ => none
  | .ksetx _ _ => none
  | .kgetx _ _ => none
  | .vget _ _ _ => none
  | .vput _ _ _ => none
  | .runc _ _ => none
  | .waitf _ => none
  | .waitc _ _ => none
  | .barArrive _ _ => none
  | .barWait _ => none
  | .barSync _ _ => none
  | .lbarArrive _ => none
  | .lbarWait _ => none
  | .lbarSync _ => none
  | .fence _ => none
  | .claim _ _ _ => none
  | .liveDead _ _ => none
  | .liveHot _ _ => none
  | .mark => none
  | .poison _ _ => none
  | .launch _ _ => none
  | .mma _ _ _ => none
  | .mmaZ _ _ _ => none
  | .accAlloc _ _ => none
  | .accFree _ => none
  | .accZero _ => none
  | .accDrain _ _ => none
  | .amv _ _ _ => none
  | .amvT _ _ _ => none
  | .trec _ _ => none
  | .shCopy _ _ _ => none
  | .shFill _ _ _ => none
  | .shGather _ _ _ => none
  | .shClose => none
  | .collAllreduce _ _ _ => none
  | .collAllgather _ _ _ => none
  | .collReducescatter _ _ _ => none
  | .collAlltoall _ _ _ => none
  | .trap _ => none
  | .rets => none
  | .retsSkip => none
  | .retsDecline => none
  | .sysrd _ _ _ => none
  | .syswr _ _ _ => none
  | .tlbiAll _ => none
  | .tlbiVa _ _ _ => none
  | .tlbiAsid _ _ => none
  | .tlbiVmid _ _ => none
  | .ctxfl _ _ => none
  | .ctxld _ => none
  | .quiesce _ _ => none
  | .retsave _ _ => none
  | .retload _ _ => none
  | .wdogSet _ => none
  | .wdogKick => none
  | .brk _ => none
  | .inject _ _ => none
  | .gtime _ => none
  | .halt => none
  | .fadd o => some (0x010, o)
  | .fsub o => some (0x011, o)
  | .fmul o => some (0x012, o)
  | .ffma o => some (0x013, o)
  | .fmin o => some (0x014, o)
  | .fmax o => some (0x015, o)
  | .fcmp o => some (0x016, o)
  | .fabs o => some (0x017, o)
  | .fneg o => some (0x018, o)
  | .fcpys o => some (0x019, o)
  | .frcp o => some (0x020, o)
  | .frsq o => some (0x021, o)
  | .fsqrt o => some (0x022, o)
  | .flog2 o => some (0x023, o)
  | .ftanh o => some (0x024, o)
  | .fexpf o => some (0x025, o)
  | .fscale o => some (0x026, o)
  | .frint o => some (0x027, o)
  | .fclass o => some (0x028, o)
  | .cvt o => some (0x040, o)
  | .pack o => some (0x041, o)
  | .unpack o => some (0x042, o)
  | .qnt o => some (0x043, o)
  | .dqnt o => some (0x044, o)
  | .iadd o => some (0x060, o)
  | .isub o => some (0x061, o)
  | .imul o => some (0x062, o)
  | .imad o => some (0x063, o)
  | .imulh o => some (0x064, o)
  | .imin o => some (0x065, o)
  | .imax o => some (0x066, o)
  | .icmp o => some (0x067, o)
  | .iabs o => some (0x068, o)
  | .isad o => some (0x069, o)
  | .andB32 o => some (0x080, o)
  | .orB32 o => some (0x081, o)
  | .xorB32 o => some (0x082, o)
  | .notB32 o => some (0x083, o)
  | .bool3 o => some (0x084, o)
  | .shlB32 o => some (0x085, o)
  | .shrN32 o => some (0x086, o)
  | .sraI32 o => some (0x087, o)
  | .popcB32 o => some (0x088, o)
  | .clzB32 o => some (0x089, o)
  | .brevB32 o => some (0x08A, o)
  | .bfe o => some (0x08B, o)
  | .bfi o => some (0x08C, o)
  | .sel o => some (0x08D, o)
  | .perm o => some (0x08E, o)
  | .dp4 o => some (0x0A0, o)
  | .dp8 o => some (0x0A1, o)
  | .mov o => some (0x0C0, o)
  | .shfl o => some (0x0C1, o)
  | .shflx o => some (0x0C2, o)
  | .bcst o => some (0x0C3, o)
  | .scan o => some (0x0C4, o)
  | .red o => some (0x0C5, o)
  | .rng o => some (0x0C6, o)
  | .ldSp o => some (0x100, o)
  | .ldGs o => some (0x101, o)
  | .ldDm o => some (0x102, o)
  | .ldPv o => some (0x103, o)
  | .stSp o => some (0x104, o)
  | .stGs o => some (0x105, o)
  | .stDm o => some (0x106, o)
  | .stPv o => some (0x107, o)
  | .ldt o => some (0x108, o)
  | .atomAdd o => some (0x110, o)
  | .atomMin o => some (0x111, o)
  | .atomMax o => some (0x112, o)
  | .atomAnd o => some (0x113, o)
  | .atomOr o => some (0x114, o)
  | .atomXor o => some (0x115, o)
  | .atomExch o => some (0x116, o)
  | .atomCas o => some (0x117, o)
  | .atomIncb o => some (0x118, o)
  | .atomFadd o => some (0x119, o)
  | .clauseFetch => none
  | .clauseStart => none
  | .mmaStep _ => none
  | .accZeroRetire _ => none
  | .accDrainRetire _ => none
  | .amvRetire _ => none
  | .shuttleTransfer _ _ _ => none
  | .shBatchComplete _ => none
  | .collComplete _ _ => none
  | .loadComplete _ _ => none
  | .storeComplete _ _ => none
  | .atomComplete _ => none
  | .registerFill _ _ => none
  | .lodgePrime _ => none
  | .rinkExchange _ => none
  | .lodgeAgeExchange _ => none
  | .spinDemotion _ _ => none
  | .watchdogExpiry _ => none
  | .trapEntry _ _ => none
  | .supervisorRecordEntry _ => none
  | .checkerMismatch _ _ _ => none
  | .replayQueueCheck _ _ _ => none
  | .patrolScrub _ _ => none
  | .predictiveEvacuation _ _ => none
  | .l1LineExpiry _ _ => none
  | .warpEnd _ => none
  | .launchDoorbell _ _ => none
  | .ringEntryConsume _ => none
  | .launchAdmission _ => none
  | .blockPlacement _ => none
  | .preemptMarkTimeout _ => none
  | .blockSaveComplete _ => none
  | .launchCompletionRecord _ => none
  | .purge _ _ _ => none
  | .faultRecordWrite _ => none
  | .faultResponse _ _ => none
  | .fqerrClear _ => none
  | .hotnessProposal _ _ _ _ => none
  | .hotnessEpoch _ => none
  | .move _ _ => none
  | .dup _ _ => none
  | .evict _ _ => none
  | .setxd _ _ _ => none
  | .shoot _ _ => none
  | .ownerClaim _ => none
  | .ownerRelease _ => none
  | .ownerOffer _ _ => none
  | .ownerAccept _ => none
  | .ownerWithdraw _ => none
  | .ownerBeat _ => none
  | .ownerInvalidCmd _ _ => none
  | .offerTimeout => none
  | .ownerLapse => none
  | .coldStart => none
  | .warmStart => none
  | .vfEnableClear => none
  | .flr _ => none
  | .gtctlApply _ => none
  | .gtctlStop _ _ => none
  | .registerWrite _ _ _ => none
  | .program _ _ _ => none
  | .offline _ _ => none
  | .online _ _ => none
  | .grant _ _ _ _ _ => none
  | .revoke _ _ _ => none
  | .freeRegion _ _ => none
  | .tilesWritten _ => none
  | .tileVerify _ _ => none
  | .regionLeaveService _ => none
  | .tailorProbe _ _ _ => none
  | .probeDeadline _ _ => none
  | .tailorPublish _ _ _ => none
  | .create _ _ => none
  | .destroy _ _ => none
  | .cluster _ _ _ _ => none
  | .funcJoin _ _ _ => none
  | .pages _ _ _ _ => none
  | .port _ _ _ _ => none
  | .qos _ _ _ _ _ => none
  | .group _ _ _ _ => none
  | .bind _ _ _ _ => none
  | .getMeasurements _ _ _ => none
  | .remapMove _ _ _ => none
  | .remapSwap _ _ _ => none
  | .wake _ _ _ => none
  | .patrolWake _ => none
  | .clctlClkreq _ _ _ => none
  | .clctlRailreq _ _ _ => none
  | .clctlResume _ _ => none
  | .clusterQuiesced _ _ => none
  | .clkackChange _ _ => none
  | .railgoodChange _ _ => none
  | .route _ _ _ => none
  | .read _ => none
  | .write _ => none
  | .atomic _ => none
  | .ewrite _ => none
  | .rdata _ => none
  | .ack _ => none
  | .aresult _ => none
  | .reject _ => none
  | .rejectResend _ => none
  | .invalidPacket _ _ => none
  | .linkDown _ => none
  | .ackTimeout _ => none
  | .linkUp _ => none
  | .malformedEncoding _ => none
  | .laneOpcodeUnassigned _ => none
  | .instructionFetchFault _ => none
  | .shootAnswer _ _ => none
  | .vfClearComplete _ => none
  | .freedPageZeroed => none
  | .powerLoss => none

/-- A field value at its lowest bit. -/
def place (v lo : Nat) : Nat := v * 2 ^ lo

/-- The 32-bit word of an S-stream instruction (R67 to R72). -/
def encodeS : Instr → Option Nat
  | .add d a b => some (0x04000000 + place d 19 + place a 13 + place b 7)
  | .sub d a b => some (0x04000001 + place d 19 + place a 13 + place b 7)
  | .mul d a b => some (0x04000002 + place d 19 + place a 13 + place b 7)
  | .mulhI64 d a b => some (0x04000003 + place d 19 + place a 13 + place b 7)
  | .mulhN64 d a b => some (0x04000004 + place d 19 + place a 13 + place b 7)
  | .divI64 d a b => some (0x04000005 + place d 19 + place a 13 + place b 7)
  | .divN64 d a b => some (0x04000006 + place d 19 + place a 13 + place b 7)
  | .remI64 d a b => some (0x04000007 + place d 19 + place a 13 + place b 7)
  | .remN64 d a b => some (0x04000008 + place d 19 + place a 13 + place b 7)
  | .and d a b => some (0x04000009 + place d 19 + place a 13 + place b 7)
  | .or d a b => some (0x0400000A + place d 19 + place a 13 + place b 7)
  | .xor d a b => some (0x0400000B + place d 19 + place a 13 + place b 7)
  | .andn d a b => some (0x0400000C + place d 19 + place a 13 + place b 7)
  | .shl d a b => some (0x0400000D + place d 19 + place a 13 + place b 7)
  | .shr d a b => some (0x0400000E + place d 19 + place a 13 + place b 7)
  | .sra d a b => some (0x0400000F + place d 19 + place a 13 + place b 7)
  | .ror d a b => some (0x04000010 + place d 19 + place a 13 + place b 7)
  | .minI64 d a b => some (0x04000011 + place d 19 + place a 13 + place b 7)
  | .minN64 d a b => some (0x04000012 + place d 19 + place a 13 + place b 7)
  | .maxI64 d a b => some (0x04000013 + place d 19 + place a 13 + place b 7)
  | .maxN64 d a b => some (0x04000014 + place d 19 + place a 13 + place b 7)
  | .sltI64 d a b => some (0x04000015 + place d 19 + place a 13 + place b 7)
  | .sltN64 d a b => some (0x04000016 + place d 19 + place a 13 + place b 7)
  | .clz d a => some (0x04000017 + place d 19 + place a 13)
  | .popc d a => some (0x04000018 + place d 19 + place a 13)
  | .sextI8 d a => some (0x04000019 + place d 19 + place a 13)
  | .sextI16 d a => some (0x0400001A + place d 19 + place a 13)
  | .sextI32 d a => some (0x0400001B + place d 19 + place a 13)
  | .zextN8 d a => some (0x0400001C + place d 19 + place a 13)
  | .zextN16 d a => some (0x0400001D + place d 19 + place a 13)
  | .zextN32 d a => some (0x0400001E + place d 19 + place a 13)
  | .brev d a => some (0x0400001F + place d 19 + place a 13)
  | .nop => some (0x02000000)
  | .addi d a imm => some (0x06000000 + place d 19 + place a 13 + imm)
  | .andi d a imm => some (0x08000000 + place d 19 + place a 13 + imm)
  | .ori d a imm => some (0x0A000000 + place d 19 + place a 13 + imm)
  | .xori d a imm => some (0x0C000000 + place d 19 + place a 13 + imm)
  | .shli d a sh => some (0x0E000000 + place d 19 + place a 13 + sh)
  | .shri d a sh => some (0x10000000 + place d 19 + place a 13 + sh)
  | .srai d a sh => some (0x12000000 + place d 19 + place a 13 + sh)
  | .sltiI64 d a imm => some (0x14000000 + place d 19 + place a 13 + imm)
  | .sltiN64 d a imm => some (0x14001000 + place d 19 + place a 13 + imm)
  | .ldi d pos imm => some (0x16000000 + place d 19 + place pos 16 + imm)
  | .ldiK d pos imm => some (0x16040000 + place d 19 + place pos 16 + imm)
  | .b off => some (0x20000000 + off)
  | .call n off => some (0x22000000 + place n 19 + off)
  | .ret a => some (0x24000000 + place a 13)
  | .brd kn toff joff => some (0x26000000 + place kn 21 + place toff 11 + joff)
  | .join => some (0x28000000)
  | .loop a off => some (0x2A000000 + place a 19 + off)
  | .exit => some (0x2C000000)
  | .beq a b off => some (0x30000000 + place a 19 + place b 13 + off)
  | .bne a b off => some (0x32000000 + place a 19 + place b 13 + off)
  | .blt a b off => some (0x34000000 + place a 19 + place b 13 + off)
  | .bge a b off => some (0x36000000 + place a 19 + place b 13 + off)
  | .bltu a b off => some (0x38000000 + place a 19 + place b 13 + off)
  | .bgeu a b off => some (0x3A000000 + place a 19 + place b 13 + off)
  | .kand d a b => some (0x40000000 + place d 21 + place a 17 + place b 13)
  | .kor d a b => some (0x40000001 + place d 21 + place a 17 + place b 13)
  | .kxor d a b => some (0x40000002 + place d 21 + place a 17 + place b 13)
  | .kandn d a b => some (0x40000003 + place d 21 + place a 17 + place b 13)
  | .knot d a => some (0x40000004 + place d 21 + place a 17)
  | .kmov d a => some (0x40000005 + place d 21 + place a 17)
  | .ksetx d n => some (0x40000006 + place d 21 + place n 7)
  | .kgetx n a => some (0x40000007 + place a 17 + place n 7)
  | .vget n vn lane => some (0x42000000 + place n 19 + place vn 8 + place lane 3)
  | .vput n vn lane => some (0x42000001 + place n 19 + place vn 8 + place lane 3)
  | .runc n off => some (0x44000000 + place n 19 + off)
  | .waitf mask => some (0x46000000 + mask)
  | .waitc a ctr => some (0x48000000 + place a 19 + place ctr 16)
  | .barArrive bn a => some (0x50000000 + place bn 20 + place a 9)
  | .barWait bn => some (0x50008000 + place bn 20)
  | .barSync bn a => some (0x50010000 + place bn 20 + place a 9)
  | .lbarArrive scope => some (0x52000000 + place scope 17)
  | .lbarWait scope => some (0x52008000 + place scope 17)
  | .lbarSync scope => some (0x52010000 + place scope 17)
  | .fence scope => some (0x54000000 + place scope 17)
  | .claim d a b => some (0x58000000 + place d 19 + place a 13 + place b 7)
  | .liveDead vn cnt => some (0x5A000000 + place vn 14 + place cnt 3)
  | .liveHot vn cnt => some (0x5A000001 + place vn 14 + place cnt 3)
  | .mark => some (0x5C000000)
  | .poison a b => some (0x5E000000 + place a 13 + place b 7)
  | .launch d a => some (0x60000000 + place d 19 + place a 13)
  | .mma d a b => some (0x70000000 + place d 19 + place a 13 + place b 7)
  | .mmaZ d a b => some (0x70000001 + place d 19 + place a 13 + place b 7)
  | .accAlloc d a => some (0x72000000 + place d 19 + place a 13)
  | .accFree a => some (0x72000001 + place a 13)
  | .accZero a => some (0x72000002 + place a 13)
  | .accDrain a b => some (0x72000003 + place a 13 + place b 7)
  | .amv d a b => some (0x74000000 + place d 19 + place a 13 + place b 7)
  | .amvT d a b => some (0x74000001 + place d 19 + place a 13 + place b 7)
  | .trec slot a => some (0x78000000 + place slot 19 + place a 13)
  | .shCopy d s b => some (0x7A000000 + place d 19 + place s 13 + place b 7)
  | .shFill d a b => some (0x7A000001 + place d 19 + place a 13 + place b 7)
  | .shGather d s b => some (0x7A000002 + place d 19 + place s 13 + place b 7)
  | .shClose => some (0x7A000003)
  | .collAllreduce d s b => some (0x7C000000 + place d 19 + place s 13 + place b 7)
  | .collAllgather d s b => some (0x7C000001 + place d 19 + place s 13 + place b 7)
  | .collReducescatter d s b => some (0x7C000002 + place d 19 + place s 13 + place b 7)
  | .collAlltoall d s b => some (0x7C000003 + place d 19 + place s 13 + place b 7)
  | .trap code => some (0xC0000000 + place code 5)
  | .rets => some (0xC0000001)
  | .retsSkip => some (0xC0000021)
  | .retsDecline => some (0xC0000041)
  | .sysrd d a reg => some (0xC0000002 + place d 19 + place a 13 + place reg 5)
  | .syswr v a reg => some (0xC0000003 + place v 19 + place a 13 + place reg 5)
  | .tlbiAll scope => some (0xC0000004 + place scope 5)
  | .tlbiVa d a scope => some (0xC0000005 + place d 19 + place a 13 + place scope 5)
  | .tlbiAsid a scope => some (0xC0000006 + place a 13 + place scope 5)
  | .tlbiVmid a scope => some (0xC0000007 + place a 13 + place scope 5)
  | .ctxfl d a => some (0xC0000008 + place d 19 + place a 13)
  | .ctxld a => some (0xC0000009 + place a 13)
  | .quiesce d a => some (0xC000000A + place d 19 + place a 13)
  | .retsave d a => some (0xC000000B + place d 19 + place a 13)
  | .retload d a => some (0xC000000C + place d 19 + place a 13)
  | .wdogSet a => some (0xC000000D + place a 13)
  | .wdogKick => some (0xC000000E)
  | .brk code => some (0xC000000F + place code 5)
  | .inject d a => some (0xC0000010 + place d 19 + place a 13)
  | .gtime d => some (0xC0000011 + place d 19)
  | .halt => some (0xC0000012)
  | .fadd _ => none
  | .fsub _ => none
  | .fmul _ => none
  | .ffma _ => none
  | .fmin _ => none
  | .fmax _ => none
  | .fcmp _ => none
  | .fabs _ => none
  | .fneg _ => none
  | .fcpys _ => none
  | .frcp _ => none
  | .frsq _ => none
  | .fsqrt _ => none
  | .flog2 _ => none
  | .ftanh _ => none
  | .fexpf _ => none
  | .fscale _ => none
  | .frint _ => none
  | .fclass _ => none
  | .cvt _ => none
  | .pack _ => none
  | .unpack _ => none
  | .qnt _ => none
  | .dqnt _ => none
  | .iadd _ => none
  | .isub _ => none
  | .imul _ => none
  | .imad _ => none
  | .imulh _ => none
  | .imin _ => none
  | .imax _ => none
  | .icmp _ => none
  | .iabs _ => none
  | .isad _ => none
  | .andB32 _ => none
  | .orB32 _ => none
  | .xorB32 _ => none
  | .notB32 _ => none
  | .bool3 _ => none
  | .shlB32 _ => none
  | .shrN32 _ => none
  | .sraI32 _ => none
  | .popcB32 _ => none
  | .clzB32 _ => none
  | .brevB32 _ => none
  | .bfe _ => none
  | .bfi _ => none
  | .sel _ => none
  | .perm _ => none
  | .dp4 _ => none
  | .dp8 _ => none
  | .mov _ => none
  | .shfl _ => none
  | .shflx _ => none
  | .bcst _ => none
  | .scan _ => none
  | .red _ => none
  | .rng _ => none
  | .ldSp _ => none
  | .ldGs _ => none
  | .ldDm _ => none
  | .ldPv _ => none
  | .stSp _ => none
  | .stGs _ => none
  | .stDm _ => none
  | .stPv _ => none
  | .ldt _ => none
  | .atomAdd _ => none
  | .atomMin _ => none
  | .atomMax _ => none
  | .atomAnd _ => none
  | .atomOr _ => none
  | .atomXor _ => none
  | .atomExch _ => none
  | .atomCas _ => none
  | .atomIncb _ => none
  | .atomFadd _ => none
  | .clauseFetch => none
  | .clauseStart => none
  | .mmaStep _ => none
  | .accZeroRetire _ => none
  | .accDrainRetire _ => none
  | .amvRetire _ => none
  | .shuttleTransfer _ _ _ => none
  | .shBatchComplete _ => none
  | .collComplete _ _ => none
  | .loadComplete _ _ => none
  | .storeComplete _ _ => none
  | .atomComplete _ => none
  | .registerFill _ _ => none
  | .lodgePrime _ => none
  | .rinkExchange _ => none
  | .lodgeAgeExchange _ => none
  | .spinDemotion _ _ => none
  | .watchdogExpiry _ => none
  | .trapEntry _ _ => none
  | .supervisorRecordEntry _ => none
  | .checkerMismatch _ _ _ => none
  | .replayQueueCheck _ _ _ => none
  | .patrolScrub _ _ => none
  | .predictiveEvacuation _ _ => none
  | .l1LineExpiry _ _ => none
  | .warpEnd _ => none
  | .launchDoorbell _ _ => none
  | .ringEntryConsume _ => none
  | .launchAdmission _ => none
  | .blockPlacement _ => none
  | .preemptMarkTimeout _ => none
  | .blockSaveComplete _ => none
  | .launchCompletionRecord _ => none
  | .purge _ _ _ => none
  | .faultRecordWrite _ => none
  | .faultResponse _ _ => none
  | .fqerrClear _ => none
  | .hotnessProposal _ _ _ _ => none
  | .hotnessEpoch _ => none
  | .move _ _ => none
  | .dup _ _ => none
  | .evict _ _ => none
  | .setxd _ _ _ => none
  | .shoot _ _ => none
  | .ownerClaim _ => none
  | .ownerRelease _ => none
  | .ownerOffer _ _ => none
  | .ownerAccept _ => none
  | .ownerWithdraw _ => none
  | .ownerBeat _ => none
  | .ownerInvalidCmd _ _ => none
  | .offerTimeout => none
  | .ownerLapse => none
  | .coldStart => none
  | .warmStart => none
  | .vfEnableClear => none
  | .flr _ => none
  | .gtctlApply _ => none
  | .gtctlStop _ _ => none
  | .registerWrite _ _ _ => none
  | .program _ _ _ => none
  | .offline _ _ => none
  | .online _ _ => none
  | .grant _ _ _ _ _ => none
  | .revoke _ _ _ => none
  | .freeRegion _ _ => none
  | .tilesWritten _ => none
  | .tileVerify _ _ => none
  | .regionLeaveService _ => none
  | .tailorProbe _ _ _ => none
  | .probeDeadline _ _ => none
  | .tailorPublish _ _ _ => none
  | .create _ _ => none
  | .destroy _ _ => none
  | .cluster _ _ _ _ => none
  | .funcJoin _ _ _ => none
  | .pages _ _ _ _ => none
  | .port _ _ _ _ => none
  | .qos _ _ _ _ _ => none
  | .group _ _ _ _ => none
  | .bind _ _ _ _ => none
  | .getMeasurements _ _ _ => none
  | .remapMove _ _ _ => none
  | .remapSwap _ _ _ => none
  | .wake _ _ _ => none
  | .patrolWake _ => none
  | .clctlClkreq _ _ _ => none
  | .clctlRailreq _ _ _ => none
  | .clctlResume _ _ => none
  | .clusterQuiesced _ _ => none
  | .clkackChange _ _ => none
  | .railgoodChange _ _ => none
  | .route _ _ _ => none
  | .read _ => none
  | .write _ => none
  | .atomic _ => none
  | .ewrite _ => none
  | .rdata _ => none
  | .ack _ => none
  | .aresult _ => none
  | .reject _ => none
  | .rejectResend _ => none
  | .invalidPacket _ _ => none
  | .linkDown _ => none
  | .ackTimeout _ => none
  | .linkUp _ => none
  | .malformedEncoding _ => none
  | .laneOpcodeUnassigned _ => none
  | .instructionFetchFault _ => none
  | .shootAnswer _ _ => none
  | .vfClearComplete _ => none
  | .freedPageZeroed => none
  | .powerLoss => none

/-- The 96-bit word of a lane instruction (R73). -/
def encodeLane (i : Instr) : Option Nat :=
  match laneParts i with
  | some (op, o) => some (laneWord (rawOf op o))
  | none => none

/-- The bits and the word of an instruction; device events have none. -/
def encode (i : Instr) : Option (Nat × Nat) :=
  match encodeS i with
  | some w => some (32, w)
  | none =>
    match encodeLane i with
    | some w => some (96, w)
    | none => none

end Sys2Proof
end

