-- ==== Sys2Proof/Machine/SControl.lean ====
section
/-! DEFINITION. Branches, calls, loops, BRD, JOIN and EXIT (R103 to R109), with the spin check (R233). -/

namespace Sys2Proof.Machine

/-! ## Targets and the spin check -/

/-- R68: A + 4 × sext(off, n). -/
def target (pc : W64) (n off : Nat) : W64 := pc + w64 (4 * sext n off)

/-- R233: the path takes a branch to an address. `xs` are the registers behind x48 to x63 at supervisor level. -/
def spinTaken (xs : FMap W64) (p : Path) (tgt : W64) : Path :=
  let k := fdel p.k 0
  let x := p.x ++ xs.map fun e => (e.1 + 64, e.2)
  if (p.pc - tgt).toNat ≤ 60 then
    let same := p.spin.branch = p.pc && p.spin.count ≠ 0 && p.spin.x = x && p.spin.k = k
    { p with spin := { branch := p.pc, count := if same then p.spin.count + 1 else 1, x := x, k := k },
             demoted := p.demoted && p.spin.branch == p.pc }
  else { p with spin := { branch := p.pc, count := 0, x := [], k := [] }, demoted := false }

/-- R233: the path falls through a branch. -/
def spinFell (p : Path) : Path :=
  if p.spin.branch = p.pc then { p with spin := { p.spin with count := 0 }, demoted := false } else p

/-- A branch taken. -/
def taken (s : State) (w : Warp) (tgt : W64) : Out :=
  .next (putWarp s s.cur.warp (goto (w.modPath s.cur.path fun p => spinTaken w.xs p tgt) s.cur.path tgt))

/-- A branch not taken. -/
def fell (s : State) (w : Warp) : Out := retire s (w.modPath s.cur.path spinFell)

/-- R103: a compare-and-branch form. -/
def cmpBranch (s : State) (a b off : Nat) (c : W64 → W64 → Bool) : Out :=
  onPath s fun w p =>
    if c (rx w s.cur.path a) (rx w s.cur.path b) then taken s w (target p.pc 13 off) else fell s w

/-- R103. -/
def execB (off : Nat) (s : State) : Out := onPath s fun w p => taken s w (target p.pc 19 off)
/-- R103: the link is A + 4; CALL x0 saves none. -/
def execCall (n off : Nat) (s : State) : Out :=
  onPath s fun w p => taken s (wx w s.cur.path n (p.pc + 4)) (target p.pc 19 off)
/-- R103, R240: a RET x0 in restore state resumes at the mark. -/
def execRet (a : Nat) (s : State) : Out :=
  onPath s fun w _ =>
    if w.restore && a = 0 then taken s { w with restore := false } w.markAddr
    else
      let tgt := rx w s.cur.path a
      if tgt.toNat % 4 ≠ 0 then trapS s 0x0A else taken s w tgt
/-- R103. -/
def execBeq (a b off : Nat) (s : State) : Out := cmpBranch s a b off (· == ·)
/-- R103. -/
def execBne (a b off : Nat) (s : State) : Out := cmpBranch s a b off (· != ·)
/-- R103. -/
def execBlt (a b off : Nat) (s : State) : Out := cmpBranch s a b off fun x y => x.toInt < y.toInt
/-- R103. -/
def execBge (a b off : Nat) (s : State) : Out := cmpBranch s a b off fun x y => y.toInt ≤ x.toInt
/-- R103. -/
def execBltu (a b off : Nat) (s : State) : Out := cmpBranch s a b off fun x y => x.toNat < y.toNat
/-- R103. -/
def execBgeu (a b off : Nat) (s : State) : Out := cmpBranch s a b off fun x y => y.toNat ≤ x.toNat
/-- R103: LOOP x0 always branches, on the value −1 that it computes and discards. -/
def execLoop (a off : Nat) (s : State) : Out :=
  onPath s fun w p =>
    let v := rx w s.cur.path a - 1
    let w1 := wx w s.cur.path a v
    if v ≠ 0 then taken s w1 (target p.pc 13 off) else fell s w1

/-! ## The divergence stack (R105) -/

/-- The entries of a path, innermost first. -/
def entriesOf (w : Warp) (pf : Bool) : List DEntry := (w.dstack.filter fun e => e.path = pf).reverse

/-- The innermost entry of a path, in the stack kept innermost first. -/
def innerIdx (pf : Bool) : List DEntry → Option (DEntry × List DEntry)
  | [] => none
  | e :: r =>
    if e.path = pf then some (e, r)
    else match innerIdx pf r with
      | none => none
      | some (x, t) => some (x, e :: t)

/-- A path's innermost entry, and the stack without it. -/
def popEntry (w : Warp) (pf : Bool) : Option (DEntry × List DEntry) :=
  match innerIdx pf w.dstack.reverse with
  | none => none
  | some (e, r) => some (e, r.reverse)

/-- The innermost entry of a path replaced. -/
def setInner (pf : Bool) (f : DEntry → DEntry) : List DEntry → List DEntry
  | [] => []
  | e :: r => if e.path = pf then f e :: r else e :: setInner pf f r

/-- The stack with a path's innermost entry changed. -/
def modEntry (w : Warp) (pf : Bool) (f : DEntry → DEntry) : List DEntry := (setInner pf f w.dstack.reverse).reverse

/-- R105: J + 4 × sext(TOFF, 13). -/
def entryTarget (e : DEntry) : W64 := e.jaddr + w64 (4 * e.toff.toInt)

/-- R104: an address is that of an open divergence of the path. -/
def openAt (w : Warp) (pf : Bool) (j : W64) : Bool :=
  (entriesOf w pf).any (fun e => e.jaddr = j) || (w.div && w.recon = j)

/-! ## BRD, JOIN, EXIT -/

/-- R104: the warp splits: path B becomes a copy of path A with the taken lanes. Where path A is in a handler, path B runs at its
level and L-base, and has no held state of its own to return to (DESIGN CHOICE, log entry 123). -/
def splitWarp (w : Warp) (t : W32) (tgt j : W64) : Warp :=
  let a := w.a
  let b : Path := { a with pc := tgt, queue := [], batch := [], held := none, pend := none, more := [],
                           wait := .none, residue := false, dropPkt := false, synced := none }
  countIssue { w with div := true, recon := j, a := { a with pc := a.pc + 4 }.withK0 (a.k0 &&& ~~~ t),
                      b := b.withK0 t }

/-- R104. -/
def execBrd (kn toff joff : Nat) (s : State) : Out :=
  onPath s fun w p =>
    let pf := s.cur.path
    let t := p.k0 &&& rk w pf kn
    let tgt := target p.pc 10 toff
    let j := p.pc + n64 (4 * joff)
    if t = 0 then fell s w
    else if t = p.k0 then taken s w tgt
    else if !w.div then
      if !allDone s s.cur.warp pf p || !mayClose s s.cur.warp pf p then stall s
      else
        let s1 := closeBatch s s.cur.warp pf
        match fget s1.warps s.cur.warp with
        | none => .fault .noPath
        | some w1 => .next (putWarp (splitOps s1 s.cur.warp) s.cur.warp (splitWarp w1 t tgt j))
    else if openAt w pf j then trapS s 0xA1
    else if 32 ≤ w.dstack.length then trapS s 0xA0
    else
      let e : DEntry := { jaddr := j, mask := p.k0, state := false, path := pf,
                          toff := BitVec.ofInt 13 (sext 10 toff - joff) }
      retire s ({ w with dstack := w.dstack ++ [e] }.modPath pf fun p => p.withK0 (p.k0 &&& ~~~ t))

/-- R107: the merge, at the address after the JOIN. -/
def mergeWarp (w : Warp) (j : W64) : Warp :=
  let p := if w.a.live then w.a.withK0 (w.a.k0 ||| (if w.b.live then w.b.k0 else 0)) else w.b
  { w with a := { p with pc := j + 4, wait := .none, age := clearAge p.age }, b := Path.absent, div := false,
           recon := 0 }

/-- R157: a path that waits at a barrier raises 10.6 when the other path reaches JOIN or ends. -/
def breakBarrier (s : State) (uid : Nat) (pf : Bool) : State :=
  match fget s.warps uid with
  | none => s
  | some w =>
    match (w.path pf).wait with
    | .bar _ _ =>
      let p := { w.path pf with wait := .none }
      raiseTrap (putWarp s uid (w.setPath pf p)) uid pf (sTrap p 0xA6)
    | _ => s

/-- R106, R107: both paths wait at the reconvergence JOIN, or one waits and the other has ended. -/
def tryMerge (s : State) (uid : Nat) : State :=
  match fget s.warps uid with
  | none => s
  | some w =>
    let at' := fun (p : Path) => p.wait = .join || !p.live
    if w.div && at' w.a && at' w.b && (w.a.live || w.b.live) then putWarp (mergeOps s uid) uid (mergeWarp w w.recon)
    else s

/-- R106: the path begins to wait at the warp's reconvergence JOIN. -/
def waitJoin (s : State) (uid : Nat) (pf : Bool) : State :=
  let s1 := closeBatch s uid pf
  let s2 := modWarp s1 uid fun w => countIssue (w.modPath pf fun p => { p with wait := .join })
  breakBarrier (tryMerge s2 uid) uid (!pf)

/-- R106. -/
def execJoin (s : State) : Out :=
  onPath s fun w p =>
    let uid := s.cur.warp
    let pf := s.cur.path
    if !allDone s uid pf p then stall s
    else
      let w1 := w.modPath pf fun p => { p with age := clearAge p.age }
      match popEntry w pf with
      | some (e, rest) =>
        if e.jaddr = p.pc && !e.state then
          .next (putWarp s uid (goto ({ w1 with dstack := modEntry w1 pf fun e => { e with state := true } }.modPath pf
            fun p => p.withK0 (e.mask &&& ~~~ p.k0)) pf (entryTarget e)))
        else if e.jaddr = p.pc then
          retire s ({ w1 with dstack := rest }.modPath pf fun p => p.withK0 e.mask)
        else if openAt w pf p.pc then trapS s 0xA1
        else retire s w1
      | none =>
        if w.div && w.recon = p.pc then
          if p.wait = .join || !mayClose s uid pf p then stall s else .next (waitJoin (putWarp s uid w1) uid pf)
        else retire s w1

/-- R109: what the loop over a path's entries, innermost first, comes to: the entry that takes over with the
stack's remaining entries, or the end of the path. -/
def exitLoop (pf : Bool) : List DEntry → Option (DEntry × Bool) × List DEntry
  | [] => (none, [])
  | e :: r =>
    if e.path ≠ pf then
      let (x, t) := exitLoop pf r
      (x, e :: t)
    else if !e.state then (some (e, false), { e with state := true } :: r)
    else if e.mask ≠ 0 then (some (e, true), r)
    else exitLoop pf r

/-- R109: EXIT ends a path of a diverged warp. -/
def endPath (s : State) (uid : Nat) (pf : Bool) (rest : List DEntry) : State :=
  let s1 := closeBatch s uid pf
  let s2 := modWarp s1 uid fun w => countIssue { w.modPath pf (fun p =>
      { p with live := false, queue := [], wait := .none }.withK0 0) with dstack := rest }
  breakBarrier (tryMerge s2 uid) uid (!pf)

/-- R109. The warp itself ends by WARP_END, once its clauses, counters and flags allow it. -/
def execExit (s : State) : Out :=
  onPath s fun w p =>
    let uid := s.cur.warp
    let pf := s.cur.path
    let gone := p.k0
    let stack := (w.dstack.map fun e => if e.path = pf then { e with mask := e.mask &&& ~~~ gone } else e).reverse
    let (found, rest) := exitLoop pf stack
    match found with
    | some (e, second) =>
      let w1 := endRegion { w with dstack := rest.reverse }
      .next (putWarp s uid (goto (w1.modPath pf fun p => p.withK0 e.mask) pf
        (if second then e.jaddr + 4 else entryTarget e)))
    | none =>
      if w.div then
        if !allDone s uid pf p || !mayClose s uid pf p then stall s
        else .next (endPath (putWarp s uid (endRegion w)) uid pf rest.reverse)
      else if p.wait = .exit || !allDone s uid pf p || !mayClose s uid pf p then stall s
      else
        let s1 := closeBatch (putWarp s uid (endRegion w)) uid pf
        .next (modWarp s1 uid fun w => countIssue { w.modPath pf (fun p => { p with wait := .exit }) with dstack := rest.reverse })

end Sys2Proof.Machine
end

