-- ==== Sys2Proof/Machine/Sync.lean ====
section
/-! DEFINITION. Fences, named and level barriers, POISON and CLAIM (R153 to R160). -/

namespace Sys2Proof.Machine

/-! ## Barriers -/

/-- A barrier as an instruction names it: a level barrier with its scope code, or a named barrier with its number;
whether the form arrives and whether it waits; and the count of arrivals. -/
structure BarReq where
  level : Bool
  n : Nat
  arrives : Bool
  waits : Bool
  count : Nat

/-- R159: the instance of a level barrier that holds a warp. -/
def levelInst (w : Warp) (scope : Nat) : Nat :=
  match scope with
  | 2 => 32 * w.die + w.core / 4
  | 3 => w.die
  | _ => 0

/-- The key of a level barrier in its launch. -/
def levelKey (w : Warp) (scope : Nat) : Nat := 4096 * scope + levelInst w scope

/-- A barrier that nothing has reached. -/
def Bar.fresh : Bar := { expect := 0, arrived := 0, phase := false }

/-- The barrier's state word. -/
def barState (s : State) (w : Warp) (r : BarReq) : Bar :=
  if r.level then (warpLaunch s w).elim Bar.fresh fun l => fgetD Bar.fresh l.lbars (levelKey w r.n)
  else (warpBlock s w).elim Bar.fresh fun b => fgetD Bar.fresh b.bars r.n

/-- The barrier's state word written. -/
def putBar (s : State) (w : Warp) (r : BarReq) (b : Bar) : State :=
  if r.level then
    { s with launches := fmod s.launches w.launch fun l =>
        { l with lbars := fputD Bar.fresh l.lbars (levelKey w r.n) b } }
  else { s with blocks := fmod s.blocks w.block fun k => { k with bars := fputD Bar.fresh k.bars r.n b } }

/-- A bit of a mask set to a value. -/
def setBit {n : Nat} (m : BitVec n) (i : Nat) (b : Bool) : BitVec n :=
  if b then m ||| BitVec.ofNat n (2 ^ i) else m &&& ~~~ BitVec.ofNat n (2 ^ i)

/-- PEND of a warp. -/
def pendOf (w : Warp) (level : Bool) (n : Nat) : Bool := if level then w.lpend.getLsbD (n - 2) else w.pend.getLsbD n

/-- APH of a warp. -/
def aphOf (w : Warp) (level : Bool) (n : Nat) : Bool := if level then w.laph.getLsbD (n - 2) else w.aph.getLsbD n

/-- PEND of a warp written. -/
def setPend (w : Warp) (level : Bool) (n : Nat) (b : Bool) : Warp :=
  if level then { w with lpend := setBit w.lpend (n - 2) b } else { w with pend := setBit w.pend n b }

/-- APH of a warp written. -/
def setAph (w : Warp) (level : Bool) (n : Nat) (b : Bool) : Warp :=
  if level then { w with laph := setBit w.laph (n - 2) b } else { w with aph := setBit w.aph n b }

/-- A path of the warp waits for a phase. -/
def waitsPhase (w : Warp) (level : Bool) (n : Nat) : Bool := w.a.wait = .phase level n || w.b.wait = .phase level n

/-- A path whose wait for a phase ends goes on after the barrier. Demotion lifts (R233). -/
def endWait (level : Bool) (n : Nat) (p : Path) : Path :=
  if p.wait = .phase level n then { p with wait := .none, synced := none, pc := p.pc + 4 }.lift true else p

/-- R156, R235, R255: the wait of a warp completes: PEND clears, WDC becomes 0, and the core drops its L1 lines. -/
def finishWait (s : State) (uid : Nat) (level : Bool) (n : Nat) : State :=
  match fget s.warps uid with
  | none => s
  | some w =>
    let w1 := setPend { w with a := endWait level n w.a, b := endWait level n w.b, wdc := 0 } level n false
    l1DropCore (putWarp s uid w1) (coreKey w)

/-- Whether a warp takes part in the barrier that another warp names. -/
def samePeers (r : BarReq) (w v : Warp) : Bool :=
  if r.level then v.launch = w.launch && v.kind = .kernel && levelInst v r.n = levelInst w r.n
  else v.block = w.block && v.kind = .kernel

/-- R156: every warp that waits for the phase just completed goes on. One that is not in its core, or has yet to load its context,
issues its wait again when it runs (R97, R356). -/
def wakePhase (s : State) (w : Warp) (r : BarReq) (phase : Bool) : State :=
  (s.warps.filter fun e => samePeers r w e.2 && e.2.st ≠ .saved && !e.2.reload && waitsPhase e.2 r.level r.n &&
    aphOf e.2 r.level r.n != phase).foldl
    (fun t e => finishWait t e.1 r.level r.n) s

/-- R159: the blocks of a launch in an instance that have not been placed yet. -/
def unplacedIn (l : Launch) (w : Warp) (scope : Nat) : Nat :=
  let left := fun d => (l.gate.getD d (0, 0)).2 - l.placedN.getD d 0
  match scope with
  | 2 => 0
  | 3 => left w.die
  | _ => ((List.range 4).map left).foldl (· + ·) 0

/-- R159: every participant of a level barrier that has not exited has arrived in the current phase. -/
def levelDone (s : State) (w : Warp) (scope : Nat) : Bool :=
  let r : BarReq := { level := true, n := scope, arrives := false, waits := false, count := 0 }
  (warpLaunch s w).all (fun l => unplacedIn l w scope = 0) &&
    s.warps.all fun e => !samePeers r w e.2 || e.2.st = .ended ||
      (pendOf e.2 true scope && aphOf e.2 true scope == (barState s w r).phase)

/-- R156: a phase completes. -/
def completePhase (s : State) (w : Warp) (r : BarReq) (b : Bar) : State :=
  wakePhase (putBar s w r { b with phase := !b.phase, arrived := 0 }) w r (!b.phase)

/-- R156: the table of ARRIVE: the trap, or the state after the arrival. -/
def barArrive (s : State) (uid : Nat) (w : Warp) (r : BarReq) : Except Nat State :=
  let b := barState s w r
  if pendOf w r.level r.n && aphOf w r.level r.n == b.phase then .error 0xA9
  else if !r.level && b.arrived ≠ 0 && r.count ≠ b.expect then .error 0xA3
  else
    let b1 : Bar := { b with expect := if b.arrived = 0 then r.count else b.expect, arrived := b.arrived + 1 }
    let w1 := endRegion (setAph (setPend w r.level r.n true) r.level r.n b.phase)
    let s1 := putBar (putWarp s uid w1) w r b1
    if r.level then .ok (if levelDone s1 w r.n then completePhase s1 w r b1 else s1)
    else .ok (if b1.arrived = b1.expect then completePhase s1 w r b1 else s1)

/-- The paths that a barrier instruction acts for: both of a diverged warp. -/
def barPaths (w : Warp) (pf : Bool) : List Bool := if w.div then [false, true] else [pf]

/-- Every path of a barrier instruction changed, its issue counted. -/
def onBarPaths (w : Warp) (pf : Bool) (f : Path → Path) : Warp :=
  (barPaths w pf).foldl (fun v q => countIssue (breakSpin (v.modPath q f) q)) w

/-- R157: a cause raised on each path of a barrier instruction. -/
def trapBoth (s : State) (uid : Nat) (pf : Bool) (cause : Nat) : State :=
  match fget s.warps uid with
  | none => s
  | some w =>
    let w1 := onBarPaths w pf fun p => { p with wait := .none, synced := none }
    (barPaths w pf).foldl (fun t q => raiseTrap t uid q (sTrap (w1.path q) cause)) (putWarp s uid w1)

/-- R156: the table of WAIT. -/
def barWait (s : State) (uid : Nat) (pf : Bool) (r : BarReq) : State :=
  match fget s.warps uid with
  | none => s
  | some w =>
    if !pendOf w r.level r.n then trapBoth s uid pf 0xAA
    else
      let w1 := onBarPaths w pf fun p => { p with wait := .phase r.level r.n, synced := if r.arrives then some p.pc else none }
      if aphOf w r.level r.n == (barState s w r).phase then putWarp s uid w1
      else
        let done := fun (p : Path) => endWait r.level r.n p
        l1DropCore (putWarp s uid (setPend { w1 with a := done w1.a, b := done w1.b } r.level r.n false)) (coreKey w)

/-- The address after a barrier that only arrives. -/
def barPast (s : State) (uid : Nat) (pf : Bool) : State :=
  modWarp s uid fun w => onBarPaths w pf fun p => { p with wait := .none, pc := p.pc + 4 }

/-- The barrier instruction once its checks and its release have been made. -/
def barAct (s : State) (uid : Nat) (pf : Bool) (w : Warp) (r : BarReq) : State :=
  let again := (w.path pf).synced = some (w.path pf).pc
  if r.arrives && !again then
    match barArrive s uid w r with
    | .error c => trapBoth s uid pf c
    | .ok t => if r.waits then barWait t uid pf r else barPast t uid pf
  else barWait s uid pf r

/-- R158, R159: the release that an arrival is: at BLOCK scope, or at the level's scope. -/
def barReleased (s : State) (w : Warp) (uid : Nat) (pf : Bool) (r : BarReq) : Bool :=
  !r.arrives || (barPaths w pf).all fun q => fenceReady s uid q (if r.level then r.n else 1)

/-- R157: what a path of a diverged warp meets at a barrier. -/
inductive Pairing where
  | go
  | wait
  | trap (cause : Nat)
  | trapBoth (cause : Nat)

/-- R157. -/
def pairing (w : Warp) (pf : Bool) (n : Nat) : Pairing :=
  let o := w.path !pf
  if !w.div then .go
  else if !o.live || o.wait = .join then .trap 0xA6
  else match o.wait with
  | .bar pc m => if pc ≠ (w.path pf).pc then .trapBoth 0xA7 else if m ≠ n then .trapBoth 0xA3 else .go
  | _ => .wait

/-- R155, R157, R158: a barrier instruction after its own first checks. -/
def barCommon (s : State) (w : Warp) (p : Path) (r : BarReq) : Out :=
  let uid := s.cur.warp
  let pf := s.cur.path
  if !(entriesOf w pf).isEmpty then trapS s 0xA8
  else match pairing w pf r.count with
  | .trap c => trapS s c
  | .trapBoth c => .next (trapBoth s uid pf c)
  | .wait => .next (putWarp s uid (w.setPath pf { p with wait := .bar p.pc r.count }))
  | .go => if barReleased s w uid pf r then .next (barAct s uid pf w r) else stall s

/-- R155: the named-barrier forms. -/
def bar (s : State) (r : BarReq) : Out :=
  onPath s fun w p =>
    let nbar := (warpLaunch s w).elim 0 (·.lrec.nbar)
    if !allIssued p then stall s
    else if nbar ≤ r.n || (r.arrives && (r.count < 1 || 64 < r.count)) then trapS s 0xA4
    else barCommon s w p r

/-- The count that a BAR names. -/
def barCount (s : State) (a : Nat) : Nat :=
  match fget s.warps s.cur.warp with
  | some w => (rx w s.cur.path a).toNat
  | none => 0

/-- R156. -/
def execBarArrive (bn a : Nat) (s : State) : Out :=
  bar s { level := false, n := bn, arrives := true, waits := false, count := barCount s a }
/-- R156. -/
def execBarWait (bn : Nat) (s : State) : Out :=
  bar s { level := false, n := bn, arrives := false, waits := true, count := 0 }
/-- R156. -/
def execBarSync (bn a : Nat) (s : State) : Out :=
  bar s { level := false, n := bn, arrives := true, waits := true, count := barCount s a }

/-- R159: the level-barrier forms. -/
def lbar (s : State) (r : BarReq) : Out :=
  onPath s fun w p =>
    if !allIssued p then stall s
    else if !(warpLaunch s w).any (·.lrec.gang) then trapS s 0xAB
    else barCommon s w p r

/-- R159. -/
def execLbarArrive (scope : Nat) (s : State) : Out :=
  lbar s { level := true, n := scope, arrives := true, waits := false, count := 0 }
/-- R159. -/
def execLbarWait (scope : Nat) (s : State) : Out :=
  lbar s { level := true, n := scope, arrives := false, waits := true, count := 0 }
/-- R159. -/
def execLbarSync (scope : Nat) (s : State) : Out :=
  lbar s { level := true, n := scope, arrives := true, waits := true, count := 0 }

/-- R159: a warp that has exited counts as arrived: each level barrier of its launch is looked at again. -/
def levelExit (s : State) (w : Warp) : State :=
  [2, 3, 4, 5].foldl (fun t scope =>
    let r : BarReq := { level := true, n := scope, arrives := false, waits := false, count := 0 }
    let b := barState t w r
    if b.arrived ≠ 0 && levelDone t w scope then completePhase t w r b else t) s

/-! ## FENCE (R154) -/

/-- R154, R255. -/
def execFence (scope : Nat) (s : State) : Out :=
  onPath s fun w p =>
    let uid := s.cur.warp
    let pf := s.cur.path
    if !allIssued p || (scope = 6 && !mayClose s uid pf p) then stall s
    else if scope = 6 && !p.batch.isEmpty then .next (modWarp (closeBatch s uid pf) uid endRegion)
    else if fenceReady s uid pf scope && (scope ≠ 6 || counter s uid pf .sh = 0) then
      retire (if scope = 0 then s else l1DropCore s (coreKey w)) (breakSpin w pf)
    else stall s

/-! ## POISON and CLAIM -/

/-- The pieces of a range that one 64 KiB part holds each: address and length. -/
def partPieces (va n : Nat) : List (Nat × Nat) :=
  if n = 0 then []
  else (List.range ((va + n - 1) / 65536 - va / 65536 + 1)).map fun i =>
    let lo := max va ((va / 65536 + i) * 65536)
    (lo, min (va + n) ((va / 65536 + i + 1) * 65536) - lo)

/-- R153: granules of the module poisoned. -/
def poisonHere (s : State) (gs : List Nat) : State := { s with pois := gs.foldl addPois s.pois }

/-- R153. -/
def execPoison (a b : Nat) (s : State) : Out :=
  onPath s fun w p =>
    let uid := s.cur.warp
    let pf := s.cur.path
    let va := (rx w pf a).toNat
    let n := (rx w pf b).toNat
    if !allIssued p then stall s
    else if va % 64 ≠ 0 || n = 0 || n % 64 ≠ 0 || 2 ^ 21 < n then trapS s 0x122
    else
      let pieces := partPieces va n
      match xlateAll s (warpReq s w (p.priv == 0) .write none) (pieces.map (·.1)) with
      | .error e => xlateStop s w e
      | .ok l =>
        let gs := (l.zip (pieces.map (·.2))).flatMap fun r => granulesOf r.1 r.2
        if (poisOp s uid pf va n).isNone && (acquireOut s uid pf || !fenceReady s uid pf 3) then stall s
        else poisonAway s w va n (gs.filter fun g => !isLocal (64 * g))
          (fun t => poisonHere t (gs.filter fun g => isLocal (64 * g))) fun t => retire t (breakSpin w pf)

/-- The pages that a range touches: the first address of the range in each. -/
def rangePages (va n : Nat) : List Nat :=
  if n = 0 then []
  else (List.range ((va + n - 1) / pageSize - va / pageSize + 1)).map fun i => max va ((va / pageSize + i) * pageSize)

/-- R160: a page that CLAIM moves: LPDDR, writable by the caller, homed on another die of the package. -/
def claimable (s : State) (w : Warp) (user : Bool) (va home : Nat) : Bool :=
  physKind home = 0 && isLocal home && homeDie home ≠ w.die &&
    (match translate s (warpReq s w user .write none) va with | .ok _ => true | _ => false)

/-- R160: the address of a page of the range, when CLAIM moves it. -/
def claimHome (s : State) (w : Warp) (user : Bool) (va : Nat) : Option Nat :=
  match translate s (warpReq s w user .read none) va with
  | .ok a => if claimable s w user va a then some (a / pageSize * pageSize) else none
  | _ => none

/-- R160: the pages of the range, in ascending order, each as it lies when CLAIM reaches it, and how many have moved. Where
the caller's die has no free page, the page stays as it is and does not count (DESIGN CHOICE, log entry 21). -/
def claimPages (s : State) (w : Warp) (user : Bool) : List Nat → State × Nat
  | [] => (s, 0)
  | va :: r =>
    match claimHome s w user va, freePage s (partOf s w.fn) w.die with
    | some page, some tgt =>
      let t := claimPages (moveHome (dropDups (modLeaves s page leafUndup) page) page tgt) w user r
      (t.1, t.2 + 1)
    | _, _ => claimPages s w user r

/-- R160: a record of a shuttle or collective operation that is not over touches a page. -/
def recTouches (s : State) (o : Op) (w : Warp) (user : Bool) (page : Nat) (t : TRec) : Bool :=
  t.space ≠ 0 && (otherPod t).isNone && (List.range (recCount t)).any fun n =>
    match locate s w o.id user [] .read t (elemVa t n) with
    | .home a => a / pageSize * pageSize = page
    | _ => false

/-- R160: a shuttle transfer touches a page. -/
def engineTouches (s : State) (page : Nat) : Bool :=
  s.ops.any fun o => match o.body, fget s.warps o.warp with
    | .batch l, some w => l.any fun i => i.done < i.total &&
        (recTouches s o w i.user page i.dst || (i.kind ≠ .fill && recTouches s o w i.user page i.src))
    | .coll c, some w => !c.wrote && (recTouches s o w c.user page c.dst || recTouches s o w c.user page c.src)
    | _, _ => false

/-- R160. -/
def execClaim (d a b : Nat) (s : State) : Out :=
  onPath s fun w p =>
    let uid := s.cur.warp
    let pf := s.cur.path
    let va := (rx w pf a).toNat
    let n := (rx w pf b).toNat
    let user := p.priv == 0
    if !allIssued p then stall s
    else if 2 ^ 30 < n then trapS s 0x34
    else if [Ctr.gs, .dm, .fb].any (fun c => counter s uid pf c ≠ 0) then stall s
    else
      let pages := rangePages va n
      match xlateAll s (warpReq s w user .read none) pages with
      | .error e => xlateStop s w e
      | .ok _ =>
        if (pages.filterMap (claimHome s w user)).any (engineTouches s) then stall s
        else
          let t := claimPages s w user pages
          retire t.1 (breakSpin (wx w pf d (n64 t.2)) pf)

end Sys2Proof.Machine
end

