-- ==== Sys2Proof/Machine/Sched.lean ====
section
/-! DEFINITION. The core's own events: register fills (R39, R40), the rink and the lodge (R230 to R233), the watchdog
(R235), trap entry (R192), the supervisor slot's records (R197, R348), and the end of a warp (R109). -/

namespace Sys2Proof.Machine

/-! ## What a path is about to do -/

/-- The S-stream instruction at a path's S-PC, where its fetch translates to this module. -/
def nextInstr (s : State) (w : Warp) (p : Path) : Option Instr :=
  match translate s (warpReq s w (p.priv == 0) .fetch none) p.pc.toNat with
  | .ok a => if isLocal a then some (decodeWord (rdLe s.mem a 4)) else none
  | _ => none

/-- R39: the v registers whose lines a lane instruction needs: its sources, and a destination that it does not write in all 32
lanes; none when no lane acts. -/
def laneNeeds (o : LaneOp) (act : W32) : List Nat :=
  if act = 0 then []
  else ([o.a, o.b, o.c].filterMap fun x => match x with | .v n => some n | _ => none) ++
    (if act = BitVec.allOnes 32 then [] else o.dst.toList)

/-- R39: the v registers whose lines the next S-stream instruction of a path needs, once its clauses have completed. -/
def scalarNeeds (s : State) (uid : Nat) (w : Warp) (pf : Bool) : List Nat :=
  let p := w.path pf
  if !allDone s uid pf p then []
  else match nextInstr s w p with
  | some (.vget _ vn _) => [vn]
  | some (.vput _ vn _) => [vn]
  | _ => []

/-- R39: the v registers whose lines the next word of a path's clause needs, once the clause has started. -/
def wordNeeds (p : Path) : List Nat :=
  match headClause p with
  | none => []
  | some c =>
    match c.hdr with
    | none => []
    | some h =>
      match decodeLane (some (h.setA, h.setB)) (c.body.getD (c.idx - 1) 0) with
      | .ok i => if c.started then (laneParts i).elim [] fun x => laneNeeds x.2 (actOf c.k x.2.k) else []
      | .error _ => []

/-- R39: the registers that operations of a warp are about to write in some of their lanes. -/
def awaitedRegs (s : State) (uid : Nat) : List Nat :=
  s.ops.flatMap fun o => if o.warp ≠ uid then [] else match o.body with
    | .mem m => if openLanes m = 0 && m.act ≠ BitVec.allOnes 32 then m.dst.toList else []
    | .drain d _ => if d.mask = BitVec.allOnes 32 then [] else (List.range d.nrows).map (d.dst + ·)
    | _ => []

/-- The registers whose fill the next instructions of a path wait for. -/
def stallRegs (s : State) (uid : Nat) (w : Warp) (pf : Bool) : List Nat :=
  (scalarNeeds s uid w pf ++ wordNeeds (w.path pf)).filter (missing w)

/-- The registers of a warp to be filled: those that its paths wait for, and those that its operations do. -/
def wantedRegs (s : State) (uid : Nat) (w : Warp) : List Nat :=
  stallRegs s uid w false ++ stallRegs s uid w true ++ (awaitedRegs s uid).filter (missing w)

/-! ## Register fills (R39, R40) -/

/-- The fill of one line. -/
def fillReg (s : State) (uid reg : Nat) : State :=
  match fget s.warps uid with
  | none => s
  | some w =>
    match fget w.regs reg with
    | none => s
    | some r =>
      if r.line.isSome || w.st = .parked || w.st = .saved || w.st = .ended then s
      else match ctxXlate s w .read (regVa s w reg) with
      | .ok a =>
        match lineRead s uid w a with
        | .ok (t, data, bad) =>
          let r1 : VReg := { r with line := some { data := data, dirty := false }, pois := r.pois ||| bad,
                                    slot := r.pois ||| bad }
          putWarp t uid { w with regs := fput w.regs reg r1 }
        | .error x => ctxWait s uid w (regVa s w reg) x
      | .bad c => raiseTrap s uid (!w.a.live) { sTrap (w.path (!w.a.live)) c with va := n64 (regVa s w reg) }
      | x => ctxWait s uid w (regVa s w reg) x

/-- REGISTER_FILL (R39, R40). -/
def execRegisterFill (warp reg : Nat) (s : State) : Out := .next (fillReg s warp reg)

/-- The eviction of a line (R39): a dirty line is written back first; a failure is 8.0 or 8.2 (R340). A warp of the lodge that
loses a line of its hot list is primed no longer (R41). -/
def evictReg (s : State) (uid reg : Nat) : State :=
  match fget s.warps uid with
  | none => s
  | some w =>
    match fget w.regs reg with
    | none => s
    | some r =>
      let drop := fun (t : State) => putWarp t uid { w with
        regs := fput w.regs reg { r with line := none, slot := r.pois }, primed := w.primed && !w.hot.contains reg }
      match r.line with
      | none => s
      | some l =>
        if w.st = .parked then s
        else if !l.dirty then drop s
        else match writeLines s uid w [reg] with
        | .ok t => drop t
        | .error (va, .bad c) => raiseTrap s uid (!w.a.live) { sTrap (w.path (!w.a.live)) c with va := n64 va }
        | .error (va, x) => ctxWait s uid w va x

/-! ## Rink and lodge (R230 to R233) -/

/-- R231: the fill of a register's line comes from beyond the core's own slice. -/
def farMiss (s : State) (w : Warp) (r : Nat) : Bool :=
  match ctxXlate s w .read (regVa s w r) with
  | .ok a => !inSlice w.die w.core a
  | _ => true

/-- R231: a path waits on a long-latency dependence. -/
def longWait (s : State) (uid : Nat) (w : Warp) (pf : Bool) : Bool :=
  let p := w.path pf
  let flags := fun m => (List.range 12).any fun f => bitAt m f && flagPending s uid pf f
  let atWait := match nextInstr s w p with
    | some (.waitf m) => flags m
    | some (.waitc a c) => (rx w pf a).toNat < counter s uid pf (ctrOf c)
    | _ => false
  let atClause := match headClause p with
    | some c => !c.started && c.hdr.any fun h => flags h.wait
    | none => false
  let atBar := match p.wait with
    | .join | .bar .. | .phase .. => true
    | _ => false
  atBar || atWait || atClause || (stallRegs s uid w pf).any (farMiss s w)

/-- R230: every live path is blocked, or is demoted, or waits at JOIN. -/
def warpBlocked (s : State) (uid : Nat) (w : Warp) : Bool :=
  [false, true].all fun pf => !(w.path pf).live || (w.path pf).demoted || longWait s uid w pf

/-- The warps of a core that the rink and lodge hold. -/
def coreWarps (s : State) (core : Nat) : List (Nat × Warp) :=
  s.warps.filter fun e => coreKey e.2 = core && e.2.kind = .kernel

/-- R230: a blocked warp whose dependence is satisfied becomes READY; a demoted one stays able to issue (R233). -/
def wakeBlocked (s : State) (core : Nat) : State :=
  ((coreWarps s core).filter fun e => e.2.st = .blocked &&
      !([false, true].all fun pf => !(e.2.path pf).live || longWait s e.1 e.2 pf)).foldl
    (fun t e => modWarp t e.1 fun w => { w with st := .ready, primed := false, since := s.turn }) s

/-- The oldest warp of a core among those that satisfy p. -/
def oldest (s : State) (core : Nat) (p : Nat × Warp → Bool) : Option (Nat × Warp) :=
  minBy (fun e => e.2.since) ((coreWarps s core).filter p)

/-- R41, R232: the registers of the hot list to be fetched. -/
def hotMissing (w : Warp) : List Nat := w.hot.filter (missing w)

/-- R41, R232: one line of a warp's hot list is fetched, or the warp is primed. -/
def primeWarp (s : State) (u : Nat) (w : Warp) : State :=
  match hotMissing w with
  | [] => putWarp s u { w with primed := true }
  | r :: _ => fillReg s u r

/-- A warp of the lodge that may be activated: it is ready, and has its context (R32). -/
def isReady (w : Warp) : Bool := w.st = .ready && !w.reload

/-- R232: every ready warp of a core whose hot list is empty or resident is primed at once. -/
def primeIdle (s : State) (core : Nat) : State :=
  { s with warps := fmap s.warps fun _ w =>
      if coreKey w = core && w.kind = .kernel && isReady w && (hotMissing w).isEmpty then { w with primed := true } else w }

/-- LODGE_PRIME (R232): the ready warps that need nothing are primed, and the oldest of the others has a line fetched. -/
def execLodgePrime (core : Nat) (s : State) : Out :=
  let s1 := primeIdle s core
  match oldest s1 core fun e => isReady e.2 && !e.2.primed with
  | none => .next s1
  | some (u, w) => .next (primeWarp s1 u w)

/-- A warp moved into the rink. -/
def enterRink (s : State) (u : Nat) : State :=
  modWarp s u fun w => { w with st := .rink, primed := false, since := s.turn }

/-- A warp moved to the lodge. -/
def enterLodge (s : State) (u : Nat) (st : WSt) : State :=
  modWarp s u fun w => { w with st := st, primed := false, since := s.turn }

/-- RINK_EXCHANGE (R230, R232): blocked warps that may go on become ready; the oldest primed warp takes a free place of
the rink, or that of a warp all of whose paths are blocked. -/
def execRinkExchange (core : Nat) (s : State) : Out :=
  let s1 := wakeBlocked s core
  match oldest s1 core fun e => isReady e.2 && e.2.primed with
  | none => .next s1
  | some (u, _) =>
    if ((coreWarps s1 core).filter fun e => e.2.st = .rink).length < 8 then .next (enterRink s1 u)
    else match oldest s1 core fun e => e.2.st = .rink && warpBlocked s1 e.1 e.2 with
    | none => .next s1
    | some (v, _) => .next (enterRink (enterLodge s1 v .blocked) u)

/-- LODGE_AGE_EXCHANGE (R230): the oldest ready lodge warp, once it is primed (R41), takes the place of the warp that has been
in the rink longest and has no path in a handler. -/
def execLodgeAgeExchange (core : Nat) (s : State) : Out :=
  match oldest s core (fun e => isReady e.2), oldest s core (fun e => e.2.st = .rink && !inHandler e.2) with
  | some (u, w), some (v, _) =>
    if ((coreWarps s core).filter fun e => e.2.st = .rink).length < 8 then .next s
    else if !w.primed then .next (primeWarp s u w)
    else .next (enterRink (enterLodge s v .ready) u)
  | _, _ => .next s

/-- SPIN_DEMOTION (R233). -/
def execSpinDemotion (warp : Nat) (path : Bool) (s : State) : Out :=
  .next (modWarp s warp fun w => w.modPath path fun p =>
    if p.live && 8 ≤ p.spin.count then { p with demoted := true } else p)

/-! ## The watchdog (R203, R235) -/

/-- R203: the watchdog of a warp has reached its limit, and 11.0 has not been raised for it yet. -/
def watchdogDue (w : Warp) : Bool :=
  let told := [w.a, w.b].any fun p => (p.pend.toList ++ p.more).any fun t => t.cause = 0xB0
  w.kind ≠ .supervisor && w.wdlim ≤ w.wdc && !told && w.st ≠ .parked && w.st ≠ .saved && w.st ≠ .ended

/-- WATCHDOG_EXPIRY (R235, R194): 11.0 on path A unless it has ended; in a handler it is a double fault. -/
def execWatchdogExpiry (warp : Nat) (s : State) : Out :=
  match fget s.warps warp with
  | none => .next s
  | some w =>
    if !watchdogDue w then .next s
    else
      let pf := if w.a.held.isSome then false else if w.b.held.isSome then true else !w.a.live
      if (w.path pf).live then .next (raiseTrap s warp pf (sTrap (w.path pf) 0xB0)) else .next s

/-! ## Trap entry (R192) -/

/-- A warp that the core may act for. -/
def resident (w : Warp) : Bool :=
  match w.st with
  | .ready | .rink | .blocked => true
  | _ => false

/-- TRAP_ENTRY (R192, R194): a pending trap enters; path A goes first. -/
def execTrapEntry (warp : Nat) (path : Bool) (s : State) : Out :=
  match fget s.warps warp with
  | none => .next s
  | some w =>
    match (w.path path).pend with
    | none => .next s
    | some t =>
      let bare := w.modPath path fun p => { p with pend := none }
      if !resident w || (w.path path).stopped || (path && w.a.pend.isSome) || trapWaits bare path
      then .next s
      else .next (enterTrap (putWarp s warp (w.modPath path fun p => { p with pend := none })) warp path t)

/-! ## The supervisor slot (R197, R348, R343) -/

/-- The supervisor slot of a core before its first record. -/
def newSupervisor (core : Nat) : Warp :=
  { kind := .supervisor, st := .idle, die := core / 128, core := core % 128, slot := 64, fn := 0, launch := 0, block := 0,
    idx := 0, gwi := 0, vregs := 1536, reqtag := 0, prio := 7, a := { Path.absent with live := true, priv := 1 },
    b := Path.absent, div := false, recon := 0, dstack := [], markv := false, markAddr := 0, wdc := 0, wdlim := 0,
    wmode := 1, xs := [], regs := [], hot := [], hwm := 0, nidem := false, restore := false, pend := 0, aph := 0,
    lpend := 0, laph := 0, mpend := 0, maph := 0, mlpend := 0, mlaph := 0, saving := false, runOn := false,
    decided := false, reload := false, parkCtx := false, dblPath := false, unborn := false, frozen := none, primed := false, since := 0 }

/-- R2, R327: the warp of a die's patrol core when its firmware starts (DESIGN CHOICE, log entry 98): supervisor level, the
PF's translation, and the number 512 among the cores of its die. -/
def newPatrol (die : Nat) (pc lbase : W64) : Warp :=
  { newSupervisor (128 * die + 512) with
    kind := .patrol, st := .rink, die := die, core := 512, slot := 0, wdlim := Config.wdLimit,
    a := { Path.absent with live := true, priv := 1, pc := pc, lbase := lbase }.withK0 (BitVec.allOnes 32) }

/-- R327, step 2: the firmware of a die's patrol core starts, where none runs. -/
def patrolBoot (s : State) (die : Nat) (pc lbase : W64) : State :=
  if harvested s die || s.warps.any fun e => e.2.kind = .patrol && e.2.die = die then s
  else { putWarp s s.next (newPatrol die pc lbase) with next := s.next + 1 }

/-- The supervisor slot of a core, made when it has handled no record yet. -/
def supWarp (s : State) (core : Nat) : State × Nat × Warp :=
  match s.warps.find? fun e => e.2.kind = .supervisor && coreKey e.2 = core with
  | some (u, w) => (s, u, w)
  | none => ({ putWarp s s.next (newSupervisor core) with next := s.next + 1 }, s.next, newSupervisor core)

/-- The state with a core's supervisor registers changed. -/
def modSup (s : State) (core : Nat) (f : Sup → Sup) : State :=
  { s with cores := { s.cores with sups := fput s.cores.sups core (f (supOf s core)) } }

/-- R343: the answer to an engine's fault; a declined page's elements stay unwritten and 13.4 is raised. -/
def answerEngine (s : State) (id item : Nat) (page : Nat) (skip : Bool) : State :=
  match findOp s id with
  | none => s
  | some o =>
    let more := fun l => if skip then ninsert l page else l
    let s1 := match o.body with
      | .batch _ => setItem s id item fun i => { i with stall := false, skip := more i.skip }
      | _ => modColl s [id] fun c => { c with stall := false, skip := more c.skip }
    if skip then lateTrap s1 o 0xD4 else s1

/-- R343: the answer to the fault of a TREC of the supervisor slot: the engine retries the page, and a further fault is
recorded again; a declined one raises 13.4 in the slot (log entry 45). -/
def answerTrec (s : State) (r : FRec) (uid : Nat) (pf skip : Bool) : State :=
  match fget s.warps uid with
  | none => s
  | some w =>
    if skip then raiseTrap s uid pf { sTrap (w.path pf) 0xD4 with impr := true }
    else match translate s (warpReq s { w with fn := r.fn } false .read none) r.va.toNat with
      | .fault f => trecFault s { w with fn := r.fn } uid pf f r.va
      | _ => s

/-- R197: the answer to a record. -/
def answerRecord (s : State) (r : FRec) (skip : Bool) : State :=
  match r.subj with
  | .engine id item => answerEngine s id item (r.va.toNat / pageSize) skip
  | .trec u pf => answerTrec s r u pf skip
  | .warp u => if skip then pushRec s r.fn r else unpark s u
  | _ => s

/-- R196, R197: the slot with one path, no divergence and no trap of its own. -/
def singlePath (w : Warp) : Warp :=
  let p := if w.a.live then w.a else w.b
  { w with a := { p with live := true, held := none, pend := none, more := [], queue := [], batch := [], wait := .none,
                         stopped := false },
           b := Path.absent, div := false, recon := 0, dstack := [] }

/-- R196, R197: the slot returns to its idle state after a record; its handler's state is dropped. -/
def supIdle (s : State) (core uid : Nat) : State :=
  modWarp (mergeOps (modSup s core fun u => { u with cur := none }) uid) uid fun w => { singlePath w with st := .idle }

/-- R197: the record in progress answered, and the slot idle. -/
def endRecord (s : State) (core uid : Nat) (skip : Bool) : State :=
  match (fget s.cores.sups core).bind (·.cur) with
  | none => s
  | some r => answerRecord (supIdle s core uid) r skip

/-- R193, R343: xs2 of a record: 2^63 + the number of the engine, or the slot of the warp. -/
def recSlot (r : FRec) : W64 :=
  match r.subj with
  | .engine id item => n64 (2 ^ 63 + Config.freeEngine (engineOp id item) % 16)
  | .trec u _ => n64 (2 ^ 63 + Config.freeEngine (engineOp u r.va.toNat) % 16)
  | _ => n64 r.slot

/-- R197, R348: a record enters the slot at its handler. A cause that an engine has raised in the idle slot is delivered there
(R84, R343). -/
def enterRecord (v : Warp) (r : FRec) (pc lbase : W64) : Warp :=
  let w := singlePath v
  let p := { w.a with pc := pc, lbase := lbase, priv := 1, age := clearAge w.a.age, pend := v.a.pend,
                      more := v.a.more }.withK0 (BitVec.allOnes 32)
  let xs := fputD 0 (fputD 0 (fputD 0 (fputD 0 (fputD 0 w.xs 0 (n64 r.cause)) 1 r.pc) 2 (recSlot r)) 3 r.va) 4 0
  { w with st := .rink, fn := r.fn, a := p, xs := xs }

/-- R197: the entry of a class in the slot's own table, read through the record's function. A fault, of any cause, counts as
none; a page that moves is waited for, and one of another module is read by packets. -/
def supEntry (s : State) (uid : Nat) (w : Warp) (table : W64) (cls : Nat) : State × HEntry :=
  let va := table.toNat + 16 * cls
  if table = 0 then (s, .none)
  else match translate s (warpReq s w false .read none) va with
  | .fault _ => (s, .none)
  | .migrate leaf => (migrate s uid w false w.a.pc leaf va, .wait)
  | .moving => (s, .wait)
  | .ok a =>
    match farBytes s w.fn w.reqtag (Reader.of uid false) a 16 with
    | .ok u b bad => (u, if bad then .none else bytesEntry b)
    | .wait u => (u, .wait)
    | .lost u => (u, .none)

/-- R384: a supervisor slot created again from the context at its base. While the slot's page waits (R352) the load is tried
again when a record is to enter; a base that is not mapped leaves the context as the core has it. -/
def reviveSup (s : State) (uid : Nat) : State :=
  match fget s.warps uid with
  | none => s
  | some w => match readHeader s uid w with
    | .ok (t, b) => putWarp t uid { loadHeader w b with st := .idle, reload := false }
    | .error (.bad _) => putWarp s uid { w with st := .idle, reload := false }
    | .error x => ctxWait (putWarp s uid { w with st := .idle, reload := true }) uid w (slotVa s w) x

/-- SUPERVISOR_RECORD_ENTRY (R197). -/
def execSupervisorRecordEntry (core : Nat) (s : State) : Out :=
  match (supOf s core).queue, (supOf s core).cur with
  | r :: rest, none =>
    let (s1, uid, w) := supWarp s core
    if w.st ≠ .idle then .next s
    else if w.reload then .next (reviveSup s uid)
    else
      let taken := fun t => modSup t core fun v => { v with queue := rest, cur := some r }
      match supEntry s1 uid { w with fn := r.fn } (supOf s core).table (r.cause / 16) with
      | (t, .wait) => .next t
      | (t, .entry pc lbase) => .next (putWarp (taken t) uid (enterRecord w r pc lbase))
      | (t, _) => .next (endRecord (taken t) core uid true)
  | _, _ => .next s

/-! ## The end of a warp (R109) -/

/-- A block whose last warp has ended: its banks are free and its resources return to the pair (R228). -/
def endBlock (s : State) (b : Nat) : State :=
  match fget s.blocks b with
  | none => s
  | some k =>
    if (blockWarps s b).all fun e => e.2.st = .ended then
      { s with blocks := fdel s.blocks b, banks := ffilter s.banks fun _ x => x.block ≠ b,
               warps := ffilter s.warps fun _ w => !(w.block = b && w.kind = .kernel),
               launches := fmod s.launches k.launch fun l => { l with endedN := l.endedN + 1 } }
    else s

/-- R109: every path has ended, or the one path waits at the EXIT that ends the warp. -/
def atEnd (w : Warp) : Bool :=
  let ovr := fun (p : Path) => !p.live || p.wait = .exit
  ovr w.a && ovr w.b && w.a.pend.isNone && w.b.pend.isNone

/-- WARP_END (R109): once the queue, the counters and the flags are empty. -/
def execWarpEnd (warp : Nat) (s : State) : Out :=
  match fget s.warps warp with
  | none => .next s
  | some w =>
    if w.kind = .supervisor || !resident w || !atEnd w || s.ops.any (fun o => o.warp = warp) ||
        !(liveQueue s warp false w.a).isEmpty || !(liveQueue s warp true w.b).isEmpty then .next s
    else
      let s1 := l1DropWarp (putWarp s warp { w with
        st := .ended, regs := [], saving := false, runOn := false,
        a := { w.a with live := false, queue := [], wait := .none },
        b := { w.b with live := false, queue := [], wait := .none } }) warp
      .next (if w.kind = .kernel then endBlock (levelExit s1 w) w.block else s1)

end Sys2Proof.Machine
end

