-- ==== Sys2Proof/Machine/Faultq.lean ====
section
/-! DEFINITION. Fault queues (R344, R345), the host's requests on them (R351, R353), shared pages (R352), and hotness
counters (R350). -/

namespace Sys2Proof.Machine

/-! ## The queue in memory (R344) -/

/-- The virtual address of an offset of a function's fault queue. -/
def fqVa (f : Func) (off : Nat) : Nat := (n64 (f.lqbase.toNat + 192 * 2 ^ f.lqLog2 + off)).toNat

/-- The physical address of an offset of a function's fault queue, as the device reaches it. -/
def fqAddr (s : State) (fn : Nat) (f : Func) (acc : Acc) (off : Nat) : XRes :=
  translate s (deviceReq s fn acc) (fqVa f off)

/-- The offset of the entry that a record number takes. -/
def recOffset (n : Nat) : Nat := 64 * ((n + 63) % 64)

/-- The 64 bytes of an entry. -/
def recBytes (n : Nat) (r : FRec) : List Byte :=
  leBytes 8 n ++ leBytes 2 r.cause ++ leBytes 2 r.orig ++ leBytes 1 r.flags ++ leBytes 1 r.code ++ leBytes 2 0 ++
    leBytes 8 r.va.toNat ++ leBytes 8 r.addr.toNat ++
    leBytes 4 (r.slot % 256 + r.core % 256 * 2 ^ 8 + r.die % 4 * 2 ^ 16) ++ leBytes 2 r.tag ++ leBytes 2 r.fn ++
    leBytes 8 r.pc.toNat ++ leBytes 8 r.data.toNat ++ leBytes 8 0

/-- R344: an entry could not be written: FQERR, vector 1, and a record for the PF when a VF met a stage-2 cause. -/
def fqError (s : State) (fn : Nat) (va : Nat) (cause : Nat) (walk : Bool) (ipa : Nat) : State :=
  let s1 := raiseVector (modFunc s fn fun f => { f with fqerr := true }) fn 1
  if fn ≠ 0 && cause / 16 = 7 then
    pushRec s1 0 { cause := cause, orig := 0, flags := b2n walk, code := 0, va := n64 va, addr := n64 ipa, slot := 0,
                   core := 0, die := 0, tag := 0, fn := fn, pc := 0, data := 0, subj := .none }
  else s1

/-- n bytes of a function's queue as the device reads them, on whatever module they lie; `k` on the bytes and their
poison. While packets are on the way, or the route is lost, nothing happens. -/
def queueRead (s : State) (fn a n : Nat) (k : State → List Byte → Bool → Out) : Out :=
  match farBytes s fn 0 Reader.device a n with
  | .ok u b bad => k u b bad
  | .wait u | .lost u => .next u

/-- An entry written at a physical address. -/
def putEntry (s : State) (fn n : Nat) (f : Func) (r : FRec) (rest : List FRec) (a : Nat) : State :=
  let done := raiseVector (modFunc s fn fun g =>
    { g with fqWait := rest, fqNext := n + 1, fqOut := g.fqOut ++ [(n, r)] }) fn 2
  if isLocal a then { done with mem := wrBytes done.mem a (recBytes n r) }
  else
    let p := { mkPacket s fn r.tag 2 1 (homeModule a) a with mask := 2 ^ 16 - 1, payload := recBytes n r, len := 2 }
    match routeNow s p.part p.dst with
    | none => fqError s fn (fqVa f (recOffset n)) 0x110 false 0
    | some k => acceptPacket done { warp := 0, path := false, op := none, lanes := 1 } p k

/-- FAULT_RECORD_WRITE (R344): the oldest waiting record is written once its own entry is free, and the bobbin has room for its
packet (R403). -/
def execFaultRecordWrite (fn : Nat) (s : State) : Out :=
  match fget s.funcs fn with
  | none => .next s
  | some f =>
    match f.fqWait with
    | [] => .next s
    | r :: rest =>
      if f.fqerr then .next s
      else match fqAddr s fn f .write (recOffset f.fqNext) with
      | .ok a =>
        if !isLocal a && (routeNow s (partOf s fn) (homeModule a)).isNone then
          .next (fqError s fn (fqVa f (recOffset f.fqNext)) 0x110 false 0)
        else queueRead s fn a 64 fun u b bad =>
          if !devRoom u a 1 then .next u
          else if bad then .next (fqError u fn (fqVa f (recOffset f.fqNext)) 0x120 false 0)
          else if leNat (b.take 8) ≠ 0 then .next u
          else .next (putEntry u fn f.fqNext f r rest a)
      | .fault x => .next (fqError s fn (fqVa f (recOffset f.fqNext)) x.cause x.walk x.ipa)
      | .migrate _ | .moving => .next s

/-- FQERR_CLEAR (R344), by a writer (R323): the waiting records are written again, by events of their own. -/
def execFqerrClear (fn : Nat) (s : State) : Out :=
  .next (writerReq s fn (modFunc s (funcOf fn) fun f => { f with fqerr := false }))

/-! ## Homes of a function's pages -/

/-- The physical page that a home of a stage-1 leaf names, through stage 2 for a VF. -/
def leafPage (s : State) (fn kind home : Nat) : Option Nat :=
  if fn = 0 then some (homePage kind home)
  else match stage2 s (funcXlate s fn) (home % 2 ^ 27 * pageSize) .read false with
  | .ok (a, _) => some a
  | .error _ => none

/-- A leaf with SH replaced. -/
def leafSh (l : Leaf) (sh : Nat) : Leaf := { l with w0 := l.w0 - l.sh * 2 ^ 5 + sh * 2 ^ 5 }

/-- A leaf with KIND and HOME replaced. -/
def leafHomed (l : Leaf) (kind home : Nat) : Leaf :=
  { l with w0 := l.w0 % 2 ^ 16 - l.kind * 2 ^ 8 + kind * 2 ^ 8 + home % 2 ^ 48 * 2 ^ 16 }

/-- A leaf with RES replaced. -/
def leafRes (l : Leaf) (res : Nat) : Leaf := { l with w1 := l.w1 - l.res + res }

/-- A leaf with RV and RHOME replaced. -/
def leafRv (l : Leaf) (rv : Bool) (rhome : Nat) : Leaf :=
  { l with w1 := l.res + b2n rv * 2 ^ 32 + rhome % 2 ^ 27 * 2 ^ 33 + fld l.w1 63 60 * 2 ^ 60 }

/-- Every part present. -/
def allParts : Nat := 2 ^ 32 - 1

/-! ## Shared pages (R352) -/

/-- R352: the device home of a shared page that comes back from the host: the leaf's, or the one kept for it (R353), or
a free page of a die that is not harvested (log entry 21). -/
def deviceHome (s : State) (fn leaf : Nat) (l : Leaf) : Option Nat :=
  let fresh := firstSome (freePage s (partOf s fn)) ((List.range 4).filter fun d => !harvested s d)
  match fget s.mgmt.kept leaf, leafPage s fn l.kind l.home with
  | some p, _ => some p
  | none, some p => if physKind p = 2 then fresh else some p
  | none, none => fresh

/-- R245: a frame of this module whose pair lends scratchpad granules to a block. -/
def frameLends (s : State) (p : Nat) : Bool :=
  physKind p = 1 && isLocal p && (pairBlocks s (homeDie p) (homeFrame p)).any fun e =>
    (blockRec s e.2).any fun r => r.spbytes ≠ 0

/-- R353: the leaf that names a page's device or host home: for a VF its stage-2 leaf. -/
def homeLeaf (s : State) (fn leaf : Nat) : Nat :=
  if fn = 0 then leaf
  else (stage2Leaf s (funcXlate s fn) ((readLeaf s leaf).home % 2 ^ 27 * pageSize)).getD leaf

/-- R352: the page of a shared page's bus address. -/
def busPage (bus : Nat) : Nat := hostBase + bus / pageSize * pageSize

/-- R271, R352: a page has come back from the host to its home: SH becomes 1 and every part is present. What the cores hold of
the page is dropped. -/
def endTake (s : State) (fn leaf home : Nat) : State :=
  let at' := homeLeaf s fn leaf
  let h := readLeaf s at'
  let s2 := if h.kind = 2 then putLeaf s at' (leafHomed h (physKind home) (homeField home)) else s
  let s3 := putLeaf { s2 with mgmt := { s2.mgmt with kept := fdel s2.mgmt.kept leaf } } leaf
    (leafRes (leafSh (readLeaf s2 leaf) 1) allParts)
  dropPage s3 home

/-! ## Copies of pages, part by part (R351, R352) -/

/-- The poisoned granules among those of other modules that a reader has received. -/
def farPois (s : State) (uid : Nat) : List Nat := (s.fabric.inbox.filter fun f => f.warp = uid && f.pois).map (·.gran)

/-- R351: a part's bytes sent to a home on another module, granule by granule, with the poison of each. -/
def sendPart (s : State) (fn b : Nat) (bytes : List Byte) (bad : Nat → Bool) : State :=
  (List.range 1024).foldl (fun t i =>
    let a := b + 64 * i
    let p := { mkPacket t fn 0 2 1 (homeModule a) a with
      mask := 2 ^ 16 - 1, payload := (bytes.drop (64 * i)).take 64, len := 2, pois := if bad i then 3 else 0 }
    acceptPacket t { warp := 0, path := false, op := none, lanes := 3 } p ((routeNow t p.part p.dst).getD 3)) s

/-- A WRITE of firmware to a part is unacknowledged. -/
def partOut (s : State) (b : Nat) : Bool :=
  s.fabric.bobbin.any fun e => e.op.isNone && e.lanes = 3 && b ≤ e.pkt.addr && e.pkt.addr < b + 65536

/-- A part's bytes placed at a home on this module, with the poison of each granule. -/
def placePart (s : State) (b : Nat) (bytes : List Byte) (bad : Nat → Bool) : State :=
  { s with mem := wrBytes s.mem b bytes,
           pois := ((List.range 1024).filter bad).foldl (fun t i => addPois t (granule b + i)) (clearCovered s.pois b 65536) }

/-- The part in progress of a copy of a page, wherever its ends lie: it is read, and placed or sent; it has landed once it is
placed or every packet has been acknowledged. Nothing happens while answers, a route or room in the bobbin are missing. -/
def copyPart (s : State) (job : MoveJob) (n : Nat) : State × MoveJob × Bool :=
  let a := job.src + 65536 * n
  let b := job.dst + 65536 * n
  let done := { job with todo := job.todo.drop 1, sent := false }
  if job.sent then (if partOut s b then (s, job, false) else (s, done, true))
  else
    let poisoned := if isLocal a then s.pois else farPois s 0
    let bad := fun i => poisoned.contains (granule a + i)
    match farBytes s job.fn 0 Reader.device a 65536 with
    | .wait u | .lost u => (u, job, false)
    | .ok u bytes _ =>
      if isLocal b then (placePart u b bytes bad, done, true)
      else if (routeNow u (partOf u job.fn) (homeModule b)).isNone || bobbinSize < u.fabric.bobbin.length + 1024 then
        (s, job, false)
      else (sendPart u job.fn b bytes bad, { job with sent := true }, false)

/-- The copy in progress of a function's record (`entry` below 64) or request (64 and more). -/
def copyJob (s : State) (fn entry : Nat) : Option MoveJob := s.mgmt.copies.find? fun j => j.fn = fn && j.entry = entry

/-- The state with a copy in progress replaced, or ended. -/
def putCopy (s : State) (fn entry : Nat) (job : Option MoveJob) : State :=
  let l := s.mgmt.copies.filter fun j => !(j.fn = fn && j.entry = entry)
  { s with mgmt := { s.mgmt with copies := l ++ job.toList } }

/-- A copy of a page goes on; `fin` is what follows when every part has landed. -/
def runCopy (s : State) (job : MoveJob) (fin : State → State) : State :=
  match job.todo with
  | [] => fin (putCopy s job.fn job.entry none)
  | n :: _ =>
    let t := copyPart s job n
    putCopy t.1 job.fn job.entry (some t.2.1)

/-- R352: the host has released a page: its bytes are copied from the bus address into HOME, at once where HOME lies on this
module, and else part by part. A frame that still lends granules is waited for (R245). The Bool says that the page has come
back. -/
def takePage (s : State) (fn entry leaf bus : Nat) : State × Bool :=
  match copyJob s fn entry with
  | some j => if j.todo.isEmpty then (runCopy s j fun t => endTake t fn leaf j.dst, true) else (runCopy s j id, false)
  | none =>
    match deviceHome s fn leaf (readLeaf s leaf) with
    | none => (s, true)
    | some home =>
      if frameLends s home then (s, false)
      else if isLocal home then
        (endTake { s with mem := copyRange s.mem (busPage bus) home pageSize, pois := movePois s.pois (busPage bus) home pageSize }
          fn leaf home, true)
      else
        (putCopy s fn entry (some { fn := fn, entry := entry, leaves := [], src := busPage bus, dst := home,
                                    todo := List.range 32, sent := false }), false)

/-! ## Responses (R345) -/

/-- R345: a valid response: retry or purge, with the reserved bits zero. -/
def respValid (r : FRec) (resp : Nat) : Bool :=
  (resp % 4 = 1 || resp % 4 = 2) && fld resp 7 2 = 0 && (fld resp 63 8 = 0 || (r.cause = 0x132 && r.orig / 16 = 9))

/-- R194, R345: the supervisor code of a warp resumes at PC, with a new high-water mark where the
driver gives a higher one: the mark never falls (R349). WDC stays as it is, after 11.0 too (DESIGN CHOICE, log entry 124). -/
def resumeHandler (w : Warp) (pc : W64) (mark : Nat) : Warp :=
  let w1 := w.modPath w.dblPath fun p => { p with pc := pc }
  { w1 with hwm := max w1.hwm (mark * 256) }

/-- R341: the access of a record is translated again from level 0: no TLB holds its page, and the tables of other modules are
read again. -/
def walkAgain (s : State) (page : Nat) : State :=
  dropWalks { s with cores := { s.cores with tlb := s.cores.tlb.filter fun t => t.vpage ≠ page } }

/-- R345: retry; the Bool says that the record has been acted on whole. -/
def retryRec (s0 : State) (r : FRec) (entry mark data : Nat) : State × Bool :=
  let s := if r.cause / 16 = 7 then walkAgain s0 (r.va.toNat / pageSize) else s0
  match r.subj with
  | .warp u => (unpark (if r.cause = 0x132 then modWarp s u fun w => resumeHandler w r.pc mark else s) u, true)
  | .engine id item => (answerEngine s id item (r.va.toNat / pageSize) false, true)
  | .trec u pf => (answerTrec s r u pf false, true)
  | .doneRec n => ({ s with launches := fmod s.launches n fun l => { l with recWaits := false } }, true)
  | .shared leaf _ => takePage s r.fn entry leaf data
  | .trapEntry u _ => (unpark s u, true)
  | .none => (s, true)

/-- R190, R345, R349: the cause of a purge response: the record's, 9.0 for private growth, or the original cause of a
handler-table read that failed. -/
def purgeCause (r : FRec) : Nat := if (r.cause = 0x132 && r.orig = 0x90) || r.cause = 0x139 then r.orig else r.cause

/-- R196, R197: the default action on the warp of a record; that of a supervisor slot declines its record. -/
def purgeWarp (s : State) (u : Nat) (cause : Nat) : State :=
  match fget s.warps u with
  | none => s
  | some w => if w.kind = .supervisor then endRecord s (coreKey w) u true else defaultAction s u cause

/-- R345: purge. A completion record is dropped for good (R226). -/
def purgeRec (s : State) (r : FRec) : State :=
  match r.subj with
  | .warp u | .trapEntry u _ => purgeWarp s u (purgeCause r)
  | .engine id _ => if (findOp s id).isSome then purgeKey s r.fn r.tag r.cause else s
  | .trec u pf => answerTrec s r u pf true
  | .doneRec n => { s with launches := fmod s.launches n fun l => { l with recWaits := false, recWritten := true } }
  | .shared .. => purgeKey s r.fn r.tag r.cause
  | .none => s

/-- R345: the warp of a record, or the operation of an engine's record, has been discarded. -/
def subjectGone (s : State) (r : FRec) : Bool :=
  match r.subj with
  | .warp u | .trapEntry u _ | .trec u _ => (fget s.warps u).isNone
  | .shared _ u => u ≠ 0 && (fget s.warps u).isNone
  | .engine id _ => (findOp s id).isNone
  | _ => false

/-- R345: a record whose warp has been discarded is acted on as purge: its tag is purged, whatever RESP holds. -/
def purgeGone (s : State) (r : FRec) : State := purgeKey s r.fn r.tag (purgeCause r)

/-- R345: an entry is freed. -/
def freeEntry (s : State) (fn n a : Nat) : State :=
  modFunc (devWrite s fn a (leBytes 8 0)) fn fun f => { f with fqOut := f.fqOut.filter fun e => e.1 ≠ n }

/-- FAULT_RESPONSE (R345): the device acts on entry 0 to 63 of a function's queue. -/
def execFaultResponse (fn entry : Nat) (s : State) : Out :=
  match fget s.funcs fn with
  | none => .next s
  | some f =>
    match f.fqOut.find? fun e => recOffset e.1 = 64 * entry, fqAddr s fn f .write (64 * entry) with
    | some (n, r), .ok a => queueRead s fn a 64 fun u b _ =>
        let resp := leNat ((b.drop 0x38).take 8)
        if !devRoom u a 1 then .next u
        else if subjectGone u r then .next (freeEntry (purgeGone u r) fn n a)
        else if !respValid r resp then .next u
        else if resp % 4 = 1 then
          let t := retryRec u r entry (fld resp 63 8) (leNat ((b.drop 0x30).take 8))
          .next (if t.2 then freeEntry t.1 fn n a else t.1)
        else .next (freeEntry (purgeRec u r) fn n a)
    | _, _ => .next s

/-! ## Hotness (R350) -/

/-- R350: what a counter counts for. -/
def hotKey (port part page src : Nat) : List Nat := [port, part, page, src]

/-- HOTNESS_PROPOSAL (R350): one proposal for a key in an epoch, also when its counter has been replaced since. -/
def execHotnessProposal (port part page src : Nat) (s : State) : Out :=
  let mine := fun (c : HotCtr) => c.port = port && c.part = part && c.page = page && c.src = src
  match s.mgmt.hot.find? mine with
  | none => .next s
  | some c =>
    if s.mgmt.hotTold.contains (hotKey port part page src) || c.reads + c.writes < Config.hotThreshold then .next s
    else
      let r : FRec := { cause := 0, orig := 0, flags := 4, code := 0, va := 0, addr := n64 (page * pageSize), slot := 0,
                        core := 0, die := 0, tag := 0, fn := 0, pc := 0,
                        data := n64 (c.reads + c.writes * 2 ^ 32 + src * 2 ^ 48), subj := .none }
      .next (pushRec { s with mgmt := { s.mgmt with hotTold := hotKey port part page src :: s.mgmt.hotTold } } 0 r)

/-- HOTNESS_EPOCH (R350): the counters of a port begin again. -/
def execHotnessEpoch (port : Nat) (s : State) : Out :=
  .next { s with mgmt := { s.mgmt with hot := s.mgmt.hot.filter fun c => c.port ≠ port,
                                       hotTold := s.mgmt.hotTold.filter fun k => k.head? ≠ some port } }

/-! ## Host requests (R351, R353) -/

/-- A host request as its entry holds it: where the entry lies, VA and target. -/
structure HostReq where
  addr : Nat
  va : Nat
  target : Nat

/-- R351: the request of a kind that the 64 bytes of an entry hold. -/
def parseReq (a kind : Nat) (b : List Byte) : Option HostReq :=
  let at64 := fun i n => leNat ((b.drop i).take n)
  if at64 0 8 = 0 || at64 8 1 ≠ kind then none else some { addr := a, va := at64 0x10 8, target := at64 0x18 8 }

/-- R351: host-request entry j of a function's queue, where it lies on this module and holds a request of a kind. -/
def hostReq (s : State) (fn entry kind : Nat) : Option HostReq :=
  match fget s.funcs fn with
  | none => none
  | some f =>
    match fqAddr s fn f .write (0x1000 + 64 * (entry % 16)) with
    | .ok a => if isLocal a then parseReq a kind (rdBytes s.mem a 64) else none
    | _ => none

/-- R403: room in the bobbin for what firmware writes to a request's entry and to the entries of tables, where one of them
lies on another module. -/
def reqRoom (s : State) (a leaf : Nat) : Bool := (isLocal a && isLocal leaf) || s.fabric.bobbin.length + 1024 ≤ bobbinSize

/-- R351: firmware acts on a host request, wherever its entry lies. -/
def withReq (s : State) (fn entry kind : Nat) (k : State → HostReq → Out) : Out :=
  match fget s.funcs fn with
  | none => .next s
  | some f =>
    match fqAddr s fn f .write (0x1000 + 64 * (entry % 16)) with
    | .ok a => queueRead s fn a 64 fun u b _ => match parseReq a kind b with
      | none => .next u
      | some q => if reqRoom u a a then k u q else .next u
    | _ => .next s

/-- R351: DONE written, 1 for done and 2 for refused, and then SEQ 0. -/
def endReq (s : State) (fn : Nat) (q : HostReq) (done : Nat) : State :=
  devWrite (devWrite s fn (q.addr + 0x38) (leBytes 8 done)) fn q.addr (leBytes 8 0)

/-- The leaf of a VA by a function's current tables. -/
def reqLeaf (s : State) (fn va : Nat) : Option Nat :=
  if 2 ^ 48 ≤ va then none
  else match findLeaf s (deviceReq s fn .read) va with
  | .ok a => if bitAt (tblLe s a 8) 0 then some a else none
  | .error _ => none

/-- R340: the walk to that leaf waits for a table of another module, or what is to be written there waits for the bobbin. -/
def reqWaits (s : State) (fn : Nat) (q : HostReq) : Bool :=
  match findLeaf s (deviceReq s fn .read) q.va with
  | .ok a => q.va < 2 ^ 48 && !reqRoom s q.addr a
  | .error f => q.va < 2 ^ 48 && f.cause = walkWait

/-- The leaves of a page that is named through a leaf: for the PF every leaf that names it; for a VF its stage-1 leaves with
the same home. -/
def leavesNaming (s : State) (fn leaf page : Nat) : List Nat :=
  if fn = 0 then (allLeaves s).filter fun a => leafNames (readLeaf s a) page
  else dedup (leaf :: (guestLeaves s (funcXlate s fn)).filter fun a =>
    (readLeaf s a).hs = 2 && (readLeaf s a).home = (readLeaf s leaf).home)

/-- R351, MOVE: the leaves get the new home, RHOME the old one, and no part present; the page's duplicates go. -/
def startMove (s : State) (job : MoveJob) (target : Nat) : State :=
  let set' := fun (t : State) (a : Nat) =>
    let l := readLeaf t a
    putLeaf t a (leafUndup (leafRv (leafRes (leafHomed l l.kind target) 0) true l.home))
  let s1 := job.leaves.foldl (fun t e => set' t e.1) s
  let s2 := dropPage (dropDups s1 job.src) job.src
  { s2 with mgmt := { s2.mgmt with moves := s2.mgmt.moves ++ [job] } }

/-- R351, R270: a part has landed: accesses that have been issued and not performed go to the new home, and its RES bits
are set. -/
def landPart (s : State) (job : MoveJob) (n : Nat) : State :=
  let a := job.src + 65536 * n
  let b := job.dst + 65536 * n
  let ops := s.ops.map fun o => match o.body with
    | .mem m => if m.space = .sp then o else
        { o with body := .mem { m with accs := m.accs.map fun x =>
            if a ≤ x.addr && x.addr < a + 65536 then { x with addr := x.addr - a + b, module := homeModule b } else x } }
    | _ => o
  let mark := fun (t : State) (e : Nat × Nat) =>
    let l := readLeaf t e.1
    if bitAt e.2 n && !bitAt l.res n then putLeaf t e.1 (leafRes l (l.res + 2 ^ n)) else t
  l1Drop (job.leaves.foldl mark { s with ops := ops }) fun x => a ≤ 128 * x.line && 128 * x.line < a + 65536

/-- A part's bytes gone from a home on this module, once no entry names the page there any more: a VF's own stage 2 still
maps the page that its entries have left. -/
def leavePart (s : State) (fn a : Nat) : State :=
  if !isLocal a || fn ≠ 0 then s
  else { s with mem := zeroRange s.mem a 65536,
                pois := s.pois.filter fun g => !(granule a ≤ g && g < granule (a + 65536)) }

/-- R351: one part copied within the module. -/
def movePart (s : State) (job : MoveJob) (n : Nat) : State :=
  let a := job.src + 65536 * n
  let b := job.dst + 65536 * n
  landPart (leavePart { s with mem := copyRange s.mem a b 65536, pois := movePois s.pois a b 65536 } job.fn a) job n

/-- R351: the part in progress of a move between modules; it lands when it has been copied. -/
def farPart (s : State) (job : MoveJob) (n : Nat) : State × MoveJob :=
  let t := copyPart s job n
  if t.2.2 then (landPart (leavePart t.1 job.fn (job.src + 65536 * n)) job n, t.2.1) else (t.1, t.2.1)

/-- The state with a move in progress replaced, or ended. -/
def putMove (s : State) (fn entry : Nat) (job : Option MoveJob) : State :=
  let l := s.mgmt.moves.filter fun j => !(j.fn = fn && j.entry = entry)
  { s with mgmt := { s.mgmt with moves := l ++ job.toList } }

/-- R351: the end of a move: RV is cleared. -/
def endMove (s : State) (job : MoveJob) (q : HostReq) : State :=
  let clear := fun (t : State) (e : Nat × Nat) => putLeaf t e.1 (leafRv (readLeaf t e.1) false 0)
  endReq (putMove (job.leaves.foldl clear s) job.fn job.entry none) job.fn q 1

/-- R351: a page that may be moved or duplicated: it has a home, is not shared out and not moving. -/
def movable (l : Leaf) : Bool := l.hs = 2 && l.sh ≤ 1 && l.kind ≤ 1 && !l.rv

/-- R244, R245, R338, R351: a target that a leaf can name as its home: not malformed, no page of firmware's own, no frame
that lends granules, no page that is kept for another (R353). -/
def targetOk (s : State) (fn : Nat) (l : Leaf) (target : Nat) : Bool :=
  target < 2 ^ 48 && !leafBad s (leafHomed l l.kind target) false (fn ≠ 0) &&
    (leafPage s fn l.kind target).any fun p =>
      physKind p ≤ 1 && p % pageSize = 0 && !frameLends s p && !firmwareOwned p && !pageKept s p &&
        !(physKind p = 1 && isLocal p && !pairOn s (homeDie p) (homeFrame p))

/-- MOVE (R351), part by part. -/
def execMove (fn entry : Nat) (s0 : State) : Out :=
  withReq s0 fn entry 1 fun s q =>
    if reqWaits s fn q then .next s
    else match s.mgmt.moves.find? fun j => j.fn = fn && j.entry = entry with
    | some j =>
      match j.todo with
      | [] => .next (endMove s j q)
      | n :: r =>
        if isLocal j.src && isLocal j.dst then .next (putMove (movePart s j n) fn entry (some { j with todo := r }))
        else .next (putMove (farPart s j n).1 fn entry (some (farPart s j n).2))
    | none =>
      match reqLeaf s fn q.va with
      | none => .next (endReq s fn q 2)
      | some a =>
        let l := readLeaf s a
        match leafPage s fn l.kind l.home, leafPage s fn l.kind q.target with
        | some src, some dst =>
          if !movable l || !targetOk s fn l q.target || src = dst then .next (endReq s fn q 2)
          else
            let job : MoveJob := { fn := fn, entry := entry, src := src, dst := dst, todo := List.range 32, sent := false,
                                   leaves := (leavesNaming s fn a src).map fun b => (b, (readLeaf s b).res) }
            .next (startMove s job q.target)
        | _, _ => .next (endReq s fn q 2)

/-- R249, R351: a leaf with DUP set. -/
def leafDup (l : Leaf) : Leaf := if l.dup then l else { l with w0 := l.w0 + 2 ^ 7 }

/-- R249, R351: the duplicate stands: DUP is set in the leaves that map the page. -/
def endDup (s : State) (fn : Nat) (leaves : List Nat) (q : HostReq) (src dst : Nat) : State :=
  let s1 := { s with mgmt := { s.mgmt with dups := s.mgmt.dups ++ [(src, dst)] } }
  endReq (leaves.foldl (fun t b => putLeaf t b (leafDup (readLeaf t b))) s1) fn q 1

/-- R249, R351: a page and a target of DUP: refused for a page that any entry maps with W = 1, and for a target that is not on
another die of the home's package. -/
def dupBad (s : State) (fn : Nat) (l : Leaf) (target src dst : Nat) : Bool :=
  !movable l || !targetOk s fn l target || homeModule src ≠ homeModule dst || homeDie src = homeDie dst || pageWritable s src

/-- DUP (R249, R351): the copy is placed, at once within the module and else part by part, and DUP is set. A page that an entry
has meanwhile been allowed to write gets no copy. -/
def execDup (fn entry : Nat) (s0 : State) : Out :=
  withReq s0 fn entry 2 fun s q =>
    if reqWaits s fn q then .next s
    else match reqLeaf s fn q.va with
    | none => .next (endReq (putCopy s fn (64 + entry) none) fn q 2)
    | some a =>
      let l := readLeaf s a
      match copyJob s fn (64 + entry) with
      | some j =>
        if pageWritable s j.src then .next (endReq (putCopy s fn (64 + entry) none) fn q 2)
        else .next (runCopy s j fun t => endDup t fn (leavesNaming s fn a j.src) q j.src j.dst)
      | none =>
        match leafPage s fn l.kind l.home, leafPage s fn l.kind q.target with
        | some src, some dst =>
          if dupBad s fn l q.target src dst then .next (endReq s fn q 2)
          else if isLocal src then
            .next (endDup { s with mem := copyRange s.mem src dst pageSize, pois := movePois s.pois src dst pageSize } fn
              (leavesNaming s fn a src) q src dst)
          else
            .next (putCopy s fn (64 + entry) (some { fn := fn, entry := 64 + entry, leaves := [], src := src, dst := dst,
                                                     todo := List.range 32, sent := false }))
        | _, _ => .next (endReq s fn q 2)

/-! ## EVICT (R353) and SHOOT -/

/-- An access of the module to a page is outstanding. -/
def pageBusy (s : State) (page : Nat) : Bool :=
  (s.ops.any fun o => match o.body with
    | .mem m => m.space ≠ .sp && m.accs.any fun a =>
        (openLanes m).getLsbD a.lane && page ≤ a.addr && a.addr < page + pageSize
    | _ => false) ||
  s.fabric.bobbin.any fun e => page ≤ e.pkt.addr && e.pkt.addr < page + pageSize && !(e.op.isNone && (e.lanes = 3 || e.lanes = 6))

/-- R353: the other modules where a partition may exist: those that its groups name, and every module to which a route is
known; one where it does not exist has nothing to drop and answers (DESIGN CHOICE, log entry 92). -/
def partModules (s : State) (part : Nat) : List Nat :=
  dedup ((((fget s.parts.parts part).elim [] fun p => p.groups.flatMap fun g => g.2.map (·.1)) ++
    s.fabric.routes.map (·.1)).filter (· ≠ Config.moduleNo))

/-- R353, R401: SHOOT to another module over class 3, naming the page's home; nothing while it is on its way, or while a route
or room in the bobbin is missing. R400 gives no KIND for a message of class 3; the packet carries that of a WRITE (DESIGN
CHOICE, log entry 117). -/
def sendShoot (fn home : Nat) (s : State) (m : Nat) : State :=
  let p := mkPacket s fn 0 2 3 m home
  if s.fabric.bobbin.any (fun e => e.op.isNone && e.lanes = 6 && e.pkt.dst = m && e.pkt.addr = home) ||
      bobbinSize ≤ s.fabric.bobbin.length then s
  else match routeNow s p.part m with
  | none => s
  | some k => acceptPacket s { warp := 0, path := false, op := none, lanes := 6 } p k

/-- R353, steps 1 and 2: SH becomes 3, the page is dropped on this module, and the others are asked. -/
def startEvict (s : State) (fn entry leaf home : Nat) (q : HostReq) : State :=
  let s1 := dropPage (dropDups (putLeaf s leaf (leafUndup (leafSh (readLeaf s leaf) 3))) home) home
  let job : EvictJob := { fn := fn, entry := entry, leaf := leaf, home := home, bus := q.target,
                          waits := partModules s (partOf s fn) }
  job.waits.foldl (sendShoot fn home) { s1 with mgmt := { s1.mgmt with evicts := s1.mgmt.evicts ++ [job] } }

/-- R353, step 4: the page is copied to the host, which owns it; its device home stays allocated to it. The entry that gets
KIND 2 and the host address is the one that names the page's home: for a VF its stage-2 entry, because R338 keeps the KIND of
its own entries 0 (DEDUCED, log entry 57); `at'` is its address. What the accesses that were under way have left in L1 lines
and TLB entries is dropped (R271). -/
def endEvict (s : State) (j : EvictJob) (at' : Nat) (q : HostReq) : State :=
  let dst := hostBase + j.bus / pageSize * pageSize
  let full := fun (l : Leaf) => leafRv (leafRes (leafHomed l 2 (homeField dst)) allParts) false 0
  let s1 := { s with mgmt := { s.mgmt with
    evicts := s.mgmt.evicts.filter fun k => !(k.fn = j.fn && k.entry = j.entry), kept := fput s.mgmt.kept j.leaf j.home } }
  let s2 := dropPage (putLeaf s1 at' (full (readLeaf s1 at'))) j.home
  endReq (putLeaf s2 j.leaf (leafSh (readLeaf s2 j.leaf) 2)) j.fn q 1

/-- R353, step 4: the bytes of a page brought to the host, from whatever module they lie on; nothing while answers are
missing. -/
def evictBytes (s : State) (j : EvictJob) (k : State → State) : State :=
  let dst := busPage j.bus
  if isLocal j.home then
    k { s with mem := copyRange s.mem j.home dst pageSize, pois := movePois s.pois j.home dst pageSize }
  else
    let poisoned := farPois s 0
    match farBytes s j.fn 0 Reader.device j.home pageSize with
    | .ok u b _ =>
      let bad := (granulesOf j.home pageSize).filter poisoned.contains
      k { u with mem := wrBytes u.mem dst b,
                 pois := bad.foldl (fun t g => addPois t (g - granule j.home + granule dst)) (clearCovered u.pois dst pageSize) }
    | .wait u | .lost u => u

/-- EVICT (R353): the request starts; it ends when every module has answered and no access to the page is left. -/
def execEvict (fn entry : Nat) (s0 : State) : Out :=
  withReq s0 fn entry 3 fun s q =>
    if reqWaits s fn q then .next s
    else match s.mgmt.evicts.find? fun j => j.fn = fn && j.entry = entry with
    | some j =>
      if j.waits.isEmpty && !pageBusy s j.home then .next (evictBytes s j fun t => endEvict t j (homeLeaf s j.fn j.leaf) q)
      else .next (j.waits.foldl (sendShoot fn j.home) s)
    | none =>
      match reqLeaf s fn q.va with
      | none => .next (endReq s fn q 2)
      | some a =>
        let l := readLeaf s a
        if l.sh = 3 then .next s
        else match leafPage s fn l.kind l.home with
        | none => .next (endReq s fn q 2)
        | some home => if l.sh ≠ 1 || !movable l then .next (endReq s fn q 2)
                       else .next (startEvict s fn entry a home q)

/-- SHOOT (R353): every translation and L1 line of a page, by its home's physical address, is dropped on the cores of
this module once the accesses through them are performed. -/
def execShoot (src home : Nat) (s : State) : Out :=
  if src = Config.moduleNo || pageBusy s home then .next s else .next (dropPage s home)

/-- SHOOT_ANSWER (R353): the message of class 3 is answered, and its packet leaves the bobbin (R403). -/
def execShootAnswer (module home : Nat) (s : State) : Out :=
  .next (pump { s with
    fabric := { s.fabric with bobbin := s.fabric.bobbin.filter fun e =>
      !(e.lanes = 6 && e.op.isNone && e.pkt.dst = module && e.pkt.addr = home) },
    mgmt := { s.mgmt with evicts := s.mgmt.evicts.map fun j =>
      if j.home = home then { j with waits := j.waits.filter (· ≠ module) } else j } })

end Sys2Proof.Machine
end

