-- ==== Sys2Proof/Machine/Fabric.lean ====
section
/-! DEFINITION. The fabric (R400 to R408): packets that arrive at a home, responses that arrive at a source, rejections,
and the failure and recovery of routes. -/

namespace Sys2Proof.Machine

/-! ## Packets (R400 to R402) -/

/-- R402: the CRC of a packet matches, over its header and every flit. -/
def crcMatches (p : Packet) : Bool := p.payload.length ≤ 32 * p.len && p.crc = packetCrc p

/-- R400: a packet that a receiver drops and counts. -/
def packetReserved (p : Packet) : Bool := p.kind = 0 || 8 < p.kind || 8 < p.len

/-- R400, R402: a packet that a receiver drops. -/
def packetBad (p : Packet) : Bool := packetReserved p || !crcMatches p

/-- A request that this module is the home of. -/
def forHere (p : Packet) (kind cls : Nat) : Bool :=
  !packetBad p && p.kind = kind && p.cls = cls && p.dst = Config.moduleNo && isLocal p.addr && physKind p.addr ≠ 2

/-- A response that this module is the target of. -/
def forSource (p : Packet) (kind : Nat) : Bool :=
  !packetBad p && p.kind = kind && p.cls = 2 && p.dst = Config.moduleNo

/-- R401: a response to a request: class 2, with its SEQ, sent when a route to the source is usable. -/
def respond (s : State) (p : Packet) (kind : Nat) (payload : List Byte) (pois : Nat) : State :=
  let r : Packet :=
    { kind := kind, cls := 2, len := flits payload.length, seq := p.seq, lowAck := 0, src := Config.moduleNo, dst := p.src,
      part := p.part, tag := p.tag, fn := p.fn, pois := pois, addr := p.addr, oper := p.oper, mask := p.mask,
      payload := payload, crc := 0, port := 0 }
  if (routeNow s p.part p.src).isNone then s
  else { s with fabric := { s.fabric with out := sealPacket r :: s.fabric.out } }

/-! ## The receiver's window (R404) -/

/-- The key of a window: 4 × source + class. -/
def windowKey (p : Packet) : Nat := 4 * p.src + p.cls

/-- The distance from a sequence number up to another, mod 2^16. -/
def seqDist (a b : Nat) : Nat := (b + 2 ^ 16 - a) % 2 ^ 16

/-- R404: BASE raised to LOWACK, where LOWACK lies above it within the window; the entries below are free. -/
def raiseBase (w : Window) (low : Nat) : Window :=
  if seqDist w.base low < 1024 then
    { base := low, ents := w.ents.filter fun e => seqDist low e.1 < 1024 }
  else w

/-- R404: the window as a packet finds it. -/
def windowFor (s : State) (p : Packet) : Window :=
  raiseBase (fgetD { base := 0, ents := [] } s.fabric.windows (windowKey p)) p.lowAck

/-- The state with a packet's window replaced. -/
def putWindow (s : State) (p : Packet) (w : Window) : State :=
  { s with fabric := { s.fabric with windows := fput s.fabric.windows (windowKey p) w } }

/-- R404: the entry of a packet recorded as applied. -/
def applied (s : State) (p : Packet) (words : List W32) : State :=
  putWindow s p { windowFor s p with ents := fput (windowFor s p).ents p.seq words }

/-- R398: FABRX. -/
def countRx (s : State) (p : Packet) : State := addMeter s p.part 11 (32 * p.len)

/-- R350: a key that is not held replaces the least-counted counter of a full port. -/
def admitKey (l : List HotCtr) (c : HotCtr) : List HotCtr :=
  let mine := l.filter fun d => d.port = c.port
  if mine.length < 1024 then l ++ [c]
  else match minBy (fun d => d.reads + d.writes) mine with
  | none => l ++ [c]
  | some v => l.filter (· ≠ v) ++ [c]

/-- R350: a remote access counted at the port by which it arrived, in counters that saturate. A request whose word mask names
no lane's word is an engine's or a unit's, and does not count (DEDUCED, log entry 63). -/
def countHot (s : State) (p : Packet) (write : Bool) : State :=
  if p.mask = 0 then s else
  let port := p.port
  let page := p.addr / pageSize
  let mine := fun (c : HotCtr) => c.port = port && c.part = p.part && c.page = page && c.src = p.src
  let l := if s.mgmt.hot.any mine then s.mgmt.hot
    else admitKey s.mgmt.hot { port := port, part := p.part, page := page, src := p.src, reads := 0, writes := 0 }
  let up := fun n => min (n + 1) (2 ^ 16 - 1)
  { s with mgmt := { s.mgmt with hot := l.map fun c => if !mine c then c
      else if write then { c with writes := up c.writes } else { c with reads := up c.reads } } }

/-- R402, R404: what a home does with a request: REJECT outside the window; otherwise `again` for one that has been
applied, with its words, or `first`. A packet that is accepted raises BASE. -/
def atHome (s : State) (p : Packet) (again : State → List W32 → State) (first : State) : State :=
  let w := windowFor s p
  if 1024 ≤ seqDist w.base p.seq then respond s p 7 [] 0
  else match fget w.ents p.seq with
  | some words => again (putWindow s p w) words
  | none => first

/-! ## Requests at the home (R402, R404) -/

/-- R412: the poison of a granule as the POIS bits of a two-flit payload. -/
def poisFlits (s : State) (a : Nat) : Nat := if s.pois.contains (granule a) then 3 else 0

/-- The RDATA of a READ: the granule's 64 bytes. -/
def sendRdata (s : State) (p : Packet) : State :=
  respond s p 4 (rdBytes s.mem (64 * granule p.addr) 64) (poisFlits s p.addr)

/-- READ (R404): performed again whatever the entry says. -/
def execRead (p : Packet) (s : State) : Out :=
  if !forHere p 1 0 then .next s
  else .next (atHome s p (fun t _ => sendRdata t p)
    (addMeter (sendRdata (countHot (applied s p []) p false) p) p.part 10 64))

/-- R401: the bytes of the granule that a WRITE writes, by the word mask and the byte mask that may follow the data (log
entry 20). -/
def writtenBytes (p : Packet) : List Nat :=
  let byteMask := if p.payload.length < 72 then 2 ^ 64 - 1 else leNat ((p.payload.drop 64).take 8)
  (List.range 64).filter fun i => bitAt p.mask (i / 4) && bitAt byteMask i

/-- R404, R412: a WRITE performed at its home. Poisoned flits poison the granule; one written whole is clear. -/
def applyWrite (s : State) (p : Packet) : State :=
  let base := 64 * granule p.addr
  let l := writtenBytes p
  let m := l.foldl (fun t i => wrByte t (base + i) (p.payload.getD i 0)) s.mem
  { s with mem := m, pois := if p.pois ≠ 0 then addPois s.pois (granule base)
                             else if l.length = 64 then delPois s.pois (granule base) else s.pois }

/-- WRITE (R404). -/
def execWrite (p : Packet) (s : State) : Out :=
  if !forHere p 2 1 then .next s
  else .next (atHome s p (fun t _ => respond t p 5 [] 0)
    (respond (countRx (countHot (applyWrite (applied s p []) p) p true) p) p 5 [] 0))

/-- R412: the granules that the poisoned flits of an EWRITE write. -/
def poisonedFlits (p : Packet) : List Nat :=
  (List.range (flits p.payload.length)).flatMap fun n =>
    if bitAt p.pois n then granulesOf (p.addr + 32 * n) (min 32 (p.payload.length - 32 * n)) else []

/-- R404, R412: an EWRITE performed: its bytes from ADDR on. -/
def applyEwrite (s : State) (p : Packet) : State :=
  { s with mem := wrBytes s.mem p.addr p.payload,
           pois := (poisonedFlits p).foldl addPois (clearCovered s.pois p.addr p.payload.length) }

/-- EWRITE (R404). -/
def execEwrite (p : Packet) (s : State) : Out :=
  if !forHere p 8 1 then .next s
  else .next (atHome s p (fun t _ => respond t p 5 [] 0) (respond (countRx (applyEwrite (applied s p []) p) p) p 5 [] 0))

/-- The words of a packet's mask, ascending. -/
def maskWords (mask : Nat) : List Nat := (List.range 16).filter fun i => bitAt mask i

/-- R151: the operands of word k of an ATOMIC, those of one lane, or, where the mask names one word, those of each of its
lanes (log entry 20). -/
def atomOperands (p : Packet) (k : Nat) : List (W32 × W32) :=
  let n := if (maskWords p.mask).length = 1 then p.payload.length / 8 else 1
  (List.range n).map fun i =>
    (n32 (leNat ((p.payload.drop (8 * (k + i))).take 4)), n32 (leNat ((p.payload.drop (8 * (k + i) + 4)).take 4)))

/-- R150, R404: the words of an ATOMIC in ascending order, with the old words. OP does not say whether MIN and MAX are
signed: `signed` does (log entry 3). -/
def atomWords (p : Packet) (signed : Bool) : List Nat → Nat → State → State × List W32
  | [], _, s => (s, [])
  | i :: r, k, s =>
    let a := 64 * granule p.addr + 4 * i
    let old := n32 (rdLe s.mem a 4)
    let new := (atomOperands p k).foldl (fun v e => atomNew p.oper (if signed then .i32 else .n32) v e.1 e.2) old
    let (t, l) := atomWords p signed r (k + 1) { s with mem := wrLe s.mem a 4 new.toNat }
    (t, old :: l)

/-- The payload of an ARESULT. -/
def resultBytes (l : List W32) : List Byte := l.flatMap fun v => leBytes 4 v.toNat

/-- R152, R404: an ATOMIC applied, with its result; on a poisoned granule nothing is written and the result is
poisoned. -/
def applyAtomic (s : State) (p : Packet) : State :=
  if s.pois.contains (granule p.addr) then respond (applied s p []) p 6 (resultBytes (List.replicate 16 0)) 3
  else
    let (t, l) := atomWords p ((Config.freeRandom s.free).getLsbD 0) (maskWords p.mask) 0 s
    respond { applied t p l with free := s.free + 1 } p 6 (resultBytes l) 0

/-- ATOMIC (R404): applied once; a replay gets the held words. -/
def execAtomic (p : Packet) (s : State) : Out :=
  if !forHere p 3 0 then .next s
  else .next (atHome s p
    (fun t l => if l.isEmpty then respond t p 6 (resultBytes (List.replicate 16 0)) 3 else respond t p 6 (resultBytes l) 0)
    (addMeter (applyAtomic (countRx (countHot s p true) p) p) p.part 10 (32 * flits (4 * (maskWords p.mask).length))))

/-! ## Responses at the source (R403) -/

/-- The packet of the bobbin that a response retires; a message of class 3 has an answer of its own (R353). -/
def answered (s : State) (p : Packet) (kinds : List Nat) : Option BEntry :=
  s.fabric.bobbin.find? fun e => e.sent && e.pkt.dst = p.src && e.pkt.seq = p.seq && kinds.contains e.pkt.kind && e.pkt.cls ≠ 3

/-- R403: a packet leaves the bobbin, and those that LOWACK held back are sent. -/
def retirePacket (s : State) (e : BEntry) : State :=
  pump { s with fabric := { s.fabric with bobbin := s.fabric.bobbin.erase e } }

/-- Lanes of a lane memory operation whose response has come, with the words that arrived. -/
def lanesBack (s : State) (o : Op) (m : LaneMem) (lanes : W32) (got : Lanes) : State :=
  finishMem (setOp s o.id (.mem { m with wire := m.wire &&& ~~~ lanes, got := got })) o.id

/-- The lane word of a remote load, from the granule that arrived. -/
def farValue (m : LaneMem) (payload : List Byte) (l : Nat) : W32 :=
  n32 ((m.accs.filter fun a => a.lane = l).foldl (fun t a =>
    t + accValue m a (leNat ((payload.drop (a.addr % 64)).take a.size))) 0)

/-- A granule that arrived for an engine operation. -/
def granuleCells (g : Nat) (payload : List Byte) (m : List Host.Cell) : List Host.Cell := wrBytes m (64 * g) payload

/-- R180, R184: a granule for the operations of a batch or a collective. -/
def engineData (s : State) (o : Op) (p : Packet) : State :=
  let g := granule p.addr
  let pois := fun l => if p.pois ≠ 0 then ninsert l g else l
  match o.body with
  | .batch l => setOp s o.id (.batch (l.map fun i =>
      { i with inGran := ninsert i.inGran g, inbox := granuleCells g p.payload i.inbox, inPois := pois i.inPois }))
  | .coll c => setOp s o.id (.coll
      { c with inGran := ninsert c.inGran g, inbox := granuleCells g p.payload c.inbox, inPois := pois c.inPois })
  | _ => s

/-- R254, R262: a granule that a load has fetched, held in the core's L1 where nothing has made it stale; otherwise a copy that
the core holds is dropped, so that no later read returns an older write. Another copy on its way is not held. -/
def holdFar (s : State) (o : Op) (w : Warp) (m : LaneMem) (p : Packet) : State :=
  let key := coreKey w
  let g := granule p.addr
  if l1May m && m.hold.contains g then
    l1FillFar (l1Unhold s key (· = g)) key (l1Owner o.warp m) m.vpage g (p.payload.take 64) (p.pois ≠ 0)
  else l1Forget s key g

/-- R412: a lane of a set reads a poisoned flit of an RDATA. -/
def readsPoison (m : LaneMem) (lanes : W32) (p : Packet) : Bool :=
  (granAccs m lanes (granule p.addr)).any fun a => bitAt p.pois (a.addr % 64 / 32)

/-- A granule that is no longer on its way for an operation. -/
def notHeld (m : LaneMem) (g : Nat) : LaneMem := { m with hold := m.hold.filter (· ≠ g) }

/-- What has become of a granule that a reader has asked for. -/
def keepGran (s : State) (e : BEntry) (data : List Byte) (pois lost : Bool) : State :=
  let g : FarGran := { warp := e.warp, gran := granule e.pkt.addr, data := data, pois := pois, lost := lost }
  { s with fabric := { s.fabric with inbox := g :: s.fabric.inbox } }

/-- RDATA (R403, R412). -/
def execRdata (p : Packet) (s : State) : Out :=
  if !forSource p 4 then .next s
  else match answered s p [1] with
  | none => .next s
  | some e =>
    let s1 := if uncounted e then retirePacket s e else countRx (retirePacket s e) p
    match e.op.bind (findOp s1) with
    | none => .next (if farRead e then keepGran s1 e (p.payload.take 64) (p.pois ≠ 0) false else s1)
    | some o =>
      match o.body, fget s1.warps o.warp with
      | .mem m, some w =>
        if readsPoison m e.lanes p then .next (poisonTrap s1 o w m)
        else .next (lanesBack (holdFar s1 o w m p) o (notHeld m (granule p.addr)) e.lanes (mkLanes fun l =>
          if e.lanes.getLsbD l then farValue m p.payload l else lane m.got l))
      | _, _ => .next (engineData s1 o p)

/-- R153: a granule of a poisoning operation has been poisoned; one that a rewind left behind ends with its last. -/
def poisBack (s : State) (o : Op) (va n : Nat) (todo wire : List Nat) : State :=
  if disowned o && todo.isEmpty && wire.isEmpty then dropOp s o.id
  else advancePois (setOp s o.id (.pois va n todo wire)) o.id

/-- R254, R262: the lines of a granule that a store or atomic of a warp has written at its home on another module are dropped
from its core. -/
def forgetFar (s : State) (o : Op) (p : Packet) : State :=
  (fget s.warps o.warp).elim s fun w => l1Forget s (coreKey w) (granule p.addr)

/-- ACK (R403): a write retires; the lanes of its store are performed. -/
def execAck (p : Packet) (s : State) : Out :=
  if !forSource p 5 then .next s
  else match answered s p [2, 8] with
  | none => .next s
  | some e =>
    let s1 := retirePacket s e
    match e.op.bind (findOp s1) with
    | none => .next s1
    | some o =>
      match o.body with
      | .mem m => .next (lanesBack (forgetFar s1 o e.pkt) o m e.lanes m.got)
      | .pois va n todo wire => .next (poisBack s1 o va n todo (wire.erase (granule e.pkt.addr)))
      | _ => .next s1

/-- R151: the old word of a lane of an atomic: the word of the ARESULT, as the lower lanes of the packet that name it left
it. -/
def resultWord (m : LaneMem) (e : BEntry) (p : Packet) (l : Nat) : W32 :=
  match m.accs.find? fun a => a.lane = l with
  | none => 0
  | some a =>
    let k := ((maskWords e.pkt.mask).filter (· < a.addr % 64 / 4)).length
    (m.accs.filter fun b => b.lane < l && b.addr = a.addr && e.lanes.getLsbD b.lane).foldl
      (fun v b => atomNew e.pkt.oper m.fmt v b.data b.data2) (n32 (leNat ((p.payload.drop (4 * k)).take 4)))

/-- ARESULT (R403). -/
def execAresult (p : Packet) (s : State) : Out :=
  if !forSource p 6 then .next s
  else match answered s p [3] with
  | none => .next s
  | some e =>
    let s1 := countRx (retirePacket s e) p
    match e.op.bind (findOp s1) with
    | none => .next s1
    | some o =>
      match o.body, fget s1.warps o.warp with
      | .mem m, some w =>
        if p.pois ≠ 0 then .next (poisonTrap s1 o w m)
        else .next (lanesBack (forgetFar s1 o e.pkt) o m e.lanes (mkLanes fun l =>
          if e.lanes.getLsbD l then resultWord m e p l else lane m.got l))
      | _, _ => .next s1

/-- The state with the entries of the bobbin changed. -/
def modBobbin (s : State) (f : BEntry → BEntry) : State :=
  { s with fabric := { s.fabric with bobbin := s.fabric.bobbin.map f } }

/-- REJECT (R402): the packet is to be sent again on the same route. -/
def execReject (p : Packet) (s : State) : Out :=
  if !forSource p 7 then .next s
  else .next (modBobbin s fun e =>
    if e.sent && e.pkt.dst = p.src && e.pkt.seq = p.seq && e.pkt.addr = p.addr then { e with rejected := true } else e)

/-- R396, R402: the route by which a rejected packet is sent again: the same one, while it is usable. -/
def resendRoute (s : State) (e : BEntry) : Option Nat :=
  if usable s e.pkt.part e.pkt.dst e.route then some e.route else routeNow s e.pkt.part e.pkt.dst

/-- REJECT_RESEND (R402): entry `entry` of the bobbin. -/
def execRejectResend (entry : Nat) (s : State) : Out :=
  match s.fabric.bobbin[entry]? with
  | none => .next s
  | some e =>
    match resendRoute s e with
    | none => .next s
    | some k =>
      if !e.rejected then .next s
      else .next (emit (modBobbin s fun d => if d = e then { d with rejected := false, route := k } else d) e.pkt)

/-- R402: a receiver whose home queue is full returns REJECT for a request; how full the queue is comes from outside
(DEDUCED, log entry 113). -/
def homeFull (s : State) (p : Packet) : State :=
  let request := (p.cls = 0 && (p.kind = 1 || p.kind = 3)) || (p.cls = 1 && (p.kind = 2 || p.kind = 8))
  if request && forHere p p.kind p.cls then respond s p 7 [] 0 else s

/-! ## The loss of every route (R408) -/

/-- R226, R408: the launch whose completion record a packet carries. -/
def recordLaunch (s : State) (p : Packet) : Option (Nat × Launch) :=
  s.launches.find? fun e => e.2.fn = p.fn && e.2.recWritten && e.2.id.toNat = leNat (p.payload.take 8)

/-- R344, R408: the record of a fault-queue entry that was lost waits again. -/
def requeue (s : State) (p : Packet) : State :=
  let n := leNat (p.payload.take 8)
  match (fget s.funcs p.fn).bind fun f => (f.fqOut.find? fun e => e.1 = n).map fun e => (f, e.2) with
  | none => s
  | some (f, r) =>
    let s1 := modFunc s p.fn fun g => { g with fqOut := g.fqOut.filter fun e => e.1 ≠ n, fqWait := r :: g.fqWait,
                                               fqNext := min g.fqNext n }
    fqError s1 p.fn (fqVa f (recOffset n)) 0x110 false 0

/-- R408: what the issuer of a dropped packet receives; an issuer that a purge has stopped receives nothing (R415). A unit
that waits for a read finds it lost when it looks for what has come (R190); a walker reads again. -/
def lostPacket (s : State) (e : BEntry) : State :=
  match e.op with
  | some id =>
    match findOp s id with
    | none => s
    | some o =>
      let lane := match o.body with
        | .mem _ | .pois .. => true
        | _ => false
      fabricLoss (dropBatch s o) e.warp e.path e.pkt.fn e.pkt.tag (if lane then 0x110 else 0x111)
  | none =>
    if e.lanes = 1 then requeue s e.pkt
    else if farRead e then (if e.warp = walkReader then s else keepGran s e [] false true)
    else if e.lanes = 4 then (if (fget s.warps e.warp).isSome then fabricLoss s e.warp e.path e.pkt.fn e.pkt.tag 0x110 else s)
    else if e.lanes ≠ 0 then s
    else match recordLaunch s e.pkt with
    | none => s
    | some (n, l) => recordFault s n { l with recWritten := false } 0x110 { cause := 0x110, walk := false, ipa := 0 }

/-- R408: packets that have no usable route left are dropped, and their issuers told. -/
def dropRouteless (s : State) (dest : Nat) : State :=
  let lost := s.fabric.bobbin.filter fun e => e.pkt.dst = dest && (routeNow s e.pkt.part dest).isNone
  let s1 := { s with fabric := { s.fabric with bobbin := s.fabric.bobbin.filter fun e => !lost.contains e } }
  pump (lost.foldl lostPacket s1)

/-! ## Failover and return (R405 to R407) -/

/-- A route-table entry whose port is up, by its number. -/
def routeUp (s : State) (r : Route) (k : Nat) : Bool :=
  match routePort r k with
  | none => false
  | some p => !s.fabric.down.contains p

/-- R405: the highest route from k on whose port is up and that has not failed; 3 when none is. -/
def curFrom (s : State) (r : Route) (k : Nat) : Nat :=
  (([0, 1, 2].filter (k ≤ ·)).find? fun n => routeUp s r n && !r.failed.contains n).getD 3

/-- The state with the route-table entry of a destination replaced. -/
def putRoute (s : State) (dest : Nat) (r : Route) : State :=
  { s with fabric := { s.fabric with routes := fput s.fabric.routes dest r } }

/-- R406: packets to a destination on a route that has failed are sent again on the next, in the order of the bobbin. -/
def replay (s : State) (dest : Nat) (failed : Nat → Bool) : State :=
  let hit := fun (e : BEntry) => e.pkt.dst = dest && failed e.route
  let next := fun (e : BEntry) => (routeNow s e.pkt.part dest).getD 3
  let again := s.fabric.bobbin.filter fun e => hit e && e.sent
  let s1 := modBobbin s fun e => if hit e then { e with route := next e, rejected := false } else e
  dropRouteless (again.foldl (fun t e => if (routeNow s e.pkt.part dest).isSome then emit t e.pkt else t) s1) dest

/-- R406: routes of a destination fail, and CUR moves past them. -/
def failRoutes (s : State) (dest : Nat) (failed : Nat → Bool) : State :=
  let r := routeOf s dest
  let cur := if failed r.cur then curFrom s r (r.cur + 1) else r.cur
  replay (putRoute s dest { r with cur := cur }) dest failed

/-- The destinations that a module knows routes to. -/
def destinations (s : State) : List Nat := s.fabric.routes.map (·.1)

/-- LINK_DOWN (R406). -/
def execLinkDown (port : Nat) (s : State) : Out :=
  if s.fabric.down.contains port then .next s
  else
    let s1 := { s with fabric := { s.fabric with down := ninsert s.fabric.down port } }
    let s2 := (destinations s).foldl (fun t d => failRoutes t d fun k => routePort (routeOf t d) k = some port) s1
    .next (raiseVector s2 0 3)

/-- INVALID_PACKET (R400, R402, R409): dropped. A reserved KIND and a LEN above 8 are counted in the port's errors; CRC failures
are kept by their times, and the link is down after 16 of them within 1 µs. -/
def execInvalidPacket (port : Nat) (p : Packet) (s : State) : Out :=
  if packetReserved p then
    .next { s with fabric := { s.fabric with errs := fputD 0 s.fabric.errs port (fgetD 0 s.fabric.errs port + 1) } }
  else if crcMatches p then .next s
  else
    let recent := (fgetD [] s.fabric.crcs port).filter fun t => (s.mgmt.tb + 2 ^ 64 - t) % 2 ^ 64 ≤ s.mgmt.tbRate / 1000
    let l := s.mgmt.tb :: recent
    if 16 ≤ l.length then execLinkDown port { s with fabric := { s.fabric with crcs := fdel s.fabric.crcs port } }
    else .next { s with fabric := { s.fabric with crcs := fput s.fabric.crcs port l } }

/-- ACK_TIMEOUT (R406): the route of the oldest unanswered packet to a destination fails, until the entry is written again or
its link, or that of a higher route, comes back up (R407). -/
def execAckTimeout (dest : Nat) (s : State) : Out :=
  match s.fabric.bobbin.find? fun e => e.pkt.dst = dest && e.sent && !e.rejected with
  | none => .next s
  | some e =>
    let r := routeOf s dest
    .next (failRoutes (putRoute s dest { r with failed := ninsert r.failed e.route }) dest fun k => k = e.route)

/-- R407: a route-table entry when the link of a port comes back up: CUR returns to the highest usable route where the link is
that of a route above it. -/
def routeBack (s : State) (port : Nat) (r : Route) : Route :=
  match (List.range 3).find? fun k => routePort r k = some port with
  | none => r
  | some k =>
    let r1 := { r with failed := if k < r.cur then [] else r.failed.filter fun n => routePort r n ≠ some port }
    if k < r.cur then { r1 with cur := curFrom s r1 0 } else r1

/-- LINK_UP (R407). -/
def execLinkUp (port : Nat) (s : State) : Out :=
  if !s.fabric.down.contains port then .next s
  else
    let s1 := { s with fabric := { s.fabric with down := s.fabric.down.filter (· ≠ port) } }
    .next ((destinations s).foldl (fun t d => putRoute t d (routeBack t port (routeOf t d))) s1)

/-- R405: the RW fields of a route-table entry. -/
def routeEntry (v : Nat) : Route :=
  { pri := fld v 3 0, pv := bitAt v 4, alt1 := fld v 8 5, a1v := bitAt v 9, alt2 := fld v 13 10, a2v := bitAt v 14,
    cur := 0, failed := [] }

/-- ROUTE (R405 to R407): the message of a non-owner is dropped; packets on a route that the owner invalidates are sent
again. -/
def execRoute (m dest entry : Nat) (s : State) : Out :=
  if !isOwner s m then .next (dropMaster s m)
  else if 255 < dest || dest = Config.moduleNo then .next s
  else
    let old := routeOf s dest
    let r := routeEntry entry
    let s1 := putRoute s dest { r with cur := curFrom s r 0 }
    .next (replay s1 dest fun k => (routePort old k).isSome && routePort r k ≠ routePort old k)

end Sys2Proof.Machine
end

