-- ==== Sys2Proof/Machine/Fetch.lean ====
section
/-! DEFINITION. Fetching: S-stream words (R340, R341), clauses (R78), the start of a clause (R29), and the words that
are no instruction (R80, R81). -/

namespace Sys2Proof.Machine

/-! ## Words that are no instruction -/

/-- R81, R83: an S-stream word raises its class-0 cause and has no other effect. -/
def execMalformedEncoding (detail : Nat) (s : State) : Out := onPath s fun _ _ => trapS s (detail % 16)

/-- The context of the word that the acting clause issues, with the captured k0 as its lanes. -/
def wordCtx (s : State) (w : Warp) (p : Path) : LCtx :=
  match headClause p with
  | some c => { uid := s.cur.warp, pf := s.cur.path, w := w, clause := some c, k := c.k, x := c.x, priv := c.priv,
                act := fgetD 0 c.k 0 }
  | none => { uid := s.cur.warp, pf := s.cur.path, w := w, clause := none, k := p.k, x := p.x, priv := p.priv,
              act := p.k0 }

/-- R81 to R83: a lane word raises its class-0 cause. Its mask field names act. -/
def laneWordFault (s : State) (detail k : Nat) : Out :=
  onPath s fun w p =>
    let c := wordCtx s w p
    trapL s c (detail % 16) (actOf c.k k) 0

/-- R80, R82: an unassigned lane opcode raises 0.4; opcode 0x3FF in a body raises 0.7 (R78). Such a word has no mask field
that the spec gives a meaning, so LMASK is the k0 that the clause captured (DEDUCED, log entry 34). -/
def execLaneOpcodeUnassigned (opcode : Nat) (s : State) : Out :=
  laneWordFault s (if opcode = 0x3FF then 7 else 4) 0

/-! ## Fetching words -/

/-- The physical addresses of the 32-bit words at ascending addresses, each translated as a fetch, or the first access that
fails. -/
def fetchAddrs (s : State) (q : XReq) (va n : Nat) : Except (Nat × XRes) (List Nat) :=
  xlateAll s q ((List.range n).map fun i => (n64 (va + 4 * i)).toNat)

/-- The 32-bit words of bytes. -/
def wordsOf (b : List Byte) : List Nat := (List.range (b.length / 4)).map fun i => leNat ((b.drop (4 * i)).take 4)

/-- The words at physical addresses as a warp fetches them, here or on another module (R401); a lost route is 17.0 (R408). -/
def withWords (s : State) (w : Warp) (l : List Nat) (k : State → List Nat → Out) : Out :=
  match farPieces s w.fn w.reqtag (Reader.of s.cur.warp s.cur.path) (l.map fun a => (a, 4)) with
  | .ok t b _ => k t (wordsOf b)
  | .wait t => stall t
  | .lost t => .next (fabricLoss t s.cur.warp s.cur.path w.fn w.reqtag 0x110)

/-- A fetch request of a warp. -/
def fetchReq (s : State) (w : Warp) (priv : BitVec 2) : XReq := warpReq s w (priv == 0) .fetch none

/-- R340, R341: the fetch of an S-stream word faults. The cause is the one that the walk meets; where it meets
another, or none, nothing happens. -/
def execInstructionFetchFault (cause : Nat) (s : State) : Out :=
  onPath s fun w p =>
    match translate s (fetchReq s w p.priv) p.pc.toNat with
    | .fault f =>
      if f.cause = cause then .next (raiseX s s.cur.warp s.cur.path { sTrap p f.cause with va := p.pc } f) else .next s
    | .migrate leaf => .next (migrate s s.cur.warp w false p.pc leaf p.pc.toNat)
    | _ => .next s

/-! ## Clauses -/

/-- A 96-bit word from its 32-bit words. -/
def joinWord (l : List Nat) : Nat := l.getD 0 0 + l.getD 1 0 * 2 ^ 32 + l.getD 2 0 * 2 ^ 64

/-- The 96-bit words of a list of 32-bit words. -/
def joinWords (n : Nat) (l : List Nat) : List Nat := (List.range n).map fun i => joinWord (l.drop (3 * i))

/-- What a failed fetch of clause words does: the trap names the clause and the header. -/
def clauseFetchStop (s : State) (c : LCtx) (e : Nat × XRes) : Out :=
  match e.2 with
  | .fault f => .next (raiseX s c.uid c.pf (laneTrap c f.cause c.act (n64 e.1) false) f)
  | .migrate leaf => .next (migrate s s.cur.warp c.w false (c.w.path c.pf).pc leaf e.1)
  | _ => stall s

/-- CLAUSE_FETCH (R78): the header and its words are fetched once the clause is at the head of the queue. -/
def execClauseFetch (s : State) : Out :=
  onPath s fun w p =>
    match headClause p with
    | none => .next s
    | some k =>
      if k.hdr.isSome then .next s
      else
        let c := wordCtx s w p
        let q := fetchReq s w k.priv
        match fetchAddrs s q k.addr.toNat 3 with
        | .error e => clauseFetchStop s c e
        | .ok l => withWords s w l fun _ top =>
          let h := hdrFields (joinWord top)
          match hdrFault h with
          | some d => trapL s c d c.act 0
          | none =>
            match fetchAddrs s q (k.addr.toNat + 12) (3 * (h.count + 1)) with
            | .error e => clauseFetchStop s c e
            | .ok m => withWords s w (l ++ m) fun t all =>
              let k1 := { k with hdr := some { wait := h.wait, setA := h.setA, setB := h.setB, count := h.count },
                                 body := joinWords (h.count + 1) (all.drop 3), idx := 1 }
              .next (putWarp t s.cur.warp (w.setPath s.cur.path (setClause p k1)))

/-- CLAUSE_START (R29): the clause starts once every flag of its wait mask is 0. -/
def execClauseStart (s : State) : Out :=
  onPath s fun w p =>
    match headClause p with
    | none => .next s
    | some k =>
      match k.hdr with
      | none => .next s
      | some h =>
        if !k.started && (List.range 12).all fun f => !bitAt h.wait f || !flagPending s s.cur.warp s.cur.path f
        then .next (putWarp s s.cur.warp (w.setPath s.cur.path (setClause p { k with started := true })))
        else .next s

end Sys2Proof.Machine
end

