-- ==== Sys2Proof/Machine/HostIf.lean ====
section
/-! DEFINITION. The host interface (R320 to R335): SETXD, the management registers, owner election, guest time, clearing
VFs, and the starts (R327, R328), with the loss of power (R369). -/

namespace Sys2Proof.Machine

/-- SETXD (R335): the PF driver writes any descriptor; a VF its own S1ROOT and ASID. -/
def execSetxd (requester target : Nat) (d : XlateDesc) (s : State) : Out :=
  if requester = 0 then
    .next (modFunc s target fun f => { f with xd :=
      { s1root := d.s1root, asid := d.asid % 2 ^ 16, vmid := d.vmid % 2 ^ 16, s2root := d.s2root } })
  else if requester = target then
    .next (modFunc s target fun f => { f with xd := { f.xd with s1root := d.s1root, asid := d.asid % 2 ^ 16 } })
  else .next s

/-! ## Owner election (R323 to R326) -/

/-- A command of a master: CMD reads the command and LAST its result. -/
def ownerCmd (s : State) (m cmd : Nat) (f : Own → Own × Nat) : Out :=
  if m = 0 || 3 < m then .next s
  else
    let (o, last) := f s.mgmt.own
    let x := fgetD Master.reset o.masters m
    .next { s with mgmt := { s.mgmt with own := { o with
      masters := fput o.masters m { x with cmd := cmd % 16, last := last } } } }

/-- OWNER_CLAIM (R324). R324 has no row for a CLAIM by the present owner: LAST is 0 and nothing changes (DESIGN CHOICE, log entry
65). -/
def execOwnerClaim (m : Nat) (s : State) : Out :=
  ownerCmd s m 1 fun o =>
    if o.owner = 0 then ({ o with owner := m, offer := none }, 0) else (o, if o.owner = m then 0 else 1)

/-- OWNER_RELEASE (R324). -/
def execOwnerRelease (m : Nat) (s : State) : Out :=
  ownerCmd s m 2 fun o => if o.owner = m then ({ o with owner := 0, offer := none }, 0) else (o, 2)

/-- OWNER_OFFER (R324): the owner's command writes TARGET with it (R323). -/
def execOwnerOffer (m target : Nat) (s : State) : Out :=
  ownerCmd s m 3 fun o =>
    let o1 := { o with target := target % 4 }
    if o.owner ≠ m then (o, 2)
    else if o.offer.isSome then (o1, 1)
    else if target = 0 || 3 < target || target = m then (o1, 3)
    else ({ o1 with offer := some target }, 0)

/-- OWNER_ACCEPT (R324). -/
def execOwnerAccept (m : Nat) (s : State) : Out :=
  ownerCmd s m 4 fun o =>
    match o.offer with
    | none => (o, if o.owner = m then 3 else 2)
    | some n => if n = m then ({ o with owner := m, offer := none }, 0) else (o, 1)

/-- OWNER_WITHDRAW (R324). -/
def execOwnerWithdraw (m : Nat) (s : State) : Out :=
  ownerCmd s m 5 fun o =>
    if o.owner ≠ m then (o, 2) else if o.offer.isSome then ({ o with offer := none }, 0) else (o, 3)

/-- OWNER_BEAT (R325). -/
def execOwnerBeat (m : Nat) (s : State) : Out := ownerCmd s m 6 fun o => (o, if o.owner = m then 0 else 2)

/-- OWNER_INVALID_CMD (R326). -/
def execOwnerInvalidCmd (m cmd : Nat) (s : State) : Out :=
  if 1 ≤ cmd % 16 && cmd % 16 ≤ 6 then .next s else ownerCmd s m cmd fun o => (o, 3)

/-- OWNER_LAPSE (R324, R325): no command from the owner for 1 s. -/
def execOwnerLapse (s : State) : Out :=
  if s.mgmt.own.owner = 0 then .next s
  else .next (raiseVector { s with mgmt := { s.mgmt with own := { s.mgmt.own with owner := 0, offer := none } } } 0 3)

/-- OFFER_TIMEOUT (R324). -/
def execOfferTimeout (s : State) : Out :=
  .next { s with mgmt := { s.mgmt with own := { s.mgmt.own with offer := none } } }

/-- R326: a write of OWNCTL: TARGET is the owner's to write (R323), and CMD is the command. -/
def writeOwnctl (m v : Nat) (s : State) : Out :=
  let s1 := if isOwner s m then { s with mgmt := { s.mgmt with own := { s.mgmt.own with target := fld v 3 2 } } } else s
  match fld v 7 4 with
  | 1 => execOwnerClaim m s1
  | 2 => execOwnerRelease m s1
  | 3 => execOwnerOffer m (fld v 3 2) s1
  | 4 => execOwnerAccept m s1
  | 5 => execOwnerWithdraw m s1
  | 6 => execOwnerBeat m s1
  | c => execOwnerInvalidCmd m c s1

/-! ## Guest time (R332 to R334) -/

/-- R332: guest time by an offset and a multiplier, before it is taken modulo 2^64; GTOFF is signed. -/
def exactTime (off mul : W64) (tb : Nat) : Int := off.toInt + ((tb * mul.toNat / 2 ^ 32 : Nat) : Int)

/-- R334: GTOFF and GTMUL taken over, or GTERR where guest time would go backwards. -/
def applyTime (s : State) (fn : Nat) : State :=
  match fget s.funcs fn with
  | none => s
  | some f =>
    if exactTime f.newOff f.newMul s.mgmt.tb < (f.gtLast.toNat : Int) then modFunc s 0 fun p => { p with gterr := true }
    else
      modFunc s fn fun f => { f with gtOff := f.newOff, gtMul := f.newMul, gtFrozen := timeBy f.newOff f.newMul s.mgmt.tb }

/-- R333: STOP written on a function. -/
def stopClock (s : State) (f : Func) (stop : Bool) : Func :=
  if stop = f.gtStop then f
  else if stop then { f with gtFrozen := guestTime s f, gtStop := true }
  else if f.gtMode then
    let off := f.gtFrozen - timeBy 0 f.gtMul s.mgmt.tb
    { f with gtOff := off, newOff := off, gtStop := false }
  else { f with gtStop := false }

/-- R332, R333: a write of GTCTL.MODE. Guest time is continuous where the mode changes while STOP = 1. -/
def writeMode (s : State) (f : Func) (mode : Bool) : Func :=
  if mode = f.gtMode then f else { f with gtFrozen := guestTime s f, gtMode := mode }

/-- GTCTL_APPLY (R334), by a master (R323). -/
def execGtctlApply (fn : Nat) (s : State) : Out := .next (ownerReq s (masterOf fn) (applyTime s (funcOf fn)))

/-- GTCTL_STOP (R333), by a master (R323). -/
def execGtctlStop (fn : Nat) (stop : Bool) (s : State) : Out :=
  .next (ownerReq s (masterOf fn) (modFunc s (funcOf fn) fun f => stopClock s f stop))

/-- R332: a write of GTCTL: MODE, then APPLY, then STOP (DESIGN CHOICE, log entry 96). -/
def writeGtctl (s : State) (fn v : Nat) : State :=
  let s1 := modFunc s fn fun f => writeMode s f (bitAt v 0)
  let s2 := if bitAt v 2 then applyTime s1 fn else s1
  modFunc s2 fn fun f => stopClock s2 f (bitAt v 1)

/-- R332 to R334: a write of one of the guest-time registers of a function. -/
def writeGt (s : State) (fn reg v : Nat) : State :=
  match reg with
  | 0 => modFunc s fn fun f => { f with newOff := n64 v }
  | 8 => modFunc s fn fun f => { f with newMul := n64 v }
  | 16 => writeGtctl s fn v
  | 24 => modFunc s fn fun f => if f.gtStop && f.gtLast.toNat ≤ v % 2 ^ 64 then { f with gtLast := n64 v } else f
  | _ => s

/-! ## Registers (R10, R321, R332) -/

/-- R321: a write of LQCTL. A LOG2N of 13 to 15 is ignored whole; LOG2N does not change while EN = 1. -/
def writeLqctl (f : Func) (v : Nat) : Func :=
  if 12 < fld v 11 8 then f
  else { f with lqEn := bitAt v 0, lqLog2 := if f.lqEn then f.lqLog2 else fld v 11 8 }

/-- R321: a write of FSTAT: its W1C fields. -/
def writeFstat (f : Func) (isPF : Bool) (v : Nat) : Func :=
  { f with qerr := f.qerr && !bitAt v 1, gterr := f.gterr && !(isPF && bitAt v 4), fqerr := f.fqerr && !bitAt v 7 }

/-- R320, R329: VF Enable written to 1: functions 1 to 63 are enabled, those that are being cleared too. -/
def enableVfs (s : State) : State :=
  let on := (List.range 63).foldl (fun t i =>
    let f := (fget t (i + 1)).getD (Func.reset false)
    fput t (i + 1) { f with enabled := true, ready := true }) s.funcs
  { s with funcs := on, mgmt := { s.mgmt with vfEnable := true } }

/-- The model's number of the VF Enable register, past the management space of the PF (log entry 24). -/
def vfEnableOffset : Nat := 2 ^ 16

/-- R321: a write of one of the registers that every function has. -/
def writeFuncReg (s : State) (fn offset v : Nat) : State :=
  match offset with
  | 0x0000 => modFunc s fn fun f => writeFstat f (fn = 0) v
  | 0x0008 => modFunc s fn fun f => { f with hvec := n64 (v / 512 * 512) }
  | 0x0010 => modFunc s fn fun f => if f.lqEn then f else { f with lqbase := n64 (v / 64 * 64) }
  | 0x0018 => modFunc s fn fun f => writeLqctl f v
  | _ => s

/-- R321: a write of the management space of the PF that takes effect. -/
def writePfReg (s : State) (offset v : Nat) : State :=
  if 0x1000 ≤ offset && offset < 0x1800 then writeGt s ((offset - 0x1000) / 32) (offset % 32) v
  else writeFuncReg s 0 offset v

/-- R323: a write of a management register by a master, or by a function's own driver (m = 0). -/
def writeReg (m fn offset v : Nat) (s : State) : Out :=
  if m = 0 then .next (if fn = 0 then s else writeFuncReg s fn offset v)
  else if fn = 0 && offset = 0x0100 then writeOwnctl m v s
  else .next (ownerReq s m (if fn = 0 then writePfReg s offset v else writeFuncReg s fn offset v))

/-- REGISTER_WRITE (R10, R321, R323): a write of a management register that has no row of its own in the table. A VF's own
driver writes the VF's BAR0, which drops writes while the VF is cleared (R329); every other write is a master's
(DEDUCED, log entry 93). -/
def execRegisterWrite (fn offset value : Nat) (s : State) : Out :=
  let v := value % 2 ^ 64
  match fget s.funcs (funcOf fn) with
  | none => .next s
  | some f =>
    if funcOf fn = 0 && offset = vfEnableOffset then
      .next (if v % 2 = 1 && !s.mgmt.vfEnable then enableVfs s else s)
    else if !barOpen f then .next s
    else writeReg (masterOf fn) (funcOf fn) offset v s

/-! ## Reads of the management space (R10, R321) -/

/-- FSTAT (R321). -/
def fstat (f : Func) (isPF : Bool) : Nat :=
  b2n f.ready + 2 * b2n f.qerr + 4 * (f.qcause % 4) + 16 * b2n (isPF && f.gterr) + 32 * b2n f.clr + 64 * b2n f.seqx +
    128 * b2n f.fqerr

/-- LQCTL (R321). -/
def lqctl (f : Func) : Nat := b2n f.lqEn + 256 * f.lqLog2

/-- OWNCTL as a master reads it (R326). -/
def ownctl (s : State) (m : Nat) : Nat :=
  let x := fgetD Master.reset s.mgmt.own.masters m
  s.mgmt.own.owner % 4 + 4 * (s.mgmt.own.target % 4) + 16 * (x.cmd % 16) + 256 * (x.last % 4)

/-- VFCLR (R330). -/
def vfclr (s : State) : Nat := b2n s.mgmt.zpend + (s.mgmt.vfBusy.map fun v => 2 ^ v).foldl (· + ·) 0

/-- R332: the guest-time registers of a function. GTOFF and GTMUL read the values in force, not those held until APPLY
(DESIGN CHOICE, log entry 96). -/
def readGt (s : State) (fn reg : Nat) : W64 :=
  match fget s.funcs fn, reg with
  | some f, 0 => f.gtOff
  | some f, 8 => f.gtMul
  | some f, 16 => n64 (b2n f.gtMode + 2 * b2n f.gtStop)
  | some f, 24 => f.gtLast
  | _, _ => 0

/-- R321: the register at an offset of a function's management space; what the table does not list reads as zero. -/
def readReg (s : State) (m fn offset : Nat) (f : Func) : W64 :=
  match offset with
  | 0x0000 => n64 (fstat f (fn = 0))
  | 0x0008 => f.hvec
  | 0x0010 => f.lqbase
  | 0x0018 => n64 (lqctl f)
  | 0x0020 => n64 f.lqHead
  | 0x0028 => n64 f.lqTail
  | _ =>
    if fn ≠ 0 then 0
    else if offset = 0x0100 then n64 (ownctl s m)
    else if offset = 0x0108 then n64 (vfclr s)
    else if offset = 0x0110 then n64 (s.mgmt.tbRate % 2 ^ 32)
    else if 0x1000 ≤ offset && offset < 0x1800 then readGt s ((offset - 0x1000) / 32) (offset % 32)
    else 0

/-- A read of a management register by a master, or by a VF's driver (m = 0): a BAR0 that is cleared returns all ones
(R329), and so does one that is not enabled. -/
def hostRead (s : State) (m fn offset : Nat) : State :=
  let v := match fget s.funcs fn with
    | some f =>
      if m = 0 && (!f.enabled || f.clr || s.mgmt.vfBusy.contains fn) then BitVec.allOnes 64 else readReg s m fn offset f
    | none => BitVec.allOnes 64
  { s with mgmt := { s.mgmt with rdata := v } }

/-! ## Clearing VFs (R329, R330) -/

/-- The physical pages of the device that the leaves under a root name. -/
def rootPages (s : State) (root : Nat) : List Nat :=
  (leavesOf s root).flatMap fun a =>
    let l := readLeaf s a
    (if l.hs = 2 && l.kind ≤ 1 then [homePage l.kind l.home] else []) ++
      (if l.rv && l.kind ≤ 1 then [homePage l.kind l.rhome] else [])

/-- The descriptors of a function's open launches. -/
def workDescs (s : State) (fn : Nat) : List XlateDesc :=
  (s.launches.filter fun e => e.2.fn = fn && launchOpen e.2).map (·.2.xd)

/-- The descriptors of a function: its own, and those of its open launches. -/
def ownDescs (s : State) (fn : Nat) : List XlateDesc := ((fget s.funcs fn).elim [] fun f => [f.xd]) ++ workDescs s fn

/-- The physical pages that hold what some descriptors of a function map: the homes that its entries name, the device homes
kept for pages that the host owns (R353), and the copies of them that stand (R249) or that firmware makes. -/
def heldPages (s : State) (fn : Nat) (ds : List XlateDesc) : List Nat :=
  let leaves := ds.flatMap fun d => if fn = 0 then leavesOf s d.s1root else guestLeaves s d ++ leavesOf s d.s2root
  let homes := (ds.flatMap fun d => rootPages s (homeRoot fn d)) ++
    (s.mgmt.kept.filter fun e => leaves.contains e.1).map (·.2)
  homes ++ (s.mgmt.dups.filter fun d => homes.contains d.1).map (·.2) ++ (s.mgmt.copies.filter fun j => j.fn = fn).map (·.dst)

/-- The pages of this module among some that no table of another function names. -/
def soleOwned (s : State) (fn : Nat) (l : List Nat) : List Nat :=
  let theirs := (((s.funcs.filter fun e => e.1 ≠ fn).map fun e => homeRoot e.1 e.2.xd) ++
    (s.launches.filter fun e => e.2.fn ≠ fn && launchOpen e.2).map fun e => homeRoot e.2.fn e.2.xd).flatMap (rootPages s)
  (dedup l).filter fun p => isLocal p && !theirs.contains p

/-- R329: the pages of a function. -/
def ownPages (s : State) (fn : Nat) : List Nat := soleOwned s fn (heldPages s fn (ownDescs s fn))

/-- R414: the tags of a function's open launches. -/
def openTags (s : State) (fn : Nat) : List Nat :=
  dedup ((s.launches.filter fun e => e.2.fn = fn && launchOpen e.2).map fun e => e.2.lrec.tag)

/-- R328, R414: the record by which the PF learns of a purge. -/
def purgeRecord (fn tag cause : Nat) : FRec :=
  { cause := cause, orig := 0, flags := 0, code := 0, va := 0, addr := 0, slot := 0, core := 0, die := 0, tag := tag,
    fn := fn, pc := 0, data := 0, subj := .none }

/-- R329, steps 2 to 4: a function's work is gone, and no completion record is written. -/
def dropWork (s : State) (fn cause : Nat) : State :=
  let tags := openTags s fn
  let s1 := purgeLaunches s (fun l => l.fn = fn) cause false
  let s2 := { s1 with
    launches := ffilter s1.launches fun _ l => l.fn ≠ fn,
    fabric := { s1.fabric with bobbin := s1.fabric.bobbin.filter fun e => e.pkt.fn ≠ fn || (e.sent && !e.rejected) },
    cores := { s1.cores with sups := fmap s1.cores.sups fun _ u => { u with queue := u.queue.filter fun r => r.fn ≠ fn } } }
  let s3 := s2.cores.sups.foldl (fun t e =>
    if e.2.cur.any fun r => r.fn = fn then
      match t.warps.find? fun w => w.2.kind = .supervisor && coreKey w.2 = e.1 with
      | some (u, _) => supIdle t e.1 u
      | none => t
    else t) s2
  tags.foldl (fun t g => pushRec t 0 (purgeRecord fn g cause)) s3

/-- R329, R322: the registers of a function at its reset; the partition, the time registers and the descriptor that the
PF wrote stay, and so do its handles until step 6. -/
def resetFunc (f : Func) : Func :=
  { Func.reset false with
    enabled := f.enabled, ready := f.ready, clr := f.clr, xd := f.xd, gtOff := f.gtOff, gtMul := f.gtMul,
    newOff := f.newOff, newMul := f.newMul, gtMode := f.gtMode, gtStop := f.gtStop, gtFrozen := f.gtFrozen,
    gtLast := f.gtLast, part := f.part, grants := f.grants, oldHandles := f.oldHandles }

/-- R328: the pages of a function's work: those that its open launches map. -/
def workPages (s : State) (fn : Nat) : List Nat := soleOwned s fn (heldPages s fn (workDescs s fn))

/-- R329: pages of a function go to the PF's pool, marked unzeroed; nothing is kept or copied there any longer. -/
def freePages (s : State) (l : List Nat) : State :=
  if l.isEmpty then s
  else { s with mgmt := { s.mgmt with
    freed := s.mgmt.freed ++ l.filter fun p => !s.mgmt.freed.contains p, zpend := true,
    kept := s.mgmt.kept.filter fun e => !l.contains e.2, dups := s.mgmt.dups.filter fun d => !l.contains d.1 && !l.contains d.2 } }

/-- R329: the requests of a function that firmware works on are dropped. -/
def dropJobs (s : State) (fn : Nat) : State :=
  { s with mgmt := { s.mgmt with evicts := s.mgmt.evicts.filter fun j => j.fn ≠ fn, moves := s.mgmt.moves.filter fun j => j.fn ≠ fn,
                                 copies := s.mgmt.copies.filter fun j => j.fn ≠ fn } }

/-- R329, steps 1 to 5 for one VF. -/
def startClear (s : State) (fn : Nat) : State :=
  if (fget s.funcs fn).isNone || s.mgmt.vfBusy.contains fn then s
  else
    let pages := ownPages s fn
    let s1 := freePages (dropJobs (dropWork s fn 0x150) fn) pages
    let s2 := modFunc s1 fn fun f => { resetFunc f with clr := true }
    { s2 with mgmt := { s2.mgmt with vfBusy := ninsert s2.mgmt.vfBusy fn } }

/-- VF_ENABLE_CLEAR (R329): every enabled VF is cleared. -/
def execVfEnableClear (s : State) : Out :=
  if !s.mgmt.vfEnable then .next s
  else
    let vs := (s.funcs.filter fun e => e.1 ≠ 0 && e.2.enabled).map (·.1)
    let s1 := vs.foldl startClear { s with mgmt := { s.mgmt with vfEnable := false } }
    .next (vs.foldl (fun t v => modFunc t v fun f => { f with enabled := false, ready := false }) s1)

/-- R329: every grant of a function ends. -/
def dropGrants (s : State) (fn : Nat) : State :=
  ((fget s.funcs fn).elim [] (·.grants)).foldl (fun t g => dropGrant t g.2 fn) s

/-- R320, R322: the FLR of the PF: its work, grants and launch queue go as a VF's do; the pages that its own descriptor maps, its
fault queue and what it manages for the module stay (DESIGN CHOICE, log entry 94). -/
def resetPf (s : State) : State :=
  let stay := (fget s.funcs 0).elim [] fun f => heldPages s 0 [f.xd]
  let s1 := dropGrants (freePages (dropWork s 0 0x150) ((workPages s 0).filter fun p => !stay.contains p)) 0
  modFunc s1 0 fun f => { resetFunc f with
    gtMode := f.gtMode, fqNext := f.fqNext, fqWait := f.fqWait, fqOut := f.fqOut, wdlim := f.wdlim, vectors := f.vectors }

/-- FLR (R329, R320). -/
def execFlr (fn : Nat) (s : State) : Out :=
  if !((fget s.funcs fn).any (·.enabled)) then .next s
  else if fn = 0 then .next (resetPf s)
  else .next (startClear s fn)

/-- VF_CLEAR_COMPLETE (R329, R330): step 6; vector 3 when BUSY falls to 0. -/
def execVfClearComplete (fn : Nat) (s : State) : Out :=
  if !s.mgmt.vfBusy.contains fn then .next s
  else
    let left := s.mgmt.vfBusy.filter (· ≠ fn)
    let s1 := modFunc (dropGrants s fn) fn fun f => { f with clr := false }
    let s2 := { s1 with mgmt := { s1.mgmt with vfBusy := left } }
    .next (if left.isEmpty then raiseVector s2 0 3 else s2)

/-- FREED_PAGE_ZEROED (R329 to R331): no translation and no L1 line of the pages stands either. -/
def execFreedPageZeroed (s : State) : Out :=
  let clean := fun (t : State) (p : Nat) =>
    { t with mem := zeroRange t.mem p pageSize, pois := t.pois.filter fun g => !(granule p ≤ g && g < granule (p + pageSize)) }
  let s1 := s.mgmt.freed.foldl (fun t p => dropPage (clean t p) p) s
  .next { s1 with mgmt := { s1.mgmt with freed := [], zpend := false } }

/-! ## Starts (R327, R328) -/

/-- R405: CUR at the lowest valid route. -/
def lowestRoute (r : Route) : Route :=
  { r with cur := if r.pv then 0 else if r.a1v then 1 else if r.a2v then 2 else 3, failed := [] }

/-- R328, R379, R383, R384: a cluster after a warm start: no image, the count kept; one whose image has failed its check stays in
RESET until the next cold start. -/
def warmCluster (x : Cluster) : Cluster :=
  { Cluster.reset with seqReg := x.seqReg, repair := x.repair, trims := x.trims, failed := x.failed,
                       st := if x.failed then .reset else .run }

/-- R11, R328: a function after a warm start: every register takes its cold-start value. The descriptor (R335), the
partition (R388) and the place in the fault queue are no registers of R321 and stay (DEDUCED, log entry 95). -/
def warmFunc (n : Nat) (f : Func) : Func :=
  { Func.reset (n == 0) with
    xd := f.xd, part := f.part, wdlim := f.wdlim, fqNext := f.fqNext, fqOut := f.fqOut, vectors := f.vectors }

/-- R327, R328: what a start drops with every function's work. -/
def emptyCores (c : Cores) : Cores :=
  { l1 := [], tlb := [], replay := [], engines := [], sups := fmap c.sups fun _ u => { u with queue := [], cur := none } }

/-- R324, R326, R11: OWNER is kept, and the other fields of OWNCTL take their cold-start values. -/
def warmOwn (o : Own) : Own := { owner := o.owner, offer := none, target := 0, masters := [] }

/-- R414: what a start drops from the bobbin. -/
def startBobbin (l : List BEntry) : List BEntry := l.filter fun e => e.sent && !e.rejected

/-- WARM_START (R327, R328, R371, R379, R405). -/
def execWarmStart (s : State) : Out :=
  let keys := s.funcs.flatMap fun e => (openTags s e.1).map fun t => (e.1, t)
  let pages := (s.funcs.flatMap fun e => if e.1 = 0 then workPages s 0 else ownPages s e.1)
  let s1 := freePages (removeWarps s fun _ _ => true) pages
  let kept := fun (a : Nat) => !(frameBase ≤ a && a < hostBase)
  let s2 := { s1 with
    mem := s1.mem.filter fun c => kept c.1, pois := s1.pois.filter fun g => kept (64 * g),
    blocks := [], banks := [], ops := [], launches := [], funcs := fmap s1.funcs warmFunc,
    cores := emptyCores s1.cores,
    power := { clusters := fmap s1.power.clusters fun _ x => warmCluster x,
               patrol := fmap s1.power.patrol fun _ p => { Patrol.reset with retSeq := p.retSeq } },
    arrays := { s1.arrays with regions := fmap s1.arrays.regions fun _ r =>
                  let r1 := { r with dests := [], leaving := none, busy := false }
                  if r.leaving = some .offline then { r1 with st := .offline } else r1, queue := [] },
    fabric := { s1.fabric with bobbin := startBobbin s1.fabric.bobbin, down := [], crcs := [], inbox := [],
                               routes := fmap s1.fabric.routes fun _ r => lowestRoute r },
    parts := { s1.parts with job := none },
    mgmt := { s1.mgmt with own := warmOwn s1.mgmt.own, vfBusy := [], vfEnable := false, evicts := [], moves := [], copies := [],
                           remaps := [], hot := [], hotTold := [] } }
  .next (keys.foldl (fun t k => pushRec t 0 (purgeRecord k.1 k.2 0x151)) (replayJournal s2))

/-- R327, R417: the sites as their fuses give them. -/
def fusedSites (m : FMap Site) : FMap Site := fmap m fun _ t => { t with gone := [] }

/-- R369: the module without power: the host's memory, the fuses and the array record stores are left. -/
def powerOff (s : State) (a : Arrays) : State :=
  { State.reset with
    mem := s.mem.filter fun c => hostBase ≤ c.1, pois := s.pois.filter fun g => hostBase ≤ 64 * g,
    sites := fusedSites s.sites, arrays := a, next := s.next, free := s.free, cur := s.cur, turn := s.turn,
    agenda := s.agenda }

/-- COLD_START (R327, R371). -/
def execColdStart (s : State) : Out := .next (powerOff s (coldArrays s))

/-- POWER_LOSS (R369): nothing runs until the next cold start. -/
def execPowerLoss (s : State) : Out :=
  let off := powerOff s { s.arrays with queue := [], status := none, handle := none }
  .next (modFunc off 0 fun f => { f with enabled := false, ready := false })

end Sys2Proof.Machine
end

