-- ==== Sys2Proof/Machine/LBit.lean ====
section
/-! DEFINITION. Lane bit operations (R136, R137). -/

namespace Sys2Proof.Machine

/-- A form of one raw source. -/
def bit1 (s : State) (o : LaneOp) (tag : Fmt) (f : W32 → W32) : Out :=
  laneRun s o false [(o.a, .b32)] fun x => perLane x tag fun l => f (x.at 0 l)

/-- A form of two sources, a read in a format and b raw. -/
def bit2 (s : State) (o : LaneOp) (fa tag : Fmt) (f : W32 → W32 → W32) : Out :=
  laneRun s o false [(o.a, fa), (o.b, .b32)] fun x => perLane x tag fun l => f (x.at 0 l) (x.at 1 l)

/-- A form of three raw sources. -/
def bit3 (s : State) (o : LaneOp) (f : W32 → W32 → W32 → W32) : Out :=
  laneRun s o false [(o.a, .b32), (o.b, .b32), (o.c, .b32)] fun x =>
    perLane x .b32 fun l => f (x.at 0 l) (x.at 1 l) (x.at 2 l)

/-- R136: the shift count b[7:0]. -/
def laneShift (b : W32) : Nat := b.toNat % 256

/-- R136. -/
def execAndB32 (o : LaneOp) (s : State) : Out := bit2 s o .b32 .b32 (· &&& ·)
/-- R136. -/
def execOrB32 (o : LaneOp) (s : State) : Out := bit2 s o .b32 .b32 (· ||| ·)
/-- R136. -/
def execXorB32 (o : LaneOp) (s : State) : Out := bit2 s o .b32 .b32 (· ^^^ ·)
/-- R136. -/
def execNotB32 (o : LaneOp) (s : State) : Out := bit1 s o .b32 (~~~ ·)

/-- R136: bit i is TT bit (4 c_i + 2 b_i + a_i). -/
def bool3Of (tt : Nat) (a b c : W32) : W32 :=
  maskOf fun i => bitAt tt (4 * b2n (c.getLsbD i) + 2 * b2n (b.getLsbD i) + b2n (a.getLsbD i))

/-- R136. -/
def execBool3 (o : LaneOp) (s : State) : Out := bit3 s o (bool3Of (o.mods % 256))
/-- R136: 0 when n ≥ 32. -/
def execShlB32 (o : LaneOp) (s : State) : Out := bit2 s o .b32 .b32 fun a b => a <<< laneShift b
/-- R136: 0 when n ≥ 32. -/
def execShrN32 (o : LaneOp) (s : State) : Out := bit2 s o .n32 .n32 fun a b => a >>> laneShift b
/-- R136: the count is capped at 31. -/
def execSraI32 (o : LaneOp) (s : State) : Out := bit2 s o .i32 .i32 fun a b => a.sshiftRight (min (laneShift b) 31)
/-- R136. -/
def execPopcB32 (o : LaneOp) (s : State) : Out := bit1 s o .n32 fun a => n32 (popN a.toNat 32)
/-- R136. -/
def execClzB32 (o : LaneOp) (s : State) : Out := bit1 s o .n32 fun a => n32 (clzN a.toNat 32)
/-- R136. -/
def execBrevB32 (o : LaneOp) (s : State) : Out := bit1 s o .b32 fun a => n32 (revN a.toNat 32)

/-- R137: the field of a starting at pos, len bits long, positions of 32 and above reading 0 or a[31]. -/
def bfeOf (signed : Bool) (a b : W32) : W32 :=
  let pos := min (b.toNat % 256) 32
  let len := min (b.toNat / 256 % 256) 32
  if len = 0 then 0
  else
    let wide : Int := if signed then a.toInt else a.toNat
    let f := (wide / 2 ^ pos) % 2 ^ len
    if signed then w32 (sext len f.toNat) else w32 f

/-- R137. -/
def execBfe (o : LaneOp) (s : State) : Out := bit2 s o o.fmt o.fmt (bfeOf (o.fmt = .i32))

/-- R137: b with a field replaced by the low bits of a. -/
def bfiOf (a b c : W32) : W32 :=
  let pos := c.toNat % 256
  let len := c.toNat / 256 % 256
  maskOf fun i => if pos ≤ i && i < pos + len then a.getLsbD (i - pos) else b.getLsbD i

/-- R137. -/
def execBfi (o : LaneOp) (s : State) : Out := bit3 s o bfiOf

/-- R136: a where bit l of lane l of c is 1, else b; the tag of a when a and b carry the same. -/
def execSel (o : LaneOp) (s : State) : Out :=
  laneRun s o false [(o.a, .b32), (o.b, .b32), (o.c, .b32)] fun x =>
    perLane x (if x.tag 0 = x.tag 1 then x.tag 0 else .b32) fun l =>
      if (x.at 2 l).getLsbD l then x.at 0 l else x.at 1 l

/-- R137: byte i chosen by c[4i+3:4i]. -/
def permOf (a b c : W32) : W32 :=
  let byte := fun (i : Nat) =>
    let sel := c.toNat / 2 ^ (4 * i) % 8
    let v := if sel < 4 then a.toNat / 2 ^ (8 * sel) % 256 else b.toNat / 2 ^ (8 * (sel - 4)) % 256
    if c.getLsbD (4 * i + 3) then (if 128 ≤ v then 255 else 0) else v
  n32 (byte 0 + byte 1 * 2 ^ 8 + byte 2 * 2 ^ 16 + byte 3 * 2 ^ 24)

/-- R137. -/
def execPerm (o : LaneOp) (s : State) : Out := bit3 s o permOf

end Sys2Proof.Machine
end

