-- ==== Sys2Proof/Machine/LConv.lean ====
section
/-! DEFINITION. Conversion and quantisation (R131 to R134). -/

namespace Sys2Proof.Machine

/-- R131: CVT's source format and group. -/
def cvtSrc (o : LaneOp) : Fmt := fmtOf (fld o.mods 4 0)

/-- R131: CVT keeps the other elements of b only when the source holds fewer elements than the result. -/
def cvtNeedsB (o : LaneOp) : Bool := cvtSrc o ≠ .b32 && fmtCount (cvtSrc o) < fmtCount o.fmt

/-- R131: element e of the result in lane l. In reproducibility mode the element position that keys its rounding (R53) is
that of the result (DESIGN CHOICE, log entry 81). -/
def cvtElem (x : LIn) (l e : Nat) : Coded :=
  let src := cvtSrc x.o
  let f := x.o.fmt
  let g := fld x.o.mods 7 5
  let ns := fmtCount src
  let nt := fmtCount f
  let conv := fun i => 
    let r := x.mode l e
    convertElem src f r (elem src (x.at 0 l) i)
  if nt ≤ ns then conv (g * nt + e)
  else if g * ns ≤ e && e < g * ns + ns then conv (e - g * ns)
  else { code := elem f (x.at 1 l) e, fl := 0 }

/-- R131. -/
def execCvt (o : LaneOp) (s : State) : Out :=
  laneRun s o true ((o.a, cvtSrc o) :: if cvtNeedsB o then [(o.b, o.fmt)] else []) fun x =>
    if cvtSrc o = .b32 then perLane x o.fmt fun l => x.at 0 l else perElem x o.fmt (cvtElem x)

/-- R132: the packed tag of a width, by SGN. -/
def packTag (f : Fmt) (sgn : Bool) : Fmt :=
  match f with
  | .n16 => if sgn then .i16 else .n16
  | .n8 => if sgn then .i8 else .n8
  | _ => if sgn then .i4 else .n4

/-- R132: a 32-bit word narrowed to one element. -/
def packElem (f : Fmt) (sgn sat : Bool) (v : W32) : Nat :=
  narrow (packTag f sgn) sat (if sgn then v.toInt else v.toNat)

/-- R132. -/
def execPack (o : LaneOp) (s : State) : Out :=
  let pos := fld o.mods 2 0
  let sgn := bitAt o.mods 3
  laneRun s o false [(o.a, .b32), (o.b, .b32), (o.c, .b32)] fun x =>
    perLane x (packTag o.fmt sgn) fun l =>
      setElem o.fmt (setElem o.fmt (x.at 2 l) pos (packElem o.fmt sgn o.sat (x.at 0 l))) (pos + 1)
        (packElem o.fmt sgn o.sat (x.at 1 l))

/-- R132. -/
def execUnpack (o : LaneOp) (s : State) : Out :=
  let pos := fld o.mods 2 0
  let sgn := bitAt o.mods 3
  laneRun s o false [(o.a, .b32)] fun x =>
    perLane x (if sgn then .i32 else .n32) fun l =>
      let e := elem o.fmt (x.at 0 l) pos
      if sgn then w32 (sext (fmtWidth o.fmt) e) else n32 e

/-! ## OCP MX (R133, R134) -/

/-- |a| of a lane of QNT. -/
def qntMag (x : LIn) (l : Nat) : Num := (f32Val (x.at 0 l)).withSign false

/-- R133: amax of the block of a lane, over its lanes in act: a NaN when any of them is. -/
def qntAmax (x : LIn) (blen l : Nat) : Num :=
  let ls := (lanesOf x.c.act).filter fun j => j / blen = l / blen
  ls.foldl (fun m j => let v := qntMag x j
    if m.isNan then m else if v.isNan then v else if numLt m v then v else m) (.zero false)

/-- R133: the element of a lane, encoded with saturation. -/
def qntElem (x : LIn) (sc l pos : Nat) : Coded :=
  if sc = 0xFF then { code := 0, fl := flNV }
  else
    let up : Int := 127 - (sc : Int) + (if x.o.fmt = .i8 then 6 else 0)
    let v := match f32Val (x.at 0 l) with
      | .fin n m e st => Num.fin n m (e + up) st
      | v => v
    let r := { x.mode l pos with sat := true, ftz := false }
    match x.o.fmt with
    | .i8 => encodeI .i8 r v
    | f => encodeNum f r v

/-- R133. -/
def execQnt (o : LaneOp) (s : State) : Out :=
  let pos := fld o.mods 2 0
  let blen := if bitAt o.mods 3 then 16 else 32
  let scale := bitAt o.mods 4
  laneRun s o true [(o.a, .f32), (o.b, if scale then .e8m0 else o.fmt)] fun x =>
    let nan := flIf ((lanesOf x.c.act).any fun l => (f32Val (x.at 0 l)).isSig) flNV
    let sc := fun l => mxScale (qntAmax x blen l) o.fmt
    if scale then
      { perLane x .e8m0 fun l => setElem .e8m0 (x.at 1 l) pos (sc l) with fl := nan }
    else
      { perLane x o.fmt fun l => setElem o.fmt (x.at 1 l) pos (qntElem x (sc l) l pos).code with
        fl := flOr nan (flAll ((lanesOf x.c.act).map fun l => (qntElem x (sc l) l pos).fl)) }

/-- R134: a scale code of 0xFF gives the canonical NaN without a flag of its own; a signalling element raises NV whatever
the scale (DESIGN CHOICE, log entry 82). -/
def execDqnt (o : LaneOp) (s : State) : Out :=
  let pos := fld o.mods 2 0
  let cpos := fld o.mods 4 3
  laneRun s o false [(o.a, o.fmt), (o.b, .e8m0)] fun x =>
    perElem x .f32 fun l e =>
      let v := mxElem o.fmt (elem o.fmt (x.at 0 l) pos)
      let p := mulNums (decodeNum .e8m0 (elem .e8m0 (x.at 1 l) cpos)) v
      let c := encodeNum .f32 (x.mode l e) p.1
      { c with fl := flOr (flOr (sigFlags [v]) p.2) c.fl }

end Sys2Proof.Machine
end

