-- ==== Sys2Proof/Machine/LInt.lean ====
section
/-! DEFINITION. Lane integer arithmetic, ICMP and the packed dots (R130, R135, R138). -/

namespace Sys2Proof.Machine

/-- The integer value of a code of an integer format. -/
def intVal (f : Fmt) (x : Nat) : Int := if isSigned f then sext (fmtWidth f) x else (x % 2 ^ fmtWidth f : Nat)

/-- Element e of source i in lane l, as an integer. -/
def LIn.int (x : LIn) (i l e : Nat) : Int := intVal x.o.fmt (elem x.o.fmt (x.at i l) e)

/-- R135: a form of n sources in fmt with one wrapped or clamped result per element. -/
def intForm (s : State) (o : LaneOp) (srcs : List Src) (f : LIn → Nat → Nat → Int) : Out :=
  laneRun s o false (srcs.map fun x => (x, o.fmt)) fun x =>
    perElem x o.fmt fun l e => { code := narrow o.fmt o.sat (f x l e), fl := 0 }

/-- R135. -/
def execIadd (o : LaneOp) (s : State) : Out := intForm s o [o.a, o.b] fun x l e => x.int 0 l e + x.int 1 l e
/-- R135. -/
def execIsub (o : LaneOp) (s : State) : Out := intForm s o [o.a, o.b] fun x l e => x.int 0 l e - x.int 1 l e
/-- R135. -/
def execImul (o : LaneOp) (s : State) : Out := intForm s o [o.a, o.b] fun x l e => x.int 0 l e * x.int 1 l e
/-- R135: from the exact sum. -/
def execImad (o : LaneOp) (s : State) : Out :=
  intForm s o [o.a, o.b, o.c] fun x l e => x.int 0 l e * x.int 1 l e + x.int 2 l e
/-- R135: bits [63:32] of the exact product. -/
def execImulh (o : LaneOp) (s : State) : Out :=
  intForm s o [o.a, o.b] fun x l e => x.int 0 l e * x.int 1 l e / 2 ^ 32
/-- R135. -/
def execImin (o : LaneOp) (s : State) : Out := intForm s o [o.a, o.b] fun x l e => min (x.int 0 l e) (x.int 1 l e)
/-- R135. -/
def execImax (o : LaneOp) (s : State) : Out := intForm s o [o.a, o.b] fun x l e => max (x.int 0 l e) (x.int 1 l e)
/-- R135. -/
def execIabs (o : LaneOp) (s : State) : Out := intForm s o [o.a] fun x l e => ((x.int 0 l e).natAbs : Int)

/-- R135: c is read as n32. -/
def execIsad (o : LaneOp) (s : State) : Out :=
  laneRun s o false [(o.a, o.fmt), (o.b, o.fmt), (o.c, .n32)] fun x =>
    perLane x .n32 fun l =>
      x.at 2 l + n32 ((List.range (fmtCount o.fmt)).foldl (fun t e => t + (x.int 0 l e - x.int 1 l e).natAbs) 0)

/-- R130: integer compares raise nothing. -/
def execIcmp (o : LaneOp) (s : State) : Out :=
  laneRun s o false [(o.a, o.fmt), (o.b, o.fmt)] fun x =>
    let el := fld o.mods 9 8
    ballot x (fun l => condOf (fld o.mods 3 0) false (compare (x.int 0 l el) (x.int 1 l el))) 0

/-! ## Packed dots (R138) -/

/-- R138: the format of c and of the result. -/
def dotFmt : Fmt → Fmt
  | .i8 | .i4 => .i32
  | .n8 | .n4 => .n32
  | _ => .f32

/-- R138, integer formats: the exact sum with c, wrapped or clamped. -/
def dotInt (x : LIn) (l : Nat) : Nat :=
  let t := (List.range (fmtCount x.o.fmt)).foldl (fun (a : Int) e => a + x.int 0 l e * x.int 1 l e) 0
  narrow (dotFmt x.o.fmt) x.o.sat (t + intVal (dotFmt x.o.fmt) (x.at 2 l).toNat)

/-- R138, float formats: one rounding of the exact sum, c as an addend. -/
def dotFloat (x : LIn) (l : Nat) : Coded :=
  let ab := (List.range (fmtCount x.o.fmt)).map fun e => (x.num 0 l e, x.num 1 l e)
  let ps := ab.map fun p => mulNums p.1 p.2
  let c := f32Val (x.at 2 l)
  let t := sumNums 1 (ps.map (·.1) ++ [c])
  let r := encodeNum .f32 (x.mode l 0) t.1
  { r with fl := flOr r.fl (flOr t.2 (flOr (flAll (ps.map (·.2))) (sigFlags (c :: ab.flatMap fun p => [p.1, p.2])))) }

/-- R138: DP4 and DP8. -/
def dotForm (s : State) (o : LaneOp) : Out :=
  laneRun s o false [(o.a, o.fmt), (o.b, o.fmt), (o.c, dotFmt o.fmt)] fun x =>
    if dotFmt o.fmt = .f32 then perElem x .f32 fun l _ => dotFloat x l
    else perElem x (dotFmt o.fmt) fun l _ => { code := dotInt x l, fl := 0 }

/-- R138. -/
def execDp4 (o : LaneOp) (s : State) : Out := dotForm s o
/-- R138. -/
def execDp8 (o : LaneOp) (s : State) : Out := dotForm s o

end Sys2Proof.Machine
end

