-- ==== Sys2Proof/Machine/LMove.lean ====
section
/-! DEFINITION. Lane data movement, scans and reductions, random numbers (R139 to R141). -/

namespace Sys2Proof.Machine

/-- R139: MOV keeps the tag of a. -/
def execMov (o : LaneOp) (s : State) : Out :=
  laneRun s o false [(o.a, .b32)] fun x => perLane x (x.tag 0) fun l => x.at 0 l

/-- R139: a from lane src(l) where that lane is in act, else c. The tag is a's unless some lane took a c of another
tag. -/
def shuffle (s : State) (o : LaneOp) (src : LIn → Nat → Nat) : Out :=
  laneRun s o false [(o.a, .b32), (o.b, .b32), (o.c, .b32)] fun x =>
    let ok := fun l => x.c.act.getLsbD (src x l)
    let tookC := (lanesOf x.c.act).any fun l => !ok l
    perLane x (if tookC && x.tag 2 ≠ x.tag 0 then .b32 else x.tag 0) fun l =>
      if ok l then x.at 0 (src x l) else x.at 2 l

/-- R139. -/
def execShfl (o : LaneOp) (s : State) : Out := shuffle s o fun x l => (x.at 1 l).toNat % 32
/-- R139. -/
def execShflx (o : LaneOp) (s : State) : Out := shuffle s o fun x l => l ^^^ (x.at 1 l).toNat % 32
/-- R139: the lane that the lowest lane of act names. -/
def execBcst (o : LaneOp) (s : State) : Out := shuffle s o fun x _ => (x.at 1 ((lowLane x.c.act).getD 0)).toNat % 32

/-! ## SCAN and RED (R140) -/

/-- R140: the identity of an operation. -/
def foldIdentity (f : Fmt) (op : Nat) : W32 :=
  match f, op with
  | .f32, 1 => 0x7F800000
  | .f32, 2 => 0xFF800000
  | .i32, 1 => 0x7FFFFFFF
  | .i32, 2 => 0x80000000
  | .n32, 1 => 0xFFFFFFFF
  | _, 3 => 0xFFFFFFFF
  | _, _ => 0

/-- R140: one step, op(acc, a_j) with the generator of lane j. -/
def foldStep (x : LIn) (op j : Nat) (acc a : W32) : W32 × Nat :=
  let signed := x.o.fmt = .i32
  let le := if signed then decide (acc.toInt ≤ a.toInt) else decide (acc.toNat ≤ a.toNat)
  match x.o.fmt, op with
  | .f32, 0 => let c := addOp .f32 (x.mode j 0) (f32Val acc) (f32Val a); (n32 c.code, c.fl)
  | .f32, 1 => let c := minMax .f32 false acc.toNat a.toNat; (n32 c.code, c.fl)
  | .f32, _ => let c := minMax .f32 true acc.toNat a.toNat; (n32 c.code, c.fl)
  | _, 0 => (acc + a, 0)
  | _, 1 => (if le then acc else a, 0)
  | _, 2 => (if le then a else acc, 0)
  | _, 3 => (acc &&& a, 0)
  | _, 4 => (acc ||| a, 0)
  | _, _ => (acc ^^^ a, 0)

/-- The fold over the lanes of act in ascending order: the accumulator, what each lane reads, and the flags. -/
def foldLanes (x : LIn) (op : Nat) (excl : Bool) : List Nat → Option W32 → List (Nat × W32) → Nat →
    Option W32 × List (Nat × W32) × Nat
  | [], acc, out, fl => (acc, out, fl)
  | j :: r, acc, out, fl =>
    let (a, f) := match acc with
      | none => (x.at 0 j, 0)
      | some v => foldStep x op j v (x.at 0 j)
    let seen := if excl then acc.getD (foldIdentity x.o.fmt op) else a
    foldLanes x op excl r (some a) ((j, seen) :: out) (flOr fl f)

/-- R140. -/
def execScan (o : LaneOp) (s : State) : Out :=
  laneRun s o true [(o.a, o.fmt)] fun x =>
    let t := foldLanes x (fld o.mods 2 0) (bitAt o.mods 3) (lanesOf x.c.act) none [] 0
    { perLane x o.fmt fun l => (fget t.2.1.reverse l).getD 0 with fl := t.2.2 }

/-- R140. -/
def execRed (o : LaneOp) (s : State) : Out :=
  laneRun s o true [(o.a, o.fmt)] fun x =>
    let t := foldLanes x (fld o.mods 2 0) false (lanesOf x.c.act) none [] 0
    { perLane x o.fmt fun _ => t.1.getD 0 with fl := t.2.2 }

/-- R141: a is the key and b the counter. -/
def execRng (o : LaneOp) (s : State) : Out :=
  laneRun s o false [(o.a, .b32), (o.b, .b32)] fun x => perLane x .n32 fun l => rngHash (x.at 0 l) (x.at 1 l)

end Sys2Proof.Machine
end

