-- ==== Sys2Proof/Machine/System.lean ====
section
/-! DEFINITION. The SYS instructions (R187 to R209): TRAP, BRK, RETS, the system registers, TLBI, CTXFL, CTXLD, the
watchdog, INJECT, GTIME, and the patrol core's QUIESCE, RETSAVE, RETLOAD and HALT (R207, R208, R377 to R386). -/

namespace Sys2Proof.Machine

/-! ## TRAP, BRK and RETS -/

/-- R204: a trap on request; xs1 is A + 4 and CODE the immediate. -/
def requestTrap (ends : Bool) (cause imm : Nat) (s : State) : Out :=
  onPath s fun w p =>
    if !allIssued p then stall s
    else
      let w1 := countIssue (breakSpin (if ends then endRegion w else w) s.cur.path)
      .next (raiseTrap (putWarp s s.cur.warp w1) s.cur.warp s.cur.path
        { sTrap p cause with code := imm, resume := p.pc + 4 })

/-- R204. -/
def execTrap (code : Nat) (s : State) : Out := requestTrap true 0x134 code s
/-- R204. BRK does not end the region (R188). -/
def execBrk (code : Nat) (s : State) : Out := requestTrap false 0x170 code s

/-- A SYS form that the supervisor level may use (R33, R188): 19.0 at user level, then the wait of WAITF. -/
def sysForm (s : State) (f : Warp → Path → Out) : Out :=
  privileged s fun w p => if !allIssued p then stall s else f w p

/-- RETS (R195); in the supervisor slot it answers the record in progress (R197). -/
def rets (mode : Nat) (s : State) : Out :=
  privileged s fun w p =>
    let uid := s.cur.warp
    let pf := s.cur.path
    if w.kind = .supervisor then
      if ((fget s.cores.sups (coreKey w)).bind (·.cur)).isNone then trapS s 0x135
      else if !allDone s uid pf p || !fenceReady s uid pf 3 then stall s
      else .next (endRecord (l1DropCore s (coreKey w)) (coreKey w) uid (mode ≠ 0))
    else match p.held with
    | none => trapS s 0x135
    | some h =>
      if !allDone s uid pf p || !fenceReady s uid pf 3 then stall s
      else if mode = 2 then .next (defaultAction s uid h.cause)
      else .next (l1DropCore (putWarp s uid (returnTrap (breakSpin (endRegion (countIssue w)) pf) pf h (mode = 1)))
        (coreKey w))

/-- R195, mode 0. -/
def execRets (s : State) : Out := rets 0 s
/-- R195, mode 1. -/
def execRetsSkip (s : State) : Out := rets 1 s
/-- R195, mode 2. -/
def execRetsDecline (s : State) : Out := rets 2 s

/-! ## System registers (R198 to R200, R377) -/

/-- R156: BSTATE of a barrier. -/
def barWord (b : Bar) : Nat := b.expect % 2 ^ 7 + b.arrived % 2 ^ 7 * 2 ^ 7 + b2n b.phase * 2 ^ 14

/-- R173: the 640 bits of a sequencer record. -/
def seqWord (r : SeqRec) : Nat :=
  r.ctl.toNat + r.opa0.toNat * 2 ^ 64 + r.opa1.toNat * 2 ^ 128 + r.opb0.toNat * 2 ^ 192 + r.opb1.toNat * 2 ^ 256 +
    leNat (r.fblk.take 32) * 2 ^ 320 + r.step % 2 ^ 16 * 2 ^ 576 + b2n r.z * 2 ^ 592 + b2n r.path * 2 ^ 593

/-- A cluster's key in the power table, for a virtual die. -/
def clusterKey (s : State) (die c : Nat) : Nat := 4 * ((siteOf s die).elim die (·.1)) + c

/-- A cluster as it stands; one that is not listed is as after a cold start. -/
def clusterAt (s : State) (die c : Nat) : Cluster := (fget s.power.clusters (clusterKey s die c)).getD Cluster.reset

/-- The state with a cluster replaced. -/
def putCluster (s : State) (die c : Nat) (x : Cluster) : State :=
  { s with power := { s.power with clusters := fput s.power.clusters (clusterKey s die c) x } }

/-- R377: a cluster with an enabled core. -/
def clusterPresent (s : State) (die c : Nat) : Bool := (List.range 32).any fun i => coreOn s die (32 * c + i)

/-- R378, R382: RESID. The block warps resident on a cluster, and the supervisor slots that hold a context; of these, while the
cluster quiesces, those at work and those of cores that still hold a block warp. -/
def residents (s : State) (die c : Nat) : Nat :=
  let here := (s.warps.filter fun e => e.2.die = die && e.2.core / 32 = c && e.2.st ≠ .saved && e.2.st ≠ .ended).map (·.2)
  let counts := fun (w : Warp) => match w.kind with
    | .kernel => true
    | .supervisor => (clusterAt s die c).st ≠ .quiescing || w.st ≠ .idle || here.any fun v => v.core = w.core && v.kind = .kernel
    | .patrol => false
  (here.filter counts).length

/-- The code of a cluster's state. -/
def cstCode : CSt → Nat
  | .run => 0 | .quiescing => 1 | .quiesced => 2 | .clkoff => 3 | .railoff => 4 | .railup => 5 | .reset => 6

/-- R378: CLSTAT. -/
def clstat (s : State) (die c : Nat) : Nat :=
  if !clusterPresent s die c then 7
  else
    let x := clusterAt s die c
    cstCode x.st + b2n x.clkAck * 2 ^ 3 + b2n x.railGood * 2 ^ 4 + b2n x.err * 2 ^ 5 + residents s die c % 2 ^ 12 * 2 ^ 8

/-- R379: CLCTL. -/
def clctl (s : State) (die c : Nat) : Nat :=
  if !clusterPresent s die c then 0
  else
    let x := clusterAt s die c
    b2n x.clkReq + b2n x.railReq * 2 + b2n x.autowake * 2 ^ 3 + x.fsel % 4 * 2 ^ 4

/-- R383: RETSTAT. -/
def retstat (s : State) (die c : Nat) : Nat :=
  if !clusterPresent s die c then 0
  else
    let x := clusterAt s die c
    x.seqReg % 2 ^ 32 + b2n x.img.isSome * 2 ^ 32 + b2n x.fresh * 2 ^ 33

/-- The patrol core of a virtual die's site. -/
def patrolAt (s : State) (die : Nat) : Patrol :=
  (fget s.power.patrol ((siteOf s die).elim die (·.1))).getD Patrol.reset

/-- The state with the patrol core of a virtual die's site replaced. -/
def putPatrol (s : State) (die : Nat) (x : Patrol) : State :=
  { s with power := { s.power with patrol := fput s.power.patrol ((siteOf s die).elim die (·.1)) x } }

/-- R199, R377: a register as a warp reaches it: the number of indices, whether user level may reach it, and its
value. -/
structure SysReg where
  count : Nat
  user : Bool
  value : Nat

/-- R199, R200, R377. -/
def sysReg (s : State) (w : Warp) (p : Path) (n i : Nat) : Option SysReg :=
  let f := fget s.funcs w.fn
  match n with
  | 0x00 => some ⟨0, true, w.wmode.toNat⟩
  | 0x01 => some ⟨0, true, ctxstat w p.priv⟩
  | 0x02 => some ⟨0, true, w.slot⟩
  | 0x03 => some ⟨4, true, if w.kind = .patrol then capd s i else capdSeen s (partOf s w.fn) i⟩
  | 0x08 => some ⟨32, false, barWord ((warpBlock s w).elim Bar.fresh fun b => fgetD Bar.fresh b.bars i)⟩
  | 0x09 => some ⟨256, false,
      ((warpBlock s w).bind fun b => fget b.seqs (i / 16)).elim 0 fun r => seqWord r.2 / 2 ^ (64 * (i % 16)) % 2 ^ 64⟩
  | 0x10 => some ⟨0, false, f.elim 0 fun x => x.hvec.toNat⟩
  | 0x11 => some ⟨0, false, f.elim 0 (·.wdlim)⟩
  | _ =>
    if w.kind ≠ .patrol then none
    else match n with
    | 0x20 => some ⟨4, false, clstat s w.die i⟩
    | 0x21 => some ⟨4, false, clctl s w.die i⟩
    | 0x22 => some ⟨0, false, (patrolAt s w.die).wake.toNat⟩
    | 0x23 => some ⟨4, false, retstat s w.die i⟩
    | _ => none

/-- R198: an index that a register does not have. -/
def indexBad (r : SysReg) (n i : Nat) : Bool := if r.count = 0 then i ≠ 0 else r.count ≤ i || (n = 0x09 && 9 < i % 16)

/-- R198: the checks of both forms. -/
def withSysReg (s : State) (a reg : Nat) (f : Warp → Path → Nat → SysReg → Out) : Out :=
  onPath s fun w p =>
    let i := (rx w s.cur.path a).toNat
    match sysReg s w p reg i with
    | none => trapS s 0x133
    | some r =>
      if !r.user && p.priv = 0 then trapS s 0x130
      else if indexBad r reg i then trapS s 0x133
      else f w p i r

/-- SYSRD (R198). -/
def execSysrd (d a reg : Nat) (s : State) : Out :=
  withSysReg s a reg fun w _ _ r => retire s (breakSpin (wx w s.cur.path d (n64 r.value)) s.cur.path)

/-- R27: WMODE after a write. -/
def writeWmode (old v : W64) : W64 :=
  let seed := if wmodeRepro old then wmodeSeed old else fld v.toNat 63 32
  let flags := fld old.toNat 12 8 &&& (31 - fld v.toNat 12 8)
  n64 (fld v.toNat 4 0 + b2n (wmodeRepro old) * 2 ^ 5 + flags * 2 ^ 8 + seed * 2 ^ 32)

/-- R27: a write of WMODE changes RND, FTZ, TAGX or SEED. -/
def wmodeChanges (old new : W64) : Bool := fld old.toNat 4 0 ≠ fld new.toNat 4 0 || wmodeSeed old ≠ wmodeSeed new

/-- R380: the states in which a change of each request is an event. -/
def clkOk (st : CSt) (on : Bool) : Bool := if on then st = .clkoff || st = .railup else st = .quiesced
/-- R380. -/
def railOk (st : CSt) (fresh on : Bool) : Bool := if on then st = .railoff else st = .clkoff && fresh
/-- R380. -/
def resumeOk (st : CSt) : Bool := st = .quiescing || st = .quiesced

/-- R380: RESUME reopens dispatch; saves already begun complete. -/
def resumeCluster (x : Cluster) : Cluster := { x with st := .run }

/-- R380, R382: the supervisor slots of a cluster, flushed at the quiesce, wait for records again. -/
def reopenSups (s : State) (die c : Nat) : State :=
  let mine := fun (w : Warp) => w.kind = .supervisor && w.die = die && w.core / 32 = c && w.st = .saved
  { s with warps := fmap s.warps fun _ w => if mine w then { w with st := .idle } else w }

/-- R380: a request of CLCTL taken by the cluster. The clock and the rail answer by events of their own. -/
def takeRequests (x : Cluster) (clk rail resume : Bool) : Cluster :=
  let y := { x with clkReq := clk, railReq := rail }
  if resume then resumeCluster y
  else if x.railReq && !rail then { y with st := .railoff }
  else y

/-- R381: a write of CLCTL: more than one change of CLKREQ, RAILREQ and RESUME, or one outside its states, is refused
whole and sets ERR. -/
def writeClctl (x : Cluster) (v : Nat) : Cluster :=
  let clk := bitAt v 0
  let rail := bitAt v 1
  let res := bitAt v 2
  let changes := b2n (clk ≠ x.clkReq) + b2n (rail ≠ x.railReq) + b2n res
  let ok := changes ≤ 1 && (clk = x.clkReq || clkOk x.st clk) && (rail = x.railReq || railOk x.st x.fresh rail) &&
    (!res || resumeOk x.st)
  if !ok then { x with err := true }
  else { takeRequests x clk rail res with autowake := bitAt v 3, fsel := fld v 5 4 }

/-- R380, R381: CLCTL of a cluster written. -/
def setClctl (s : State) (die c v : Nat) : State :=
  let x := clusterAt s die c
  let y := writeClctl x v
  let s1 := putCluster s die c y
  if y.st = .run && x.st ≠ .run then reopenSups s1 die c else s1

/-- SYSWR (R198): what a write does to the writable registers; writes to the others are ignored (R10). -/
def writeSys (s : State) (w : Warp) (pf : Bool) (n i : Nat) (v : W64) : Out :=
  let done := fun (t : State) (w1 : Warp) => retire t (breakSpin w1 pf)
  match n with
  | 0x00 =>
    let m := writeWmode w.wmode v
    if w.div && wmodeChanges w.wmode m then trapS s 0xA5 else done s { w with wmode := m }
  | 0x20 =>
    if clusterPresent s w.die i && v.getLsbD 5 then
      done (putCluster s w.die i { clusterAt s w.die i with err := false }) w
    else done s w
  | 0x21 =>
    if clusterPresent s w.die i then done (setClctl s w.die i v.toNat) w else done s w
  | 0x22 =>
    let p := patrolAt s w.die
    done (putPatrol s w.die { p with wake := p.wake &&& ~~~ v.setWidth 4 }) w
  | _ => done s w

/-- SYSWR (R198). -/
def execSyswr (v a reg : Nat) (s : State) : Out :=
  withSysReg s a reg fun w _ i _ => writeSys s w s.cur.path reg i (rx w s.cur.path v)

/-! ## TLBI (R201) -/

/-- What a TLBI matches. -/
inductive TlbiSel where
  | all
  | va (asid page : Nat)
  | asid (n : Nat)
  | vmid (n : Nat)

/-- R201: a form matches an ASID, VMID and page. -/
def tlbiHits (q : TlbiSel) (asid vmid page : Nat) : Bool :=
  match q with
  | .all => true
  | .va a p => asid = a && page = p
  | .asid a => asid = a
  | .vmid v => vmid = v

/-- R201: a TLB or core of the module is in scope: 0 .core, 1 .die, 2 .package. -/
def unitInScope (w : Warp) (scope unit : Nat) : Bool :=
  if scope = 0 then unit = coreKey w
  else if scope = 2 then true
  else if unit < 65536 then unit / 128 % 4 = w.die else (unit - 65536) / 16 = w.die

/-- R201: an outstanding access went through an entry that the form drops. -/
def tlbiPending (s : State) (w : Warp) (scope : Nat) (own : Nat → Bool) (q : TlbiSel) : Bool :=
  s.ops.any fun o => match o.body, fget s.warps o.warp with
    | .mem m, some v =>
      let d := warpXlate s v
      openLanes m ≠ 0 && unitInScope w scope (coreKey v) && own d.vmid && m.vpage.any (tlbiHits q d.asid d.vmid)
    | _, _ => false

/-- R201: a packet of an engine, or of a read of a warp's own, is on its way for a context that the form matches; it went
through an entry of that context, whichever page it was. -/
def tlbiPackets (s : State) (w : Warp) (scope : Nat) (own : Nat → Bool) (q : TlbiSel) : Bool :=
  let hits := fun (d : XlateDesc) => match q with
    | .va a _ => d.asid = a
    | _ => tlbiHits q d.asid d.vmid 0
  s.fabric.bobbin.any fun e => (fget s.warps e.warp).any fun v =>
    let d := warpXlate s v
    unitInScope w scope (coreKey v) && own d.vmid && hits d

/-- R201: the entries and lines that a form drops, with what a walker has read of tables of other modules. -/
def tlbiDrop (s : State) (w : Warp) (scope : Nat) (own : Nat → Bool) (q : TlbiSel) : State :=
  let s1 := { s with cores := { s.cores with tlb := s.cores.tlb.filter fun t =>
      !(unitInScope w scope t.unit && own t.vmid && tlbiHits q t.asid t.vmid t.vpage) } }
  match q with
  | .va _ p => l1Drop (dropWalks s1) fun l => unitInScope w scope l.core && l.vpages.contains p
  | _ => dropWalks s1

/-- TLBI (R201). In a VF a form acts on the function's own VMID only. -/
def tlbi (scope : Nat) (bad : Warp → Bool) (q : Warp → TlbiSel) (s : State) : Out :=
  sysForm s fun w _ =>
    let uid := s.cur.warp
    let pf := s.cur.path
    let mine := (warpXlate s w).vmid
    let own := fun v => w.fn = 0 || v = mine
    if bad w then trapS s 0x133
    else
      let foreign := match q w with | .vmid v => w.fn ≠ 0 && v ≠ mine | _ => false
      if foreign then trapS s 0x137
      else if !fenceReady s uid pf (if scope = 2 then 4 else 3) ||
          tlbiPending s w scope own (q w) || tlbiPackets s w scope own (q w) then stall s
      else retire (tlbiDrop s w scope own (q w)) (breakSpin (endRegion w) pf)

/-- A scalar register of the current path. -/
def curX (s : State) (w : Warp) (n : Nat) : Nat := (rx w s.cur.path n).toNat

/-- R201. -/
def execTlbiAll (scope : Nat) (s : State) : Out := tlbi scope (fun _ => false) (fun _ => .all) s
/-- R201. -/
def execTlbiVa (d a scope : Nat) (s : State) : Out :=
  tlbi scope (fun w => 2 ^ 16 ≤ curX s w d) (fun w => .va (curX s w d) (curX s w a / pageSize)) s
/-- R201. -/
def execTlbiAsid (a scope : Nat) (s : State) : Out :=
  tlbi scope (fun w => 2 ^ 16 ≤ curX s w a) (fun w => .asid (curX s w a)) s
/-- R201. -/
def execTlbiVmid (a scope : Nat) (s : State) : Out :=
  tlbi scope (fun w => 2 ^ 16 ≤ curX s w a) (fun w => .vmid (curX s w a)) s

/-! ## CTXFL and CTXLD (R202) -/

/-- The warp in a slot of a core. -/
def slotWarp (s : State) (core slot : Nat) : Option (Nat × Warp) :=
  s.warps.find? fun e => coreKey e.2 = core && e.2.slot = slot && e.2.st ≠ .saved && e.2.st ≠ .ended &&
    e.2.kind ≠ .patrol

/-- R202: the target slot that a register names; 19.3 for anything else. -/
def targetSlot (x : W64) : Option Nat := if 64 < x.toNat then none else some x.toNat

/-- R202, R227: the target of CTXFL and CTXLD: the warp in a slot, or the supervisor slot, which is there before its first
record too. -/
def ctxTarget (s : State) (core slot : Nat) : Option (State × Nat × Warp) :=
  if slot = 64 then some (supWarp s core) else (slotWarp s core slot).map fun e => (s, e.1, e.2)

/-- R23: the age queues of a warp whose context has been saved hold no valid entry. -/
def clearAges (w : Warp) : Warp :=
  { w with a := { w.a with age := clearAge w.a.age }, b := { w.b with age := clearAge w.b.age } }

/-- The warp as CTXFL of itself writes it, with S-PC = A + 4. -/
def selfImage (w : Warp) (pf : Bool) : Warp := w.modPath pf fun p => { p with pc := p.pc + 4 }

/-- R202: the warp whose CTXFL or CTXLD holds a warp stopped, while that warp is there and issues. -/
def frozenBy (s : State) (w : Warp) : Option Nat :=
  w.frozen.bind fun u => if (fget s.warps u).any resident then some u else none

/-- R202: a warp is held stopped by a context instruction of another. -/
def isFrozen (s : State) (w : Warp) : Bool := (frozenBy s w).isSome

/-- R202: the target is stopped while the context instruction of the current path waits. -/
def freeze (s : State) (u : Nat) : State :=
  if u = s.cur.warp then s else modWarp s u fun v => { v with frozen := some s.cur.warp }

/-- R202: another context instruction on the target goes first. -/
def heldElse (s : State) (v : Warp) : Bool := (frozenBy s v).any (· ≠ s.cur.warp)

/-- CTXFL (R202). The target's header and dirty lines are written to its slot, once its counters are zero (R37); the target is
stopped until then. Like any save it clears the valid bits of the target's age queues (R23). -/
def execCtxfl (d a : Nat) (s : State) : Out :=
  sysForm s fun w p =>
    let uid := s.cur.warp
    let pf := s.cur.path
    match targetSlot (rx w pf a) with
    | none => trapS s 0x133
    | some n =>
      match ctxTarget s (coreKey w) n with
      | none => trapS s 0x136
      | some (s0, u, v) =>
        if u = uid && !allDone s uid pf p || heldElse s v then stall s
        else if s0.ops.any fun o => o.warp = u then .next (freeze s0 u)
        else
          let count := n64 (dirtyRegs v).length
          match writeContext s0 u (if u = uid then selfImage v pf else v) with
          | .error (va, .bad c) =>
            let t := modWarp s u fun x => { x with frozen := none }
            .next (raiseTrap (putWarp t uid (countIssue w)) uid pf { sTrap p c with va := n64 va })
          | .error (va, x) => .next (ctxWait (freeze s0 u) u v va x)
          | .ok t =>
            let w1 := if u = uid then clearAges (cleanLines w) else w
            let t1 := if u = uid then t else putWarp t u { clearAges (cleanLines v) with frozen := none }
            retire t1 (breakSpin (endRegion (wx w1 pf d count)) pf)

/-- CTXLD (R202). -/
def execCtxld (a : Nat) (s : State) : Out :=
  sysForm s fun w _ =>
    let uid := s.cur.warp
    let pf := s.cur.path
    match targetSlot (rx w pf a) with
    | none => trapS s 0x133
    | some n =>
      match ctxTarget s (coreKey w) n with
      | none => trapS s 0x136
      | some (s0, u, v) =>
        let busy := !(liveQueue s0 u false v.a).isEmpty || !(liveQueue s0 u true v.b).isEmpty ||
          s0.ops.any fun o => o.warp = u
        if u = uid || busy then trapS s 0x136
        else if heldElse s v then stall s
        else
          let go : Out :=
            let v1 := { discardLines v with frozen := none, primed := false }
            let t := reloadWarp (putWarp s0 u { v1 with a := { v1.a with queue := [] }, b := { v1.b with queue := [] } }) u
            let back := fun (x : Warp) => if x.st = .ready then { x with st := v.st } else x
            retire (modWarp t u back) (breakSpin (endRegion w) pf)
          match readHeader s0 u v with
          | .ok _ | .error (.bad _) => go
          | .error x => .next (ctxWait (freeze s0 u) u v (slotVa s0 v) x)

/-! ## The watchdog, INJECT and GTIME (R203, R205, R206) -/

/-- WDOG.SET (R203). -/
def execWdogSet (a : Nat) (s : State) : Out :=
  sysForm s fun w _ =>
    let v := (rx w s.cur.path a).toNat
    if v ≠ 0 && (v < 1024 || 2 ^ 32 ≤ v) then trapS s 0x133
    else
      let lim := if v = 0 then (fget s.funcs w.fn).elim Config.wdLimit (·.wdlim) else v
      retire s (breakSpin (endRegion { w with wdlim := lim }) s.cur.path)

/-- WDOG.KICK (R203). -/
def execWdogKick (s : State) : Out :=
  sysForm s fun w _ =>
    .next (putWarp s s.cur.warp { advance (breakSpin w s.cur.path) s.cur.path with wdc := 0 })

/-- R416, R418: a corrected error counted on the pair that holds an address. -/
def countError (s : State) (a : Nat) : State :=
  if physKind a = 1 && isLocal a then countPair s (homeDie a) (homeFrame a) else s

/-- R413, R418: an uncorrectable word in every lane of a register's line. The spec does not say what INJECT does to a register
that has no line in the register cache: a dead one is left alone, and a live one carries the mark that its line is to have
(DESIGN CHOICE, log entry 121). -/
def poisonLine (w : Warp) (r : Nat) : Warp :=
  match fget w.regs r with
  | some v => { w with regs := fput w.regs r { v with pois := BitVec.allOnes 32 } }
  | none => w

/-- R205: INJECT of kind 0 or 1 at an address, here or on another module; a page that the host owns comes first (R352). A
corrected error of another module is counted there. -/
def injectAt (s : State) (w : Warp) (p : Path) (kind va : Nat) : Out :=
  let fin' := fun t => retire t (breakSpin (endRegion w) s.cur.path)
  match translate s (warpReq s w (p.priv == 0) .write none) va with
  | .ok a =>
    if kind = 0 then fin' (countError s a)
    else if isLocal a then fin' { s with pois := addPois s.pois (granule a) }
    else poisonAway s w va 1 [granule a] (fun t => t) fin'
  | .migrate leaf => .next (migrate s s.cur.warp w false p.pc leaf va)
  | .moving => stall s
  | .fault _ => trapS s 0x137

/-- INJECT (R205). -/
def execInject (d a : Nat) (s : State) : Out :=
  sysForm s fun w p =>
    let pf := s.cur.path
    let x := (rx w pf a).toNat
    let t := (rx w pf d).toNat
    if 4 < x then trapS s 0x133
    else if x ≤ 1 then injectAt s w p x t
    else if x = 2 then
      if 2 ^ 17 ≤ t then trapS s 0x133
      else match slotWarp s (coreKey w) (fld t 5 0) with
      | none => trapS s 0x137
      | some (u, v) =>
        if u = s.cur.warp then retire s (breakSpin (endRegion (poisonLine w (fld t 16 6))) pf)
        else retire (putWarp s u (poisonLine v (fld t 16 6))) (breakSpin (endRegion w) pf)
    else if t ≠ 0 then trapS s 0x133
    else if x = 3 then retire s (breakSpin (endRegion (w.modPath pf fun q => { q with residue := true })) pf)
    else retire s (breakSpin (endRegion (w.modPath pf fun q => { q with dropPkt := true })) pf)

/-- GTIME (R206). -/
def execGtime (d : Nat) (s : State) : Out :=
  onPath s fun w p =>
    if !allIssued p then stall s
    else
      let (s1, g) := readTime s w.fn
      retire s1 (breakSpin (wx w s.cur.path d g) s.cur.path)

/-! ## Patrol-core instructions (R207, R208) -/

/-- A form that runs only on a patrol core (R188). -/
def patrolForm (s : State) (f : Warp → Path → Out) : Out :=
  privileged s fun w p => if w.kind ≠ .patrol then trapS s 0x138 else if !allIssued p then stall s else f w p

/-- The cluster that a form names; 22.0 when it is invalid or absent. -/
def withCluster (s : State) (a : Nat) (f : Warp → Path → Nat → Out) : Out :=
  patrolForm s fun w p =>
    let x := (rx w s.cur.path a).toNat
    if 3 < x || !clusterPresent s w.die x then trapS s 0x160 else f w p x

/-- The pairs of a cluster. -/
def pairInCluster (die c d pair : Nat) : Bool := d = die && pair / 16 = c

/-- R380, R382: a quiesce of a cluster begins: dispatch closes and every resident block is saved. -/
def beginQuiesce (s : State) (die c : Nat) : State :=
  saveWhere (putCluster s die c { clusterAt s die c with st := .quiescing, fresh := false }) (pairInCluster die c)

/-- QUIESCE (R207). -/
def execQuiesce (d a : Nat) (s : State) : Out :=
  withCluster s a fun w _ c =>
    let done := fun t v => retire t (breakSpin (endRegion (wx w s.cur.path d v)) s.cur.path)
    match (clusterAt s w.die c).st with
    | .run => done (beginQuiesce s w.die c) 0
    | .quiescing => done s 2
    | _ => done s 1

/-- R383: the bytes of a retention image that its CRC covers: the enable mask, the redundancy repair, the clock trims, FSEL and
the context bases. Their order and widths are the model's (DESIGN CHOICE, log entry 115). -/
def retBytes (m : RetImage) : List Byte :=
  leBytes 4 ((List.range 32).foldl (fun t i => if m.off.contains i then t else t + 2 ^ i) 0) ++ leBytes 8 m.repair.toNat ++
    leBytes 8 m.trims.toNat ++ leBytes 1 m.fsel ++ m.bases.flatMap fun b => leBytes 8 b.toNat

/-- R384: the check of a retention image. -/
def retGood (m : RetImage) : Bool := m.crc = crc32c (retBytes m)

/-- R383: the retention image of a cluster. -/
def retImage (s : State) (die c seq : Nat) : RetImage :=
  let x := clusterAt s die c
  let m : RetImage :=
    { seq := seq, fsel := x.fsel, repair := x.repair, trims := x.trims,
      off := (List.range 32).filter fun i => !coreOn s die (32 * c + i),
      bases := (List.range 32).map fun i => (supOf s (128 * die + 32 * c + i)).base, crc := 0 }
  { m with crc := crc32c (retBytes m) }

/-- R384: a bit of a retention image flipped, by its number in the bytes that the CRC covers; a number beyond them names a bit
of the CRC. -/
def flipImage (m : RetImage) (n : Nat) : RetImage :=
  if n < 32 then { m with off := if m.off.contains n then m.off.filter (· ≠ n) else ninsert m.off n }
  else if n < 96 then { m with repair := m.repair ^^^ n64 (2 ^ (n - 32)) }
  else if n < 160 then { m with trims := m.trims ^^^ n64 (2 ^ (n - 96)) }
  else if n < 162 then { m with fsel := m.fsel ^^^ 2 ^ (n - 160) }
  else if n < 162 + 64 * m.bases.length then
    { m with bases := m.bases.modify ((n - 162) / 64) fun b => b ^^^ n64 (2 ^ ((n - 162) % 64)) }
  else { m with crc := m.crc ^^^ 2 ^ (n % 32) }

/-- An error of the retention store in the image of a cluster. -/
def retFlip (s : State) (die c n : Nat) : State :=
  if clusterPresent s die c then
    putCluster s die c { clusterAt s die c with img := (clusterAt s die c).img.map (flipImage · n) }
  else s

/-- RETSAVE (R207, R383). -/
def execRetsave (d a : Nat) (s : State) : Out :=
  withCluster s a fun w _ c =>
    let x := clusterAt s w.die c
    if x.st ≠ .quiesced then trapS s 0x161
    else
      let p := patrolAt s w.die
      let seq := (p.retSeq + 1) % 2 ^ 32
      let s1 := putPatrol s w.die { p with retSeq := seq }
      let s2 := putCluster s1 w.die c { x with img := some (retImage s w.die c seq), seqReg := seq, fresh := true }
      retire s2 (breakSpin (endRegion (wx w s.cur.path d (n64 seq))) s.cur.path)

/-- R384: the supervisor slots of a cluster created again from their context bases; the address of the slot's handler
table is the one that firmware keeps (R197). -/
def recreateSups (s : State) (die c : Nat) (m : RetImage) : State :=
  let again := fun (t : State) (i : Nat) =>
    let k := 128 * die + 32 * c + i
    let u := { supOf t k with base := m.bases.getD i (supOf t k).base, cur := none }
    { t with cores := { t.cores with sups := fput t.cores.sups k u } }
  let s1 := (List.range 32).foldl again s
  ((s1.warps.filter fun e => e.2.kind = .supervisor && e.2.die = die && e.2.core / 32 = c && e.2.st = .saved).map (·.1)).foldl
    reviveSup s1

/-- R383, R384: the enable mask of an image applied to the cores of a cluster; a pair that an evacuation has disabled stays so
(R417). -/
def applyMask (s : State) (die c : Nat) (off : List Nat) : State :=
  match siteOf s die with
  | none => s
  | some (n, t) =>
    let lost := (off.filter fun i => coreOn s die (32 * c + i)).map fun i => 32 * c + i
    { s with sites := fput s.sites n { t with gone := lost.foldl ninsert t.gone } }

/-- R384: a valid image applied. -/
def applyImage (s : State) (die c : Nat) (x : Cluster) (m : RetImage) : State :=
  let y := { x with st := .quiesced, fsel := m.fsel, repair := m.repair, trims := m.trims }
  recreateSups (putCluster (applyMask s die c m.off) die c y) die c m

/-- RETLOAD (R207, R384). A cluster whose image has failed its check stays in RESET until the next cold start. -/
def execRetload (d a : Nat) (s : State) : Out :=
  withCluster s a fun w _ c =>
    let x := clusterAt s w.die c
    let done := fun t v => retire t (breakSpin (endRegion (wx w s.cur.path d v)) s.cur.path)
    match x.img with
    | none => trapS s 0x162
    | some m =>
      let good := retGood m && !x.failed
      if !x.clkAck || !x.railGood then trapS s 0x162
      else if x.st = .run || x.st = .quiescing then done s (if good then 0 else 1)
      else if good then done (applyImage s w.die c x m) 0
      else
        let y := { x with failed := x.failed || x.st = .reset }
        done (raiseVector (putCluster s w.die c y) 0 3) 1

/-- HALT (R208, R386): it does not stop when a wake request is pending. -/
def execHalt (s : State) : Out :=
  patrolForm s fun w _ =>
    let p := patrolAt s w.die
    let s1 := if p.wake = 0 then putPatrol s w.die { p with halted := true } else s
    retire s1 (breakSpin (endRegion w) s.cur.path)

end Sys2Proof.Machine
end

