-- ==== Sys2Proof/Machine/Power.lean ====
section
/-! DEFINITION. Power (R375 to R386): the handshake of a cluster, the requests of CLCTL, and waking. -/

namespace Sys2Proof.Machine

/-! ## The handshake (R380, R382) -/

/-- An engine operation of a cluster's pairs is outstanding. -/
def clusterEngines (s : State) (die c : Nat) : Bool :=
  s.ops.any fun o =>
    match o.body with
    | .batch _ | .coll _ => (fget s.warps o.warp).any fun w => w.die = die && w.core / 32 = c
    | _ => false

/-- A block warp is resident on a cluster, or a supervisor slot of it is at work (R382). -/
def clusterBusy (s : State) (die c : Nat) : Bool :=
  s.warps.any fun e =>
    let w := e.2
    w.die = die && w.core / 32 = c &&
      ((w.kind = .kernel && w.st ≠ .saved && w.st ≠ .ended) ||
       (w.kind = .supervisor && w.st ≠ .idle && w.st ≠ .saved))

/-- R382: the supervisor slot of a core flushed as by CTXFL, its lines left in its slot; that of a core which has handled no
record yet as it was made. Nothing is flushed where its context is not mapped. -/
def flushSup (s : State) (core : Nat) : State :=
  let (t, u, w) := supWarp s core
  if w.st = .saved then s
  else match writeContext t u w with
    | .ok t1 => putWarp t1 u { dropLines w with st := .saved }
    | .error _ => s

/-- The enabled cores of a cluster. -/
def clusterCores (s : State) (die c : Nat) : List Nat :=
  ((List.range 32).filter fun i => coreOn s die (32 * c + i)).map fun i => 128 * die + 32 * c + i

/-- CLUSTER_QUIESCED (R380, R382): the supervisor slots are flushed, and the cluster is QUIESCED. -/
def execClusterQuiesced (die cluster : Nat) (s : State) : Out :=
  let x := clusterAt s die cluster
  if x.st ≠ .quiescing || clusterBusy s die cluster || clusterEngines s die cluster then .next s
  else .next (putCluster ((clusterCores s die cluster).foldl flushSup s) die cluster { x with st := .quiesced })

/-- CLKACK_CHANGE (R380): the clock stops or starts as CLKREQ asks. -/
def execClkackChange (die cluster : Nat) (s : State) : Out :=
  let x := clusterAt s die cluster
  match x.st with
  | .quiesced => if x.clkReq then .next s
      else .next (putCluster s die cluster { x with st := .clkoff, clkAck := false })
  | .clkoff => if x.clkReq then .next (putCluster s die cluster { x with st := .quiesced, clkAck := true }) else .next s
  | .railup => if x.clkReq then .next (putCluster s die cluster { x with st := .reset, clkAck := true }) else .next s
  | _ => .next s

/-- R382: what a cluster loses with its rail. -/
def dropCluster (s : State) (die c : Nat) : State :=
  let mine := fun k => k / 128 = die && k % 128 / 32 = c
  { s with cores := { s.cores with l1 := s.cores.l1.filter fun l => !mine l.core,
                                   tlb := s.cores.tlb.filter fun t => !(t.unit < 65536 && mine t.unit),
                                   replay := ffilter s.cores.replay fun k _ => !mine k } }

/-- RAILGOOD_CHANGE (R380): a falling rail completes its fall; then it rises when RAILREQ asks. -/
def execRailgoodChange (die cluster : Nat) (s : State) : Out :=
  let x := clusterAt s die cluster
  match x.st with
  | .railoff =>
    if x.railGood then .next (dropCluster (putCluster s die cluster { x with railGood := false }) die cluster)
    else if x.railReq then .next (putCluster s die cluster { x with st := .railup, railGood := true })
    else .next s
  | _ => .next s

/-! ## Requests of CLCTL -/

/-- A value of CLCTL with one bit replaced. -/
def withBit (v i : Nat) (on : Bool) : Nat := if bitAt v i = on then v else if on then v + 2 ^ i else v - 2 ^ i

/-- CLCTL of a present cluster written. -/
def askCluster (s : State) (die c v : Nat) : State := if clusterPresent s die c then setClctl s die c v else s

/-- CLCTL_CLKREQ (R380, R381). -/
def execClctlClkreq (die cluster : Nat) (on : Bool) (s : State) : Out :=
  .next (askCluster s die cluster (withBit (clctl s die cluster) 0 on))

/-- CLCTL_RAILREQ (R380, R381). -/
def execClctlRailreq (die cluster : Nat) (on : Bool) (s : State) : Out :=
  .next (askCluster s die cluster (withBit (clctl s die cluster) 1 on))

/-- CLCTL_RESUME (R380, R381). -/
def execClctlResume (die cluster : Nat) (s : State) : Out :=
  .next (askCluster s die cluster (withBit (clctl s die cluster) 2 true))

/-! ## Waking (R385, R386) -/

/-- WAKE (R385): the message of a non-owner is dropped. -/
def execWake (m die mask : Nat) (s : State) : Out :=
  if !isOwner s m then .next (dropMaster s m)
  else if harvested s die then .next s
  else
    let p := patrolAt s die
    .next (putPatrol s die { p with wake := p.wake ||| BitVec.ofNat 4 mask })

/-- PATROL_WAKE (R208, R386): a REQ bit or an interrupt resumes a halted patrol core. -/
def execPatrolWake (die : Nat) (s : State) : Out :=
  let p := patrolAt s die
  if p.halted && !p.dead then .next (putPatrol s die { p with halted := false }) else .next s

end Sys2Proof.Machine
end

