-- ==== Sys2Proof/Machine/Partition.lean ====
section
/-! DEFINITION. Partitions (R388 to R397), meters' snapshots (R398, R399), and the remapping of virtual dies (R365,
R366). -/

namespace Sys2Proof.Machine

/-! ## Requests (R391) -/

/-- R391: the status of a response. -/
def partStatus (s : State) (v : Nat) : State := { s with parts := { s.parts with status := some v } }

/-- R391: a request of the owner; status 4 for another master. While a CLUSTER is in progress it waits. -/
def partReq (s : State) (m : Nat) (f : State) : Out :=
  if s.parts.job.isSome then .next s else .next (if isOwner s m then f else partStatus (dropMaster s m) 4)

/-- The state with a partition replaced. -/
def putPart (s : State) (p : Nat) (x : Part) : State :=
  { s with parts := { s.parts with parts := fput s.parts.parts p x } }

/-- A request about a partition that exists on the module; status 6 for one that does not. -/
def onPart (s : State) (m p : Nat) (f : Part → State) : Out :=
  partReq s m (match fget s.parts.parts p with
    | none => partStatus s 6
    | some x => f x)

/-- CREATE (R391). -/
def execCreate (m part : Nat) (s : State) : Out :=
  partReq s m
    (if part = 0 || 4095 < part then partStatus s 6
     else if (fget s.parts.parts part).isSome then partStatus s 2
     else
       let s1 := putPart s part Part.reset
       partStatus { s1 with parts := { s1.parts with finals := fdel s1.parts.finals part } } 0)

/-- R391: a partition owns a cluster, function, page or port. -/
def ownsAny (s : State) (p : Nat) : Bool :=
  p = 0 || (s.parts.clusters.any fun e => e.2 = p) || (s.parts.pages.any fun e => e.2 = p) ||
    (s.parts.portOwn.any fun e => e.2 = p) || s.funcs.any fun e => e.2.part = p

/-- R399: the 160 bytes of a snapshot. -/
def snapshotBytes (s : State) (p : Nat) (x : Part) (final : Bool) (snap : Nat) : List Byte :=
  leBytes 1 1 ++ leBytes 1 (b2n final) ++ leBytes 2 p ++ leBytes 2 Config.moduleNo ++ leBytes 2 0 ++ leBytes 8 snap ++
    leBytes 8 s.mgmt.tb ++ leBytes 8 0 ++ (List.range 16).flatMap fun i => leBytes 8 (fgetD 0 x.meters i)

/-- DESTROY (R391, R394, R399). -/
def execDestroy (m part : Nat) (s : State) : Out :=
  partReq s m
    (match fget s.parts.parts part with
     | none => partStatus s 2
     | some x =>
       if ownsAny s part then partStatus s 2
       else partStatus { s with parts := { s.parts with
         parts := fdel s.parts.parts part,
         finals := fput s.parts.finals part (snapshotBytes s part x true (x.snaps + 1)) } } 0)

/-! ## Clusters (R392) -/

/-- The roots of the tables in force of the functions outside a partition. -/
def foreignRoots (s : State) (p : Nat) : List Nat :=
  dedup (((s.funcs.filter fun e => e.2.part ≠ p).map fun e => homeRoot e.1 e.2.xd) ++
    (s.launches.filter fun e => launchOpen e.2 && partOf s e.2.fn ≠ p).map fun e => homeRoot e.2.fn e.2.xd)

/-- R391: a page of a function outside p is homed in the frames of a cluster; a page that moves lies in both its homes. -/
def foreignHomed (s : State) (p die c : Nat) : Bool :=
  let lo := frameBase + Config.moduleNo * 2 ^ 29 + die * 2 ^ 27 + 16 * c * pageSize
  ((foreignRoots s p).flatMap (leavesOf s)).any fun a =>
    let l := readLeaf s a
    let inside := fun h => lo ≤ h && h < lo + 16 * pageSize
    l.kind = 1 && ((l.hs = 2 && inside (homePage 1 l.home)) || (l.rv && inside (homePage 1 l.rhome)))

/-- R392, step 2: the walk-ahead TLB entries of a die that belong to a partition dropped. -/
def dropEngineTlb (s : State) (die q : Nat) : State :=
  { s with cores := { s.cores with tlb := s.cores.tlb.filter fun t =>
      !(65536 ≤ t.unit && (t.unit - 65536) / 16 = die && t.part = q) } }

/-- R392, steps 2 to 4. -/
def giveCluster (s : State) (p die c : Nat) : State :=
  let q := clusterOwner s die c
  let lo := frameBase + Config.moduleNo * 2 ^ 29 + die * 2 ^ 27 + 16 * c * pageSize
  let s1 := dropEngineTlb (dropCluster s die c) die q
  let s2 := { s1 with
    mem := zeroRange s1.mem lo (16 * pageSize),
    pois := s1.pois.filter fun g => !(granule lo ≤ g && g < granule (lo + 16 * pageSize)),
    parts := { s1.parts with clusters := fputD 0 s1.parts.clusters (clusterKey s die c) p } }
  let x := clusterAt s2 die c
  if x.st = .quiesced then reopenSups (putCluster s2 die c (resumeCluster x)) die c else s2

/-- The state with the CLUSTER request in progress replaced. -/
def putJob (s : State) (j : Option (Nat × Nat × Nat)) : State := { s with parts := { s.parts with job := j } }

/-- R392: a CLUSTER request goes on: the cluster quiesces, and then changes its owner. -/
def runCluster (s : State) (p die c : Nat) : State :=
  match (clusterAt s die c).st with
  | .run => putJob (beginQuiesce s die c) (some (p, die, c))
  | .quiescing => putJob s (some (p, die, c))
  | _ => putJob (partStatus (giveCluster s p die c) 0) none

/-- CLUSTER (R391, R392). The request is judged once, before it changes anything. -/
def execCluster (m part die cluster : Nat) (s : State) : Out :=
  if s.parts.job = some (part, die, cluster) then .next (runCluster s part die cluster)
  else onPart s m part fun _ =>
    if 3 < cluster || !clusterPresent s die cluster then partStatus s 6
    else if foreignHomed s part die cluster then partStatus s 2
    else runCluster s part die cluster

/-! ## The other commands (R391, R394 to R397) -/

/-- FUNC (R391). -/
def execFuncJoin (m part fn : Nat) (s : State) : Out :=
  onPart s m part fun _ =>
    match fget s.funcs fn with
    | none => partStatus s 6
    | some f =>
      let busy := (s.launches.any fun e => e.2.fn = fn && launchOpen e.2) ||
        s.warps.any fun e => e.2.kind = .kernel && e.2.fn = fn
      if fn = 0 || busy || !f.grants.isEmpty then partStatus s 2
      else partStatus (modFunc s fn fun f => { f with part := part }) 0

/-- R336: an LPDDR page of this module on a present die, outside firmware's own memory (R389). -/
def pagePresent (s : State) (n : Nat) : Bool :=
  physKind (n * pageSize) = 0 && n * pageSize < 2 ^ 47 && isLocal (n * pageSize) && !harvested s (homeDie (n * pageSize)) &&
    !firmwareOwned (n * pageSize)

/-- R391: a page is mapped, in a pool, among those that the PF's pool holds unzeroed (R329), or allocated to a page elsewhere. -/
def pageTaken (s : State) (p : Nat) : Bool := pageMapped s p || pooled s p || s.mgmt.freed.contains p || pageKept s p

/-- PAGES (R391): the pages are tagged and zeroed. -/
def execPages (m part first count : Nat) (s : State) : Out :=
  onPart s m part fun _ =>
    let l := (List.range count).map (first + ·)
    if l.any fun n => !pagePresent s n then partStatus s 6
    else if l.any fun n => pageTaken s (n * pageSize) then partStatus s 2
    else
      let lo := first * pageSize
      let hi := (first + count) * pageSize
      partStatus { s with
        mem := zeroRange s.mem lo (hi - lo), pois := s.pois.filter fun g => !(granule lo ≤ g && g < granule hi),
        parts := { s.parts with pages := l.foldl (fun t n => fputD 0 t n part) s.parts.pages } } 0

/-- R396: a partition with its weight on a port. -/
def putWeight (s : State) (p port w : Nat) : State :=
  { s with parts := { s.parts with parts := fmod s.parts.parts p fun x => { x with ports := fputD 0 x.ports port w } } }

/-- PORT (R391, R396): weight 0 makes the owner's port its own outright; a weight on a port that its owner holds outright
gives the port, and one on a shared port a share. Packets that are left without a usable route are dropped (R408). -/
def execPort (m part port weight : Nat) (s : State) : Out :=
  onPart s m part fun _ =>
    let o := fgetD 0 s.parts.portOwn port
    if 15 < port || 255 < weight || (weight = 0 && o ≠ part) then partStatus s 6
    else
      let s1 := putWeight s part port weight
      let s2 := if weight ≠ 0 && portWeight s o port = 0 then
          { s1 with parts := { s1.parts with portOwn := fputD 0 s1.parts.portOwn port part } }
        else s1
      partStatus ((destinations s2).foldl dropRouteless s2) 0

/-- QOS (R391, R397). -/
def execQos (m part wdm wsh wan : Nat) (s : State) : Out :=
  onPart s m part fun x =>
    if [wdm, wsh, wan].any fun w => w = 0 || 255 < w then partStatus s 6
    else partStatus (putPart s part { x with wdm := wdm, wsh := wsh, wan := wan }) 0

/-- R394: a member's function belongs to the partition or to one that it has bound. Which functions another module has is not
known here. -/
def memberOk (s : State) (p : Nat) (x : Part) (e : Nat × Nat) : Bool :=
  e.1 ≠ Config.moduleNo || (fget s.funcs e.2).any fun f => f.part = p || x.binds.any fun b => b.2 = f.part

/-- GROUP (R391, R394). -/
def execGroup (m part group : Nat) (members : List (Nat × Nat)) (s : State) : Out :=
  onPart s m part fun x =>
    if (fget x.groups group).isSome then partStatus s 2
    else if members.length < 2 || 65536 < members.length || !members.all (memberOk s part x) then partStatus s 6
    else partStatus (putPart s part { x with groups := fput x.groups group members }) 0

/-- BIND (R391, R395). -/
def execBind (m part pod remote : Nat) (s : State) : Out :=
  onPart s m part fun x =>
    if pod = Config.podNo then partStatus s 6
    else partStatus (putPart s part { x with binds := fput x.binds pod remote }) 0

/-- R395: the function that the gateway translates for: the lowest-numbered one of a partition. -/
def gatewayFunc (s : State) (p : Nat) : Option Nat :=
  ((s.funcs.filter fun e => e.2.enabled && e.2.part = p).map (·.1)).min?

/-- R389, R395, R398: an element that another pod's gateway brings for a partition, written by the address in the partition's
space there. One whose address does not translate, or whose home is not here, is not performed (DESIGN CHOICE, log entry 122). -/
def gateway (s : State) (p va : Nat) (bytes : List Byte) (pois : Bool) : State :=
  match gatewayFunc s p with
  | none => s
  | some fn =>
    match translate s { deviceReq s fn .write with anyOwner := false } va with
    | .ok a =>
      if !isLocal a then s
      else addMeter { s with
        mem := wrBytes s.mem a bytes,
        pois := if pois then (granulesOf a bytes.length).foldl addPois s.pois else clearCovered s.pois a bytes.length }
        p 12 bytes.length
    | _ => s

/-- GET_MEASUREMENTS (R399): a snapshot on the channel of a function of the partition, or of the owner, which also reads
the FINAL one. -/
def execGetMeasurements (requester part : Nat) (viaOwner : Bool) (s : State) : Out :=
  let may := if viaOwner then isOwner s requester else (fget s.funcs requester).any fun f => f.part = part
  if !may then .next s
  else match fget s.parts.parts part with
  | some x =>
    let b := snapshotBytes s part x false (x.snaps + 1)
    let s1 := putPart s part { x with snaps := x.snaps + 1 }
    .next { s1 with parts := { s1.parts with snapshot := some b } }
  | none =>
    match viaOwner, fget s.parts.finals part with
    | true, some b => .next { s with parts := { s.parts with snapshot := some b } }
    | _, _ => .next s

/-! ## Remapping (R365, R366) -/

/-- The status of a remapping: 0 done, 2 refused. -/
def remapStatus (s : State) (v : Nat) : State := { s with mgmt := { s.mgmt with status := some v } }

/-- R366: a frame homed on a die has one of parts 16 to 31 present. -/
def upperParts (s : State) (die : Nat) : Bool :=
  (List.range 64).any fun f => (partsMapped s die f).any fun n => 16 ≤ n

/-- R366: the new site of a die cannot hold the die's frames. -/
def siteRefuses (s : State) (die site : Nat) : Bool :=
  (fget s.sites site).all fun t => !t.present || (!t.sd && upperParts s die)

/-- R365, step 1: dispatch stops on dies, and their resident blocks are saved. -/
def stopDies (s : State) (dies : List Nat) : State :=
  saveWhere { s with mgmt := { s.mgmt with remaps := dies } } fun d _ => dies.contains d

/-- A block is placed on one of the dies. -/
def diesBusy (s : State) (dies : List Nat) : Bool := s.blocks.any fun e => e.2.placed && dies.contains e.2.die

/-- The values of two sites' keys exchanged in a table keyed by 4 × site + cluster. -/
def swapSites {α : Type} (m : FMap α) (a b : Nat) : FMap α :=
  m.foldl (fun t e => fput t ((if e.1 / 4 = a then b else if e.1 / 4 = b then a else e.1 / 4) * 4 + e.1 % 4) e.2) []

/-- A key of 64 × die + pair with two dies exchanged. -/
def swapDie (a b k : Nat) : Nat := (if k / 64 = a then b else if k / 64 = b then a else k / 64) * 64 + k % 64

/-- The values of two dies' keys exchanged in a table keyed by 64 × die + pair. -/
def swapDies {α : Type} (m : FMap α) (a b : Nat) : FMap α := m.foldl (fun t e => fput t (swapDie a b e.1) e.2) []

/-- R366: launches with saved or unplaced blocks on a die whose pairs are now too small. -/
def tooSmall (s : State) (die : Nat) (l : Launch) : Bool :=
  l.st = .admitted && pairCapacity s die < l.lrec.spbytes &&
    ((l.back.any fun b => (fget s.blocks b).any fun k => k.die = die) ||
      l.placedN.getD die 0 < (l.gate.getD die (0, 0)).2)

/-- R366: those launches purged. -/
def purgeMisfits (s : State) (die : Nat) : State :=
  (s.launches.filter fun e => tooSmall s die e.2).foldl (fun t e => purgeKey t e.2.fn e.2.lrec.tag 0x152) s

/-- R365, steps 2 to 4: the bytes of the dies' pages go with the virtual die, and so do the owners of their clusters;
the binding is switched, and dispatch resumes. -/
def rebind (s : State) (bind : FMap Nat) (dies : List Nat) (a b : Nat) : State :=
  let s1 := { s with
    bind := bind, parts := { s.parts with clusters := swapSites s.parts.clusters a b },
    cores := { s.cores with l1 := s.cores.l1.filter fun l => !dies.contains (l.core / 128),
                            tlb := s.cores.tlb.filter fun t => !(t.unit < 65536 && dies.contains (t.unit / 128)) },
    mgmt := { s.mgmt with remaps := [] } }
  remapStatus (dies.foldl purgeMisfits s1) 0

/-- REMAP_MOVE (R365, R366). -/
def execRemapMove (m die site : Nat) (s : State) : Out :=
  if !isOwner s m then .next (dropMaster s m)
  else if s.mgmt.remaps.isEmpty && (3 < die || (s.bind.any fun e => e.2 = site) || siteRefuses s die site) then
    .next (remapStatus s 2)
  else if s.mgmt.remaps ≠ [] && s.mgmt.remaps ≠ [die] then .next s
  else if s.mgmt.remaps.isEmpty || diesBusy s [die] then .next (stopDies s [die])
  else
    let old := fgetD site s.bind die
    let e := s.mgmt.errors.filter fun e => e.1 / 64 ≠ die
    .next (rebind { s with mgmt := { s.mgmt with errors := e, evac := s.mgmt.evac.filter fun k => k / 64 ≠ die } } (fput s.bind die site) [die] old site)

/-- REMAP_SWAP (R365, R366). -/
def execRemapSwap (m d1 d2 : Nat) (s : State) : Out :=
  match fget s.bind d1, fget s.bind d2 with
  | some a, some b =>
    if !isOwner s m then .next (dropMaster s m)
    else if s.mgmt.remaps.isEmpty && (d1 = d2 || siteRefuses s d1 b || siteRefuses s d2 a) then .next (remapStatus s 2)
    else if s.mgmt.remaps ≠ [] && s.mgmt.remaps ≠ [d1, d2] then .next s
    else if s.mgmt.remaps.isEmpty || diesBusy s [d1, d2] then .next (stopDies s [d1, d2])
    else
      let t := { s with mgmt := { s.mgmt with errors := swapDies s.mgmt.errors d1 d2, evac := s.mgmt.evac.map (swapDie d1 d2) } }
      .next (rebind t (fput (fput s.bind d1 b) d2 a) [d1, d2] a b)
  | _, _ => .next (ownerReq s m (remapStatus s 2))

end Sys2Proof.Machine
end

