-- ==== Sys2Proof/Machine/Reliab.lean ====
section
/-! DEFINITION. Reliability (R256, R409 to R418): the checkers, the replay queue, the scrub, predictive evacuation, and
the age of L1 lines. -/

namespace Sys2Proof.Machine

/-! ## The checkers (R410, R411) -/

/-- R410: the clause whose last issued word is the one that the checkers checked. -/
def checkedClause (p : Path) (l : LastLane) : Option Clause :=
  (p.queue.filter fun c => c.addr = l.addr && c.idx = l.widx + 1).getLast?

/-- R410: the record of 2.0 about a lane instruction. -/
def checkTrap (p : Path) (l : LastLane) : Trap :=
  { sTrap p 0x20 with lane := true, impr := true, widx := l.widx, lmask := l.act, clauseAddr := l.addr }

/-- CHECKER_MISMATCH (R410): on the S-stream instruction that the path issued last, or on its last lane instruction,
from which the path is held before any reader of the result issues. -/
def execCheckerMismatch (warp : Nat) (path lane : Bool) (s : State) : Out :=
  match fget s.warps warp with
  | none => .next s
  | some w =>
    let p := w.path path
    if !p.live || !resident w || p.stopped then .next s
    else if !lane then
      .next (raiseTrap s warp path { sTrap p 0x20 with impr := true, resume := p.issued })
    else match p.last with
    | none => .next s
    | some l =>
      match checkedClause p l with
      | none => .next s
      | some c =>
        let s1 := putWarp s warp (w.setPath path (setClause p { c with idx := l.widx }))
        .next (raiseTrap s1 warp path (checkTrap p l))

/-- R411: the record of 2.1 about an entry of the replay queue. -/
def replayTrap (p : Path) (r : Replay) : Trap :=
  { sTrap p 0x21 with lane := true, impr := true, widx := r.widx, lmask := r.act, clauseAddr := r.addr }

/-- REPLAY_QUEUE_CHECK (R411): a mismatch is counted, and raised on the path that issued the entry if it still
exists; the trap of a parked or saved warp is pending until the warp runs again. -/
def execReplayQueueCheck (core entry : Nat) (mismatch : Bool) (s : State) : Out :=
  match (fgetD [] s.cores.replay core)[entry]? with
  | none => .next s
  | some r =>
    if !mismatch then .next s
    else
      let s1 := countPair s (core / 128) (core % 128 / 2)
      match fget s1.warps r.warp with
      | none => .next s1
      | some w =>
        if (w.path r.path).live && w.st ≠ .ended then .next (raiseTrap s1 r.warp r.path (replayTrap (w.path r.path) r))
        else .next s1

/-! ## Scrub and L1 age -/

/-- What a scrub reads. -/
inductive ScrubAt where
  | mem (addr : Nat)
  | sp (block off : Nat)
  | reg (warp reg lane : Nat)
  | l1 (core line : Nat)
  | bank (key gran : Nat)

/-- The model's numbering of what a scrub reads, by the part above bit 72: memory by its physical address; a byte of a
block's scratchpad; a lane word of a warp's register line; an L1 line of a core; a granule of an accumulator bank (DESIGN CHOICE, log
entry 51). -/
def scrubAt (a : Nat) : ScrubAt :=
  let lo := a % 2 ^ 72
  match a / 2 ^ 72 with
  | 0 => .mem a
  | 1 => .sp (lo / 2 ^ 40) (lo % 2 ^ 40)
  | 2 => .reg (lo / 2 ^ 40) (lo % 2 ^ 40 / 32) (lo % 32)
  | 3 => .l1 (lo / 2 ^ 48) (lo % 2 ^ 48)
  | _ => .bank (lo / 64) (lo % 64)

/-- R409, R412, R413: an uncorrectable word: its granule is poisoned, a register word marked, and an L1 line dropped. -/
def scrubBad (s : State) : ScrubAt → State
  | .mem a => { s with pois := addPois s.pois (granule a) }
  | .sp b off => { s with blocks := fmod s.blocks b fun k => { k with spPois := addPois k.spPois (granule off) } }
  | .reg u r l => modWarp s u (markWords r (laneBit l))
  | .l1 core line => l1Drop s fun l => l.core = core && l.line = line
  | .bank k g => { s with banks := fmod s.banks k fun b => { b with pois := addPois b.pois g } }

/-- R416: a corrected word counted on the pair that holds it. -/
def scrubGood (s : State) : ScrubAt → State
  | .mem a => countError s a
  | .sp b _ => (fget s.blocks b).elim s fun k => countPair s k.die k.pair
  | .reg u _ _ => (fget s.warps u).elim s fun w => countPair s w.die (w.core / 2)
  | .l1 core _ => countPair s (core / 128) (core % 128 / 2)
  | .bank k _ => countPair s (k / 4096) (k / 64 % 64)

/-- PATROL_SCRUB (R409, R412, R413, R416): an uncorrectable word is marked; a corrected one is counted. -/
def execPatrolScrub (addr : Nat) (uncorrectable : Bool) (s : State) : Out :=
  if addr < 2 ^ 72 && (physKind addr = 2 || !isLocal addr) then .next s
  else .next (if uncorrectable then scrubBad s (scrubAt addr) else scrubGood s (scrubAt addr))

/-- L1_LINE_EXPIRY (R256): a line of a core, by its home address divided by 128. -/
def execL1LineExpiry (core line : Nat) (s : State) : Out :=
  .next (l1Drop s fun l => l.core = core && l.line = line)

/-! ## Predictive evacuation (R416, R417) -/

/-- The physical address of the frame of a pair. -/
def frameAddr (die pair : Nat) : Nat := frameBase + Config.moduleNo * 2 ^ 29 + die * 2 ^ 27 + pair * pageSize

/-- R417, step 2: a frame of the die and the partition that no entry maps, that holds nothing, and whose pair lends no
granule. -/
def freeFrame (s : State) (die pair : Nat) : Option Nat :=
  (List.range 64).find? fun p =>
    p ≠ pair && pairOn s die p && clusterOwner s die (p / 16) = clusterOwner s die (pair / 16) &&
      !frameHomed s die p && !pageMapped s (frameAddr die p) && !pageKept s (frameAddr die p) && !pageUsed s (frameAddr die p) &&
      (pairBlocks s die p).all fun e => (blockRec s e.2).elim true fun r => r.spbytes = 0

/-- R417, step 3: the cores of a pair disabled. -/
def disablePair (s : State) (die pair : Nat) : State :=
  match siteOf s die with
  | none => s
  | some (n, t) =>
    { s with sites := fput s.sites n { t with gone := ninsert (ninsert t.gone (2 * pair)) (2 * pair + 1) } }

/-- R417, step 4. -/
def evacRecord (die pair : Nat) (stayed : Bool) : FRec :=
  { cause := 0, orig := 0, flags := 0, code := 0, va := 0, addr := 0, slot := 0, core := 2 * pair, die := die, tag := 0,
    fn := 0, pc := 0, data := n64 (b2n stayed), subj := .none }

/-- R417, step 2: a frame moved, in the entries that map it and in the pools that hold it. -/
def moveFrame (s : State) (page tgt : Nat) : State := s.mgmt.pools.foldl (movePool page tgt) (moveHome s page tgt)

/-- R417, steps 2 to 4. -/
def evacuate (s : State) (die pair : Nat) : State :=
  let a := frameAddr die pair
  let held := pageMapped s a || pooled s a
  let s1 := match held, freeFrame s die pair with
    | true, some p => moveFrame s a (frameAddr die p)
    | _, _ => s
  let stayed := held && (freeFrame s die pair).isNone
  raiseVector (pushRec (disablePair s1 die pair) 0 (evacRecord die pair stayed)) 0 3

/-- R417: the core pairs whose evacuation has begun, changed. -/
def modEvac (s : State) (f : List Nat → List Nat) : State := { s with mgmt := { s.mgmt with evac := f s.mgmt.evac } }

/-- PREDICTIVE_EVACUATION (R416, R417): it begins when the pair's count has passed the threshold; the blocks of the pair are
saved first, and the steps go on whatever the count is then. -/
def execPredictiveEvacuation (die pair : Nat) (s : State) : Out :=
  let key := 64 * die + pair
  if 64 ≤ pair || !pairOn s die pair || !(s.mgmt.evac.contains key || Config.evacThreshold < pairErrors s die pair) then .next s
  else if (pairBlocks s die pair).isEmpty then .next (modEvac (evacuate s die pair) fun l => l.filter (· ≠ key))
  else .next (saveWhere (modEvac s fun l => ninsert l key) fun d p => d = die && p = pair)

end Sys2Proof.Machine
end

