-- ==== Sys2Proof/Machine/SAlu.lean ====
section
/-! DEFINITION. Integer and address arithmetic of the S-stream (R99 to R102, R68 LDI). -/

namespace Sys2Proof.Machine

/-- R99: a form of two sources. -/
def alu2 (s : State) (d a b : Nat) (f : W64 → W64 → W64) : Out :=
  onPath s fun w _ => retire s (wx w s.cur.path d (f (rx w s.cur.path a) (rx w s.cur.path b)))

/-- R99, R101: a form of one source. -/
def alu1 (s : State) (d a : Nat) (f : W64 → W64) : Out :=
  onPath s fun w _ => retire s (wx w s.cur.path d (f (rx w s.cur.path a)))

/-- R101: the immediate of an SI form. -/
def imm12 (i : Nat) : W64 := w64 (sext 12 i)

/-- R99: xb[5:0]. -/
def shamt (b : W64) : Nat := b.toNat % 64

/-- 1 or 0. -/
def bit64 (c : Bool) : W64 := if c then 1 else 0

/-- R99. -/
def execAdd (d a b : Nat) (s : State) : Out := alu2 s d a b (· + ·)
/-- R99. -/
def execSub (d a b : Nat) (s : State) : Out := alu2 s d a b (· - ·)
/-- R99. -/
def execMul (d a b : Nat) (s : State) : Out := alu2 s d a b (· * ·)
/-- R99: bits [127:64] of the signed product. -/
def execMulhI64 (d a b : Nat) (s : State) : Out := alu2 s d a b fun x y => w64 (x.toInt * y.toInt / 2 ^ 64)
/-- R99: bits [127:64] of the unsigned product. -/
def execMulhN64 (d a b : Nat) (s : State) : Out := alu2 s d a b fun x y => n64 (x.toNat * y.toNat / 2 ^ 64)
/-- R100: −2^63 / −1 gives −2^63. -/
def execDivI64 (d a b : Nat) (s : State) : Out :=
  alu2 s d a b fun x y => if y = 0 then BitVec.allOnes 64 else w64 (x.toInt.tdiv y.toInt)
/-- R100. -/
def execDivN64 (d a b : Nat) (s : State) : Out :=
  alu2 s d a b fun x y => if y = 0 then BitVec.allOnes 64 else n64 (x.toNat / y.toNat)
/-- R100: the remainder takes the sign of the dividend. -/
def execRemI64 (d a b : Nat) (s : State) : Out :=
  alu2 s d a b fun x y => if y = 0 then x else w64 (x.toInt.tmod y.toInt)
/-- R100. -/
def execRemN64 (d a b : Nat) (s : State) : Out :=
  alu2 s d a b fun x y => if y = 0 then x else n64 (x.toNat % y.toNat)
/-- R99. -/
def execAnd (d a b : Nat) (s : State) : Out := alu2 s d a b (· &&& ·)
/-- R99. -/
def execOr (d a b : Nat) (s : State) : Out := alu2 s d a b (· ||| ·)
/-- R99. -/
def execXor (d a b : Nat) (s : State) : Out := alu2 s d a b (· ^^^ ·)
/-- R99. -/
def execAndn (d a b : Nat) (s : State) : Out := alu2 s d a b fun x y => x &&& ~~~ y
/-- R99. -/
def execShl (d a b : Nat) (s : State) : Out := alu2 s d a b fun x y => x <<< shamt y
/-- R99. -/
def execShr (d a b : Nat) (s : State) : Out := alu2 s d a b fun x y => x >>> shamt y
/-- R99. -/
def execSra (d a b : Nat) (s : State) : Out := alu2 s d a b fun x y => x.sshiftRight (shamt y)
/-- R99. -/
def execRor (d a b : Nat) (s : State) : Out := alu2 s d a b fun x y => x.rotateRight (shamt y)
/-- R99. -/
def execMinI64 (d a b : Nat) (s : State) : Out := alu2 s d a b fun x y => if x.toInt ≤ y.toInt then x else y
/-- R99. -/
def execMinN64 (d a b : Nat) (s : State) : Out := alu2 s d a b fun x y => if x.toNat ≤ y.toNat then x else y
/-- R99. -/
def execMaxI64 (d a b : Nat) (s : State) : Out := alu2 s d a b fun x y => if x.toInt ≤ y.toInt then y else x
/-- R99. -/
def execMaxN64 (d a b : Nat) (s : State) : Out := alu2 s d a b fun x y => if x.toNat ≤ y.toNat then y else x
/-- R99. -/
def execSltI64 (d a b : Nat) (s : State) : Out := alu2 s d a b fun x y => bit64 (x.toInt < y.toInt)
/-- R99. -/
def execSltN64 (d a b : Nat) (s : State) : Out := alu2 s d a b fun x y => bit64 (x.toNat < y.toNat)
/-- R99. -/
def execClz (d a : Nat) (s : State) : Out := alu1 s d a fun x => n64 (clzN x.toNat 64)
/-- R99. -/
def execPopc (d a : Nat) (s : State) : Out := alu1 s d a fun x => n64 (popN x.toNat 64)
/-- R99. -/
def execSextI8 (d a : Nat) (s : State) : Out := alu1 s d a fun x => w64 (sext 8 x.toNat)
/-- R99. -/
def execSextI16 (d a : Nat) (s : State) : Out := alu1 s d a fun x => w64 (sext 16 x.toNat)
/-- R99. -/
def execSextI32 (d a : Nat) (s : State) : Out := alu1 s d a fun x => w64 (sext 32 x.toNat)
/-- R99. -/
def execZextN8 (d a : Nat) (s : State) : Out := alu1 s d a fun x => n64 (x.toNat % 2 ^ 8)
/-- R99. -/
def execZextN16 (d a : Nat) (s : State) : Out := alu1 s d a fun x => n64 (x.toNat % 2 ^ 16)
/-- R99. -/
def execZextN32 (d a : Nat) (s : State) : Out := alu1 s d a fun x => n64 (x.toNat % 2 ^ 32)
/-- R99: bit i of the result is bit 63 − i. -/
def execBrev (d a : Nat) (s : State) : Out := alu1 s d a fun x => n64 (revN x.toNat 64)
/-- R102. -/
def execNop (s : State) : Out := onPath s fun w _ => retire s w
/-- R101. -/
def execAddi (d a imm : Nat) (s : State) : Out := alu1 s d a (· + imm12 imm)
/-- R101. -/
def execAndi (d a imm : Nat) (s : State) : Out := alu1 s d a (· &&& imm12 imm)
/-- R101. -/
def execOri (d a imm : Nat) (s : State) : Out := alu1 s d a (· ||| imm12 imm)
/-- R101. -/
def execXori (d a imm : Nat) (s : State) : Out := alu1 s d a (· ^^^ imm12 imm)
/-- R101. -/
def execShli (d a sh : Nat) (s : State) : Out := alu1 s d a (· <<< (sh % 64))
/-- R101. -/
def execShri (d a sh : Nat) (s : State) : Out := alu1 s d a (· >>> (sh % 64))
/-- R101. -/
def execSrai (d a sh : Nat) (s : State) : Out := alu1 s d a fun x => x.sshiftRight (sh % 64)
/-- R101. -/
def execSltiI64 (d a imm : Nat) (s : State) : Out := alu1 s d a fun x => bit64 (x.toInt < (imm12 imm).toInt)
/-- R101. -/
def execSltiN64 (d a imm : Nat) (s : State) : Out := alu1 s d a fun x => bit64 (x.toNat < (imm12 imm).toNat)
/-- R68: K = 0 clears every other bit. -/
def execLdi (d pos imm : Nat) (s : State) : Out :=
  onPath s fun w _ => retire s (wx w s.cur.path d (n64 (imm % 2 ^ 16) <<< (16 * pos)))
/-- R68: K = 1 keeps every other bit. -/
def execLdiK (d pos imm : Nat) (s : State) : Out :=
  alu1 s d d fun x => (x &&& ~~~ (n64 0xFFFF <<< (16 * pos))) ||| (n64 (imm % 2 ^ 16) <<< (16 * pos))

end Sys2Proof.Machine
end

