-- ==== Sys2Proof/Machine/SMask.lean ====
section
/-! DEFINITION. Mask operations and lane–scalar transfer (R111, R112). -/

namespace Sys2Proof.Machine

/-- R111: a form that writes a mask. -/
def kop (s : State) (d : Nat) (f : Warp → W32) : Out := onPath s fun w _ => retire s (wk w s.cur.path d (f w))

/-- R111. -/
def execKand (d a b : Nat) (s : State) : Out := kop s d fun w => rk w s.cur.path a &&& rk w s.cur.path b
/-- R111. -/
def execKor (d a b : Nat) (s : State) : Out := kop s d fun w => rk w s.cur.path a ||| rk w s.cur.path b
/-- R111. -/
def execKxor (d a b : Nat) (s : State) : Out := kop s d fun w => rk w s.cur.path a ^^^ rk w s.cur.path b
/-- R111. -/
def execKandn (d a b : Nat) (s : State) : Out := kop s d fun w => rk w s.cur.path a &&& ~~~ rk w s.cur.path b
/-- R111. -/
def execKnot (d a : Nat) (s : State) : Out := kop s d fun w => ~~~ rk w s.cur.path a
/-- R111. -/
def execKmov (d a : Nat) (s : State) : Out := kop s d fun w => rk w s.cur.path a
/-- R111. -/
def execKsetx (d n : Nat) (s : State) : Out := kop s d fun w => (rx w s.cur.path n).setWidth 32
/-- R111. -/
def execKgetx (n a : Nat) (s : State) : Out :=
  onPath s fun w _ => retire s (wx w s.cur.path n ((rk w s.cur.path a).setWidth 64))

/-- R83, R147: a load or atomic of a path has yet to write one of n registers; in a handler it belongs to a clause before
the one that is held. -/
def loadPending (s : State) (uid : Nat) (pf : Bool) (v n : Nat) : Bool :=
  s.ops.any fun o => owns o uid pf && match o.body with
    | .mem m => m.dst.any fun d => v ≤ d && d < v + n
    | _ => false

/-- R97: VGET, VPUT and LIVE.DEAD wait for earlier clauses and for the loads and drains that write the registers named. -/
def transferReady (s : State) (p : Path) (v n : Nat) : Bool :=
  allDone s s.cur.warp s.cur.path p && !drainPending s s.cur.warp s.cur.path v n &&
    !loadPending s s.cur.warp s.cur.path v n

/-- R413: a lane word of a register is marked poisoned. -/
def wordPoisoned (w : Warp) (vn : Nat) (m : W32) : Bool :=
  match fget w.regs vn with
  | some r => r.pois &&& m ≠ 0
  | none => false

/-- R112. A register whose line is not in the register cache waits for its fill (R39). -/
def execVget (n vn lane : Nat) (s : State) : Out :=
  onPath s fun w p =>
    if w.vregs ≤ vn then trapS s 0x81
    else if !transferReady s p vn 1 || missing w vn then stall s
    else if wordPoisoned w vn (laneBit lane) then trapS s 0x121
    else retire s (wx w s.cur.path n ((Machine.lane (vread w vn) lane).setWidth 64))

/-- R112. VPUT keeps a live register's tag; a dead one becomes b32 with its other lanes 0. -/
def execVput (n vn lane : Nat) (s : State) : Out :=
  onPath s fun w p =>
    if w.vregs ≤ vn then trapS s 0x81
    else if !p.k0.getLsbD lane then trapS s 0x25
    else if !transferReady s p vn 1 || missing w vn then stall s
    else retire s (vwrite w vn (laneBit lane) (mkLanes fun _ => (rx w s.cur.path n).setWidth 32) (vtag w vn))

end Sys2Proof.Machine
end

