-- ==== Sys2Proof/Machine/SWait.lean ====
section
/-! DEFINITION. RUNC, the waits, LIVE, MARK and LAUNCH (R110, R113 to R118). -/

namespace Sys2Proof.Machine

/-- R19, R33, R110: the x registers that a clause captures, as their numbers name them now. -/
def captureX (w : Warp) (p : Path) : FMap W64 :=
  if p.priv ≠ 0 then
    (p.x.filter fun e => e.1 < 48) ++ (w.xs.filter fun e => e.1 < 16).map fun e => (e.1 + 48, e.2)
  else p.x

/-- R110: the clause that RUNC enqueues. -/
def newClause (w : Warp) (p : Path) (a : W64) : Clause :=
  { seq := p.nextSeq, addr := a, k := p.k, x := captureX w p, priv := p.priv, hdr := none, body := [],
    started := false, idx := 0 }

/-- R110, R97: a seventeenth clause stalls the path. -/
def execRunc (n off : Nat) (s : State) : Out :=
  onPath s fun w p =>
    let pf := s.cur.path
    let a := p.lbase + rx w pf n + n64 (4 * (off % 2 ^ 19))
    let q := liveQueue s s.cur.warp pf p
    if a.toNat % 4 ≠ 0 then trapS s 0x0A
    else if 16 ≤ q.length then stall s
    else retire s (breakSpin (w.setPath pf { p with queue := q ++ [newClause w p a], nextSeq := p.nextSeq + 1 }) pf)

/-- R113. -/
def execWaitf (mask : Nat) (s : State) : Out :=
  onPath s fun w p =>
    if allIssued p && (List.range 12).all fun f => !bitAt mask f || !flagPending s s.cur.warp s.cur.path f
    then retire s w else stall s

/-- R114: WAITC on sh first closes the open batch; a threshold of 255 or more never waits, also where a merge (R31) has
left a count above 255; R255: when it completes, the core drops its L1 lines. -/
def execWaitc (a ctr : Nat) (s : State) : Out :=
  onPath s fun w p =>
    let uid := s.cur.warp
    let pf := s.cur.path
    if !allIssued p || (ctrOf ctr = .sh && !mayClose s uid pf p) then stall s
    else if ctrOf ctr = .sh && !p.batch.isEmpty then
      .next (modWarp (closeBatch s uid pf) uid endRegion)
    else if 255 ≤ (rx w pf a).toNat || counter s uid pf (ctrOf ctr) ≤ (rx w pf a).toNat then
      retire (if ctrOf ctr = .sh then l1DropCore s (coreKey w) else s) w
    else stall s

/-- R115. -/
def execLiveDead (vn cnt : Nat) (s : State) : Out :=
  onPath s fun w p =>
    if w.vregs ≤ vn + cnt then trapS s 0x81
    else if w.div then trapS s 0xA2
    else if !transferReady s p vn (cnt + 1) then stall s
    else retire s { w with regs := ffilter w.regs fun r _ => !(vn ≤ r && r ≤ vn + cnt) }

/-- R115. -/
def execLiveHot (vn cnt : Nat) (s : State) : Out :=
  onPath s fun w _ =>
    if w.vregs ≤ vn + cnt then trapS s 0x81
    else retire s { w with hot := (List.range (cnt + 1)).map (vn + ·) }

/-- R116: the mark is recorded only while the warp is whole; R240: it keeps PEND and APH; R239: a warp that runs on
stops there. -/
def recordMark (w : Warp) (a : W64) : Warp :=
  if w.div || !w.dstack.isEmpty then w
  else { w with markAddr := a, markv := true, nidem := false, runOn := false, mpend := w.pend, maph := w.aph, mlpend := w.lpend,
                mlaph := w.laph }

/-- R116, R235. -/
def execMark (s : State) : Out :=
  onPath s fun w p =>
    let pf := s.cur.path
    if !allDone s s.cur.warp pf p then stall s
    else
      let w1 := recordMark (w.modPath pf fun p => { p with age := clearAge p.age }.lift true) p.pc
      .next (putWarp s s.cur.warp { advance w1 pf with wdc := 0 })

/-- R117: the record that a user-level LAUNCH submits. -/
def callerRec (s : State) (w : Warp) (p : Path) (r : LaunchRec) : LaunchRec :=
  if p.priv = 0 then
    { r with tag := w.reqtag, prio := min r.prio ((warpLaunch s w).elim w.prio fun l => l.lrec.prio) }
  else r

/-- R262: granules read at their home by the S-stream: the core drops its lines of them, so that no later load returns an older
write. -/
def readHome (s : State) (core : Nat) (l : List Nat) : State := l.foldl (fun t a => l1Forget t core (granule a)) s

/-- The bytes of a structure at a 64-byte-aligned VA, translated granule by granule and read here or on another module, once the
path's accesses to those granules are over (R262, R269); poison is consumed (R152), and a lost route is 17.0 (R408). -/
def withBytes (s : State) (w : Warp) (q : XReq) (va n : Nat) (k : State → List Byte → Out) : Out :=
  match xlateAll s q ((List.range (n / 64)).map fun i => va + 64 * i) with
  | .error e => xlateStop s w e
  | .ok l =>
    if l.any fun a => bytesOut s s.cur.warp s.cur.path false w.block a 64 then stall s
    else match farPieces s w.fn w.reqtag (Reader.of s.cur.warp s.cur.path) (l.map fun a => (a, 64)) with
    | .ok t b bad => if bad then trapS s 0x120 else k (readHome t (coreKey w) l) b
    | .wait t => stall t
    | .lost t => .next (fabricLoss t s.cur.warp s.cur.path w.fn w.reqtag 0x110)

/-- R117: the record that a LAUNCH has read is enqueued, or the path holds it until the function has a place. -/
def launchRead (d seq : Nat) (s : State) (b : List Byte) : Out :=
  onPath s fun w p =>
    let pf := s.cur.path
    if 1024 ≤ devQueued s w.fn then
      if p.read.isSome then stall s else .next (putWarp s s.cur.warp (w.setPath pf { p with read := some b }))
    else
      let r := callerRec s w p (parseRec b)
      let id := r.tag * 2 ^ 48 + seq
      let s1 := modFunc (enqueueLaunch s w.fn true r id) w.fn fun f => { f with devSeq := seq + 1 }
      retire s1 (endRegion (wx (w.setPath pf { p with read := none }) pf d (n64 id)))

/-- R117, R118: the record is read once, and then the path waits while the function has 1,024 launches not yet admitted. -/
def execLaunch (d a : Nat) (s : State) : Out :=
  onPath s fun w p =>
    let uid := s.cur.warp
    let pf := s.cur.path
    let va := (rx w pf a).toNat
    let seq := (fget s.funcs w.fn).elim 1 (·.devSeq)
    if va % 64 ≠ 0 then trapS s 0x14E
    else if 2 ^ 47 - 1 < seq then trapS s 0x14D
    else match p.read with
    | some b => launchRead d seq s b
    | none =>
      if !allIssued p || acquireOut s uid pf || !performedAll s uid pf false then stall s
      else withBytes s w (warpReq s w (p.priv == 0) .read none) va 192 fun t b => launchRead d seq t b

end Sys2Proof.Machine
end

