-- ==== Sys2Proof/Machine/Dispatch.lean ====
section
/-! DEFINITION. The dispatch of every instruction and device event to its meaning. -/

namespace Sys2Proof.Machine

def exec (i : Instr) (s : State) : Host.Outcome State Fault Refusal :=
  match i with
  | .add d a b => Sys2Proof.Machine.execAdd d a b s
  | .sub d a b => Sys2Proof.Machine.execSub d a b s
  | .mul d a b => Sys2Proof.Machine.execMul d a b s
  | .mulhI64 d a b => Sys2Proof.Machine.execMulhI64 d a b s
  | .mulhN64 d a b => Sys2Proof.Machine.execMulhN64 d a b s
  | .divI64 d a b => Sys2Proof.Machine.execDivI64 d a b s
  | .divN64 d a b => Sys2Proof.Machine.execDivN64 d a b s
  | .remI64 d a b => Sys2Proof.Machine.execRemI64 d a b s
  | .remN64 d a b => Sys2Proof.Machine.execRemN64 d a b s
  | .and d a b => Sys2Proof.Machine.execAnd d a b s
  | .or d a b => Sys2Proof.Machine.execOr d a b s
  | .xor d a b => Sys2Proof.Machine.execXor d a b s
  | .andn d a b => Sys2Proof.Machine.execAndn d a b s
  | .shl d a b => Sys2Proof.Machine.execShl d a b s
  | .shr d a b => Sys2Proof.Machine.execShr d a b s
  | .sra d a b => Sys2Proof.Machine.execSra d a b s
  | .ror d a b => Sys2Proof.Machine.execRor d a b s
  | .minI64 d a b => Sys2Proof.Machine.execMinI64 d a b s
  | .minN64 d a b => Sys2Proof.Machine.execMinN64 d a b s
  | .maxI64 d a b => Sys2Proof.Machine.execMaxI64 d a b s
  | .maxN64 d a b => Sys2Proof.Machine.execMaxN64 d a b s
  | .sltI64 d a b => Sys2Proof.Machine.execSltI64 d a b s
  | .sltN64 d a b => Sys2Proof.Machine.execSltN64 d a b s
  | .clz d a => Sys2Proof.Machine.execClz d a s
  | .popc d a => Sys2Proof.Machine.execPopc d a s
  | .sextI8 d a => Sys2Proof.Machine.execSextI8 d a s
  | .sextI16 d a => Sys2Proof.Machine.execSextI16 d a s
  | .sextI32 d a => Sys2Proof.Machine.execSextI32 d a s
  | .zextN8 d a => Sys2Proof.Machine.execZextN8 d a s
  | .zextN16 d a => Sys2Proof.Machine.execZextN16 d a s
  | .zextN32 d a => Sys2Proof.Machine.execZextN32 d a s
  | .brev d a => Sys2Proof.Machine.execBrev d a s
  | .nop => Sys2Proof.Machine.execNop s
  | .addi d a imm => Sys2Proof.Machine.execAddi d a imm s
  | .andi d a imm => Sys2Proof.Machine.execAndi d a imm s
  | .ori d a imm => Sys2Proof.Machine.execOri d a imm s
  | .xori d a imm => Sys2Proof.Machine.execXori d a imm s
  | .shli d a sh => Sys2Proof.Machine.execShli d a sh s
  | .shri d a sh => Sys2Proof.Machine.execShri d a sh s
  | .srai d a sh => Sys2Proof.Machine.execSrai d a sh s
  | .sltiI64 d a imm => Sys2Proof.Machine.execSltiI64 d a imm s
  | .sltiN64 d a imm => Sys2Proof.Machine.execSltiN64 d a imm s
  | .ldi d pos imm => Sys2Proof.Machine.execLdi d pos imm s
  | .ldiK d pos imm => Sys2Proof.Machine.execLdiK d pos imm s
  | .b off => Sys2Proof.Machine.execB off s
  | .call n off => Sys2Proof.Machine.execCall n off s
  | .ret a => Sys2Proof.Machine.execRet a s
  | .brd kn toff joff => Sys2Proof.Machine.execBrd kn toff joff s
  | .join => Sys2Proof.Machine.execJoin s
  | .loop a off => Sys2Proof.Machine.execLoop a off s
  | .exit => Sys2Proof.Machine.execExit s
  | .beq a b off => Sys2Proof.Machine.execBeq a b off s
  | .bne a b off => Sys2Proof.Machine.execBne a b off s
  | .blt a b off => Sys2Proof.Machine.execBlt a b off s
  | .bge a b off => Sys2Proof.Machine.execBge a b off s
  | .bltu a b off => Sys2Proof.Machine.execBltu a b off s
  | .bgeu a b off => Sys2Proof.Machine.execBgeu a b off s
  | .kand d a b => Sys2Proof.Machine.execKand d a b s
  | .kor d a b => Sys2Proof.Machine.execKor d a b s
  | .kxor d a b => Sys2Proof.Machine.execKxor d a b s
  | .kandn d a b => Sys2Proof.Machine.execKandn d a b s
  | .knot d a => Sys2Proof.Machine.execKnot d a s
  | .kmov d a => Sys2Proof.Machine.execKmov d a s
  | .ksetx d n => Sys2Proof.Machine.execKsetx d n s
  | .kgetx n a => Sys2Proof.Machine.execKgetx n a s
  | .vget n vn lane => Sys2Proof.Machine.execVget n vn lane s
  | .vput n vn lane => Sys2Proof.Machine.execVput n vn lane s
  | .runc n off => Sys2Proof.Machine.execRunc n off s
  | .waitf mask => Sys2Proof.Machine.execWaitf mask s
  | .waitc a ctr => Sys2Proof.Machine.execWaitc a ctr s
  | .barArrive bn a => Sys2Proof.Machine.execBarArrive bn a s
  | .barWait bn => Sys2Proof.Machine.execBarWait bn s
  | .barSync bn a => Sys2Proof.Machine.execBarSync bn a s
  | .lbarArrive scope => Sys2Proof.Machine.execLbarArrive scope s
  | .lbarWait scope => Sys2Proof.Machine.execLbarWait scope s
  | .lbarSync scope => Sys2Proof.Machine.execLbarSync scope s
  | .fence scope => Sys2Proof.Machine.execFence scope s
  | .claim d a b => Sys2Proof.Machine.execClaim d a b s
  | .liveDead vn cnt => Sys2Proof.Machine.execLiveDead vn cnt s
  | .liveHot vn cnt => Sys2Proof.Machine.execLiveHot vn cnt s
  | .mark => Sys2Proof.Machine.execMark s
  | .poison a b => Sys2Proof.Machine.execPoison a b s
  | .launch d a => Sys2Proof.Machine.execLaunch d a s
  | .mma d a b => Sys2Proof.Machine.execMma d a b s
  | .mmaZ d a b => Sys2Proof.Machine.execMmaZ d a b s
  | .accAlloc d a => Sys2Proof.Machine.execAccAlloc d a s
  | .accFree a => Sys2Proof.Machine.execAccFree a s
  | .accZero a => Sys2Proof.Machine.execAccZero a s
  | .accDrain a b => Sys2Proof.Machine.execAccDrain a b s
  | .amv d a b => Sys2Proof.Machine.execAmv d a b s
  | .amvT d a b => Sys2Proof.Machine.execAmvT d a b s
  | .trec slot a => Sys2Proof.Machine.execTrec slot a s
  | .shCopy d a b => Sys2Proof.Machine.execShCopy d a b s
  | .shFill d a b => Sys2Proof.Machine.execShFill d a b s
  | .shGather d a b => Sys2Proof.Machine.execShGather d a b s
  | .shClose => Sys2Proof.Machine.execShClose s
  | .collAllreduce d a b => Sys2Proof.Machine.execCollAllreduce d a b s
  | .collAllgather d a b => Sys2Proof.Machine.execCollAllgather d a b s
  | .collReducescatter d a b => Sys2Proof.Machine.execCollReducescatter d a b s
  | .collAlltoall d a b => Sys2Proof.Machine.execCollAlltoall d a b s
  | .trap code => Sys2Proof.Machine.execTrap code s
  | .rets => Sys2Proof.Machine.execRets s
  | .retsSkip => Sys2Proof.Machine.execRetsSkip s
  | .retsDecline => Sys2Proof.Machine.execRetsDecline s
  | .sysrd d a reg => Sys2Proof.Machine.execSysrd d a reg s
  | .syswr v a reg => Sys2Proof.Machine.execSyswr v a reg s
  | .tlbiAll scope => Sys2Proof.Machine.execTlbiAll scope s
  | .tlbiVa d a scope => Sys2Proof.Machine.execTlbiVa d a scope s
  | .tlbiAsid a scope => Sys2Proof.Machine.execTlbiAsid a scope s
  | .tlbiVmid a scope => Sys2Proof.Machine.execTlbiVmid a scope s
  | .ctxfl d a => Sys2Proof.Machine.execCtxfl d a s
  | .ctxld a => Sys2Proof.Machine.execCtxld a s
  | .quiesce d a => Sys2Proof.Machine.execQuiesce d a s
  | .retsave d a => Sys2Proof.Machine.execRetsave d a s
  | .retload d a => Sys2Proof.Machine.execRetload d a s
  | .wdogSet a => Sys2Proof.Machine.execWdogSet a s
  | .wdogKick => Sys2Proof.Machine.execWdogKick s
  | .brk code => Sys2Proof.Machine.execBrk code s
  | .inject d a => Sys2Proof.Machine.execInject d a s
  | .gtime d => Sys2Proof.Machine.execGtime d s
  | .halt => Sys2Proof.Machine.execHalt s
  | .fadd o => Sys2Proof.Machine.execFadd o s
  | .fsub o => Sys2Proof.Machine.execFsub o s
  | .fmul o => Sys2Proof.Machine.execFmul o s
  | .ffma o => Sys2Proof.Machine.execFfma o s
  | .fmin o => Sys2Proof.Machine.execFmin o s
  | .fmax o => Sys2Proof.Machine.execFmax o s
  | .fcmp o => Sys2Proof.Machine.execFcmp o s
  | .fabs o => Sys2Proof.Machine.execFabs o s
  | .fneg o => Sys2Proof.Machine.execFneg o s
  | .fcpys o => Sys2Proof.Machine.execFcpys o s
  | .frcp o => Sys2Proof.Machine.execFrcp o s
  | .frsq o => Sys2Proof.Machine.execFrsq o s
  | .fsqrt o => Sys2Proof.Machine.execFsqrt o s
  | .flog2 o => Sys2Proof.Machine.execFlog2 o s
  | .ftanh o => Sys2Proof.Machine.execFtanh o s
  | .fexpf o => Sys2Proof.Machine.execFexpf o s
  | .fscale o => Sys2Proof.Machine.execFscale o s
  | .frint o => Sys2Proof.Machine.execFrint o s
  | .fclass o => Sys2Proof.Machine.execFclass o s
  | .cvt o => Sys2Proof.Machine.execCvt o s
  | .pack o => Sys2Proof.Machine.execPack o s
  | .unpack o => Sys2Proof.Machine.execUnpack o s
  | .qnt o => Sys2Proof.Machine.execQnt o s
  | .dqnt o => Sys2Proof.Machine.execDqnt o s
  | .iadd o => Sys2Proof.Machine.execIadd o s
  | .isub o => Sys2Proof.Machine.execIsub o s
  | .imul o => Sys2Proof.Machine.execImul o s
  | .imad o => Sys2Proof.Machine.execImad o s
  | .imulh o => Sys2Proof.Machine.execImulh o s
  | .imin o => Sys2Proof.Machine.execImin o s
  | .imax o => Sys2Proof.Machine.execImax o s
  | .icmp o => Sys2Proof.Machine.execIcmp o s
  | .iabs o => Sys2Proof.Machine.execIabs o s
  | .isad o => Sys2Proof.Machine.execIsad o s
  | .andB32 o => Sys2Proof.Machine.execAndB32 o s
  | .orB32 o => Sys2Proof.Machine.execOrB32 o s
  | .xorB32 o => Sys2Proof.Machine.execXorB32 o s
  | .notB32 o => Sys2Proof.Machine.execNotB32 o s
  | .bool3 o => Sys2Proof.Machine.execBool3 o s
  | .shlB32 o => Sys2Proof.Machine.execShlB32 o s
  | .shrN32 o => Sys2Proof.Machine.execShrN32 o s
  | .sraI32 o => Sys2Proof.Machine.execSraI32 o s
  | .popcB32 o => Sys2Proof.Machine.execPopcB32 o s
  | .clzB32 o => Sys2Proof.Machine.execClzB32 o s
  | .brevB32 o => Sys2Proof.Machine.execBrevB32 o s
  | .bfe o => Sys2Proof.Machine.execBfe o s
  | .bfi o => Sys2Proof.Machine.execBfi o s
  | .sel o => Sys2Proof.Machine.execSel o s
  | .perm o => Sys2Proof.Machine.execPerm o s
  | .dp4 o => Sys2Proof.Machine.execDp4 o s
  | .dp8 o => Sys2Proof.Machine.execDp8 o s
  | .mov o => Sys2Proof.Machine.execMov o s
  | .shfl o => Sys2Proof.Machine.execShfl o s
  | .shflx o => Sys2Proof.Machine.execShflx o s
  | .bcst o => Sys2Proof.Machine.execBcst o s
  | .scan o => Sys2Proof.Machine.execScan o s
  | .red o => Sys2Proof.Machine.execRed o s
  | .rng o => Sys2Proof.Machine.execRng o s
  | .ldSp o => Sys2Proof.Machine.execLdSp o s
  | .ldGs o => Sys2Proof.Machine.execLdGs o s
  | .ldDm o => Sys2Proof.Machine.execLdDm o s
  | .ldPv o => Sys2Proof.Machine.execLdPv o s
  | .stSp o => Sys2Proof.Machine.execStSp o s
  | .stGs o => Sys2Proof.Machine.execStGs o s
  | .stDm o => Sys2Proof.Machine.execStDm o s
  | .stPv o => Sys2Proof.Machine.execStPv o s
  | .ldt o => Sys2Proof.Machine.execLdt o s
  | .atomAdd o => Sys2Proof.Machine.execAtomAdd o s
  | .atomMin o => Sys2Proof.Machine.execAtomMin o s
  | .atomMax o => Sys2Proof.Machine.execAtomMax o s
  | .atomAnd o => Sys2Proof.Machine.execAtomAnd o s
  | .atomOr o => Sys2Proof.Machine.execAtomOr o s
  | .atomXor o => Sys2Proof.Machine.execAtomXor o s
  | .atomExch o => Sys2Proof.Machine.execAtomExch o s
  | .atomCas o => Sys2Proof.Machine.execAtomCas o s
  | .atomIncb o => Sys2Proof.Machine.execAtomIncb o s
  | .atomFadd o => Sys2Proof.Machine.execAtomFadd o s
  | .malformedEncoding detail => Sys2Proof.Machine.execMalformedEncoding detail s
  | .laneOpcodeUnassigned opcode => Sys2Proof.Machine.execLaneOpcodeUnassigned opcode s
  | .instructionFetchFault cause => Sys2Proof.Machine.execInstructionFetchFault cause s
  | .clauseFetch => Sys2Proof.Machine.execClauseFetch s
  | .clauseStart => Sys2Proof.Machine.execClauseStart s
  | .loadComplete op lanes => Sys2Proof.Machine.execLoadComplete op lanes s
  | .storeComplete op lanes => Sys2Proof.Machine.execStoreComplete op lanes s
  | .atomComplete op => Sys2Proof.Machine.execAtomComplete op s
  | .mmaStep op => Sys2Proof.Machine.execMmaStep op s
  | .accZeroRetire op => Sys2Proof.Machine.execAccZeroRetire op s
  | .accDrainRetire op => Sys2Proof.Machine.execAccDrainRetire op s
  | .amvRetire op => Sys2Proof.Machine.execAmvRetire op s
  | .shuttleTransfer op item n => Sys2Proof.Machine.execShuttleTransfer op item n s
  | .shBatchComplete op => Sys2Proof.Machine.execShBatchComplete op s
  | .collComplete op others => Sys2Proof.Machine.execCollComplete op others s
  | .registerFill warp reg => Sys2Proof.Machine.execRegisterFill warp reg s
  | .trapEntry warp path => Sys2Proof.Machine.execTrapEntry warp path s
  | .supervisorRecordEntry core => Sys2Proof.Machine.execSupervisorRecordEntry core s
  | .watchdogExpiry warp => Sys2Proof.Machine.execWatchdogExpiry warp s
  | .warpEnd warp => Sys2Proof.Machine.execWarpEnd warp s
  | .spinDemotion warp path => Sys2Proof.Machine.execSpinDemotion warp path s
  | .ringEntryConsume fn => Sys2Proof.Machine.execRingEntryConsume fn s
  | .launchAdmission launch => Sys2Proof.Machine.execLaunchAdmission launch s
  | .blockPlacement die => Sys2Proof.Machine.execBlockPlacement die s
  | .blockSaveComplete block => Sys2Proof.Machine.execBlockSaveComplete block s
  | .launchCompletionRecord launch => Sys2Proof.Machine.execLaunchCompletionRecord launch s
  | .faultRecordWrite fn => Sys2Proof.Machine.execFaultRecordWrite fn s
  | .lodgePrime core => Sys2Proof.Machine.execLodgePrime core s
  | .rinkExchange core => Sys2Proof.Machine.execRinkExchange core s
  | .regionLeaveService region => Sys2Proof.Machine.execRegionLeaveService region s
  | .clusterQuiesced die cluster => Sys2Proof.Machine.execClusterQuiesced die cluster s
  | .clkackChange die cluster => Sys2Proof.Machine.execClkackChange die cluster s
  | .railgoodChange die cluster => Sys2Proof.Machine.execRailgoodChange die cluster s
  | .patrolWake die => Sys2Proof.Machine.execPatrolWake die s
  | .vfClearComplete fn => Sys2Proof.Machine.execVfClearComplete fn s
  | .freedPageZeroed => Sys2Proof.Machine.execFreedPageZeroed s
  | .rejectResend entry => Sys2Proof.Machine.execRejectResend entry s
  | .preemptMarkTimeout warp => Sys2Proof.Machine.execPreemptMarkTimeout warp s
  | .tilesWritten region => Sys2Proof.Machine.execTilesWritten region s
  | .ownerLapse => Sys2Proof.Machine.execOwnerLapse s
  | .offerTimeout => Sys2Proof.Machine.execOfferTimeout s
  | .lodgeAgeExchange core => Sys2Proof.Machine.execLodgeAgeExchange core s
  | .checkerMismatch warp path lane => Sys2Proof.Machine.execCheckerMismatch warp path lane s
  | .replayQueueCheck core entry mismatch => Sys2Proof.Machine.execReplayQueueCheck core entry mismatch s
  | .patrolScrub addr uncorrectable => Sys2Proof.Machine.execPatrolScrub addr uncorrectable s
  | .predictiveEvacuation die pair => Sys2Proof.Machine.execPredictiveEvacuation die pair s
  | .l1LineExpiry core line => Sys2Proof.Machine.execL1LineExpiry core line s
  | .launchDoorbell fn value => Sys2Proof.Machine.execLaunchDoorbell fn value s
  | .purge fn tag cause => Sys2Proof.Machine.execPurge fn tag cause s
  | .faultResponse fn entry => Sys2Proof.Machine.execFaultResponse fn entry s
  | .fqerrClear fn => Sys2Proof.Machine.execFqerrClear fn s
  | .hotnessProposal port part page src => Sys2Proof.Machine.execHotnessProposal port part page src s
  | .hotnessEpoch port => Sys2Proof.Machine.execHotnessEpoch port s
  | .move fn entry => Sys2Proof.Machine.execMove fn entry s
  | .dup fn entry => Sys2Proof.Machine.execDup fn entry s
  | .evict fn entry => Sys2Proof.Machine.execEvict fn entry s
  | .setxd requester target d => Sys2Proof.Machine.execSetxd requester target d s
  | .shoot src home => Sys2Proof.Machine.execShoot src home s
  | .ownerClaim m => Sys2Proof.Machine.execOwnerClaim m s
  | .ownerRelease m => Sys2Proof.Machine.execOwnerRelease m s
  | .ownerOffer m target => Sys2Proof.Machine.execOwnerOffer m target s
  | .ownerAccept m => Sys2Proof.Machine.execOwnerAccept m s
  | .ownerWithdraw m => Sys2Proof.Machine.execOwnerWithdraw m s
  | .ownerBeat m => Sys2Proof.Machine.execOwnerBeat m s
  | .ownerInvalidCmd m cmd => Sys2Proof.Machine.execOwnerInvalidCmd m cmd s
  | .coldStart => Sys2Proof.Machine.execColdStart s
  | .warmStart => Sys2Proof.Machine.execWarmStart s
  | .vfEnableClear => Sys2Proof.Machine.execVfEnableClear s
  | .flr fn => Sys2Proof.Machine.execFlr fn s
  | .gtctlApply fn => Sys2Proof.Machine.execGtctlApply fn s
  | .gtctlStop fn stop => Sys2Proof.Machine.execGtctlStop fn stop s
  | .registerWrite fn offset value => Sys2Proof.Machine.execRegisterWrite fn offset value s
  | .program m region r => Sys2Proof.Machine.execProgram m region r s
  | .offline m region => Sys2Proof.Machine.execOffline m region s
  | .online m region => Sys2Proof.Machine.execOnline m region s
  | .grant m region fn dest handle => Sys2Proof.Machine.execGrant m region fn dest handle s
  | .revoke m region fn => Sys2Proof.Machine.execRevoke m region fn s
  | .freeRegion m region => Sys2Proof.Machine.execFreeRegion m region s
  | .tileVerify region verified => Sys2Proof.Machine.execTileVerify region verified s
  | .tailorProbe region tile withinLimit => Sys2Proof.Machine.execTailorProbe region tile withinLimit s
  | .probeDeadline region tile => Sys2Proof.Machine.execProbeDeadline region tile s
  | .tailorPublish region tile fit => Sys2Proof.Machine.execTailorPublish region tile fit s
  | .create m part => Sys2Proof.Machine.execCreate m part s
  | .destroy m part => Sys2Proof.Machine.execDestroy m part s
  | .cluster m part die cluster => Sys2Proof.Machine.execCluster m part die cluster s
  | .funcJoin m part fn => Sys2Proof.Machine.execFuncJoin m part fn s
  | .pages m part first count => Sys2Proof.Machine.execPages m part first count s
  | .port m part port weight => Sys2Proof.Machine.execPort m part port weight s
  | .qos m part wdm wsh wan => Sys2Proof.Machine.execQos m part wdm wsh wan s
  | .group m part group members => Sys2Proof.Machine.execGroup m part group members s
  | .bind m part pod remote => Sys2Proof.Machine.execBind m part pod remote s
  | .getMeasurements requester part viaOwner => Sys2Proof.Machine.execGetMeasurements requester part viaOwner s
  | .remapMove m die site => Sys2Proof.Machine.execRemapMove m die site s
  | .remapSwap m d1 d2 => Sys2Proof.Machine.execRemapSwap m d1 d2 s
  | .wake m die mask => Sys2Proof.Machine.execWake m die mask s
  | .clctlClkreq die cluster on => Sys2Proof.Machine.execClctlClkreq die cluster on s
  | .clctlRailreq die cluster on => Sys2Proof.Machine.execClctlRailreq die cluster on s
  | .clctlResume die cluster => Sys2Proof.Machine.execClctlResume die cluster s
  | .route m dest entry => Sys2Proof.Machine.execRoute m dest entry s
  | .read p => Sys2Proof.Machine.execRead p s
  | .write p => Sys2Proof.Machine.execWrite p s
  | .atomic p => Sys2Proof.Machine.execAtomic p s
  | .ewrite p => Sys2Proof.Machine.execEwrite p s
  | .rdata p => Sys2Proof.Machine.execRdata p s
  | .ack p => Sys2Proof.Machine.execAck p s
  | .aresult p => Sys2Proof.Machine.execAresult p s
  | .reject p => Sys2Proof.Machine.execReject p s
  | .invalidPacket port p => Sys2Proof.Machine.execInvalidPacket port p s
  | .linkDown port => Sys2Proof.Machine.execLinkDown port s
  | .ackTimeout dest => Sys2Proof.Machine.execAckTimeout dest s
  | .linkUp port => Sys2Proof.Machine.execLinkUp port s
  | .shootAnswer module home => Sys2Proof.Machine.execShootAnswer module home s
  | .powerLoss => Sys2Proof.Machine.execPowerLoss s

end Sys2Proof.Machine
end

