-- ==== Sys2Proof/Machine/Auto.lean ====
section
/-! DEFINITION. What one step may do: an issue of a path's S-stream (R97, R340), an action of its lane pipeline (R78,
R29, R73), an event of the opcode table, the passage of time (R235, R332), the core's own fills and evictions (R39,
R342), a write of the host; what the machine does by itself when nothing is asked for; and the placing of one word
where the machine fetches. -/

namespace Sys2Proof.Machine

/-! ## Issue -/

/-- The patrol core of a warp's site does not issue (R194, R208). -/
def patrolStops (s : State) (w : Warp) : Bool :=
  w.kind = .patrol && ((fget s.power.patrol ((siteOf s w.die).elim w.die (·.1))).any fun p => p.halted || p.dead)

/-- R32, R38: the warp has its context. -/
def hasContext (w : Warp) : Bool := !w.unborn && !w.reload

/-- R97, R192, R202, R230, R239: a path may issue an S-stream instruction. -/
def mayIssue (s : State) (w : Warp) (p : Path) : Bool :=
  hasContext w && !isFrozen s w && p.live && p.wait = .none && !p.stopped && p.pend.isNone && w.st = .rink && (!w.saving || w.runOn) &&
    !patrolStops s w

/-- The state with the path that the next instruction acts for. -/
def withCur (s : State) (uid : Nat) (pf : Bool) : State := { s with cur := { warp := uid, path := pf } }

/-- The instruction at a path's S-PC fetched, decoded and run, or the fault of its fetch (R340, R341). -/
def fetchAndRun (s : State) (w : Warp) (p : Path) : Out :=
  match translate s (fetchReq s w p.priv) p.pc.toNat with
  | .ok a => withWords s w [a] fun t l => exec (decodeWord (l.headD 0)) t
  | .fault f => exec (.instructionFetchFault f.cause) s
  | .migrate _ | .moving => exec (.instructionFetchFault 0) s

/-- What a warp without its context does: a new one writes its header (R38), one that resumes loads it (R32). -/
def contextStep (s : State) (uid : Nat) (w : Warp) : State :=
  if w.unborn then bornHeader s uid else if w.st = .ready then reloadWarp s uid else s

/-- An S-stream issue of a path; one whose trap is pending enters it (R192), and one whose watchdog has run out takes 11.0
first (R203). -/
def issueStep (uid : Nat) (pf : Bool) (s : State) : Out :=
  match fget s.warps uid with
  | none => .next s
  | some w =>
    if !hasContext w then .next (contextStep s uid w)
    else if (w.path pf).pend.isSome then exec (.trapEntry uid pf) s
    else if watchdogDue w then exec (.watchdogExpiry uid) s
    else if mayIssue s w (w.path pf) then fetchAndRun (withCur s uid pf) w (w.path pf)
    else .next s

/-- R84, R192, R356: a path's lane pipeline may act. -/
def mayLane (s : State) (w : Warp) (p : Path) : Bool :=
  hasContext w && !isFrozen s w && p.live && !p.stopped && p.pend.isNone && (w.st = .rink || (w.saving && resident w))

/-- The next word of a clause decoded and run (R73, R81, R82). -/
def runLaneWord (s : State) (c : Clause) (h : Hdr) : Out :=
  let word := c.body.getD (c.idx - 1) 0
  match decodeLane (some (h.setA, h.setB)) word with
  | .ok i => exec i s
  | .error d =>
    if d % 16 = 4 || d % 16 = 7 then exec (.laneOpcodeUnassigned (laneFields word).op) s
    else laneWordFault s d (laneFields word).k

/-- What the lane pipeline of a path does next: it fetches the clause, starts it, or issues its next word. -/
def laneAct (s : State) (p : Path) : Out :=
  match headClause p with
  | none => .next s
  | some c =>
    match c.hdr with
    | none => exec .clauseFetch s
    | some h => if c.started then runLaneWord s c h else exec .clauseStart s

/-- An action of a path's lane pipeline. -/
def laneStep (uid : Nat) (pf : Bool) (s : State) : Out :=
  match fget s.warps uid with
  | none => .next s
  | some w => if mayLane s w (w.path pf) then laneAct (withCur s uid pf) (w.path pf) else .next s

/-! ## Events -/

/-- The rows of the table that a path's own fetching raises. -/
def selfFetched : Instr → Bool
  | .malformedEncoding _ | .laneOpcodeUnassigned _ | .instructionFetchFault _ | .clauseFetch | .clauseStart => true
  | _ => false

/-- A row of the table that stands for an event of the device. -/
def isEvent (i : Instr) : Bool := (encodeS i).isNone && (laneParts i).isNone && !selfFetched i

/-- An event of the device. -/
def eventStep (i : Instr) (s : State) : Out := if isEvent i then exec i s else .next s

/-! ## Time -/

/-- R235: a path waits at WAITF, WAITC, a clause wait mask, BAR, LBAR or JOIN. -/
def pathWaits (s : State) (uid : Nat) (w : Warp) (pf : Bool) : Bool :=
  let p := w.path pf
  let held := match p.wait with
    | .join | .bar .. | .phase .. => true
    | _ => false
  let atClause := match headClause p with
    | some c => !c.started && c.hdr.any fun h => (List.range 12).any fun f => bitAt h.wait f && flagPending s uid pf f
    | none => false
  let same := fun i => match exec i (withCur s uid pf) with
    | .next t => t == withCur s uid pf
    | _ => false
  let atWait := mayIssue s w p && match nextInstr s w p with
    | some (.waitf m) => same (.waitf m)
    | some (.waitc a c) => same (.waitc a c)
    | some (.barArrive n a) => same (.barArrive n a)
    | some (.barWait n) => same (.barWait n)
    | some (.barSync n a) => same (.barSync n a)
    | some (.lbarArrive n) => same (.lbarArrive n)
    | some (.lbarWait n) => same (.lbarWait n)
    | some (.lbarSync n) => same (.lbarSync n)
    | _ => false
  p.live && (held || atClause || atWait)

/-- R235: 256 cycles of waiting. -/
def waitTick (s : State) (uid : Nat) : State :=
  match fget s.warps uid with
  | none => s
  | some w =>
    if w.kind = .supervisor || !resident w then s
    else putWarp s uid { w with wdc := w.wdc + b2n (pathWaits s uid w false) + b2n (pathWaits s uid w true) }

/-- R332: ticks of the time base. -/
def tick (s : State) (n : Nat) : State := { s with mgmt := { s.mgmt with tb := (s.mgmt.tb + n) % 2 ^ 64 } }

/-! ## Fills, drops and host writes -/

/-- R342: a core fills a TLB entry for one of its warps. -/
def tlbFill (s : State) (core uid va : Nat) : State :=
  match fget s.warps uid with
  | none => s
  | some w =>
    let q := { warpReq s w false .read none with unit := core }
    let same := fun (e f : TlbEntry) => e.unit = f.unit && e.asid = f.asid && e.vmid = f.vmid &&
      e.vpage = f.vpage
    let mine := core = coreKey w || (65536 + 16 * w.die ≤ core && core < 65536 + 16 * w.die + 16)
    match tlbEntry s q va with
    | none => s
    | some e => if mine && va < 2 ^ 48 then
        { s with cores := { s.cores with tlb := e :: s.cores.tlb.filter fun f => !same e f } }
      else s

/-- R342: a TLB entry is dropped. -/
def tlbEvict (s : State) (i : Nat) : State := { s with cores := { s.cores with tlb := s.cores.tlb.eraseIdx i } }

/-- R265, R271: a shared page that the device owns, or that moves, by an entry of the PF, of a VF or of a VF's stage 2: a host
access waits for it. -/
def hostWaits (s : State) (page : Nat) : Bool :=
  let held := fun (l : Leaf) => l.sh = 1 || l.sh = 3
  ((allLeaves s).any fun t => held (readLeaf s t) && leafNames (readLeaf s t) page) ||
    (mapsOf s).any fun m => held (readLeaf s m.1) && m.2.1 = some page

/-- R271, R344, R351: the host writes memory that it can reach, by its address in the model's numbering: its own from
2^64 on, or a page of the module that it does not have to wait for. -/
def hostWrite (s : State) (a : Nat) (b : List Byte) : State :=
  if hostWaits s (a / pageSize * pageSize) || hostWaits s ((a + b.length - 1) / pageSize * pageSize) then s
  else { s with mem := wrBytes s.mem a b }

/-! ## What firmware sets (log entries 85 and 98) -/

/-- R197, R383: firmware places the context and the handler table of a core's supervisor slot. -/
def supContext (s : State) (core : Nat) (base table : W64) : State :=
  if core < 512 then modSup s core fun u => { u with base := base, table := table } else s

/-- R346: firmware names a device-local pool. -/
def namePool (s : State) (a : Nat) : State := { s with mgmt := { s.mgmt with pools := ninsert s.mgmt.pools a } }

/-! ## What comes from outside (log entries 3 and 113) -/

/-- R340: what a walker has read of a granule of another module is dropped. -/
def walkDrop (s : State) (g : Nat) : State :=
  { s with fabric := { s.fabric with inbox := s.fabric.inbox.filter fun f => !(f.warp = walkReader && f.gran = g) } }

/-- R389: another module makes the tag of one of its pages known. -/
def farTag (s : State) (page part : Nat) : State :=
  if isLocal (page * pageSize) then s
  else { s with parts := { s.parts with farTags := fputD 0 s.parts.farTags page (part % 2 ^ 12) } }

/-- R339: another module makes known what one of its dies lacks. -/
def farDie (s : State) (module die lack : Nat) : State :=
  if module = Config.moduleNo then s
  else { s with mgmt := { s.mgmt with farDies := fputD 0 s.mgmt.farDies (4 * module + die % 4) lack } }

/-! ## One choice -/

/-- One choice carried out, before what follows from it at once. -/
def doChoice (c : Choice) (s : State) : Out :=
  match c with
  | .issue u p => issueStep u p s
  | .lane u p => laneStep u p s
  | .event i => eventStep i s
  | .tick n => .next (tick s n)
  | .waitTick u => .next (waitTick s u)
  | .tlbFill k u va => .next (tlbFill s k u va)
  | .tlbDrop i => .next (tlbEvict s i)
  | .evictLine u r => .next (evictReg s u r)
  | .openElement u p i => .next (openElement s u p i)
  | .spRead o a => .next (spRead s o a)
  | .walkRead f g => .next (walkRead s f g)
  | .walkDrop g => .next (walkDrop s g)
  | .farTag n p => .next (farTag s n p)
  | .farDie m d x => .next (farDie s m d x)
  | .cells r t w => .next (writeCells s r t w)
  | .arrayServe r => .next (arrayServe s r)
  | .homeFull p => .next (homeFull s p)
  | .gateway p va b bad => .next (gateway s p va b bad)
  | .retFlip d k n => .next (retFlip s d k n)
  | .hostWrite a b => .next (hostWrite s a b)
  | .hostRead m f o => .next (hostRead s m f o)
  | .patrolBoot d pc l => .next (patrolBoot s d pc l)
  | .supContext k b t => .next (supContext s k b t)
  | .pool a => .next (namePool s a)

/-- R410: the v registers that a lane instruction reads. -/
def laneSources (o : LaneOp) : List Nat := [o.a, o.b, o.c].filterMap fun x => match x with | .v n => some n | _ => none

/-- The lane instruction at a word of a clause. -/
def clauseOp (c : Clause) (i : Nat) : Option LaneOp :=
  c.hdr.bind fun h => match decodeLane (some (h.setA, h.setB)) (c.body.getD (i - 1) 0) with
    | .ok x => (laneParts x).map (·.2)
    | .error _ => none

/-- R410: the v registers that what a choice issues reads. -/
def choiceReads (s : State) (c : Choice) : List Nat :=
  let at' := fun (u : Nat) (f : Warp → Path → List Nat) (pf : Bool) => (fget s.warps u).elim [] fun w => f w (w.path pf)
  match c with
  | .issue u pf => at' u (fun w p => match nextInstr s w p with | some (.vget _ vn _) => [vn] | _ => []) pf
  | .lane u pf => at' u (fun _ p => ((headClause p).bind fun c => clauseOp c c.idx).elim [] laneSources) pf
  | _ => []

/-- R410: a path whose checked lane result some issued instruction has read is held for it no longer. -/
def readChecked (regs : List Nat) (p : Path) : Path :=
  let dst := p.last.bind fun l => (checkedClause p l).bind fun c => (clauseOp c l.widx).bind (·.dst)
  if dst.any regs.contains then { p with last := none } else p

/-- R410: whether the warp of a choice has issued in it. -/
def hasIssued (c : Choice) (v w : Warp) : Bool :=
  match c with
  | .issue _ pf => (v.path pf).pc ≠ (w.path pf).pc && (w.path pf).pend.isNone
  | .lane _ pf => (v.path pf).queue ≠ (w.path pf).queue && (w.path pf).pend.isNone
  | _ => false

/-- R410: the lane results that an issue has read, settled. The result that a lane instruction has itself written is not among
them. -/
def settleChecked (c : Choice) (s t : State) : State :=
  match c with
  | .issue u _ | .lane u _ =>
    match fget s.warps u, fget t.warps u with
    | some v, some w =>
      if (v.a.last.isNone && v.b.last.isNone) || !hasIssued c v w then t
      else
        let f := readChecked (choiceReads s c)
        match c with
        | .lane _ false => putWarp t u { w with b := f w.b }
        | .lane _ true => putWarp t u { w with a := f w.a }
        | _ => putWarp t u { w with a := f w.a, b := f w.b }
    | _, _ => t
  | _ => t

/-- What follows at once from a choice: duplicates end where an entry grants write permission (R249), and results that have been
read are checked (R410). -/
def settle (c : Choice) (s t : State) : State := pruneDups (settleChecked c s t)

/-- One choice carried out. -/
def runChoice (c : Choice) (s : State) : Out :=
  match doChoice c s with
  | .next t => .next (settle c s t)
  | x => x

/-! ## What the machine does by itself -/

/-- What the outstanding operations may do. -/
def opChoices (s : State) : List Choice :=
  s.ops.flatMap fun o => match o.body with
    | .mem m => match m.kind with
      | .store => [.event (.storeComplete o.id (2 ^ 32 - 1))]
      | .atom _ => [.event (.atomComplete (2 ^ 32 * o.id + (2 ^ 32 - 1)))]
      | _ => [.event (.loadComplete o.id (2 ^ 32 - 1))]
    | .mma .. => [.event (.mmaStep o.id)]
    | .zero _ => [.event (.accZeroRetire o.id)]
    | .drain .. => [.event (.accDrainRetire o.id)]
    | .amv .. => [.event (.amvRetire o.id)]
    | .batch l => ((List.range l.length).map fun i => .event (.shuttleTransfer o.id i 1)) ++
        [.event (.shBatchComplete o.id)]
    | .coll _ => [.event (.collComplete o.id [])]
    | .pois .. => []

/-- What the warps may do. -/
def warpChoices (s : State) : List Choice :=
  s.warps.flatMap fun e =>
    let u := e.1
    let w := e.2
    [.issue u false, .lane u false, .issue u true, .lane u true, .event (.trapEntry u false), .event (.trapEntry u true),
     .event (.watchdogExpiry u), .event (.spinDemotion u false), .event (.spinDemotion u true), .event (.warpEnd u)] ++
      ((wantedRegs s u w).map fun r => .event (.registerFill u r))

/-- What the cores, dies, functions and launches may do. -/
def unitChoices (s : State) : List Choice :=
  (dedup (s.warps.map fun e => coreKey e.2)).flatMap (fun k =>
    [Choice.event (.lodgePrime k), .event (.rinkExchange k), .event (.lodgeAgeExchange k)]) ++
  (s.cores.sups.map fun e => Choice.event (.supervisorRecordEntry e.1)) ++
  ((s.funcs.filter (·.2.enabled)).flatMap fun e => [Choice.event (.ringEntryConsume e.1), .event (.faultRecordWrite e.1)]) ++
  (s.launches.flatMap fun e => [Choice.event (.launchAdmission e.1), .event (.launchCompletionRecord e.1)]) ++
  ((s.blocks.filter fun e => e.2.saving).map fun e => Choice.event (.blockSaveComplete e.1)) ++
  (if s.launches.isEmpty then [] else (List.range 4).map fun d => Choice.event (.blockPlacement d)) ++
  (s.power.clusters.flatMap fun e => (s.bind.filter fun b => b.2 = e.1 / 4).flatMap fun b =>
    [Choice.event (.clusterQuiesced b.1 (e.1 % 4)), .event (.clkackChange b.1 (e.1 % 4)),
     .event (.railgoodChange b.1 (e.1 % 4))]) ++
  ((s.power.patrol.filter fun e => e.2.wake ≠ 0).flatMap fun e =>
    (s.bind.filter fun b => b.2 = e.1).map fun b => Choice.event (.patrolWake b.1)) ++
  (s.arrays.regions.flatMap fun e => [Choice.event (.tilesWritten e.1), .event (.regionLeaveService e.1)]) ++
  (dedup (s.arrays.queue.map (·.1))).map .arrayServe

/-- A choice has an effect. -/
def acts (s : State) (c : Choice) : Bool :=
  match runChoice c s with
  | .next t => { t with cur := s.cur } != s
  | _ => true

/-- The first of the machine's own choices that has an effect, the list turned by the step's number so that each comes
to its turn; time passes when there is none (log entry 2). -/
def autoChoice (s : State) : Choice :=
  let l := warpChoices s ++ opChoices s ++ unitChoices s
  ((l.rotateLeft s.turn).find? (acts s)).getD (.tick 1)

/-! ## One word placed where the machine fetches -/

/-- The physical address of the page that holds the placed word, and its virtual address. -/
def probeVa : Nat := 2 ^ 21

/-- The translation tables of a function whose one page is the placed word's: an executable user page at its own
address (R337, R338). -/
def probeTables (m : List Host.Cell) : List Host.Cell :=
  wrLe (wrLe (wrLe (wrLe m 0x10000 8 0x11001) 0x11000 8 0x12001) 0x12010 8 (0x1081B)) 0x12018 8 (2 ^ 32 - 1)

/-- A launch of one block of one warp at the placed word. -/
def probeLaunch (d : XlateDesc) : Launch :=
  { id := 0, fn := 0, dev := false,
    lrec := { entry := probeVa, lbase := 0, ptab := 0, ctxb := 0, vregs := 1536, tag := 0, prio := 0, repro := false,
              gang := false, affinity := 1, bwarps := 1, gridx := 1, gridy := 1, gridz := 1, lastmask := 2 ^ 32 - 1,
              spbytes := 2 ^ 20, nbar := 32, seed := 0, pvlimit := 0, pvbase := 0, pvhwm := 0, done := 0, pre := [],
              gates := [], resv := false },
    sub := 0, xd := d, st := .admitted, cause := 0, gate := [(0, 1), (0, 0), (0, 0), (0, 0)], placedN := [1, 0, 0, 0],
    back := [], endedN := 0, tadm := 0, recWritten := false, recWaits := false, lbars := [] }

/-- Its block on pair 0 of virtual die 0. -/
def probeBlock (launch order : Nat) : Block :=
  { launch := launch, index := 0, die := 0, pair := 0, placed := true, saving := false, order := order, sp := [],
    spPois := [], bars := [], recs := [], seqs := [], img := none }

/-- Its warp in the rink of core 0, its header written, with the clauses given. -/
def probeWarp (launch block : Nat) (l : Launch) (q : List Clause) : Warp :=
  let w := newWarp launch l block 0 0 0 0 0 Config.wdLimit
  { w with st := .rink, unborn := false, a := { w.a with queue := q, nextSeq := q.length } }

/-- A clause of one word, fetched and started, whose header declares the word's flag. -/
def probeClause (word : Nat) : Clause :=
  { seq := 0, addr := n64 probeVa, k := [(0, BitVec.allOnes 32)], x := [], priv := 0,
    hdr := some { wait := 0, setA := if (laneFields word).flag < 12 then (laneFields word).flag else 15, setB := 15,
                  count := 0 },
    body := [word], started := true, idx := 1 }

/-- The machine with one word placed so that the next step issues it: an S-stream word at the S-PC of a new warp, or a
lane word as the only word of its clause. -/
def placeWord (s : State) (nbits w : Nat) : State :=
  let d : XlateDesc := { (funcXlate s 0) with s1root := 0x10000 }
  let f := { (fget s.funcs 0).getD (Func.reset true) with xd := d }
  let l := probeLaunch d
  let n := s.next
  let wp := probeWarp n (n + 1) l (if nbits = 96 then [probeClause w] else [])
  { s with
    mem := wrLe (probeTables s.mem) probeVa 4 (w % 2 ^ 32),
    funcs := fput s.funcs 0 f,
    launches := fput s.launches n l, blocks := fput s.blocks (n + 1) (probeBlock n (n + 1)),
    warps := fput s.warps (n + 2) wp, next := n + 3,
    cores := { s.cores with tlb := s.cores.tlb.filter fun t => t.unit ≠ 0 },
    parts := { s.parts with pages := fputD 0 s.parts.pages 1 f.part },
    agenda := [if nbits = 96 then .lane (n + 2) false else .issue (n + 2) false] }

end Sys2Proof.Machine
end

