-- ==== Sys2Proof/Machine/Step.lean ====
section
/-! DEFINITION. One step of the module: the first choice of the agenda, or what the machine does by itself. -/

namespace Sys2Proof.Machine

/-- One step (log entry 2). -/
def step (s : State) : Host.Outcome State Fault Refusal :=
  match s.agenda with
  | c :: r => runChoice c { s with turn := s.turn + 1, agenda := r }
  | [] => runChoice (autoChoice s) { s with turn := s.turn + 1 }

/-- The state with the instruction w of nbits placed where the next step fetches. -/
def State.withFetchWord (s : State) (nbits w : Nat) : State := placeWord s nbits w

end Sys2Proof.Machine
end

