-- ==== Sys2Proof/Safety.lean ====
section
/-! DEFINITION. What counts as a safe run, and the terms in which the claims say what an instruction does and what it
leaves alone. -/

namespace Sys2Proof

open Sys2Proof.Machine

/-! ## Steps and states -/

/-- A step goes on. -/
def goesOn (s : State) : Prop := ∃ t, step s = .next t

/-- The instruction answers a next state with a property. -/
def runs (i : Instr) (s : State) (post : State → Prop) : Prop := ∃ t, exec i s = .next t ∧ post t

/-- The machine's current path is a live path of warp w. -/
def actsOn (s : State) (w : Warp) : Prop :=
  fget s.warps s.cur.warp = some w ∧ (w.path s.cur.path).live = true

/-- The path that acts. -/
def actPath (s : State) (w : Warp) : Path := w.path s.cur.path

/-! ## Frames of S-stream instructions -/

/-- Everything of the acting warp but its two paths, its shadow registers and its watchdog count is as before. -/
def warpKept (w w' : Warp) : Prop := { w' with a := w.a, b := w.b, xs := w.xs, wdc := w.wdc } = w

/-- R235: one issue more is counted, except in the supervisor slot. -/
def countedOnce (w w' : Warp) : Prop := w'.wdc = w.wdc + (if w.kind = .supervisor then 0 else 1)

/-- Only the acting warp changed; its acting path goes on at pc, the other path is untouched, and one issue is
counted. -/
def wentOn (s t : State) (w w' : Warp) (pc : W64) : Prop :=
  t = putWarp s s.cur.warp w' ∧ (actPath s w').pc = pc ∧ (actPath s w').issued = (actPath s w).pc ∧
    w'.path (!s.cur.path) = w.path (!s.cur.path) ∧ countedOnce w w'

/-- The acting path kept everything but the S-PC, the x registers and the record of the spin check (R233). -/
def pathKeptButX (s : State) (w w' : Warp) : Prop :=
  { actPath s w' with pc := (actPath s w).pc, issued := (actPath s w).issued, x := (actPath s w).x,
                      spin := (actPath s w).spin, demoted := (actPath s w).demoted } = actPath s w

/-- The acting path kept everything but the S-PC, its masks and the record of the spin check (R233). -/
def pathKeptButK (s : State) (w w' : Warp) : Prop :=
  { actPath s w' with pc := (actPath s w).pc, issued := (actPath s w).issued, k := (actPath s w).k,
                      spin := (actPath s w).spin, demoted := (actPath s w).demoted } = actPath s w

/-- R16, R33: scalar register d of the acting path holds v, x0 excepted, every other one what it held, the shadow
registers and the registers that they hide included. The reserved bits of xs0 read 0 (R12, R193). -/
def wroteX (s : State) (w w' : Warp) (d : Nat) (v : W64) : Prop :=
  (∀ r, rx w' s.cur.path r = if r = d ∧ d ≠ 0
    then (if d = 48 ∧ (actPath s w).priv ≠ 0 then v &&& ~~~((0x7F : W64) <<< 17) else v) else rx w s.cur.path r) ∧
    ((actPath s w).priv = 0 → w'.xs = w.xs) ∧
    ((actPath s w).priv ≠ 0 → ∀ r, 48 ≤ r → (fgetD 0 (actPath s w').x r : W64) = fgetD 0 (actPath s w).x r)

/-- An S-stream instruction that writes v into scalar register d, goes on at pc, and does nothing else. -/
def scalarStep (s t : State) (w : Warp) (d : Nat) (v pc : W64) : Prop :=
  ∃ w', wentOn s t w w' pc ∧ warpKept w w' ∧ pathKeptButX s w w' ∧ wroteX s w w' d v

/-- An S-stream instruction that writes mask register d, goes on at pc, and does nothing else. -/
def maskStep (s t : State) (w : Warp) (d : Nat) (m : W32) (pc : W64) : Prop :=
  ∃ w', wentOn s t w w' pc ∧ warpKept w w' ∧ w'.xs = w.xs ∧ pathKeptButK s w w' ∧
    ∀ r, rk w' s.cur.path r = if r = d then m else rk w s.cur.path r

/-- The address of the next S-stream word. -/
def nextPc (s : State) (w : Warp) : W64 := (actPath s w).pc + 4

/-- R68: A + 4 × sext(off, n). -/
def branchTarget (s : State) (w : Warp) (n off : Nat) : W64 :=
  (actPath s w).pc + (BitVec.ofNat n off).signExtend 64 * 4

/-- The instruction waits: it issues again, and nothing has changed. -/
def waits (i : Instr) (s : State) : Prop := exec i s = .next s

/-- R83, R191: the current S-stream instruction raises a precise cause with its S-PC as the address to resume at; the
issue is counted, and nothing else happens but what the delivery of that cause does. -/
def trapsAt (i : Instr) (s : State) (w : Warp) (cause : Nat) : Prop :=
  exec i s = .next (raiseTrap (putWarp s s.cur.warp (countIssue w)) s.cur.warp s.cur.path
    (sTrap (actPath s w) cause))

/-! ## Divergence -/

/-- The acting path's lanes, the divergence stack and the age queue become the ones given, the path goes on at pc, and
nothing else changes but the end of an idempotent region (R98). -/
def divStep (s t : State) (w : Warp) (k0 : W32) (stack : List DEntry) (age : List AgeEntry) (pc : W64) : Prop :=
  ∃ w', wentOn s t w w' pc ∧ w'.dstack = stack ∧ (actPath s w').age = age ∧
    { w' with a := w.a, b := w.b, wdc := w.wdc, dstack := w.dstack, nidem := w.nidem } = w ∧
    (∀ r, rk w' s.cur.path r = if r = 0 then k0 else rk w s.cur.path r) ∧
    { actPath s w' with pc := (actPath s w).pc, issued := (actPath s w).issued, k := (actPath s w).k,
                        age := (actPath s w).age } = actPath s w

/-- R105: J + 4 × sext(TOFF, 13). -/
def takenTarget (e : DEntry) : W64 := e.jaddr + e.toff.signExtend 64 * 4

/-- R105: entry e is the innermost one of a path; `rest` is the stack without it. -/
def innermost (stack : List DEntry) (pf : Bool) (e : DEntry) (rest : List DEntry) : Prop :=
  ∃ pre post, stack = pre ++ e :: post ∧ rest = pre ++ post ∧ e.path = pf ∧ ∀ x ∈ post, x.path ≠ pf

/-- R105: a path has no entry. -/
def noEntry (stack : List DEntry) (pf : Bool) : Prop := ∀ x ∈ stack, x.path ≠ pf

/-- R104: an open divergence of the path at J. -/
def divergenceOpen (w : Warp) (pf : Bool) (j : W64) : Prop :=
  (∃ e ∈ w.dstack, e.path = pf ∧ e.jaddr = j) ∨ (w.div = true ∧ w.recon = j)

/-- R23: the age queue with every valid bit cleared. -/
def agesCleared (s : State) (w : Warp) : List AgeEntry := clearAge (actPath s w).age

/-! ## Vector registers -/

/-- One register of the warp gets new lanes and a tag; the path goes on at pc, and nothing else changes. -/
def regStep (s t : State) (w : Warp) (v : Nat) (tag : Fmt) (lanes : Nat → W32) (pc : W64) : Prop :=
  ∃ w', wentOn s t w w' pc ∧ { w' with a := w.a, b := w.b, wdc := w.wdc, regs := w.regs } = w ∧
    { actPath s w' with pc := (actPath s w).pc, issued := (actPath s w).issued } = actPath s w ∧
    (∀ n, n ≠ v → fget w'.regs n = fget w.regs n) ∧ vtag w' v = tag ∧ missing w' v = false ∧
    ∀ l, l < 32 → lane (vread w' v) l = lanes l

/-! ## Barriers -/

/-- The warp is whole, its acting path has issued every clause and stands at a barrier for the first time, and no path
of the warp waits for a phase of barrier n. -/
def atBarrier (s : State) (w : Warp) (level : Bool) (n : Nat) : Prop :=
  actsOn s w ∧ rising s.warps = true ∧ w.div = false ∧ noEntry w.dstack s.cur.path ∧ allIssued (actPath s w) = true ∧
    (actPath s w).synced = none ∧ waitsPhase w level n = false

/-- A barrier instruction raises a cause, its barrier and its warp's PEND and APH unchanged. -/
def barrierTraps (i : Instr) (s : State) (w : Warp) (cause : Nat) : Prop :=
  ∃ w', exec i s = .next (raiseTrap (putWarp s s.cur.warp w') s.cur.warp s.cur.path (sTrap (actPath s w') cause)) ∧
    { w' with a := w.a, b := w.b, wdc := w.wdc } = w ∧ countedOnce w w' ∧
    { actPath s w' with spin := (actPath s w).spin, wait := (actPath s w).wait } = actPath s w ∧
    w'.path (!s.cur.path) = w.path (!s.cur.path)

/-- R156: the state word after the arrival of a warp with count n. -/
def afterArrival (b : Bar) (n : Nat) : Bar :=
  let e := if b.arrived = 0 then n else b.expect
  if b.arrived + 1 = e then { expect := e, arrived := 0, phase := !b.phase }
  else { expect := e, arrived := b.arrived + 1, phase := b.phase }

/-- The acting warp after a barrier: its registers are as before, and PEND, the address and the wait are as given. -/
def barrierLeft (s t : State) (w : Warp) (level : Bool) (n : Nat) (pend : Bool) (wait : PWait) (pc : W64) : Prop :=
  ∃ w', fget t.warps s.cur.warp = some w' ∧ pendOf w' level n = pend ∧ (actPath s w').wait = wait ∧
    (actPath s w').pc = pc ∧ (actPath s w').x = (actPath s w).x ∧ (actPath s w').k = (actPath s w).k ∧
    w'.xs = w.xs ∧ w'.regs = w.regs ∧ t.mem = s.mem

/-! ## Engines -/

/-- R30, R31: one operation with a body enters the list of outstanding ones, counted on the acting path alone. -/
def opIssued (s t : State) (w : Warp) (body : OpBody) : Prop :=
  t.ops = s.ops ++ [{ id := s.next, warp := s.cur.warp, block := w.block, ownA := !s.cur.path, ownB := s.cur.path,
                      flag := none, body := body }] ∧ t.next = s.next + 1

/-- An engine instruction issued: its operation is outstanding, the path goes on, and no register, no byte of memory
and nothing else changes but what the banks' bookkeeping says. -/
def engineStep (s t : State) (w : Warp) (body : OpBody) : Prop :=
  opIssued s t w body ∧
    scalarStep { s with ops := t.ops, next := t.next, banks := t.banks } t w 0 0 (nextPc s w)

/-- The instruction raises a precise cause with an empty lane mask and an offset. -/
def trapsOffset (i : Instr) (s : State) (w : Warp) (cause off : Nat) : Prop :=
  exec i s = .next (raiseTrap (putWarp s s.cur.warp (countIssue w)) s.cur.warp s.cur.path
    { sTrap (actPath s w) cause with lmask := 0, va := BitVec.ofNat 64 off })

/-- R167: the fields of a bank descriptor. -/
def bankFirst (x : W64) : Nat := (x.extractLsb' 0 6).toNat
/-- R167. -/
def bankCount (x : W64) : Nat := (x.extractLsb' 6 7).toNat
/-- R167. -/
def bankBand (x : W64) : Nat := (x.extractLsb' 13 3).toNat

/-- R167: a descriptor that ACC.ALLOC accepts. -/
def allocDescGood (x : W64) : Prop :=
  1 ≤ bankCount x ∧ bankFirst x + bankCount x ≤ 64 ∧ bankBand x ≤ 3 ∧ x.extractLsb' 16 48 = 0

/-- The keys of the banks that a descriptor names for a warp's core pair. -/
def bankKeys (w : Warp) (x : W64) : List Nat := (List.range (bankCount x)).map fun i => bankKey w (bankFirst x + i)

/-- An operation added to the acting path's open batch; the region ends, and nothing else changes. -/
def batchStep (s t : State) (w : Warp) (op : ShOp) : Prop :=
  ∃ w', wentOn s t w w' (nextPc s w) ∧ { w' with a := w.a, b := w.b, wdc := w.wdc, nidem := w.nidem } = w ∧
    w'.nidem = true ∧ (actPath s w').batch = (actPath s w).batch ++ [op] ∧
    { actPath s w' with pc := (actPath s w).pc, issued := (actPath s w).issued, batch := (actPath s w).batch,
                        spin := (actPath s w).spin } = actPath s w

/-! ## Traps -/

/-- R192, R193: path pf of warp w has entered a handler at pc for a cause that stops no other path. The trap record
is in xs0 to xs4, the path runs at supervisor level, and the core holds k0, the level, LBASE and the clause queue. -/
def tookTrap (w w' : Warp) (pf : Bool) (t : Trap) (pc lbase : W64) : Prop :=
  let p := w.path pf
  let q := w'.path pf
  q.priv = 1 ∧ q.pc = pc ∧ q.lbase = lbase ∧ q.queue = [] ∧ q.pend = none ∧ q.wait = .none ∧ q.age = clearAge p.age ∧
    q.x = p.x ∧ (∀ r, rk w' pf r = if r = 0 then (if t.lane then t.lmask else p.k0) else rk w pf r) ∧
    (∃ h, q.held = some h ∧ h.k0 = p.k0 ∧ h.priv = p.priv ∧ h.lbase = p.lbase ∧ h.queue = p.queue) ∧
    (fgetD 0 w'.xs 0 : W64) = BitVec.ofNat 64 (t.cause + b2n t.lane * 2 ^ 9 + b2n pf * 2 ^ 10 + b2n t.impr * 2 ^ 12 +
      t.widx * 2 ^ 13 + t.code * 2 ^ 24 + t.lmask.toNat * 2 ^ 32) ∧
    (fgetD 0 w'.xs 1 : W64) = t.resume ∧ (fgetD 0 w'.xs 2 : W64) = (if t.lane then t.clauseAddr else 0) ∧
    (fgetD 0 w'.xs 3 : W64) = t.va ∧ (fgetD 0 w'.xs 4 : W64) = p.k0.setWidth 64 ∧
    (∀ n, 5 ≤ n → (fgetD 0 w'.xs n : W64) = fgetD 0 w.xs n) ∧ w'.path (!pf) = w.path (!pf) ∧
    { w' with a := w.a, b := w.b, xs := w.xs, wdc := w.wdc, nidem := w.nidem } = w

/-- R196, R414: the launch of the warp is purged with a cause, the warp is gone, and no launch of another function or
request tag has changed. -/
def purgedFor (s t : State) (u : Nat) (w : Warp) (cause : Nat) : Prop :=
  (∀ l, rising s.warps = true → warpLaunch s w = some l → l.fn = w.fn → l.lrec.tag = w.reqtag → launchOpen l = true →
    fget t.warps u = none ∧ ∃ l', fget t.launches w.launch = some l' ∧ l'.st = .purged ∧ l'.cause = cause) ∧
  ∀ n l, fget s.launches n = some l → ¬(l.fn = w.fn ∧ l.lrec.tag = w.reqtag) → fget t.launches n = some l

/-- A record about a warp joins the fault queue of its function, and the warp is parked (R194, R344). -/
def parkedWith (s t : State) (u : Nat) (w : Warp) (r : FRec) : Prop :=
  (fget t.warps u).map (·.st) = some .parked ∧ ∃ f f', fget s.funcs w.fn = some f ∧ fget t.funcs w.fn = some f' ∧
    f' = { f with fqWait := f.fqWait ++ [r] }

/-- The warp with its idempotent region ended (R98). -/
def ended (w : Warp) : Warp := { w with nidem := true }

/-! ## Lane instructions -/

/-- R83: a lane instruction raises a precise cause for given lanes, with a value of xs3, and has no other effect. It waits
until the earlier loads of its clause have completed. -/
def trapsLaneAt (i : Instr) (s : State) (c : LCtx) (cause : Nat) (m : W32) (va : W64) : Prop :=
  (earlierLoads s c = true → exec i s = .next s) ∧
  (earlierLoads s c = false → exec i s = .next (raiseTrap s c.uid c.pf (laneTrap c cause m va false)))

/-- R83: a lane instruction raises a precise cause with act as its lanes. -/
def trapsLane (i : Instr) (s : State) (c : LCtx) (cause : Nat) : Prop := trapsLaneAt i s c cause c.act 0

/-- R22, R23: the age queue after an instruction with a mask, a result and a tag. The youngest entry keeps the lanes
out of act from the entry before it. -/
def agePushed (s : State) (w w' : Warp) (act : W32) (res : Nat → W32) (tag : Fmt) (pend : Option Nat) : Prop :=
  ∃ q, (actPath s w').age = q :: (actPath s w).age.take 15 ∧
    (∀ old rest, (actPath s w).age = old :: rest → q.valid = act ||| old.valid ∧
      ∀ l, l < 32 → lane q.data l = if act.getLsbD l then res l else lane old.data l) ∧
    (act ≠ 0 → q.tag = tag ∧ q.pend = pend)

/-- The acting clause has moved to its next word, with its captured masks as given; no other clause has changed. -/
def nextWordOf (s : State) (w w' : Warp) (c : LCtx) (k : FMap W32) : Prop :=
  (c.clause = none → (actPath s w').queue = (actPath s w).queue) ∧
  (∀ d, c.clause = some d → ((actPath s w).queue.map (·.seq)).Nodup → (actPath s w').queue =
    (actPath s w).queue.map fun e => if e.seq = d.seq then { d with k := k, idx := d.idx + 1 } else e)

/-- A lane instruction has ended: no scalar register, no byte of memory, no operation and no other warp has changed. -/
def laneEnded (s t : State) (w w' : Warp) : Prop :=
  t = { putWarp s s.cur.warp w' with free := t.free, parts := t.parts, cores := t.cores, ops := t.ops, next := t.next } ∧
    t.cores.l1 = s.cores.l1 ∧ t.cores.tlb = s.cores.tlb ∧ t.cores.sups = s.cores.sups ∧
    w'.path (!s.cur.path) = w.path (!s.cur.path) ∧
    { actPath s w' with age := (actPath s w).age, last := (actPath s w).last, queue := (actPath s w).queue,
                        spin := (actPath s w).spin } = actPath s w

/-- R119, R22 to R28: a lane instruction completes with a result: the lanes of act of its destination and of the age
queue hold it, every other lane and register is as before, and its flags are raised. -/
def laneStep (s t : State) (w : Warp) (c : LCtx) (o : LaneOp) (r : LRes) : Prop :=
  ∃ w', laneEnded s t w w' ∧ t.ops = s.ops ∧ t.next = s.next ∧
    { w' with a := w.a, b := w.b, regs := w.regs, wmode := w.wmode } = w ∧ w'.wmode = raiseFlags w.wmode r.fl ∧
    (∀ d, o.dst = some d → vtag w' d = r.tag ∧
      ∀ l, l < 32 → lane (vread w' d) l = if c.act.getLsbD l then lane r.res l else lane (vread w d) l) ∧
    (∀ n, o.dst ≠ some n → fget w'.regs n = fget w.regs n) ∧
    agePushed s w w' c.act (lane r.res) r.tag none ∧
    nextWordOf s w w' c (match r.kd with | some (n, m) => fputD 0 c.k n m | none => c.k)

/-- R13, R22: a lane instruction whose act is empty completes: only the age queue shifts, and its youngest entry holds
what it held. -/
def laneEmpty (s t : State) (w : Warp) (c : LCtx) (ends : Bool) : Prop :=
  ∃ w', laneEnded s t w w' ∧ t.ops = s.ops ∧ t.next = s.next ∧
    { w' with a := w.a, b := w.b, nidem := w.nidem } = w ∧ w'.nidem = (ends || w.nidem) ∧
    (∃ q, (actPath s w').age = q :: (actPath s w).age.take 15 ∧ ∀ old rest, (actPath s w).age = old :: rest →
      q.valid = old.valid ∧ q.tag = old.tag ∧ q.pend = old.pend ∧ ∀ l, l < 32 → lane q.data l = lane old.data l) ∧
    nextWordOf s w w' c c.k

/-- R17: a register of the instruction that the warp does not declare. -/
def laneBeyond (c : LCtx) (o : LaneOp) (srcs : List (Src × Fmt)) : Prop :=
  (∃ x ∈ srcs, srcBeyond c x.1 = true) ∨ ∃ d, o.dst = some d ∧ c.w.vregs ≤ d

/-- R39, R147: an operand that has not been delivered, or a destination that cannot be written yet. -/
def laneWaits (s : State) (c : LCtx) (o : LaneOp) (srcs : List (Src × Fmt)) : Prop :=
  (∃ x ∈ srcs, srcWaits s c x.1 = true) ∨ dstWaits s c o.dst = true ∨
    ((ageEntry c 0).pend.isSome = true ∧ c.act ≠ BitVec.allOnes 32)

/-- R82: what every lane instruction does before its own checks, and what it goes on with. -/
def laneReads (s : State) (w : Warp) (o : LaneOp) (i : Instr) (rok : Bool) (srcs : List (Src × Fmt))
    (k : LCtx → LIn → Prop) : Prop :=
  let c := lctx s w (actPath s w) o
  (c.act ≠ 0 → laneBeyond c o srcs → trapsLane i s c 0x81) ∧
  (c.act ≠ 0 → ¬laneBeyond c o srcs → laneWaits s c o srcs → waits i s) ∧
  (c.act ≠ 0 → ¬laneBeyond c o srcs → ¬laneWaits s c o srcs →
    (∀ cause, readSrcs s c o rok 1 srcs = .error cause → trapsLane i s c cause) ∧
    ∀ vals tags fl, readSrcs s c o rok 1 srcs = .ok (vals, tags, fl) →
      k c { s := s, c := { c with srcs := vals }, o := o, rok := rok, vals := vals, tags := tags, fl := fl,
            qbad := srcs.any fun x => srcInvalid c x.1, rbad := srcs.any fun x => srcPoisoned c x.1 })

/-- R26, R23, R413: the checks on the tag of a partial write, on the age entries read, and on poisoned words, in this
order; then what is given. -/
def laneGuarded (i : Instr) (s : State) (c : LCtx) (o : LaneOp) (x : LIn) (tag : Fmt) (k : Prop) : Prop :=
  let badTag := c.w.div = true ∧ ∃ d, o.dst = some d ∧ vtag c.w d ≠ tag
  (badTag → trapsLane i s c 0x12) ∧ (¬badTag → x.qbad = true → trapsLane i s c 0x24) ∧
  (¬badTag → x.qbad = false → x.rbad = true → trapsLane i s c 0x121) ∧
  (¬badTag → x.qbad = false → x.rbad = false → k)

/-- R119: an arithmetic lane instruction from its reading to its end, with a result that `post` describes. -/
def laneDoes (s : State) (w : Warp) (o : LaneOp) (i : Instr) (rok : Bool) (srcs : List (Src × Fmt))
    (post : LIn → LRes → Prop) : Prop :=
  let c := lctx s w (actPath s w) o
  (c.act = 0 → (actPath s w).residue = false → runs i s fun t => laneEmpty s t w c false) ∧
  laneReads s w o i rok srcs fun c x => ∃ r, post x r ∧ laneGuarded i s c o x r.tag
    ((actPath s w).residue = false → runs i s fun t => laneStep s t w c o { r with fl := flOr x.fl r.fl })

/-- Every table of the state lists each key once, in rising order. -/
def tablesRising (s : State) : Bool :=
  rising s.warps && rising s.blocks && rising s.banks && rising s.launches && rising s.funcs

end Sys2Proof
end

