-- ==== Sys2Proof/Certificates/Slice0/Obligations.lean ====
section
/-! DEFINITION. The statements for the provers. Each names the rules of spec/ that it formalises. -/

namespace Sys2Proof.Claims

open Sys2Proof.Machine

/-! ## The tables that the statements run over -/

/-- R99: the forms of two sources with their results. DIV and REM are in DivisionResults. -/
def twoSource (d a b : Nat) : List (Instr × (W64 → W64 → W64)) :=
  [(.add d a b, fun x y => x + y), (.sub d a b, fun x y => x - y), (.mul d a b, fun x y => x * y),
   (.mulhI64 d a b, fun x y => (x.signExtend 128 * y.signExtend 128).extractLsb' 64 64),
   (.mulhN64 d a b, fun x y => (x.setWidth 128 * y.setWidth 128).extractLsb' 64 64),
   (.and d a b, fun x y => x &&& y), (.or d a b, fun x y => x ||| y), (.xor d a b, fun x y => x ^^^ y),
   (.andn d a b, fun x y => x &&& ~~~y),
   (.shl d a b, fun x y => x <<< (y.toNat % 64)), (.shr d a b, fun x y => x >>> (y.toNat % 64)),
   (.sra d a b, fun x y => x.sshiftRight (y.toNat % 64)), (.ror d a b, fun x y => x.rotateRight (y.toNat % 64)),
   (.minI64 d a b, fun x y => if y.slt x then y else x), (.minN64 d a b, fun x y => if y.ult x then y else x),
   (.maxI64 d a b, fun x y => if x.slt y then y else x), (.maxN64 d a b, fun x y => if x.ult y then y else x),
   (.sltI64 d a b, fun x y => if x.slt y then 1 else 0), (.sltN64 d a b, fun x y => if x.ult y then 1 else 0)]

/-- R101: i = sext(imm12, 12) mod 2^64. -/
def immWord (imm : Nat) : W64 := (BitVec.ofNat 12 imm).signExtend 64

/-- R99, R101: the forms of one source with their results. -/
def oneSource (d a imm : Nat) : List (Instr × (W64 → W64)) :=
  [(.clz d a, fun x => BitVec.ofNat 64 (if x = 0 then 64 else 63 - Nat.log2 x.toNat)),
   (.popc d a, fun x => BitVec.ofNat 64 ((List.range 64).filter fun i => x.getLsbD i).length),
   (.brev d a, fun x => x.reverse),
   (.sextI8 d a, fun x => (x.setWidth 8).signExtend 64), (.sextI16 d a, fun x => (x.setWidth 16).signExtend 64),
   (.sextI32 d a, fun x => (x.setWidth 32).signExtend 64),
   (.zextN8 d a, fun x => (x.setWidth 8).setWidth 64), (.zextN16 d a, fun x => (x.setWidth 16).setWidth 64),
   (.zextN32 d a, fun x => (x.setWidth 32).setWidth 64),
   (.addi d a imm, fun x => x + immWord imm), (.andi d a imm, fun x => x &&& immWord imm),
   (.ori d a imm, fun x => x ||| immWord imm), (.xori d a imm, fun x => x ^^^ immWord imm),
   (.shli d a imm, fun x => x <<< (imm % 64)), (.shri d a imm, fun x => x >>> (imm % 64)),
   (.srai d a imm, fun x => x.sshiftRight (imm % 64)),
   (.sltiI64 d a imm, fun x => if x.slt (immWord imm) then 1 else 0),
   (.sltiN64 d a imm, fun x => if x.ult (immWord imm) then 1 else 0)]

/-- R111: the forms that write a mask from two masks. -/
def maskForms (d a b : Nat) : List (Instr × (W32 → W32 → W32)) :=
  [(.kand d a b, fun x y => x &&& y), (.kor d a b, fun x y => x ||| y), (.kxor d a b, fun x y => x ^^^ y),
   (.kandn d a b, fun x y => x &&& ~~~y), (.knot d a, fun x _ => ~~~x), (.kmov d a, fun x _ => x)]

/-- R103: the compare-and-branch forms with their conditions. -/
def branchForms (a b off : Nat) : List (Instr × (W64 → W64 → Bool)) :=
  [(.beq a b off, fun x y => x = y), (.bne a b off, fun x y => x ≠ y), (.blt a b off, fun x y => x.slt y),
   (.bge a b off, fun x y => !x.slt y), (.bltu a b off, fun x y => x.ult y), (.bgeu a b off, fun x y => !x.ult y)]

/-- A system register as R199, R200 and R377 give it: its number, how many indices it has, whether user level may
reach it, and its value at index i. CTXSTAT is the word of R36. -/
def sysRegs (s : State) (w : Warp) (p : Path) (i : Nat) : List (Nat × Nat × Bool × W64) :=
  let ctxstat := p.priv.toNat + b2n w.div * 2 ^ 2 + b2n (w.st = .parked && w.parkCtx) * 2 ^ 3 + w.dstack.length % 64 * 2 ^ 4 +
    b2n w.markv * 2 ^ 10 + w.reqtag % 2 ^ 16 * 2 ^ 16 + w.wdc % 2 ^ 32 * 2 ^ 32
  let capd := if w.kind = .patrol then capd s i else capdSeen s (partOf s w.fn) i
  let bar : Bar := (warpBlock s w).elim Bar.fresh fun k => fgetD Bar.fresh k.bars i
  let bstate := bar.expect % 2 ^ 7 + bar.arrived % 2 ^ 7 * 2 ^ 7 + b2n bar.phase * 2 ^ 14
  let seq := ((warpBlock s w).bind fun k => fget k.seqs (i / 16)).elim 0 fun r => seqWord r.2 / 2 ^ (64 * (i % 16)) % 2 ^ 64
  [(0x00, 1, true, w.wmode), (0x01, 1, true, n64 ctxstat), (0x02, 1, true, n64 w.slot), (0x03, 4, true, n64 capd),
   (0x08, 32, false, n64 bstate), (0x09, 256, false, n64 seq),
   (0x10, 1, false, (fget s.funcs w.fn).elim 0 (·.hvec)), (0x11, 1, false, n64 ((fget s.funcs w.fn).elim 0 (·.wdlim)))] ++
  (if w.kind = .patrol then
    [(0x20, 4, false, n64 (clstat s w.die i)), (0x21, 4, false, n64 (clctl s w.die i)),
     (0x22, 1, false, (patrolAt s w.die).wake.setWidth 64), (0x23, 4, false, n64 (retstat s w.die i))]
   else [])

/-- R198: an index that a register has. A sequencer record has ten 64-bit words (R173). -/
def validIndex (n count i : Nat) : Prop := i < count ∧ (n = 0x09 → i % 16 < 10)

/-! ### Lane forms -/

/-- R136, R137, R139, R141, R135: the forms with one 32-bit result per lane: their sources, the result's tag and its
word in lane l. -/
def wordForms (o : LaneOp) : List (Instr × List (Src × Fmt) × (LIn → Fmt) × (LIn → Nat → W32)) :=
  let a := (o.a, Fmt.b32)
  let b := (o.b, Fmt.b32)
  let c := (o.c, Fmt.b32)
  let n := fun (x : LIn) l => (x.at 1 l).toNat % 256
  let src := fun (x : LIn) (l j : Nat) => if x.c.act.getLsbD j then x.at 0 j else x.at 2 l
  let moved := fun (j : LIn → Nat → Nat) (x : LIn) =>
    if ((List.range 32).any fun l => x.c.act.getLsbD l && !x.c.act.getLsbD (j x l)) && x.tag 2 ≠ x.tag 0
    then Fmt.b32 else x.tag 0
  let shfl := fun (x : LIn) l => (x.at 1 l).toNat % 32
  let shflx := fun (x : LIn) l => l ^^^ (x.at 1 l).toNat % 32
  let bcst := fun (x : LIn) (_ : Nat) => (x.at 1 ((lowLane x.c.act).getD 0)).toNat % 32
  [(.andB32 o, [a, b], fun _ => .b32, fun x l => x.at 0 l &&& x.at 1 l),
   (.orB32 o, [a, b], fun _ => .b32, fun x l => x.at 0 l ||| x.at 1 l),
   (.xorB32 o, [a, b], fun _ => .b32, fun x l => x.at 0 l ^^^ x.at 1 l),
   (.notB32 o, [a], fun _ => .b32, fun x l => ~~~ x.at 0 l),
   (.shlB32 o, [a, b], fun _ => .b32, fun x l => x.at 0 l <<< n x l),
   (.shrN32 o, [(o.a, .n32), b], fun _ => .n32, fun x l => x.at 0 l >>> n x l),
   (.sraI32 o, [(o.a, .i32), b], fun _ => .i32, fun x l => (x.at 0 l).sshiftRight (min (n x l) 31)),
   (.popcB32 o, [a], fun _ => .n32, fun x l =>
     BitVec.ofNat 32 ((List.range 32).filter fun i => (x.at 0 l).getLsbD i).length),
   (.clzB32 o, [a], fun _ => .n32, fun x l =>
     BitVec.ofNat 32 (if x.at 0 l = 0 then 32 else 31 - Nat.log2 (x.at 0 l).toNat)),
   (.brevB32 o, [a], fun _ => .b32, fun x l => (x.at 0 l).reverse),
   (.sel o, [a, b, c], fun x => if x.tag 0 = x.tag 1 then x.tag 0 else .b32,
     fun x l => if (x.at 2 l).getLsbD l then x.at 0 l else x.at 1 l),
   (.bfe o, [(o.a, o.fmt), b], fun _ => o.fmt, fun x l => bfeOf (o.fmt = .i32) (x.at 0 l) (x.at 1 l)),
   (.perm o, [a, b, c], fun _ => .b32, fun x l => permOf (x.at 0 l) (x.at 1 l) (x.at 2 l)),
   (.mov o, [a], fun x => x.tag 0, fun x l => x.at 0 l),
   (.shfl o, [a, b, c], moved shfl, fun x l => src x l (shfl x l)),
   (.shflx o, [a, b, c], moved shflx, fun x l => src x l (shflx x l)),
   (.bcst o, [a, b, c], moved bcst, fun x l => src x l (bcst x l)),
   (.rng o, [a, b], fun _ => .n32, fun x l => rngHash (x.at 0 l) (x.at 1 l)),
   (.isad o, [(o.a, o.fmt), (o.b, o.fmt), (o.c, .n32)], fun _ => .n32, fun x l => x.at 2 l +
     BitVec.ofNat 32 (((List.range (fmtCount o.fmt)).map fun e => (x.int 0 l e - x.int 1 l e).natAbs).sum)),
   (.unpack o, [a], fun _ => if o.mods.testBit 3 then .i32 else .n32, fun x l =>
     let e := elem o.fmt (x.at 0 l) (o.mods % 8)
     if o.mods.testBit 3 then BitVec.ofInt 32 (sext (fmtWidth o.fmt) e) else BitVec.ofNat 32 e)]

/-- R135: the integer forms with their exact results, by lane and element. -/
def intForms (o : LaneOp) : List (Instr × List Src × (LIn → Nat → Nat → Int)) :=
  [(.iadd o, [o.a, o.b], fun x l e => x.int 0 l e + x.int 1 l e),
   (.isub o, [o.a, o.b], fun x l e => x.int 0 l e - x.int 1 l e),
   (.imul o, [o.a, o.b], fun x l e => x.int 0 l e * x.int 1 l e),
   (.imad o, [o.a, o.b, o.c], fun x l e => x.int 0 l e * x.int 1 l e + x.int 2 l e),
   (.imulh o, [o.a, o.b], fun x l e => (x.int 0 l e * x.int 1 l e).fdiv (2 ^ 32)),
   (.imin o, [o.a, o.b], fun x l e => min (x.int 0 l e) (x.int 1 l e)),
   (.imax o, [o.a, o.b], fun x l e => max (x.int 0 l e) (x.int 1 l e)),
   (.iabs o, [o.a], fun x l e => ((x.int 0 l e).natAbs : Int))]

/-- R46: the values of an integer format. -/
def intBounds (f : Fmt) : Int × Int :=
  if isSigned f then (-(2 ^ (fmtWidth f - 1)), 2 ^ (fmtWidth f - 1) - 1) else (0, 2 ^ fmtWidth f - 1)

/-- R44: the integer formats. -/
def isIntFmt (f : Fmt) : Bool :=
  [Fmt.i32, .n32, .i16, .n16, .i8, .n8, .i4, .n4].contains f

/-- R123 to R129, R131, R134, R138: the forms with one rounded result per lane and element: whether the rnd field
counts, the sources, the result's tag, and the element with its flags. -/
def floatForms (o : LaneOp) : List (Instr × Bool × List (Src × Fmt) × Fmt × (LIn → Nat → Nat → Coded)) :=
  let f := o.fmt
  let a := (o.a, f)
  let b := (o.b, f)
  let two := fun (g : RMode → Machine.Num → Machine.Num → Coded) (x : LIn) l e => g (x.mode l e) (x.num 0 l e) (x.num 1 l e)
  let one := fun (g : RMode → Machine.Num → Coded) (x : LIn) l e => g (x.mode l e) (x.num 0 l e)
  let raw := fun (g : Nat → Nat) (x : LIn) l e => ({ code := g (x.code 0 l e), fl := 0 } : Coded)
  let sign := 2 ^ (fmtWidth f - 1)
  [(.fadd o, true, [a, b], f, two fun r x y => addOp f r x y),
   (.fsub o, true, [a, b], f, two fun r x y => addOp f r x y.neg),
   (.fmul o, true, [a, b], f, two fun r x y => mulOp f r x y),
   (.ffma o, true, [a, b, (o.c, f)], f,
     fun x l e => fmaOp f (x.mode l e) (x.num 0 l e) (x.num 1 l e) (x.num 2 l e)),
   (.fmin o, false, [a, b], f, fun x l e => minMax f false (x.code 0 l e) (x.code 1 l e)),
   (.fmax o, false, [a, b], f, fun x l e => minMax f true (x.code 0 l e) (x.code 1 l e)),
   (.fabs o, false, [a], f, raw fun v => v % sign),
   (.fneg o, false, [a], f, raw fun v => v + sign),
   (.fcpys o, false, [a, b], f, fun x l e => { code := x.code 0 l e % sign + x.code 1 l e / sign * sign, fl := 0 }),
   (.frcp o, false, [a], f, one fun r x => onNumber f r x frcpOf),
   (.frsq o, false, [a], f, one fun r x => onNumber f r x frsqOf),
   (.fsqrt o, false, [a], f, one fun r x => onNumber f r x fsqrtOf),
   (.flog2 o, false, [a], f, one fun r x => onNumber f r x fun _ => flog2Of),
   (.ftanh o, false, [a], f, one fun r x => onNumber f r x fun _ => ftanhOf),
   (.fexpf o, false, [a], f, one fun r x => onNumber f r x fun _ => fexpfOf),
   (.fscale o, true, [a, b], f, two fun r x y => scaleOp f r x y),
   (.frint o, true, [a], f, one fun r x => rintOp f r x),
   (.fclass o, false, [a], if f = .f32 then .n32 else .n16, raw fun v => 2 ^ classBit f v),
   (.dqnt o, false, [a, (o.b, .e8m0)], .f32, fun x l e =>
     let v := mxElem f (elem f (x.at 0 l) (o.mods % 8))
     let p := mulNums (decodeNum .e8m0 (elem .e8m0 (x.at 1 l) (o.mods / 8 % 4))) v
     let c := encodeNum .f32 (x.mode l e) p.1
     { c with fl := flOr (flOr (sigFlags [v]) p.2) c.fl })]

/-- R130: the ballot of a condition over the lanes of act, delivered to every lane of act and to the captured mask that
the modifiers name. -/
def isBallot (x : LIn) (r : LRes) (test : Nat → Bool) : Prop :=
  ∃ m : W32, (∀ j, j < 32 → m.getLsbD j = (x.c.act.getLsbD j && test j)) ∧ r.tag = .b32 ∧
    (∀ l, x.c.act.getLsbD l = true → lane r.res l = m) ∧
    r.kd = if x.o.mods / 16 % 16 = 0 then none else some (x.o.mods / 16 % 16, m)

/-- R142 to R144: the effective address of a lane: the captured base, the lane's offset, sign-extended or not, and the
scaled immediate, modulo 2^64. -/
def laneAddress (c : LCtx) (o : LaneOp) (a : W32) (unit : Nat) : Nat :=
  let base : W64 := if o.mods / 2 ^ 18 % 64 = 0 then 0 else fgetD 0 c.x (o.mods / 2 ^ 18 % 64)
  (base + (if o.mods.testBit 17 then a.signExtend 64 else a.setWidth 64) +
    (BitVec.ofNat 8 o.mods).signExtend 64 * BitVec.ofNat 64 unit).toNat

/-- R145: the checks of an access, in their order, and then what is given, with the home of each lane: 3.0 and 3.1 for
the address, 4.0, 9.1 and 9.0 for the bounds, each met first by the lowest lane that fails it, and the translation of
every lane of act. A scratchpad access has its offset as its home. -/
def laneChecked (i : Instr) (s : State) (c : LCtx) (space : Space) (acc : Acc) (size : Nat) (ea : Nat → Nat)
    (k : (Nat → Nat) → Prop) : Prop :=
  let fails := fun (e l : Nat) (m : W32) =>
    trapsLaneAt i s c e m (BitVec.ofNat 64 (ea l))
  let align := fun l => alignCheck space (ea l) size
  let bound := fun l => boundCheck s c.w space (ea l) size
  (∀ e m l, firstCause c.act align = some (e, m, l) → fails e l m) ∧
  (firstCause c.act align = none → (∀ e m l, firstCause c.act bound = some (e, m, l) → fails e l m) ∧
    (firstCause c.act bound = none →
      (space = .sp → k ea) ∧
      (space ≠ .sp → ∀ home : Nat → Nat, (∀ l, c.act.getLsbD l = true →
        laneXlate s c space acc (laneVa s c.w space l (ea l)) = .ok (home l)) → k home)))

/-- R146, R147, R150: an operation of lane memory enters the list of outstanding ones and the instruction ends. Its result
comes later: no register, no sticky flag, no byte of memory and no scratchpad has changed, and the youngest age entry waits for it. -/
def memIssued (s t : State) (w : Warp) (c : LCtx) (o : LaneOp) (m : LaneMem) (tag : Fmt) (pend : Bool) : Prop :=
  t.ops = s.ops ++ [{ id := s.next, warp := s.cur.warp, block := w.block, ownA := !s.cur.path, ownB := s.cur.path,
                      flag := o.flag, body := .mem m }] ∧ t.next = s.next + 1 ∧
    ∃ w', laneEnded s t w w' ∧ { w' with a := w.a, b := w.b, nidem := w.nidem } = w ∧
      agePushed s w w' c.act (fun _ => 0) tag (if pend then some s.next else none) ∧ nextWordOf s w w' c c.k

/-- R29, R30: the counter of a space and the flag of an instruction have room for one operation more. -/
def memRoom (s : State) (o : LaneOp) (space : Space) : Prop :=
  counter s s.cur.warp s.cur.path (spaceCtr space) < 255 ∧
    ∀ f, o.flag = some f → flagCount s s.cur.warp s.cur.path f < 16

/-- R29, R30, R31: operation id has left the list of outstanding ones, and no byte of memory has changed. -/
def opLeft (s t : State) (id : Nat) : Prop := t.ops = s.ops.filter (fun o => o.id ≠ id) ∧ t.mem = s.mem

/-- R254: an operation without the record of the granules that L1 may hold when they come. -/
def holdless (o : Op) : Op :=
  match o.body with
  | .mem m => { o with body := .mem { m with hold := [] } }
  | _ => o

/-- R254, R255: operation id has left the list. An acquire also makes the core's other loads hold no granule that was asked for
before it. -/
def memLeft (s t : State) (id : Nat) (m : LaneMem) : Prop :=
  t.ops.map holdless = (s.ops.filter fun o => o.id ≠ id).map holdless ∧
    (isAcquire m = false → t.ops = s.ops.filter fun o => o.id ≠ id)

/-! ### Events -/

/-- R179: the acting path's open batch has closed: it is an outstanding operation of the warp, and no byte of memory has
changed. -/
def batchClosed (s t : State) (w w' : Warp) : Prop :=
  (∃ o ∈ t.ops, o.id = s.next ∧ o.warp = s.cur.warp ∧ o.body = .batch (actPath s w).batch) ∧ t.next = s.next + 1 ∧
    t.mem = s.mem ∧ (actPath s w').batch = []

/-- R157: a barrier instruction raises a cause on both paths of a diverged warp, and no barrier has changed. -/
def pairTraps (i : Instr) (s : State) (w : Warp) (cause : Nat) : Prop :=
  ∃ v, exec i s = .next (raiseTrap (raiseTrap (putWarp s s.cur.warp v) s.cur.warp false (sTrap v.a cause)) s.cur.warp
      true (sTrap v.b cause)) ∧
    { v with a := w.a, b := w.b, wdc := w.wdc } = w ∧ v.a.wait = .none ∧ v.b.wait = .none ∧
    { v.a with wait := w.a.wait, synced := w.a.synced, spin := w.a.spin } = w.a ∧
    { v.b with wait := w.b.wait, synced := w.b.synced, spin := w.b.spin } = w.b

/-- R155, R159: the six barrier forms, each with what it names. -/
def barrierForms (s : State) (w : Warp) (bn scope a : Nat) : List (Instr × BarReq) :=
  let n := (rx w s.cur.path a).toNat
  [(.barArrive bn a, ⟨false, bn, true, false, n⟩), (.barWait bn, ⟨false, bn, false, true, 0⟩),
   (.barSync bn a, ⟨false, bn, true, true, n⟩), (.lbarArrive scope, ⟨true, scope, true, false, 0⟩),
   (.lbarWait scope, ⟨true, scope, false, true, 0⟩), (.lbarSync scope, ⟨true, scope, true, true, 0⟩)]

/-- R155, R159: the first check of a barrier form: 10.4 of a BAR, 10.11 of an LBAR. -/
def barrierPasses (l : Launch) (r : BarReq) : Prop :=
  if r.level then l.lrec.gang = true else r.n < l.lrec.nbar ∧ (r.arrives = true → 1 ≤ r.count ∧ r.count ≤ 64)

/-- R159: with the arrival of the acting warp, every warp of the launch in the instance has arrived in the phase or has exited,
and the launch has no block to place there. -/
def levelMet (s : State) (w : Warp) (l : Launch) (scope : Nat) (phase : Bool) : Prop :=
  unplacedIn l w scope = 0 ∧ ∀ v x, v ≠ s.cur.warp → fget s.warps v = some x → x.launch = w.launch → x.kind = .kernel →
    levelInst x scope = levelInst w scope →
    x.st = .ended ∨ (pendOf x true scope = true ∧ aphOf x true scope = phase)

/-- R156, R159: what an arrival leaves in the state word of its barrier. -/
def arrivedAs (s : State) (w : Warp) (l : Launch) (r : BarReq) (b b' : Bar) : Prop :=
  if r.level then
    (levelMet s w l r.n b.phase → b'.phase = !b.phase ∧ b'.arrived = 0) ∧
    (¬levelMet s w l r.n b.phase → b'.phase = b.phase ∧ b'.arrived = b.arrived + 1)
  else b' = afterArrival b r.count

/-- R156, R159: another warp of a barrier's participants that waits in its core for the current phase has gone on after its
barrier, its PEND clear. -/
def waitersGo (s t : State) (level : Bool) (n : Nat) (peer : Warp → Prop) (phase : Bool) : Prop :=
  ∀ v x, v ≠ s.cur.warp → fget s.warps v = some x → x.kind = .kernel → peer x → x.st ≠ .saved → x.reload = false →
    x.a.wait = .phase level n → aphOf x level n = phase →
    ∃ x', fget t.warps v = some x' ∧ pendOf x' level n = false ∧ x'.a.wait = .none ∧ x'.a.pc = x.a.pc + 4 ∧ x'.wdc = 0 ∧
      x'.a.x = x.a.x ∧ x'.a.k = x.a.k ∧ x'.regs = x.regs

/-- Only the clauses of the acting path that have the number of clause k have changed: they are now k'. -/
def clauseSet (s t : State) (w : Warp) (k k' : Clause) : Prop :=
  ∃ w', t = putWarp s s.cur.warp w' ∧ { w' with a := w.a, b := w.b } = w ∧
    w'.path (!s.cur.path) = w.path (!s.cur.path) ∧
    { actPath s w' with queue := (actPath s w).queue } = actPath s w ∧
    (actPath s w').queue = (actPath s w).queue.map fun e => if e.seq = k.seq then k' else e

/-- R230: w is the oldest kernel warp of a core among those that p holds of. -/
def oldestOf (s : State) (core : Nat) (p : Nat → Warp → Bool) (u : Nat) (w : Warp) : Prop :=
  rising s.warps = true ∧ fget s.warps u = some w ∧ coreKey w = core ∧ w.kind = .kernel ∧ p u w = true ∧
    ∀ v x, fget s.warps v = some x → coreKey x = core → x.kind = .kernel → p v x = true → v ≠ u → w.since < x.since

/-- R230: the warps in the rink of a core. -/
def rinkCount (s : State) (core : Nat) : Nat := ((coreWarps s core).filter fun e => e.2.st = .rink).length

/-- R193: xs0 of a trap that is raised by an S-stream instruction or for a path. -/
def causeWord (cause : Nat) (pf both : Bool) (k0 : W32) : W64 :=
  BitVec.ofNat 64 (cause + b2n pf * 2 ^ 10 + b2n both * 2 ^ 11 + k0.toNat * 2 ^ 32)

/-- One function has changed, and nothing else. -/
def funcStep (s t : State) (fn : Nat) (f : Func) : Prop := t = { s with funcs := fput s.funcs fn f }

/-- R351: a host request answered: DONE in its entry, and then SEQ 0; nothing else has changed. -/
def reqEnded (s t : State) (q : HostReq) (done : Nat) : Prop :=
  t = { s with mem := wrLe (wrLe s.mem (q.addr + 0x38) 8 done) q.addr 8 0 }

/-- R351: the entry of a host request says done. -/
def reqDone (t : State) (q : HostReq) : Prop := rdLe t.mem (q.addr + 0x38) 8 = 1 ∧ rdLe t.mem q.addr 8 = 0

/-- Two ranges of bytes have no byte in common. -/
def apart (a m b n : Nat) : Prop := a + m ≤ b ∨ b + n ≤ a

/-- R326: a command of a master has left the ownership given, with its number and its result in the master's fields. -/
def ownerRan (s t : State) (m cmd : Nat) (o : Own) (x : Master) (last : Nat) : Prop :=
  t = { s with mgmt := { s.mgmt with own := { o with
    masters := fput s.mgmt.own.masters m { x with cmd := cmd, last := last } } } }

/-- R323: access number a names function fn and a master, or, as master 0, the VF's own driver; 0 is the PF driver, master 1. -/
def names (a m fn : Nat) : Prop := fn < 64 ∧ if a = 0 then fn = 0 ∧ m = 1 else a = 64 * m + fn

/-- R323: what a writer of a function's registers writes takes effect. -/
def mayWrite (s : State) (m fn : Nat) : Prop := isOwner s m = true ∨ (m = 0 ∧ fn ≠ 0)

/-- R321, R329: the management space of a function takes writes. -/
def takesWrites (f : Func) : Prop := f.enabled = true ∧ f.clr = false

/-- R401: the module has answered a packet: the response latest handed to the links has a kind and a payload, and goes
to the source under the request's sequence number. -/
def answeredWith (t : State) (p : Packet) (kind : Nat) (payload : List Byte) (pois : Nat) : Prop :=
  ∃ (r : Packet) (rest : List Packet), t.fabric.out = r :: rest ∧ r.kind = kind ∧ r.cls = 2 ∧ r.seq = p.seq ∧ r.dst = p.src ∧
    r.src = Config.moduleNo ∧ r.fn = p.fn ∧ r.tag = p.tag ∧ r.payload = payload ∧ r.pois = pois

/-- R404: the entry of a packet's sequence number is recorded as applied, with the words that it returned. -/
def recorded (t : State) (p : Packet) (words : List W32) : Prop :=
  ∃ win, fget t.fabric.windows (4 * p.src + p.cls) = some win ∧ fget win.ents p.seq = some words

/-- R391: a status alone has changed. -/
def partAnswer (s t : State) (v : Nat) : Prop := t = { s with parts := { s.parts with status := some v } }

/-- R205: a warp without the mark that its path's next outgoing packet is lost. -/
def unarmed (w : Warp) : Warp := { w with a := { w.a with dropPkt := false }, b := { w.b with dropPkt := false } }

/-- The warps are as before, but that a packet which left the bobbin may have used up such a mark. -/
def warpsKept (s t : State) : Prop := ∀ v, (fget t.warps v).map unarmed = (fget s.warps v).map unarmed

/-- R365: the status of a remapping. -/
def remapAnswer (s t : State) (v : Nat) : Prop := t = { s with mgmt := { s.mgmt with status := some v } }

end Sys2Proof.Claims

open Sys2Proof Sys2Proof.Machine Sys2Proof.Claims

/-! ## Encoding and stepping -/

/-- R67 to R78: for every instruction that has an encoding and is well-formed, decoding its word gives it back, with
every operand. -/
def Obligations.DecodeOfEncode : Prop :=
  ∀ (i : Instr) (n w : Nat), wellFormed i = true → encode i = some (n, w) → decodeTableWord n w = some i

/-- R67 to R72, R80, R81: an S-stream word that decodes is the encoding of the one well-formed instruction that it
decodes to: no bit of a word is ignored, and no two words mean the same. -/
def Obligations.EncodeOfDecode : Prop :=
  ∀ (w : Nat) (i : Instr), w < 2 ^ 32 → decodeS w = .ok i → wellFormed i = true ∧ encode i = some (32, w)

/-- R67 to R69, R71, R101 to R104, R111: words that the spec writes out. -/
def Obligations.SpecWordsDecode : Prop :=
  decodeTableWord 32 0x02000000 = some .nop ∧
  decodeTableWord 32 0x06208FF0 = some (.addi 4 4 0xFF0) ∧
  decodeTableWord 32 0x2A381FFD = some (.loop 7 0x1FFD) ∧
  decodeTableWord 32 0x40624000 = some (.kand 3 1 2) ∧
  decodeTableWord 32 0x26203808 = some (.brd 1 7 8) ∧
  decodeTableWord 32 0x26402002 = some (.brd 2 4 2)

/-! ## Scalar arithmetic -/

/-- R99: the forms of two sources. Each runs to its end on every operand, writes its result to xd (x0 discards it),
goes on at A + 4, and changes nothing else. -/
def Sys2Proof.Claims.TwoSourceResults : Prop :=
  ∀ (s : State) (w : Warp) (d a b : Nat), actsOn s w → ∀ e ∈ twoSource d a b,
    runs e.1 s fun t => scalarStep s t w d (e.2 (rx w s.cur.path a) (rx w s.cur.path b)) (nextPc s w)

/-- R100: division truncates toward zero, the remainder takes the sign of the dividend, division by zero and
−2^63 / −1 have fixed results, and none of the four raises a trap. -/
def Obligations.DivisionResults : Prop :=
  ∀ (s : State) (w : Warp) (d a b : Nat), actsOn s w →
    let x := rx w s.cur.path a
    let y := rx w s.cur.path b
    ∃ qi ri qn rn : W64,
      runs (.divI64 d a b) s (fun t => scalarStep s t w d qi (nextPc s w)) ∧
      runs (.remI64 d a b) s (fun t => scalarStep s t w d ri (nextPc s w)) ∧
      runs (.divN64 d a b) s (fun t => scalarStep s t w d qn (nextPc s w)) ∧
      runs (.remN64 d a b) s (fun t => scalarStep s t w d rn (nextPc s w)) ∧
      (y = 0 → qi = 0xFFFFFFFFFFFFFFFF ∧ ri = x ∧ qn = 0xFFFFFFFFFFFFFFFF ∧ rn = x) ∧
      (x = BitVec.intMin 64 ∧ y = BitVec.allOnes 64 → qi = BitVec.intMin 64 ∧ ri = 0) ∧
      (y ≠ 0 → ¬(x = BitVec.intMin 64 ∧ y = BitVec.allOnes 64) →
        qi.toInt = x.toInt.tdiv y.toInt ∧ ri.toInt = x.toInt - y.toInt * qi.toInt ∧
        (0 ≤ x.toInt → 0 ≤ ri.toInt) ∧ (x.toInt ≤ 0 → ri.toInt ≤ 0)) ∧
      (y ≠ 0 → qn.toNat = x.toNat / y.toNat ∧ rn.toNat = x.toNat % y.toNat)

/-- R99, R101: the forms of one source and the immediate forms. -/
def Sys2Proof.Claims.OneSourceResults : Prop :=
  ∀ (s : State) (w : Warp) (d a imm : Nat), actsOn s w → ∀ e ∈ oneSource d a imm,
    runs e.1 s fun t => scalarStep s t w d (e.2 (rx w s.cur.path a)) (nextPc s w)

/-- R101, R102: the one word of NOP, the word of ADDI x4, x4, −16, and the reserved field of the shifts by an
immediate, which raises 0.5. -/
def Sys2Proof.Claims.ImmediateWords : Prop :=
  decodeS 0x06208FF0 = .ok (.addi 4 4 0xFF0) ∧
  (∀ v, v < 2 ^ 32 → (decodeS v = .ok .nop ↔ v = 0x02000000)) ∧
  ∀ v, 7 ≤ v / 2 ^ 25 → v / 2 ^ 25 ≤ 9 → v / 2 ^ 6 % 2 ^ 6 ≠ 0 → decodeS v = .error 5

/-- R68, R102, R111: LDI clears every other bit, LDI.K keeps every other bit, NOP writes nothing (as a write to x0
does), and KGETX writes a mask zero-extended. -/
def Sys2Proof.Claims.LoadImmediateResults : Prop :=
  ∀ (s : State) (w : Warp) (d pos imm n : Nat), actsOn s w → pos < 4 → imm < 2 ^ 16 →
    (∃ v, runs (.ldi d pos imm) s (fun t => scalarStep s t w d v (nextPc s w)) ∧
      ∀ i, i < 64 → v.getLsbD i = if 16 * pos ≤ i ∧ i < 16 * pos + 16 then imm.testBit (i - 16 * pos) else false) ∧
    (∃ v, runs (.ldiK d pos imm) s (fun t => scalarStep s t w d v (nextPc s w)) ∧
      ∀ i, i < 64 → v.getLsbD i = if 16 * pos ≤ i ∧ i < 16 * pos + 16 then imm.testBit (i - 16 * pos)
        else (rx w s.cur.path d).getLsbD i) ∧
    runs .nop s (fun t => scalarStep s t w 0 0 (nextPc s w)) ∧
    runs (.kgetx d n) s (fun t => scalarStep s t w d ((rk w s.cur.path n).setWidth 64) (nextPc s w))

/-- R99 to R102, R16: the scalar forms of two sources, of one, and of an immediate. -/
def Obligations.ScalarResults : Prop :=
  TwoSourceResults ∧ OneSourceResults ∧ LoadImmediateResults ∧ ImmediateWords

/-! ## Masks -/

/-- R111: each form that writes a mask runs to its end on every operand, writes its result to kd, goes on at A + 4, and
changes nothing else. -/
def Sys2Proof.Claims.MaskWrites : Prop :=
  ∀ (s : State) (w : Warp) (d a b n : Nat), actsOn s w →
    (∀ e ∈ maskForms d a b,
      runs e.1 s fun t => maskStep s t w d (e.2 (rk w s.cur.path a) (rk w s.cur.path b)) (nextPc s w)) ∧
    runs (.ksetx d n) s (fun t => maskStep s t w d ((rx w s.cur.path n).setWidth 32) (nextPc s w))

/-- R71, R111: no word of KOP names k0 as a destination: kd = 0 raises 0.1 in every form that writes kd, or 0.5 where a
field that the form does not use is not zero (R82); and a word that decodes to such a form names one of k1 to k15. -/
def Sys2Proof.Claims.MaskWords : Prop :=
  (∀ v f, f ≤ 6 → decodeS (0x40000000 + f) = .error 1 ∧
    (v < 2 ^ 32 → v / 2 ^ 25 = 0x20 → v % 2 ^ 7 = f → v / 2 ^ 21 % 16 = 0 →
      decodeS v = .error 1 ∨ decodeS v = .error 5)) ∧
  ∀ v d a b n, v < 2 ^ 32 → (∃ i, decodeS v = .ok i ∧ (i = .ksetx d n ∨ i ∈ (maskForms d a b).map (·.1))) →
    1 ≤ d ∧ d ≤ 15

/-- R71, R111: the forms that write a mask, and the masks that they can name. -/
def Obligations.MaskResults : Prop := MaskWrites ∧ MaskWords

/-! ## Branches -/

/-- R103, R68: the compare-and-branch forms go to A + 4 × sext(off13, 13) or on to A + 4, and write no register. -/
def Sys2Proof.Claims.CompareBranches : Prop :=
  ∀ (s : State) (w : Warp) (a b off : Nat), actsOn s w → ∀ e ∈ branchForms a b off,
    runs e.1 s fun t => scalarStep s t w 0 0
      (if e.2 (rx w s.cur.path a) (rx w s.cur.path b) then branchTarget s w 13 off else nextPc s w)

/-- R103: B, CALL, RET and LOOP. CALL writes A + 4 to its link register and CALL x0 writes none; LOOP x0 always
branches; a RET to an address that is not a multiple of 4 raises 0.10 with no effect. A warp in restore state and
RET x0 are in RestoreReturn. -/
def Sys2Proof.Claims.Transfers : Prop :=
  ∀ (s : State) (w : Warp) (n a off : Nat), actsOn s w →
    runs (.b off) s (fun t => scalarStep s t w 0 0 (branchTarget s w 19 off)) ∧
    runs (.call n off) s (fun t => scalarStep s t w n (nextPc s w) (branchTarget s w 19 off)) ∧
    runs (.loop a off) s (fun t => scalarStep s t w a (rx w s.cur.path a - 1)
      (if rx w s.cur.path a - 1 ≠ 0 then branchTarget s w 13 off else nextPc s w)) ∧
    ((w.restore && a == 0) = false → (rx w s.cur.path a).toNat % 4 = 0 →
      runs (.ret a) s fun t => scalarStep s t w 0 0 (rx w s.cur.path a)) ∧
    ((w.restore && a == 0) = false → (rx w s.cur.path a).toNat % 4 ≠ 0 → trapsAt (.ret a) s w 0x0A)

/-- R240: RET x0 of a warp in restore state resumes at the mark and ends the restore state. -/
def Sys2Proof.Claims.RestoreReturn : Prop :=
  ∀ (s : State) (w : Warp), actsOn s w → w.restore = true →
    runs (.ret 0) s fun t => scalarStep s t { w with restore := false } 0 0 w.markAddr

/-- R103, R68, R240: where the branches, jumps, calls and returns go, and what they save and restore. -/
def Obligations.ControlTransfers : Prop := CompareBranches ∧ Transfers ∧ RestoreReturn

/-! ## Divergence -/

/-- R104, R108: BRD with t = 0, with t = k0, nested, and the two traps of a nested BRD, which have no effect. -/
def Sys2Proof.Claims.BranchDivergence : Prop :=
  ∀ (s : State) (w : Warp) (kn toff joff : Nat), actsOn s w →
    let k0 := (actPath s w).k0
    let t := k0 &&& rk w s.cur.path kn
    let j := (actPath s w).pc + BitVec.ofNat 64 (4 * joff)
    (t = 0 → runs (.brd kn toff joff) s fun u => scalarStep s u w 0 0 (nextPc s w)) ∧
    (t ≠ 0 → t = k0 → runs (.brd kn toff joff) s fun u => scalarStep s u w 0 0 (branchTarget s w 10 toff)) ∧
    (t ≠ 0 → t ≠ k0 → w.div = true → divergenceOpen w s.cur.path j → trapsAt (.brd kn toff joff) s w 0xA1) ∧
    (t ≠ 0 → t ≠ k0 → w.div = true → ¬divergenceOpen w s.cur.path j → 32 ≤ w.dstack.length →
      trapsAt (.brd kn toff joff) s w 0xA0) ∧
    (t ≠ 0 → t ≠ k0 → w.div = true → ¬divergenceOpen w s.cur.path j → w.dstack.length < 32 → toff < 1024 →
      joff < 2048 →
      runs (.brd kn toff joff) s fun u => ∃ e : DEntry, e.jaddr = j ∧ e.mask = k0 ∧ e.state = false ∧
        e.path = s.cur.path ∧ takenTarget e = branchTarget s w 10 toff ∧
        divStep s u w (k0 &&& ~~~t) (w.dstack ++ [e]) (actPath s w).age (nextPc s w))

/-- R104, R31, R179: BRD splits a warp that is not diverged, once the clauses of path A have completed. Path B gets the taken
lanes and a copy of path A's registers and masks; every outstanding operation of path A is counted on both paths. An open
batch closes first, once its counter has room. Where path A is in a handler, path B runs at its level and has no held state:
the model's choice, log entry 123. -/
def Sys2Proof.Claims.BranchSplits : Prop :=
  ∀ (s : State) (w : Warp) (kn toff joff : Nat), actsOn s w → s.cur.path = false → w.div = false →
    let t := w.a.k0 &&& rk w false kn
    t ≠ 0 → t ≠ w.a.k0 →
    (allDone s s.cur.warp false w.a = false → waits (.brd kn toff joff) s) ∧
    (w.a.batch ≠ [] → 255 ≤ counter s s.cur.warp false .sh → waits (.brd kn toff joff) s) ∧
    (w.a.batch ≠ [] → counter s s.cur.warp false .sh < 255 → allDone s s.cur.warp false w.a = true →
      runs (.brd kn toff joff) s fun u => ∃ w', fget u.warps s.cur.warp = some w' ∧ batchClosed s u w w' ∧
        w'.b.batch = [] ∧ w'.div = true ∧ w'.a.k0 = w.a.k0 &&& ~~~t ∧ w'.b.k0 = t ∧ w'.a.pc = w.a.pc + 4 ∧
        w'.b.pc = branchTarget s w 10 toff) ∧
    (w.a.batch = [] → allDone s s.cur.warp false w.a = true → runs (.brd kn toff joff) s fun u =>
      ∃ w', u = putWarp (splitOps s s.cur.warp) s.cur.warp w' ∧ w'.div = true ∧
        w'.recon = w.a.pc + BitVec.ofNat 64 (4 * joff) ∧ w'.a.k0 = w.a.k0 &&& ~~~t ∧ w'.b.k0 = t ∧
        w'.a.pc = w.a.pc + 4 ∧ w'.b.pc = branchTarget s w 10 toff ∧ w'.a.live = true ∧ w'.b.live = true ∧
        w'.b.priv = w.a.priv ∧ w'.b.lbase = w.a.lbase ∧ w'.a.held = w.a.held ∧ w'.b.held = none ∧
        (∀ r, rx w' false r = rx w false r ∧ rx w' true r = rx w false r) ∧
        (∀ r, r ≠ 0 → rk w' false r = rk w false r ∧ rk w' true r = rk w false r) ∧
        w'.b.age = w.a.age ∧ w'.b.queue = [] ∧ w'.dstack = w.dstack ∧ w'.regs = w.regs ∧ w'.xs = w.xs ∧
        (∀ c, counter u s.cur.warp false c = counter s s.cur.warp false c) ∧
        ∀ o ∈ u.ops, o.warp = s.cur.warp → o.ownA = true → o.ownB = true)

/-- R104, R105, R108, R179: what BRD does. What the spec leaves open here is the model's choice: log entry 123. -/
def Obligations.Divergence : Prop := BranchDivergence ∧ BranchSplits

/-- R106, R108: JOIN inside nested serialisation: it waits for the path's clauses; the innermost entry at its address
switches to the taken lanes, then restores the mask; the address of another open divergence raises 10.1; a JOIN that
matches nothing only clears the age queue. -/
def Sys2Proof.Claims.JoinEntries : Prop :=
  ∀ (s : State) (w : Warp) (e : DEntry) (rest : List DEntry), actsOn s w →
    let p := actPath s w
    (allDone s s.cur.warp s.cur.path p = false → waits .join s) ∧
    (allDone s s.cur.warp s.cur.path p = true →
      (innermost w.dstack s.cur.path e rest → e.jaddr = p.pc → e.state = false →
        runs .join s fun t => ∃ stack, stack.length = w.dstack.length ∧
          innermost stack s.cur.path { e with state := true } rest ∧
          divStep s t w (e.mask &&& ~~~p.k0) stack (agesCleared s w) (takenTarget e)) ∧
      (innermost w.dstack s.cur.path e rest → e.jaddr = p.pc → e.state = true →
        runs .join s fun t => divStep s t w e.mask rest (agesCleared s w) (nextPc s w)) ∧
      (innermost w.dstack s.cur.path e rest → e.jaddr ≠ p.pc → divergenceOpen w s.cur.path p.pc →
        trapsAt .join s w 0xA1) ∧
      (innermost w.dstack s.cur.path e rest → e.jaddr ≠ p.pc → ¬divergenceOpen w s.cur.path p.pc →
        runs .join s fun t => divStep s t w p.k0 w.dstack (agesCleared s w) (nextPc s w)) ∧
      (noEntry w.dstack s.cur.path → ¬(w.div = true ∧ w.recon = p.pc) →
        runs .join s fun t => divStep s t w p.k0 w.dstack (agesCleared s w) (nextPc s w)))

/-- R106, R107, R179: at the reconvergence JOIN, a path waits while the other one runs, and the later of the two merges them:
k0 is the OR of both, the scalar registers and masks are path A's, every outstanding operation belongs to path A, the
age queue is empty, DIV is 0, and the warp goes on at J + 4. Where the other path has ended, the path that is left becomes
path A with what it has. An open batch closes first. -/
def Sys2Proof.Claims.JoinMerges : Prop :=
  ∀ (s : State) (w : Warp), actsOn s w → w.div = true → w.recon = (actPath s w).pc → noEntry w.dstack s.cur.path →
    allDone s s.cur.warp s.cur.path (actPath s w) = true → (actPath s w).wait = .none →
    let o := w.path (!s.cur.path)
    let empty := (actPath s w).batch = []
    (¬empty → 255 ≤ counter s s.cur.warp s.cur.path .sh → waits .join s) ∧
    (¬empty → counter s s.cur.warp s.cur.path .sh < 255 → o.live = true → o.wait = .none → runs .join s fun t => ∃ w',
      fget t.warps s.cur.warp = some w' ∧ batchClosed s t w w' ∧ (actPath s w').wait = .join ∧
      (actPath s w').pc = (actPath s w).pc ∧ w'.path (!s.cur.path) = o ∧ w'.div = true ∧ warpKept w w') ∧
    (¬empty → counter s s.cur.warp s.cur.path .sh < 255 → (o.live = false ∨ o.wait = .join) → runs .join s fun t => ∃ w',
      fget t.warps s.cur.warp = some w' ∧ batchClosed s t w w' ∧ w'.div = false ∧ w'.a.live = true ∧ w'.b.live = false ∧
      w'.a.pc = w.recon + 4) ∧
    (empty → o.live = false → runs .join s fun t => ∃ w', t = putWarp (mergeOps s s.cur.warp) s.cur.warp w' ∧
      w'.div = false ∧ w'.a.live = true ∧ w'.b.live = false ∧ w'.a.pc = w.recon + 4 ∧ w'.a.k0 = (actPath s w).k0 ∧
      (∀ r, r ≠ 0 → rk w' false r = rk w s.cur.path r) ∧ w'.a.x = (actPath s w).x ∧ (∀ x ∈ w'.a.age, x.valid = 0) ∧
      w'.regs = w.regs ∧ w'.xs = w.xs ∧ w'.dstack = w.dstack) ∧
    (empty → o.live = true → o.wait = .none → runs .join s fun t => ∃ w', t = putWarp s s.cur.warp w' ∧
      (actPath s w').wait = .join ∧ (actPath s w').pc = (actPath s w).pc ∧ w'.path (!s.cur.path) = o ∧
      w'.div = true ∧ warpKept w w') ∧
    (empty → o.live = true → o.wait = .join → runs .join s fun t => ∃ w', t = putWarp (mergeOps s s.cur.warp) s.cur.warp w' ∧
      w'.div = false ∧ w'.a.live = true ∧ w'.b.live = false ∧ w'.a.pc = w.recon + 4 ∧
      w'.a.k0 = w.a.k0 ||| w.b.k0 ∧ (∀ r, rx w' false r = rx w false r) ∧
      (∀ r, r ≠ 0 → rk w' false r = rk w false r) ∧ (∀ x ∈ w'.a.age, x.valid = 0) ∧ w'.regs = w.regs ∧
      w'.xs = w.xs ∧ w'.dstack = w.dstack)

/-- R106, R107, R179: what JOIN does. -/
def Obligations.Joins : Prop := JoinEntries ∧ JoinMerges

/-- R109: EXIT ends the lanes of k0: the innermost entry's other lanes take over, and an entry that has none left is
removed; a path of a diverged warp without an
entry ends once its clauses have completed; so does the last path of a warp, which stops issuing, so that the warp can end.
The region ends (R98). An open batch closes first, once its counter has room (R179). -/
def Obligations.ExitLanes : Prop :=
  ∀ (s : State) (w : Warp) (e : DEntry) (rest : List DEntry), actsOn s w →
    let p := actPath s w
    let left := fun x : DEntry => if x.path = s.cur.path then { x with mask := x.mask &&& ~~~p.k0 } else x
    (innermost w.dstack s.cur.path e rest → e.state = false →
      runs .exit s fun t => ∃ stack, stack.length = w.dstack.length ∧
        innermost stack s.cur.path { left e with state := true } (rest.map left) ∧
        divStep s t w (left e).mask stack p.age (takenTarget e)) ∧
    (innermost w.dstack s.cur.path e rest → e.state = true → (left e).mask ≠ 0 →
      runs .exit s fun t => divStep s t w (left e).mask (rest.map left) p.age (e.jaddr + 4)) ∧
    (innermost w.dstack s.cur.path e rest → e.state = true → (left e).mask = 0 →
      let popped := putWarp s s.cur.warp { w with dstack := rest }
      ¬waits .exit popped → exec .exit s = exec .exit popped) ∧
    (noEntry w.dstack s.cur.path → p.batch ≠ [] → 255 ≤ counter s s.cur.warp s.cur.path .sh → waits .exit s) ∧
    (noEntry w.dstack s.cur.path → p.batch ≠ [] → counter s s.cur.warp s.cur.path .sh < 255 →
      allDone s s.cur.warp s.cur.path p = true →
      (w.div = true → (w.path (!s.cur.path)).live = true → (w.path (!s.cur.path)).wait = .none →
        runs .exit s fun t => ∃ w', fget t.warps s.cur.warp = some w' ∧ batchClosed s t w w' ∧
          (actPath s w').live = false ∧ w'.path (!s.cur.path) = w.path (!s.cur.path) ∧ w'.div = true ∧ w'.nidem = true) ∧
      (w.div = false → p.wait = .none → runs .exit s fun t => ∃ w', fget t.warps s.cur.warp = some w' ∧
        batchClosed s t w w' ∧ (actPath s w').wait = .exit ∧ w'.nidem = true ∧ (actPath s w').pc = p.pc ∧
        (actPath s w').x = p.x)) ∧
    (noEntry w.dstack s.cur.path → w.div = true → allDone s s.cur.warp s.cur.path p = false → waits .exit s) ∧
    (noEntry w.dstack s.cur.path → w.div = true → allDone s s.cur.warp s.cur.path p = true → p.batch = [] →
      (w.path (!s.cur.path)).live = true → (w.path (!s.cur.path)).wait = .none →
      runs .exit s fun t => ∃ w', t = putWarp s s.cur.warp w' ∧ (actPath s w').live = false ∧ w'.div = true ∧
        w'.path (!s.cur.path) = w.path (!s.cur.path) ∧ w'.dstack = w.dstack ∧ w'.nidem = true ∧ w'.regs = w.regs) ∧
    (noEntry w.dstack s.cur.path → w.div = false → allDone s s.cur.warp s.cur.path p = false → waits .exit s) ∧
    (noEntry w.dstack s.cur.path → w.div = false → allDone s s.cur.warp s.cur.path p = true → p.wait = .none →
      p.batch = [] → runs .exit s fun t => ∃ w', t = putWarp s s.cur.warp w' ∧ (actPath s w').wait = .exit ∧ w'.nidem = true ∧
        (actPath s w').k = p.k ∧ (actPath s w').x = p.x ∧ (actPath s w').pc = p.pc ∧ w'.regs = w.regs ∧
        w'.xs = w.xs)

/-! ## Lane and scalar transfer, clauses, waits -/

/-- R112, R97: VGET and VPUT wait for the path's clauses; VGET reads the bits of any lane, VPUT writes a lane of k0
under the register's own tag; the traps 8.1 and 2.5 have no effect. -/
def Obligations.LaneScalarTransfer : Prop :=
  ∀ (s : State) (w : Warp) (n vn l : Nat), actsOn s w → l < 32 →
    let ready := transferReady s (actPath s w) vn 1 = true ∧ missing w vn = false
    (w.vregs ≤ vn → trapsAt (.vget n vn l) s w 0x81 ∧ trapsAt (.vput n vn l) s w 0x81) ∧
    (vn < w.vregs → (actPath s w).k0.getLsbD l = false → trapsAt (.vput n vn l) s w 0x25) ∧
    (vn < w.vregs → ¬ready → waits (.vget n vn l) s ∧
      ((actPath s w).k0.getLsbD l = true → waits (.vput n vn l) s)) ∧
    (vn < w.vregs → ready → wordPoisoned w vn (laneBit l) = true → trapsAt (.vget n vn l) s w 0x121) ∧
    (vn < w.vregs → ready → wordPoisoned w vn (laneBit l) = false →
      runs (.vget n vn l) s fun t => scalarStep s t w n ((lane (vread w vn) l).setWidth 64) (nextPc s w)) ∧
    (vn < w.vregs → ready → (actPath s w).k0.getLsbD l = true →
      runs (.vput n vn l) s fun t => regStep s t w vn (vtag w vn)
        (fun i => if i = l then (rx w s.cur.path n).setWidth 32 else lane (vread w vn) i) (nextPc s w))

/-- R110, R97: RUNC enqueues the clause at lbase + x[xn] + 4 × off with the masks, scalar values and level of the
moment; a seventeenth clause waits; an address that is not a multiple of 4 raises 0.10. -/
def Obligations.RunClause : Prop :=
  ∀ (s : State) (w : Warp) (n off : Nat), actsOn s w → off < 2 ^ 19 →
    let p := actPath s w
    let a := p.lbase + rx w s.cur.path n + BitVec.ofNat 64 (4 * off)
    let q := liveQueue s s.cur.warp s.cur.path p
    (a.toNat % 4 ≠ 0 → trapsAt (.runc n off) s w 0x0A) ∧
    (a.toNat % 4 = 0 → 16 ≤ q.length → waits (.runc n off) s) ∧
    (a.toNat % 4 = 0 → q.length < 16 → runs (.runc n off) s fun t => ∃ w' c, wentOn s t w w' (nextPc s w) ∧
      warpKept w w' ∧ w'.xs = w.xs ∧ (actPath s w').queue = q ++ [c] ∧ (actPath s w').x = p.x ∧
      (actPath s w').k = p.k ∧ (actPath s w').age = p.age ∧ c.addr = a ∧ c.k = p.k ∧ c.priv = p.priv ∧
      c.hdr = none ∧ c.started = false ∧
      ∀ r, 0 < r → r < 64 → (fgetD 0 c.x r : W64) = rx w s.cur.path r)

/-- R113: WAITF waits until every earlier clause has issued whole and every flag named is 0, and then only goes on. A
flag that no outstanding operation names is 0. The xa and ctr fields of its word are reserved, and 0x4600_0024 is
WAITF f2, f5. -/
def Obligations.WaitFlags : Prop :=
  decodeTableWord 32 0x46000024 = some (.waitf 0x24) ∧
  (∀ v mask, v < 2 ^ 32 → decodeTableWord 32 v = some (.waitf mask) → v = 0x46000000 + mask) ∧
  (∀ (s : State) (u : Nat) (pf : Bool) (f : Nat), (∀ o ∈ s.ops, o.flag ≠ some f) → flagPending s u pf f = false) ∧
  ∀ (s : State) (w : Warp) (mask : Nat), actsOn s w →
    let ready := allIssued (actPath s w) = true ∧
      ∀ f, f < 12 → mask.testBit f = true → flagPending s s.cur.warp s.cur.path f = false
    (ready → runs (.waitf mask) s fun t => scalarStep s t w 0 0 (nextPc s w)) ∧ (¬ready → waits (.waitf mask) s)

/-- R114, R255: WAITC goes on once its counter is at most x[xa], or at once when x[xa] is 255 or more; on sh the core
then drops its L1 lines, and a
non-empty batch first closes, which ends the region; it waits while its counter is full. -/
def Obligations.WaitCounter : Prop :=
  ∀ (s : State) (w : Warp) (a ctr : Nat), actsOn s w → allIssued (actPath s w) = true →
    let c := ctrOf ctr
    let n := counter s s.cur.warp s.cur.path c
    let goes := 255 ≤ (rx w s.cur.path a).toNat ∨ n ≤ (rx w s.cur.path a).toNat
    (c ≠ .sh → goes →
      runs (.waitc a ctr) s fun t => scalarStep s t w 0 0 (nextPc s w)) ∧
    (c ≠ .sh → ¬goes → waits (.waitc a ctr) s) ∧
    (c = .sh → (actPath s w).batch = [] → goes →
      runs (.waitc a ctr) s fun t => scalarStep (l1DropCore s (coreKey w)) t w 0 0 (nextPc s w)) ∧
    (c = .sh → (actPath s w).batch ≠ [] → 255 ≤ n → waits (.waitc a ctr) s) ∧
    (c = .sh → (actPath s w).batch = [] → ¬goes → waits (.waitc a ctr) s) ∧
    (c = .sh → (actPath s w).batch ≠ [] → n < 255 →
      runs (.waitc a ctr) s fun t => counter t s.cur.warp s.cur.path .sh = n + 1 ∧ t.mem = s.mem ∧
        ∃ w', fget t.warps s.cur.warp = some w' ∧ (actPath s w').batch = [] ∧ w'.nidem = true ∧
          (actPath s w').pc = (actPath s w).pc)

/-! ## Barriers, fences and memory homes -/

/-- R155, R156, R158: the named barriers on a warp that is whole, once the accesses before an arrival are performed:
the range checks, the arrivals and their traps, the completion of a phase, the waits, and what each leaves. -/
def Sys2Proof.Claims.NamedBarriers : Prop :=
  ∀ (s : State) (w : Warp) (k : Block) (l : Launch) (bn a : Nat), atBarrier s w false bn → bn < 32 →
    fget s.blocks w.block = some k → warpLaunch s w = some l → bn < l.lrec.nbar →
    let n := (rx w s.cur.path a).toNat
    let b : Bar := fgetD Bar.fresh k.bars bn
    let word := fun t : State => (fget t.blocks w.block).elim Bar.fresh fun k' => fgetD Bar.fresh k'.bars bn
    let again := w.pend.getLsbD bn = true ∧ w.aph.getLsbD bn = b.phase
    let mates := fun t : State => (word t).phase ≠ b.phase → waitersGo s t false bn (fun x => x.block = w.block) b.phase
    ((n < 1 ∨ 64 < n) → trapsAt (.barArrive bn a) s w 0xA4 ∧ trapsAt (.barSync bn a) s w 0xA4) ∧
    (fenceReady s s.cur.warp s.cur.path 1 = false → 1 ≤ n → n ≤ 64 →
      waits (.barArrive bn a) s ∧ waits (.barSync bn a) s) ∧
    (fenceReady s s.cur.warp s.cur.path 1 = true → 1 ≤ n → n ≤ 64 → again →
      barrierTraps (.barArrive bn a) s w 0xA9 ∧ barrierTraps (.barSync bn a) s w 0xA9) ∧
    (fenceReady s s.cur.warp s.cur.path 1 = true → 1 ≤ n → n ≤ 64 → ¬again → b.arrived ≠ 0 → n ≠ b.expect →
      barrierTraps (.barArrive bn a) s w 0xA3 ∧ barrierTraps (.barSync bn a) s w 0xA3) ∧
    (fenceReady s s.cur.warp s.cur.path 1 = true → 1 ≤ n → n ≤ 64 → ¬again → (b.arrived = 0 ∨ n = b.expect) →
      runs (.barArrive bn a) s (fun t => word t = afterArrival b n ∧ mates t ∧
        barrierLeft s t w false bn true .none (nextPc s w) ∧
        (fget t.warps s.cur.warp).elim false (·.nidem) = true) ∧
      runs (.barSync bn a) s (fun t => word t = afterArrival b n ∧ mates t ∧
        if (afterArrival b n).phase = b.phase
        then barrierLeft s t w false bn true (.phase false bn) (actPath s w).pc
        else barrierLeft s t w false bn false .none (nextPc s w))) ∧
    (w.pend.getLsbD bn = false → barrierTraps (.barWait bn) s w 0xAA) ∧
    (again → runs (.barWait bn) s fun t => word t = b ∧
      barrierLeft s t w false bn true (.phase false bn) (actPath s w).pc) ∧
    (w.pend.getLsbD bn = true → w.aph.getLsbD bn ≠ b.phase → runs (.barWait bn) s fun t => word t = b ∧
      barrierLeft s t w false bn false .none (nextPc s w))

/-- R159, R156: the level barriers of a gang launch on a warp that is whole: an arrival in the instance of the warp's quad, die,
package or pod, the completion of a phase once every participant has arrived or exited, the waits, and the warps that go on;
in any other launch each form raises 10.11. -/
def Sys2Proof.Claims.LevelBarriers : Prop :=
  ∀ (s : State) (w : Warp) (l : Launch) (scope : Nat), atBarrier s w true scope → 2 ≤ scope → scope ≤ 5 →
    warpLaunch s w = some l →
    let b : Bar := fgetD Bar.fresh l.lbars (levelKey w scope)
    let word := fun t : State => (warpLaunch t w).elim Bar.fresh fun l' => fgetD Bar.fresh l'.lbars (levelKey w scope)
    let pend := pendOf w true scope
    let again := pend = true ∧ aphOf w true scope = b.phase
    let ready := fenceReady s s.cur.warp s.cur.path scope = true
    let met := levelMet s w l scope b.phase
    let mates := fun t : State => waitersGo s t true scope
      (fun x => x.launch = w.launch ∧ levelInst x scope = levelInst w scope) b.phase
    (l.lrec.gang = false → trapsAt (.lbarArrive scope) s w 0xAB ∧ trapsAt (.lbarWait scope) s w 0xAB ∧
      trapsAt (.lbarSync scope) s w 0xAB) ∧
    (l.lrec.gang = true → ¬ready → waits (.lbarArrive scope) s ∧ waits (.lbarSync scope) s) ∧
    (l.lrec.gang = true → ready → again →
      barrierTraps (.lbarArrive scope) s w 0xA9 ∧ barrierTraps (.lbarSync scope) s w 0xA9) ∧
    (l.lrec.gang = true → ready → ¬again → met →
      runs (.lbarArrive scope) s (fun t => (word t).phase = (!b.phase) ∧ (word t).arrived = 0 ∧ mates t ∧
        barrierLeft s t w true scope true .none (nextPc s w) ∧ (fget t.warps s.cur.warp).elim false (·.nidem) = true) ∧
      runs (.lbarSync scope) s (fun t => (word t).phase = (!b.phase) ∧ (word t).arrived = 0 ∧ mates t ∧
        barrierLeft s t w true scope false .none (nextPc s w))) ∧
    (l.lrec.gang = true → ready → ¬again → ¬met →
      runs (.lbarArrive scope) s (fun t => (word t).phase = b.phase ∧ (word t).arrived = b.arrived + 1 ∧
        barrierLeft s t w true scope true .none (nextPc s w) ∧ (fget t.warps s.cur.warp).elim false (·.nidem) = true) ∧
      runs (.lbarSync scope) s (fun t => (word t).phase = b.phase ∧ (word t).arrived = b.arrived + 1 ∧
        barrierLeft s t w true scope true (.phase true scope) (actPath s w).pc)) ∧
    (l.lrec.gang = true → pend = false → barrierTraps (.lbarWait scope) s w 0xAA) ∧
    (l.lrec.gang = true → again → runs (.lbarWait scope) s fun t => word t = b ∧
      barrierLeft s t w true scope true (.phase true scope) (actPath s w).pc) ∧
    (l.lrec.gang = true → pend = true → ¬again → runs (.lbarWait scope) s fun t => word t = b ∧
      barrierLeft s t w true scope false .none (nextPc s w))

/-- R155: the checks of the six forms that come before the pairing and the state table: a barrier waits for the path's clauses,
bn at or above NBAR raises 10.4, and a path with an entry on the divergence stack raises 10.8. -/
def Sys2Proof.Claims.BarrierChecks : Prop :=
  ∀ (s : State) (w : Warp) (l : Launch) (bn scope a : Nat), actsOn s w → warpLaunch s w = some l →
    ∀ e ∈ barrierForms s w bn scope a,
      (allIssued (actPath s w) = false → waits e.1 s) ∧
      (allIssued (actPath s w) = true → e.2.level = false → l.lrec.nbar ≤ bn → trapsAt e.1 s w 0xA4) ∧
      (allIssued (actPath s w) = true → barrierPasses l e.2 → ¬noEntry w.dstack s.cur.path → trapsAt e.1 s w 0xA8)

/-- R157: the six forms in a diverged warp: the path waits for the other one; two paths at one barrier arrive and wait as one; at
two barriers, with two counts, or where the one arrival or wait has a cause, both raise it; and a path raises 10.6 where the
other one has reached JOIN or has ended. -/
def Sys2Proof.Claims.BarrierPairs : Prop :=
  ∀ (s : State) (w : Warp) (l : Launch) (bn scope a : Nat), actsOn s w → warpLaunch s w = some l → rising s.warps = true →
    allIssued (actPath s w) = true → noEntry w.dstack s.cur.path → w.div = true → 2 ≤ scope → scope ≤ 5 → bn < 32 →
    ∀ e ∈ barrierForms s w bn scope a, barrierPasses l e.2 →
      let p := actPath s w
      let o := w.path (!s.cur.path)
      let r := e.2
      let b := barState s w r
      let released := fenceReady s s.cur.warp false (if r.level then r.n else 1) = true ∧
        fenceReady s s.cur.warp true (if r.level then r.n else 1) = true
      let pend := pendOf w r.level r.n = true
      let again := pend ∧ aphOf w r.level r.n = b.phase
      let both := fun (t : State) (pend : Bool) (go : Bool) => ∃ w', fget t.warps s.cur.warp = some w' ∧
        pendOf w' r.level r.n = pend ∧ t.mem = s.mem ∧ ∀ q : Bool, (w'.path q).x = (w.path q).x ∧
          (if go then (w'.path q).wait = .none ∧ (w'.path q).pc = (w.path q).pc + 4
           else (w'.path q).wait = .phase r.level r.n ∧ (w'.path q).pc = (w.path q).pc)
      ((o.live = false ∨ o.wait = .join) → trapsAt e.1 s w 0xA6) ∧
      (o.live = true → o.wait ≠ .join → (∀ pc m, o.wait ≠ .bar pc m) →
        exec e.1 s = .next (putWarp s s.cur.warp (w.setPath s.cur.path { p with wait := .bar p.pc r.count }))) ∧
      (∀ pc m, o.live = true → o.wait = .bar pc m → pc ≠ p.pc → pairTraps e.1 s w 0xA7) ∧
      (∀ m, o.live = true → o.wait = .bar p.pc m → m ≠ r.count → pairTraps e.1 s w 0xA3) ∧
      (o.live = true → o.wait = .bar p.pc r.count → p.synced = none → waitsPhase w r.level r.n = false →
        (r.level = true ∨ ∃ k, fget s.blocks w.block = some k) →
        (r.arrives = true → ¬released → waits e.1 s) ∧
        (r.arrives = true → released → again → pairTraps e.1 s w 0xA9) ∧
        (r.arrives = true → released → ¬again → r.level = false → b.arrived ≠ 0 → r.count ≠ b.expect →
          pairTraps e.1 s w 0xA3) ∧
        (r.arrives = true → released → ¬again → (r.level = true ∨ b.arrived = 0 ∨ r.count = b.expect) →
          runs e.1 s fun t => arrivedAs s w l r b (barState t w r) ∧
            (r.waits = false → both t true true) ∧
            (r.waits = true → (barState t w r).phase = b.phase → both t true false) ∧
            (r.waits = true → (barState t w r).phase ≠ b.phase → both t false true)) ∧
        (r.arrives = false → ¬pend → pairTraps e.1 s w 0xAA) ∧
        (r.arrives = false → again → runs e.1 s fun t => barState t w r = b ∧ both t true false) ∧
        (r.arrives = false → pend → ¬again → runs e.1 s fun t => barState t w r = b ∧ both t false true))

/-- R157: a path that reaches the reconvergence JOIN, or ends, while the other one waits at a barrier: the other one raises 10.6
there, and its barrier has had no effect. -/
def Sys2Proof.Claims.BarrierBroken : Prop :=
  ∀ (s : State) (w : Warp) (pc : W64) (m : Nat), actsOn s w → w.div = true → noEntry w.dstack s.cur.path →
    allDone s s.cur.warp s.cur.path (actPath s w) = true → (actPath s w).batch = [] → (actPath s w).wait = .none →
    (w.path (!s.cur.path)).live = true → (w.path (!s.cur.path)).wait = .bar pc m →
    let broken := fun (i : Instr) (post : Warp → Prop) => ∃ v, exec i s = .next (raiseTrap (putWarp s s.cur.warp v)
        s.cur.warp (!s.cur.path) (sTrap (v.path (!s.cur.path)) 0xA6)) ∧ post v ∧
      v.path (!s.cur.path) = { w.path (!s.cur.path) with wait := .none } ∧ v.pend = w.pend ∧ v.aph = w.aph ∧
      v.lpend = w.lpend ∧ v.laph = w.laph ∧ v.div = true
    (w.recon = (actPath s w).pc → broken .join fun v => (actPath s v).wait = .join ∧ (actPath s v).pc = (actPath s w).pc) ∧
    broken .exit fun v => (actPath s v).live = false

/-- R155 to R159: the named barriers and the level barriers. -/
def Obligations.Barriers : Prop := NamedBarriers ∧ LevelBarriers ∧ BarrierChecks ∧ BarrierPairs ∧ BarrierBroken

/-- R154, R179, R255: FENCE at FABRIC first closes an open batch, once its counter has room, which ends the region. FENCE waits until every access of the path is performed with respect to its scope, from POD on until
fb is 0, and at FABRIC until sh is 0; then it only goes on, the core's L1 lines dropped at every scope above WARP. -/
def Obligations.FenceWaits : Prop :=
  ∀ (s : State) (w : Warp) (scope : Nat), actsOn s w → scope < 7 → allIssued (actPath s w) = true →
    let left := scope = 6 ∧ (actPath s w).batch ≠ []
    let performed := ∀ o ∈ s.ops, owns o s.cur.warp s.cur.path = true → ∀ m, o.body = .mem m →
      memPerformed m (5 ≤ scope) = true
    let others := ∀ o ∈ s.ops, owns o s.cur.warp s.cur.path = true →
      (∃ m, o.body = .mem m) ∨ (∃ l, o.body = .batch l) ∨ (∃ c, o.body = .coll c) ∨
        ∃ va n, o.body = .pois va n [] []
    let done := performed ∧ others ∧ (5 ≤ scope → counter s s.cur.warp s.cur.path .fb = 0) ∧
      (scope = 6 → counter s s.cur.warp s.cur.path .sh = 0)
    (left → 255 ≤ counter s s.cur.warp s.cur.path .sh → waits (.fence scope) s) ∧
    (left → counter s s.cur.warp s.cur.path .sh < 255 → runs (.fence scope) s fun t => ∃ w',
      fget t.warps s.cur.warp = some w' ∧ batchClosed s t w w' ∧ w'.nidem = true ∧ (actPath s w').pc = (actPath s w).pc ∧
      (actPath s w').x = (actPath s w).x ∧ w'.regs = w.regs) ∧
    (¬left → done → runs (.fence scope) s fun t =>
      scalarStep (if scope = 0 then s else l1DropCore s (coreKey w)) t w 0 0 (nextPc s w)) ∧
    (¬left → ¬done → waits (.fence scope) s)

/-- R115, R233: LIVE.DEAD kills whole registers of a whole warp and LIVE.HOT replaces the hot list; a range beyond the
declared registers raises 8.1, and LIVE.DEAD in a diverged warp 10.2. -/
def Sys2Proof.Claims.LiveRegisters : Prop :=
  ∀ (s : State) (w : Warp) (vn cnt : Nat), actsOn s w →
    (w.vregs ≤ vn + cnt → trapsAt (.liveDead vn cnt) s w 0x81 ∧ trapsAt (.liveHot vn cnt) s w 0x81) ∧
    (vn + cnt < w.vregs → w.div = true → trapsAt (.liveDead vn cnt) s w 0xA2) ∧
    (vn + cnt < w.vregs → w.div = false → transferReady s (actPath s w) vn (cnt + 1) = false →
      waits (.liveDead vn cnt) s) ∧
    (vn + cnt < w.vregs → w.div = false → transferReady s (actPath s w) vn (cnt + 1) = true →
      runs (.liveDead vn cnt) s fun t => ∃ w', wentOn s t w w' (nextPc s w) ∧
        { w' with a := w.a, b := w.b, wdc := w.wdc, regs := w.regs } = w ∧
        { actPath s w' with pc := (actPath s w).pc, issued := (actPath s w).issued } = actPath s w ∧
        ∀ r, fget w'.regs r = if vn ≤ r ∧ r ≤ vn + cnt then none else fget w.regs r) ∧
    (vn + cnt < w.vregs → runs (.liveHot vn cnt) s fun t => ∃ w', wentOn s t w w' (nextPc s w) ∧
      { w' with a := w.a, b := w.b, wdc := w.wdc, hot := w.hot } = w ∧
      { actPath s w' with pc := (actPath s w).pc, issued := (actPath s w).issued } = actPath s w ∧
      w'.hot = (List.range (cnt + 1)).map fun i => vn + i)

/-- R116, R235, R240: MARK waits for the path's clauses, clears its age queue, counts progress, and records its address
with PEND and APH only in a warp that is whole. -/
def Sys2Proof.Claims.MarkRecords : Prop :=
  ∀ (s : State) (w : Warp), actsOn s w →
    let ready := allDone s s.cur.warp s.cur.path (actPath s w)
    let whole := w.div = false ∧ w.dstack = []
    (ready = false → waits .mark s) ∧
    (ready = true → runs .mark s fun t => ∃ w', t = putWarp s s.cur.warp w' ∧ w'.wdc = 0 ∧
      (actPath s w').pc = nextPc s w ∧ (actPath s w').age = agesCleared s w ∧
      (actPath s w').x = (actPath s w).x ∧ (actPath s w').k = (actPath s w).k ∧
      w'.path (!s.cur.path) = w.path (!s.cur.path) ∧ w'.regs = w.regs ∧ w'.xs = w.xs ∧ w'.dstack = w.dstack ∧
      (whole → w'.markAddr = (actPath s w).pc ∧ w'.markv = true ∧ w'.nidem = false ∧ w'.mpend = w.pend ∧
        w'.maph = w.aph) ∧
      (¬whole → w'.markAddr = w.markAddr ∧ w'.markv = w.markv ∧ w'.nidem = w.nidem))

/-- R115, R116: the forms that tell the core which registers matter and where the warp can begin again. What the
spec leaves open here is the model's choice: log entry 72. -/
def Obligations.LiveAndMark : Prop := LiveRegisters ∧ MarkRecords

/-- R153: POISON checks its range (18.2), waits for the path's earlier accesses at DIE scope, and poisons every granule
of it, whatever part of which page holds it; no byte changes. Granules of other modules are poisoned by WRITE packets: the
instruction holds its place until all of them have been acknowledged, and then goes on. -/
def Sys2Proof.Claims.PoisonRange : Prop :=
  ∀ (s : State) (w : Warp) (a b : Nat), actsOn s w → allIssued (actPath s w) = true →
    let va := (rx w s.cur.path a).toNat
    let n := (rx w s.cur.path b).toNat
    let pieces := partPieces va n
    let bad := va % 64 ≠ 0 ∨ n = 0 ∨ n % 64 ≠ 0 ∨ 2 ^ 21 < n
    let ready := acquireOut s s.cur.warp s.cur.path = false ∧ fenceReady s s.cur.warp s.cur.path 3 = true
    let granules := fun l : List Nat => (l.zip (pieces.map (·.2))).flatMap fun e => granulesOf e.1 e.2
    (bad → trapsAt (.poison a b) s w 0x122) ∧
    (¬bad → ∀ l, xlateAll s (warpReq s w ((actPath s w).priv == 0) .write none) (pieces.map (·.1)) = .ok l →
      (poisOp s s.cur.warp s.cur.path va n = none → ¬ready → waits (.poison a b) s) ∧
      (poisOp s s.cur.warp s.cur.path va n = none → ready → (∀ g ∈ granules l, isLocal (64 * g) = true) →
        runs (.poison a b) s fun t => scalarStep { s with pois := t.pois } t w 0 0 (nextPc s w) ∧
          ∀ g, g ∈ t.pois ↔ g ∈ s.pois ∨ g ∈ granules l) ∧
      (∀ o, poisOp s s.cur.warp s.cur.path va n = some o → o.body = .pois va n [] [] →
        runs (.poison a b) s fun t => scalarStep (dropOp s o.id) t w 0 0 (nextPc s w)))

/-- R160: CLAIM of more than 1 GiB raises 3.4; it waits until gs, dm and fb are 0, and for shuttle transfers that touch a
page which it moves; a range of 0 bytes writes 0 and does nothing else; otherwise the number of pages that moved is
written, at most one for each page of the range, and every page that has no move to make stays. One page that moves has
its bytes at the new home, no duplicate, and is counted. -/
def Sys2Proof.Claims.ClaimPages : Prop :=
  ∀ (s : State) (w : Warp) (d a b : Nat), actsOn s w → allIssued (actPath s w) = true →
    let va := (rx w s.cur.path a).toNat
    let n := (rx w s.cur.path b).toNat
    let user := (actPath s w).priv == 0
    let drained := ∀ c ∈ [Ctr.gs, .dm, .fb], counter s s.cur.warp s.cur.path c = 0
    let busy := ∃ v ∈ rangePages va n, ∃ page, claimHome s w user v = some page ∧ engineTouches s page = true
    let mapped := ∃ l, xlateAll s (warpReq s w user .read none) (rangePages va n) = .ok l
    (2 ^ 30 < n → trapsAt (.claim d a b) s w 0x34) ∧
    (n ≤ 2 ^ 30 → ¬drained → waits (.claim d a b) s) ∧
    (n ≤ 2 ^ 30 → drained → mapped → busy → waits (.claim d a b) s) ∧
    (n = 0 → drained → runs (.claim d a b) s fun t => scalarStep s t w d 0 (nextPc s w)) ∧
    (n ≤ 2 ^ 30 → drained → mapped → (∀ v ∈ rangePages va n, claimHome s w user v = none) →
      runs (.claim d a b) s fun t => scalarStep s t w d 0 (nextPc s w)) ∧
    (n ≤ 2 ^ 30 → drained → mapped → ¬busy → runs (.claim d a b) s fun t => ∃ (u : State) (moved : Nat),
      moved ≤ (rangePages va n).length ∧ warpsKept s u ∧ u.cur = s.cur ∧ u.funcs = s.funcs ∧ u.blocks = s.blocks ∧
        scalarStep u t w d (BitVec.ofNat 64 moved) (nextPc s w)) ∧
    (∀ v page tgt, n ≤ 2 ^ 30 → drained → mapped → ¬busy → rangePages va n = [v] → claimHome s w user v = some page →
      freePage s (partOf s w.fn) w.die = some tgt → memWf s.mem = true → apart page (2 ^ 21) tgt (2 ^ 21) →
      (∀ b ∈ allLeaves s, apart b 16 page (2 ^ 21) ∧ apart b 16 tgt (2 ^ 21)) →
      runs (.claim d a b) s fun t => ∃ u : State, warpsKept s u ∧ u.cur = s.cur ∧ scalarStep u t w d 1 (nextPc s w) ∧
        (∀ i, i < 2 ^ 21 → rdByte u.mem (tgt + i) = rdByte s.mem (page + i) ∧ rdByte u.mem (page + i) = 0) ∧
        ∀ e ∈ u.mgmt.dups, e.1 ≠ page)

/-- R153, R160: POISON and CLAIM. What the spec leaves open here is the model's choice: log entries 21 and 44. -/
def Obligations.PoisonAndClaim : Prop := PoisonRange ∧ ClaimPages

/-! ## Launches from the device -/

/-- R117, R118: LAUNCH checks its address (20.14) and the sequence number (20.13), waits for the path's earlier accesses, and
reads the record at x[xa] once: a poisoned granule of it is consumed (R152). It then holds what it has read while the function
has 1,024 launches not yet admitted, and enqueues it under a new identifier. At user level the record takes the caller's tag
and at most its launch's priority. The record's page is homed here; a copy of it on the warp's die is read there (R249). -/
def Obligations.DeviceLaunch : Prop :=
  ∀ (s : State) (w : Warp) (d a : Nat) (f : Func) (l : Launch) (addrs : List Nat), actsOn s w →
    fget s.funcs w.fn = some f → warpLaunch s w = some l →
    let p := actPath s w
    let va := (rx w s.cur.path a).toNat
    let bytes := addrs.flatMap fun x => rdBytes s.mem (fromCopy s w.die x) 64
    let s1 := readHome s (coreKey w) addrs
    let room := devQueued s w.fn < 1024
    let ready := acquireOut s s.cur.warp s.cur.path = false ∧ performedAll s s.cur.warp s.cur.path false = true
    let pending := ∃ x ∈ addrs, bytesOut s s.cur.warp s.cur.path false w.block x 64 = true
    let poisoned := ∃ x ∈ addrs, poisonedIn s.pois (fromCopy s w.die x) 64 = true
    let enqueued := fun (u : State) (b : List Byte) => runs (.launch d a) s fun t => ∃ q : Launch,
      let id := BitVec.ofNat 64 (q.lrec.tag * 2 ^ 48 + f.devSeq)
      q.id = id ∧ q.fn = w.fn ∧ q.dev = true ∧ q.st = .queued ∧
      (p.priv ≠ 0 → q.lrec = parseRec b) ∧
      (p.priv = 0 → q.lrec = { parseRec b with tag := w.reqtag, prio := min (parseRec b).prio l.lrec.prio }) ∧
      t.launches = fput s.launches s.next q ∧ t.next = s.next + 1 ∧
      (fget t.funcs w.fn).map (·.devSeq) = some (f.devSeq + 1) ∧
      scalarStep { u with launches := t.launches, next := t.next, funcs := t.funcs } t
        { w.setPath s.cur.path { p with read := none } with nidem := true } d id (nextPc s w)
    (va % 64 ≠ 0 → trapsAt (.launch d a) s w 0x14E) ∧
    (va % 64 = 0 → 2 ^ 47 - 1 < f.devSeq → trapsAt (.launch d a) s w 0x14D) ∧
    (va % 64 = 0 → f.devSeq ≤ 2 ^ 47 - 1 → p.read = none →
      (¬(allIssued p = true ∧ ready) → waits (.launch d a) s) ∧
      (allIssued p = true → ready →
        xlateAll s (warpReq s w (p.priv == 0) .read none) [va, va + 64, va + 128] = .ok addrs →
        (pending → waits (.launch d a) s) ∧
        (¬pending → (∀ x ∈ addrs, isLocal x = true) →
          (poisoned → trapsAt (.launch d a) s w 0x120) ∧
          (¬poisoned → room → enqueued s1 bytes) ∧
          (¬poisoned → ¬room → exec (.launch d a) s =
            .next (putWarp s1 s.cur.warp (w.setPath s.cur.path { p with read := some bytes })))))) ∧
    (∀ b, va % 64 = 0 → f.devSeq ≤ 2 ^ 47 - 1 → p.read = some b →
      (room → enqueued s b) ∧ (¬room → waits (.launch d a) s))

/-! ## Accumulators, matrix and array instructions -/

/-- R166, R167: ACC.ALLOC is all or nothing; ACC.FREE waits for the operations in the order of its banks and frees
them; a descriptor of no bank, past bank 63 or with a reserved bit raises 5.1; FREE of a bank that the block does not
own raises 5.0. -/
def Sys2Proof.Claims.AccumulatorBanks : Prop :=
  ∀ (s : State) (w : Warp) (d a : Nat), actsOn s w → allDone s s.cur.warp s.cur.path (actPath s w) = true →
    let x := rx w s.cur.path a
    let ks := bankKeys w x
    let rest := fun t : State => { s with banks := t.banks }
    (¬allocDescGood x → trapsAt (.accAlloc d a) s w 0x51) ∧
    (allocDescGood x → (∃ k ∈ ks, (fget s.banks k).isSome = true) →
      runs (.accAlloc d a) s fun t => scalarStep s t { w with nidem := true } d 0 (nextPc s w)) ∧
    (allocDescGood x → (∀ k ∈ ks, fget s.banks k = none) →
      runs (.accAlloc d a) s fun t => scalarStep (rest t) t { w with nidem := true } d 1 (nextPc s w) ∧
        ∀ k, fget t.banks k = if k ∈ ks then some { block := w.block, band := bankBand x, claims := [], vals := [], pois := [] }
          else fget s.banks k) ∧
    (¬(allocDescGood x ∧ bankBand x = 0) → trapsAt (.accFree a) s w 0x51) ∧
    (allocDescGood x → bankBand x = 0 → (∃ k ∈ ks, ownsBank s w k = false) → trapsAt (.accFree a) s w 0x50) ∧
    (allocDescGood x → bankBand x = 0 → (∀ k ∈ ks, ownsBank s w k = true) → (∃ k ∈ ks, bankBusy s k = true) →
      waits (.accFree a) s) ∧
    (allocDescGood x → bankBand x = 0 → (∀ k ∈ ks, ownsBank s w k = true) → (∀ k ∈ ks, bankBusy s k = false) →
      runs (.accFree a) s fun t => scalarStep (rest t) t { w with nidem := true } 0 0 (nextPc s w) ∧
        ∀ k, fget t.banks k = if k ∈ ks then none else fget s.banks k)

/-- R167, R166: ACC.ZERO enters the order of its banks and resets their band claims. -/
def Sys2Proof.Claims.AccumulatorZero : Prop :=
  ∀ (s : State) (w : Warp) (a : Nat), actsOn s w → allIssued (actPath s w) = true →
    let x := rx w s.cur.path a
    let ks := bankKeys w x
    (¬(allocDescGood x ∧ bankBand x = 0) → trapsAt (.accZero a) s w 0x51) ∧
    (allocDescGood x → bankBand x = 0 → (∃ k ∈ ks, ownsBank s w k = false) → trapsAt (.accZero a) s w 0x50) ∧
    (allocDescGood x → bankBand x = 0 → (∀ k ∈ ks, ownsBank s w k = true) →
      counter s s.cur.warp s.cur.path .ac < 255 →
      runs (.accZero a) s fun t => engineStep s t w (.zero ks) ∧
        ∀ k, fget t.banks k = if k ∈ ks then (fget s.banks k).map (fun b => { b with claims := [] })
          else fget s.banks k)

/-- R168, R166: ACC.DRAIN claims the bands of its rows for the warp and enters the order of its bank; a reserved bit or
a range past row 31 raises 5.1, rows that are no whole bands 5.3, a band of another warp 5.2, a destination beyond the
declared registers 8.1. -/
def Sys2Proof.Claims.AccumulatorDrain : Prop :=
  ∀ (s : State) (w : Warp) (a d : Nat) (b : Bank), actsOn s w →
    allDone s s.cur.warp s.cur.path (actPath s w) = true →
    let x := rx w s.cur.path a
    let dst := (rx w s.cur.path d).toNat
    let row0 := (x.extractLsb' 6 5).toNat
    let n := (x.extractLsb' 11 5).toNat + 1
    let k := bankKey w (bankFirst x)
    let size := 32 / 2 ^ b.band
    let bands := (List.range (n / size)).map fun i => row0 / size + i
    let foreign := ∃ i ∈ bands, ∃ o, fget b.claims i = some o ∧ o ≠ w.idx
    drainPending s s.cur.warp s.cur.path (dst % 2 ^ 11) n = false →
    ((x.extractLsb' 17 47 ≠ 0 ∨ 2 ^ 11 ≤ dst ∨ 32 < row0 + n) → trapsAt (.accDrain a d) s w 0x51) ∧
    (x.extractLsb' 17 47 = 0 → dst < 2 ^ 11 → row0 + n ≤ 32 →
      (fget s.banks k = none → trapsAt (.accDrain a d) s w 0x50) ∧
      (fget s.banks k = some b → b.block ≠ w.block → trapsAt (.accDrain a d) s w 0x50) ∧
      (fget s.banks k = some b → b.block = w.block → (row0 % size ≠ 0 ∨ n % size ≠ 0) →
        trapsAt (.accDrain a d) s w 0x53) ∧
      (fget s.banks k = some b → b.block = w.block → row0 % size = 0 → n % size = 0 →
        (foreign → trapsAt (.accDrain a d) s w 0x52) ∧
        (¬foreign → w.vregs < dst + n → trapsAt (.accDrain a d) s w 0x81) ∧
        (¬foreign → dst + n ≤ w.vregs → w.div = true → (∃ i, i < n ∧ vtag w (dst + i) ≠ .f32) →
          trapsAt (.accDrain a d) s w 0x12) ∧
        (¬foreign → dst + n ≤ w.vregs → (w.div = true → ∀ i, i < n → vtag w (dst + i) = .f32) →
          counter s s.cur.warp s.cur.path .ac < 255 →
          runs (.accDrain a d) s fun t => ∃ (dr : Drain) (e : Bool), e = x.getLsbD 16 ∧
            engineStep s t (if e then { w with nidem := true } else w) (.drain dr k) ∧
            dr.row0 = row0 ∧ dr.nrows = n ∧ dr.dst = dst ∧ dr.mask = (actPath s w).k0 ∧ dr.zafter = e ∧
            (∀ j, j ≠ k → fget t.banks j = fget s.banks j) ∧
            ∃ b', fget t.banks k = some b' ∧ b'.vals = b.vals ∧ b'.block = b.block ∧ b'.band = b.band ∧
              ∀ i, fget b'.claims i = if i ∈ bands then some w.idx else fget b.claims i)))

/-- R166 to R168: the forms of the accumulator banks. What the spec leaves open here is the model's choice: log
entry 31. -/
def Obligations.Accumulators : Prop := AccumulatorBanks ∧ AccumulatorZero ∧ AccumulatorDrain

/-- R169 to R172: MMA and MMA.Z wait for the path's accesses to their format block and for its acquires, check the core, the
register pairs, the geometry, the banks, the format block and the scratchpad in this order, then enter the order of their
banks with the operands as read at issue. A poisoned format block raises 18.0 as it is read: the model's choice, log entry
105. -/
def Sys2Proof.Claims.MatrixIssue : Prop :=
  ∀ (s : State) (w : Warp) (z : Bool) (d a b : Nat), actsOn s w → allIssued (actPath s w) = true →
    let i : Instr := if z then .mmaZ d a b else .mma d a b
    let h := mmaShape (rx w s.cur.path d)
    let A := matOp (rx w s.cur.path a) (rx w s.cur.path (a + 1))
    let B := matOp (rx w s.cur.path b) (rx w s.cur.path (b + 1))
    let fb := rdBytes (spCells s w.block) (16 * h.fbo) 32
    let ks := (List.range ((h.m + 31) / 32 * ((h.n + 31) / 32))).map fun j => bankKey w (h.bank + j)
    let pairs := a % 2 = 0 ∧ a ≠ 0 ∧ b % 2 = 0 ∧ b ≠ 0
    let waiting := acquireOut s s.cur.warp s.cur.path = true ∨
      bytesOut s s.cur.warp s.cur.path true w.block (16 * h.fbo) 32 = true
    let held := 16 * h.fbo + 32 ≤ spSize s w
    let poisoned := poisonedIn (spPoison s w.block) (16 * h.fbo) 32 = true
    let shapeBad := mmaGeometryBad h A B = true ∨
      (held ∧ mmaFormatShort h A B (fdesc fb 0) (fdesc fb 16) = true)
    (waiting → waits i s) ∧
    (¬waiting → w.core % 2 = 1 → trapsAt i s w 0xE0) ∧
    (¬waiting → w.core % 2 = 0 → ¬pairs → trapsAt i s w 0xE1) ∧
    (¬waiting → w.core % 2 = 0 → pairs → shapeBad → trapsAt i s w 0xE3) ∧
    (¬waiting → w.core % 2 = 0 → pairs → ¬shapeBad → 64 < h.bank + ks.length → trapsAt i s w 0x51) ∧
    (¬waiting → w.core % 2 = 0 → pairs → ¬shapeBad → h.bank + ks.length ≤ 64 →
      ¬held → trapsOffset i s w 0x40 (16 * h.fbo)) ∧
    (¬waiting → w.core % 2 = 0 → pairs → ¬shapeBad → h.bank + ks.length ≤ 64 → held →
      (poisoned → trapsAt i s w 0x120) ∧ (¬poisoned → fblockBad (fdesc fb 0) (fdesc fb 16) = true → trapsAt i s w 0xE2) ∧
      (¬poisoned → fblockBad (fdesc fb 0) (fdesc fb 16) = false →
        ((∃ k ∈ ks, ownsBank s w k = false) → trapsAt i s w 0x50) ∧
        ((∀ k ∈ ks, ownsBank s w k = true) →
          (∀ off, mmaBeyond h A B (fdesc fb 0) (fdesc fb 16) (spSize s w) = some off → trapsOffset i s w 0x40 off) ∧
          (mmaBeyond h A B (fdesc fb 0) (fdesc fb 16) (spSize s w) = none →
            counter s s.cur.warp s.cur.path .ac < 255 →
            runs i s fun t => ∃ r : SeqRec,
              engineStep s t (if z then w else { w with nidem := true }) (.mma r ks) ∧
              r.ctl = rx w s.cur.path d ∧ r.opa0 = rx w s.cur.path a ∧ r.opa1 = rx w s.cur.path (a + 1) ∧
              r.opb0 = rx w s.cur.path b ∧ r.opb1 = rx w s.cur.path (b + 1) ∧ r.fblk = fb ∧ r.step = 1 ∧ r.z = z ∧
              ∀ k ∈ ks, (fget t.banks k).map (·.claims) = some []))))

/-- R174, R175: AMV and AMV.T make their checks in this order and enter the order of their bank with the tile's current
copy. -/
def Sys2Proof.Claims.ArrayIssue : Prop :=
  ∀ (s : State) (w : Warp) (tr : Bool) (d a b : Nat), actsOn s w → allIssued (actPath s w) = true →
    let i : Instr := if tr then .amvT d a b else .amv d a b
    let xa := rx w s.cur.path a
    let xb := rx w s.cur.path b
    let xd := rx w s.cur.path d
    let inOff := (xb.extractLsb' 0 32).toNat
    let rsl := (xa.extractLsb' 32 8).toNat
    let csl := (xa.extractLsb' 40 8).toNat
    let k := bankKey w (xd.extractLsb' 0 6).toNat
    let clean := xa.extractLsb' 48 16 = 0 ∧ xd.extractLsb' 6 58 = 0 ∧ inOff % 64 = 0
    let region := grantedRegion s w.fn (xa.extractLsb' 0 32).toNat
    (¬clean → trapsAt i s w 0xF3) ∧
    (clean → region = none → trapsAt i s w 0xF0) ∧
    (clean → ∀ n r, region = some n → fget s.arrays.regions n = some r →
      ((r.rs ≤ rsl ∨ r.cs ≤ csl) → trapsAt i s w 0xF1) ∧
      (rsl < r.rs → csl < r.cs → inService r = false → trapsAt i s w 0xF2) ∧
      (rsl < r.rs → csl < r.cs → inService r = true → spSize s w < inOff + 1024 → trapsOffset i s w 0x40 inOff) ∧
      (rsl < r.rs → csl < r.cs → inService r = true → inOff + 1024 ≤ spSize s w → ownsBank s w k = false →
        trapsAt i s w 0x50) ∧
      (rsl < r.rs → csl < r.cs → inService r = true → inOff + 1024 ≤ spSize s w → ownsBank s w k = true →
        ∀ t0, fget r.tiles (256 * rsl + csl) = some t0 →
        (t0.published = false → trapsAt i s w 0x100) ∧
        (t0.published = true → counter s s.cur.warp s.cur.path .an < 255 →
          runs i s fun t => ∃ o : AmvOp, engineStep s t { w with nidem := true } (.amv o k) ∧ o.transposed = tr ∧
            o.region = n ∧ o.tile = 256 * rsl + csl ∧ o.inOff = inOff ∧ o.isc = xb.extractLsb' 32 32 ∧
            o.copy = t0.cur)))

/-- R169 to R175: the issue of matrix and array instructions. What the spec leaves open here is the model's choice:
log entries 35 and 105. -/
def Obligations.EngineIssue : Prop := MatrixIssue ∧ ArrayIssue

/-! ## Tensor records, shuttle and collectives -/

/-- R178, R335: TREC reads 64 bytes, after the path's earlier accesses to them, and writes a valid record into the slot of
the block; an address that is not a multiple of 64 or an invalid record raises 13.0 and leaves the slot, an address of more
than 48 bits 3.1 with the address in xs3, as for a lane read (R343; log entry 71), and a poisoned granule 18.0. A copy of the
page on the warp's die is read there (R249). The bytes of a record on another module come by READ packets. -/
def Sys2Proof.Claims.TensorRecord : Prop :=
  ∀ (s : State) (w : Warp) (slot a addr : Nat) (k : Block), actsOn s w → allIssued (actPath s w) = true →
    acquireOut s s.cur.warp s.cur.path = false → fget s.blocks w.block = some k →
    let va := (rx w s.cur.path a).toNat
    let src := fromCopy s w.die addr
    let bytes := rdBytes s.mem src 64
    let pending := bytesOut s s.cur.warp s.cur.path false 0 addr 64
    (va % 64 ≠ 0 → trapsAt (.trec slot a) s w 0xD0) ∧
    (va % 64 = 0 → 2 ^ 48 ≤ va → w.kind ≠ .supervisor → exec (.trec slot a) s =
      .next (raiseTrap (putWarp s s.cur.warp (countIssue w)) s.cur.warp s.cur.path
        { sTrap (actPath s w) 0x31 with va := BitVec.ofNat 64 va })) ∧
    (va % 64 = 0 → va < 2 ^ 48 → translate s (warpReq s w ((actPath s w).priv == 0) .read none) va = .ok addr →
      (pending = true → waits (.trec slot a) s) ∧
      (pending = false → isLocal addr = true →
        (poisonedIn s.pois src 64 = true → trapsAt (.trec slot a) s w 0x120) ∧
        (poisonedIn s.pois src 64 = false → trecBad bytes = true → trapsAt (.trec slot a) s w 0xD0) ∧
        (poisonedIn s.pois src 64 = false → trecBad bytes = false → runs (.trec slot a) s fun t =>
          scalarStep { s with blocks := t.blocks } t w 0 0 (nextPc s w) ∧
          (∀ j, j ≠ w.block → fget t.blocks j = fget s.blocks j) ∧
          ∃ k', fget t.blocks w.block = some k' ∧ { k' with recs := k.recs } = k ∧
            ∀ j, fget k'.recs j = if j = slot then some (parseTRec bytes) else fget k.recs j)))

/-- R179 to R181: SH.COPY, SH.FILL and SH.GATHER copy their records, make their checks in order and add one operation
to the path's open batch; an empty slot raises 13.1. -/
def Sys2Proof.Claims.ShuttleIssue : Prop :=
  ∀ (s : State) (w : Warp) (d a b : Nat) (td ts : TRec), actsOn s w → allIssued (actPath s w) = true →
    trecSlot s w d = some td → (actPath s w).batch.length < 64 →
    let x := rx w s.cur.path b
    let S := spSize s w
    let clear := fun (p q : TRec) => recBeyond S p = none ∧ recBeyond S q = none ∧
      (recOverlap p q = true → contiguous p = true ∧ contiguous q = true)
    (trecSlot s w a = none → trapsAt (.shCopy d a b) s w 0xD1 ∧ trapsAt (.shGather d a b) s w 0xD1) ∧
    (shRange x td = none → trapsAt (.shFill d a b) s w 0xD6) ∧
    (∀ i n, shRange x td = some (i, n) → recBeyond S (selectOuter td i n) = none →
      runs (.shFill d a b) s fun t => ∃ o, batchStep s t w o ∧ o.kind = .fill ∧ o.dst = selectOuter td i n ∧
        o.value = rx w s.cur.path a) ∧
    (trecSlot s w a = some ts →
      ((shRange x td = none ∨ shRange x ts = none) → trapsAt (.shCopy d a b) s w 0xD6) ∧
      (∀ i n j m, shRange x td = some (i, n) → shRange x ts = some (j, m) →
        let p := selectOuter td i n
        let q := selectOuter ts j m
        ((recSize p ≠ recSize q ∨ recCount p ≠ recCount q) → trapsAt (.shCopy d a b) s w 0xD2) ∧
        (recSize p = recSize q → recCount p = recCount q → clear p q →
          runs (.shCopy d a b) s fun t => ∃ o, batchStep s t w o ∧ o.kind = .copy ∧ o.dst = p ∧ o.src = q)) ∧
      (((x.extractLsb' 0 32).toNat % 4 ≠ 0 ∨ x.extractLsb' 32 32 ≠ 0) → trapsAt (.shGather d a b) s w 0xD7) ∧
      ((x.extractLsb' 0 32).toNat % 4 = 0 → x.extractLsb' 32 32 = 0 →
        (x.extractLsb' 0 32).toNat + 4 * recOuter td ≤ S → recInner td = recInner ts → recSize td = recSize ts →
        clear td ts →
        runs (.shGather d a b) s fun t => ∃ o, batchStep s t w o ∧ o.kind = .gather ∧ o.dst = td ∧ o.src = ts ∧
          o.start = (x.extractLsb' 0 32).toNat))

/-- R179, R30: SH.CLOSE turns a non-empty open batch into one outstanding operation on sh, of which it then has none,
and does nothing to an empty one. -/
def Sys2Proof.Claims.ShuttleClose : Prop :=
  ∀ (s : State) (w : Warp), actsOn s w → allIssued (actPath s w) = true →
    ((actPath s w).batch = [] → runs .shClose s fun t => scalarStep s t w 0 0 (nextPc s w)) ∧
    ((actPath s w).batch ≠ [] → counter s s.cur.warp s.cur.path .sh < 255 →
      runs .shClose s fun t => opIssued s t w (.batch (actPath s w).batch) ∧ t.mem = s.mem ∧ t.banks = s.banks ∧
        counter t s.cur.warp s.cur.path .sh = counter s s.cur.warp s.cur.path .sh + 1 ∧
        ∃ w', fget t.warps s.cur.warp = some w' ∧ (actPath s w').batch = [] ∧ (actPath s w').pc = nextPc s w ∧
          (actPath s w').x = (actPath s w).x ∧ (actPath s w').k = (actPath s w).k ∧ w'.regs = w.regs ∧
          w'.xs = w.xs ∧ w'.nidem = w.nidem)

/-- R183, R185: a collective whose records, group register and counts pass its checks becomes one outstanding operation
on sh; the causes 13.1, 13.8, 13.10 and 13.2 are met in this order. -/
def Sys2Proof.Claims.CollectiveIssue : Prop :=
  ∀ (s : State) (w : Warp) (d a b form : Nat) (dst src : TRec) (i : Instr), actsOn s w →
    (form, i) ∈ [(0, Instr.collAllreduce d a b), (1, .collAllgather d a b), (2, .collReducescatter d a b),
      (3, .collAlltoall d a b)] →
    allIssued (actPath s w) = true →
    let q := collReq (rx w s.cur.path b)
    ((trecSlot s w d = none ∨ trecSlot s w a = none) → trapsAt i s w 0xD1) ∧
    (trecSlot s w d = some dst → trecSlot s w a = some src →
      (collBad form q dst src = true → trapsAt i s w 0xD8) ∧
      (collBad form q dst src = false → groupOf s (partOf s w.fn) q.group = none → trapsAt i s w 0xDA) ∧
      (∀ l, collBad form q dst src = false → groupOf s (partOf s w.fn) q.group = some l →
        (l.length ≤ q.rank → trapsAt i s w 0xDA) ∧
        (q.rank < l.length → collCountBad form l.length (recCount src) (recCount dst) = true →
          trapsAt i s w 0xD2) ∧
        (q.rank < l.length → collCountBad form l.length (recCount src) (recCount dst) = false →
          recSize dst = recSize src → recBeyond (spSize s w) dst = none → recBeyond (spSize s w) src = none →
          (d = a → form = 0) → (d ≠ a → recOverlap dst src = true → contiguous dst = true ∧ contiguous src = true) →
          (actPath s w).batch = [] → counter s s.cur.warp s.cur.path .sh < 255 →
          performedAll s s.cur.warp s.cur.path true = true →
          runs i s fun t => ∃ c : CollOp, c.form = form ∧ c.group = q.group ∧ c.rank = q.rank ∧ c.oper = q.oper ∧
            c.fmt = q.fmt ∧ c.dst = dst ∧ c.src = src ∧ opIssued s t w (.coll c) ∧
            scalarStep { s with ops := t.ops, next := t.next, parts := t.parts } t { w with nidem := true } 0 0
              (nextPc s w))))

/-- R178 to R185: tensor records, the shuttle forms and the collectives. What the spec leaves open here is the
model's choice: log entry 71. -/
def Obligations.ShuttleForms : Prop := TensorRecord ∧ ShuttleIssue ∧ ShuttleClose ∧ CollectiveIssue

/-! ## Traps and the return from them -/

/-- R189 to R194, R196, R204: TRAP and BRK enter the handler of class 19 or 23 with xs1 = A + 4 and the immediate in
CODE; without a handler the launch of the warp is purged; at supervisor level the warp is parked with 19.2. What the
spec leaves open here is the model's choice: log entry 17. -/
def Obligations.RequestedTraps : Prop :=
  ∀ (s : State) (w : Warp) (code : Nat) (i : Instr) (cause : Nat) (ends : Bool), actsOn s w →
    allIssued (actPath s w) = true →
    (i, cause, ends) ∈ [(Instr.trap code, 0x134, true), (.brk code, 0x170, false)] →
    let p := actPath s w
    let free := trapWaits w s.cur.path = false
    (∀ pc lbase, p.priv = 0 → free → handlerEntry s w (cause / 16) = .entry pc lbase →
      runs i s fun t => ∃ w', t = putWarp s s.cur.warp w' ∧
        tookTrap w w' s.cur.path { sTrap p cause with code := code, resume := p.pc + 4 } pc lbase ∧
        w'.nidem = (ends || w.nidem) ∧ countedOnce w w') ∧
    (p.priv = 0 → free → handlerEntry s w (cause / 16) = .none → w.kind = .kernel →
      runs i s fun t => purgedFor s t s.cur.warp w cause) ∧
    (p.priv ≠ 0 → trapsHeld w = false → w.kind ≠ .patrol → (fget s.funcs w.fn).isSome = true →
      runs i s fun t => ∃ r, parkedWith s t s.cur.warp w r ∧ r.cause = 0x132 ∧ r.code = code ∧ r.pc = p.pc + 4 ∧
        r.orig = ((fgetD 0 w.xs 0 : W64).extractLsb' 0 9).toNat)

/-- R195: RETS waits until the handler's clauses have completed and its stores are performed, then restores k0, the
level, LBASE and the clause queue, and goes on at xs1; RETS.skip leaves out the lane instruction that trapped,
RETS.decline takes the default action. A path that is in no handler raises 19.5. -/
def Sys2Proof.Claims.ReturnFromTrap : Prop :=
  ∀ (s : State) (w : Warp) (h : Held), actsOn s w → (actPath s w).priv ≠ 0 → w.kind ≠ .supervisor →
    let p := actPath s w
    let forms := [(Instr.rets, false), (.retsSkip, true)]
    let ready := allDone s s.cur.warp s.cur.path p = true ∧ fenceReady s s.cur.warp s.cur.path 3 = true
    (p.held = none → trapsAt .rets s w 0x135 ∧ trapsAt .retsSkip s w 0x135 ∧ trapsAt .retsDecline s w 0x135) ∧
    (p.held = some h → ¬ready → waits .rets s ∧ waits .retsSkip s ∧ waits .retsDecline s) ∧
    (p.held = some h → ready → w.kind = .kernel →
      runs .retsDecline s fun t => purgedFor s t s.cur.warp w h.cause) ∧
    (p.held = some h → ready → ∀ i skip, (i, skip) ∈ forms → runs i s fun t => ∃ w',
      t = l1DropCore (putWarp s s.cur.warp w') (coreKey w) ∧ w'.nidem = true ∧ w'.regs = w.regs ∧ w'.xs = w.xs ∧
      w'.dstack = w.dstack ∧
      (let q := actPath s w'
       q.priv = h.priv ∧ q.lbase = h.lbase ∧ q.held = none ∧ q.pc = fgetD 0 w.xs 1 ∧ q.age = agesCleared s w ∧
       q.x = p.x ∧ (∀ r, rk w' s.cur.path r = if r = 0 then h.k0 else rk w s.cur.path r) ∧
       (h.lane = false → q.queue = h.queue) ∧
       (h.lane = true → ∀ pre c post, h.queue = pre ++ c :: post → (∀ x ∈ pre, clauseIssued x = true) →
         clauseIssued c = false → q.queue = pre ++
           (if skip then (if h.widx = 0 then [] else [{ c with idx := h.widx + 1 }])
            else if h.widx = 0 then [{ c with idx := 0, hdr := none, started := false }]
            else [{ c with idx := h.widx }]) ++ post)) ∧
      (h.both = false → w'.path (!s.cur.path) = w.path (!s.cur.path) ∧ countedOnce w w') ∧
      (h.both = true → (w'.path (!s.cur.path)).stopped = false ∧ (w'.path (!s.cur.path)).pc = fgetD 0 w.xs 2 ∧
        w'.wdc = 0))

/-- R197: RETS in the supervisor slot answers the record in progress: the parked warp that it names becomes READY
again, and RETS.skip passes the record on to the fault queue of its function; the slot is idle either way. -/
def Sys2Proof.Claims.SupervisorReturn : Prop :=
  ∀ (s : State) (w : Warp) (u : Sup), actsOn s w → (actPath s w).priv ≠ 0 → w.kind = .supervisor →
    fget s.cores.sups (coreKey w) = some u → allDone s s.cur.warp s.cur.path (actPath s w) = true →
    fenceReady s s.cur.warp s.cur.path 3 = true →
    (u.cur = none → trapsAt .rets s w 0x135 ∧ trapsAt .retsSkip s w 0x135) ∧
    (∀ r n v, u.cur = some r → r.subj = .warp n → n ≠ s.cur.warp → fget s.warps n = some v → v.st = .parked →
      v.reload = false → v.kind = .kernel →
      let idle := fun t : State => (fget t.warps s.cur.warp).map (·.st) = some .idle ∧
        (fget t.cores.sups (coreKey w)).map (·.cur) = some none
      runs .rets s (fun t => idle t ∧ fget t.warps n = some { v with st := .ready, parkCtx := false }) ∧
      runs .retsSkip s (fun t => idle t ∧ fget t.warps n = some v ∧
        ∀ f, fget s.funcs r.fn = some f → fget t.funcs r.fn = some { f with fqWait := f.fqWait ++ [r] }))

/-- R195, R197: the return from a handler and from a record of the supervisor slot. What the spec leaves open here
is the model's choice: log entry 12. -/
def Obligations.TrapReturns : Prop := ReturnFromTrap ∧ SupervisorReturn

/-- R33, R82, R188, R207, R208: the forms of the supervisor level raise 19.0 at user level, and those of a patrol core
raise 19.8 on any other core. -/
def Obligations.PrivilegedForms : Prop :=
  ∀ (s : State) (w : Warp) (d a scope : Nat), actsOn s w →
    let patrol : List Instr := [.quiesce d a, .retsave d a, .retload d a, .halt]
    let forms : List Instr := [.rets, .retsSkip, .retsDecline, .tlbiAll scope, .tlbiVa d a scope, .tlbiAsid a scope,
      .tlbiVmid a scope, .ctxfl d a, .ctxld a, .wdogSet a, .wdogKick, .inject d a] ++ patrol
    ((actPath s w).priv = 0 → ∀ i ∈ forms, trapsAt i s w 0x130) ∧
    ((actPath s w).priv ≠ 0 → w.kind ≠ .patrol → ∀ i ∈ patrol, trapsAt i s w 0x138)

/-! ## System registers and the forms of chapter 09 -/

/-- R198 to R200: SYSRD reads the register that its immediate and x[xa] name; at user level a register of the supervisor
level raises 19.0; a register or an index that does not exist raises 19.3. -/
def Sys2Proof.Claims.SystemRegisterReads : Prop :=
  ∀ (s : State) (w : Warp) (d a reg : Nat), actsOn s w →
    let p := actPath s w
    let i := (rx w s.cur.path a).toNat
    ((∀ e ∈ sysRegs s w p i, e.1 ≠ reg) → trapsAt (.sysrd d a reg) s w 0x133) ∧
    ∀ n user v, (reg, n, user, v) ∈ sysRegs s w p i →
      (user = false → p.priv = 0 → trapsAt (.sysrd d a reg) s w 0x130) ∧
      ((user = true ∨ p.priv ≠ 0) → ¬validIndex reg n i → trapsAt (.sysrd d a reg) s w 0x133) ∧
      ((user = true ∨ p.priv ≠ 0) → validIndex reg n i →
        runs (.sysrd d a reg) s fun t => scalarStep s t w d v (nextPc s w))

/-- R198, R27, R10, R385: SYSWR has the checks of SYSRD; it writes WMODE (10.5 where a diverged warp would change RND,
FTZ, TAGX or SEED), clears bits of WAKE.REQ, and is ignored by the registers that are read-only. -/
def Sys2Proof.Claims.SystemRegisterWrites : Prop :=
  ∀ (s : State) (w : Warp) (a b reg : Nat), actsOn s w →
    let p := actPath s w
    let i := (rx w s.cur.path a).toNat
    let v := rx w s.cur.path b
    let seed := if w.wmode.getLsbD 5 then w.wmode.extractLsb' 32 32 else v.extractLsb' 32 32
    let flags : BitVec 5 := w.wmode.extractLsb' 8 5 &&& ~~~ v.extractLsb' 8 5
    let changes := v.extractLsb' 0 5 ≠ w.wmode.extractLsb' 0 5 ∨ seed ≠ w.wmode.extractLsb' 32 32
    ((∀ e ∈ sysRegs s w p i, e.1 ≠ reg) → trapsAt (.syswr b a reg) s w 0x133) ∧
    (∀ n user x, (reg, n, user, x) ∈ sysRegs s w p i →
      (user = false → p.priv = 0 → trapsAt (.syswr b a reg) s w 0x130) ∧
      ((user = true ∨ p.priv ≠ 0) → ¬validIndex reg n i → trapsAt (.syswr b a reg) s w 0x133) ∧
      ((user = true ∨ p.priv ≠ 0) → validIndex reg n i → reg ∉ [0x00, 0x20, 0x21, 0x22] →
        runs (.syswr b a reg) s fun t => scalarStep s t w 0 0 (nextPc s w))) ∧
    (i = 0 → w.div = true → changes → trapsAt (.syswr b a 0x00) s w 0xA5) ∧
    (i = 0 → ¬(w.div = true ∧ changes) → runs (.syswr b a 0x00) s fun t => ∃ m : W64,
      scalarStep s t { w with wmode := m } 0 0 (nextPc s w) ∧ m.extractLsb' 0 5 = v.extractLsb' 0 5 ∧
      m.getLsbD 5 = w.wmode.getLsbD 5 ∧ m.extractLsb' 6 2 = 0 ∧ m.extractLsb' 8 5 = flags ∧
      m.extractLsb' 13 19 = 0 ∧ m.extractLsb' 32 32 = seed) ∧
    (w.kind = .patrol → p.priv ≠ 0 →
      (i = 0 → runs (.syswr b a 0x22) s fun t => scalarStep { s with power := t.power } t w 0 0 (nextPc s w) ∧
        t.power.clusters = s.power.clusters ∧ (patrolAt t w.die).wake =
          (patrolAt s w.die).wake &&& ~~~ v.setWidth 4) ∧
      (i < 4 → clusterPresent s w.die i = true →
        (runs (.syswr b a 0x20) s fun t => scalarStep { s with power := t.power } t w 0 0 (nextPc s w) ∧
          clusterAt t w.die i = { clusterAt s w.die i with
            err := (clusterAt s w.die i).err && !v.getLsbD 5 }) ∧
        runs (.syswr b a 0x21) s fun t => clusterAt t w.die i = writeClctl (clusterAt s w.die i) v.toNat ∧
          t.mem = s.mem))

/-- R198 to R200: SYSRD and SYSWR. -/
def Obligations.SystemRegisters : Prop := SystemRegisterReads ∧ SystemRegisterWrites

/-- R201: TLBI waits for the path's accesses and for those, the engines' included, that went through an entry it drops, and
then drops every entry in its scope, and what a walker has read of tables of other modules; an ASID or VMID beyond 16 bits raises 19.3, the VMID of another function 19.7. -/
def Sys2Proof.Claims.TlbInvalidates : Prop :=
  ∀ (s : State) (w : Warp) (d a scope : Nat) (i : Instr) (q : TlbiSel), actsOn s w →
    let p := actPath s w
    let xa := (rx w s.cur.path a).toNat
    let xd := (rx w s.cur.path d).toNat
    let mine := (warpXlate s w).vmid
    let own := fun v => w.fn = 0 || v = mine
    let low := if scope = 2 then 4 else 3
    (i, q) ∈ [(Instr.tlbiAll scope, TlbiSel.all), (.tlbiVa d a scope, .va xd (xa / 2 ^ 21)), (.tlbiAsid a scope, .asid xa),
      (.tlbiVmid a scope, .vmid xa)] →
    p.priv ≠ 0 → allIssued p = true →
    let wide := match q with | .all => false | .va n _ => 2 ^ 16 ≤ n | .asid n => 2 ^ 16 ≤ n | .vmid n => 2 ^ 16 ≤ n
    let foreign := w.fn ≠ 0 ∧ ∃ n, q = .vmid n ∧ n ≠ mine
    let drained := fenceReady s s.cur.warp s.cur.path low = true ∧ tlbiPending s w scope own q = false ∧
      tlbiPackets s w scope own q = false
    (wide = true → trapsAt i s w 0x133) ∧
    (wide = false → foreign → trapsAt i s w 0x137) ∧
    (wide = false → ¬foreign →
      (¬drained → waits i s) ∧
      (drained → runs i s fun t =>
        scalarStep { s with cores := t.cores, fabric := t.fabric } t (ended w) 0 0 (nextPc s w) ∧
        { t.fabric with inbox := s.fabric.inbox } = s.fabric ∧
        t.fabric.inbox = s.fabric.inbox.filter (fun g => g.warp ≠ walkReader) ∧
        (∀ e, e ∈ t.cores.tlb ↔ e ∈ s.cores.tlb ∧
          ¬(unitInScope w scope e.unit = true ∧ own e.vmid = true ∧ tlbiHits q e.asid e.vmid e.vpage = true)) ∧
        t.cores.sups = s.cores.sups ∧ t.cores.replay = s.cores.replay ∧ t.cores.engines = s.cores.engines ∧
        ∀ l, l ∈ t.cores.l1 → l ∈ s.cores.l1))

/-- R202, R35, R37, R23: CTXFL writes the header and the dirty lines of the warp in a slot, its own included,
answers how many lines there were (1,536 at most, R17), and clears the valid bits of that warp's age queues. While
the warp has operations outstanding it waits, and the warp is stopped. CTXLD loads the header again and leaves every line in the
slot; slot 64 is the supervisor slot. A slot number past 64 raises 19.3, an empty slot 19.6, and CTXLD of its own
warp or of one with work in progress 19.6. What a warp writes for itself has the registers from before CTXFL writes
xd. What the spec leaves open here is the model's choice: log entries 36 and 125. -/
def Obligations.ContextForms : Prop :=
  ∀ (s : State) (w : Warp) (d a : Nat), actsOn s w →
    let p := actPath s w
    let n := (rx w s.cur.path a).toNat
    let target := ctxTarget s (coreKey w) n
    p.priv ≠ 0 → allIssued p = true →
    (64 < n → trapsAt (.ctxfl d a) s w 0x133 ∧ trapsAt (.ctxld a) s w 0x133) ∧
    (n ≤ 64 → target = none → trapsAt (.ctxfl d a) s w 0x136 ∧ trapsAt (.ctxld a) s w 0x136) ∧
    (∀ s0 u v, n ≤ 64 → target = some (s0, u, v) → u = s.cur.warp → s0 = s →
      trapsAt (.ctxld a) s w 0x136 ∧
      ((allDone s s.cur.warp s.cur.path p = false ∨ heldElse s v = true ∨ ∃ o ∈ s.ops, o.warp = u) →
        waits (.ctxfl d a) s) ∧
      (∀ t1, allDone s s.cur.warp s.cur.path p = true → heldElse s v = false → (∀ o ∈ s.ops, o.warp ≠ u) → writeContext s u (selfImage v s.cur.path) = .ok t1 →
        runs (.ctxfl d a) s fun t => ∃ w', t = putWarp t1 s.cur.warp w' ∧
          (t1.fabric = s.fabric → t1 = { s with mem := t1.mem }) ∧
          (d ≠ 0 → (dirtyRegs v).length ≤ 1536 → rx w' s.cur.path d = BitVec.ofNat 64 (dirtyRegs v).length) ∧
          (∀ r, r ≠ d → rx w' s.cur.path r = rx w s.cur.path r) ∧ (actPath s w').pc = nextPc s w ∧
          (actPath s w').age = agesCleared s w ∧ (actPath s w').k = p.k ∧ dirtyRegs w' = [] ∧
          ∀ r, vread w' r = vread w r ∧ vtag w' r = vtag w r)) ∧
    (∀ s0 u v, n ≤ 64 → target = some (s0, u, v) → u ≠ s.cur.warp →
      (heldElse s v = true → waits (.ctxfl d a) s) ∧
      (heldElse s v = false → (∃ o ∈ s0.ops, o.warp = u) → exec (.ctxfl d a) s =
        .next (modWarp s0 u fun x => { x with frozen := some s.cur.warp })) ∧
      (∀ t1, heldElse s v = false → (∀ o ∈ s0.ops, o.warp ≠ u) → writeContext s0 u v = .ok t1 → runs (.ctxfl d a) s fun t =>
        (t1.fabric = s0.fabric → t1 = { s0 with mem := t1.mem }) ∧
        scalarStep (putWarp t1 u { clearAges (cleanLines v) with frozen := none }) t (ended w) d (BitVec.ofNat 64 (dirtyRegs v).length)
          (nextPc s w)) ∧
      ((liveQueue s0 u false v.a ≠ [] ∨ liveQueue s0 u true v.b ≠ [] ∨ ∃ o ∈ s0.ops, o.warp = u) →
        trapsAt (.ctxld a) s w 0x136) ∧
      (liveQueue s0 u false v.a = [] → liveQueue s0 u true v.b = [] → (∀ o ∈ s0.ops, o.warp ≠ u) → heldElse s v = true →
        waits (.ctxld a) s) ∧
      (∀ t0 b, liveQueue s0 u false v.a = [] → liveQueue s0 u true v.b = [] → (∀ o ∈ s0.ops, o.warp ≠ u) →
        heldElse s v = false → readHeader s0 u v = .ok (t0, b) → (at' b 0 8) % 4 < 2 →
        runs (.ctxld a) s fun t => ∃ v', { t0 with fabric := s0.fabric } = s0 ∧
          scalarStep (putWarp t0 u v') t (ended w) 0 0 (nextPc s w) ∧
          v'.st = v.st ∧ v'.kind = v.kind ∧ v'.div = (at' b 0 8).testBit 2 ∧ v'.a.pc = n64 (at' b 0x08 8) ∧
          (∀ i, i < 64 → v'.wmode.getLsbD i = (!(6 ≤ i && i < 8 || 13 ≤ i && i < 32) && (at' b 0x18 8).testBit i)) ∧
          (v'.div = false → ∀ r, 0 < r → r < 64 →
            rx { v' with a := { v'.a with priv := 0 } } false r = n64 (at' b (0x140 + 8 * r) 8)) ∧
          (∀ e ∈ v'.regs, e.2.line = none)))

/-- R203, R206, R33: WDOG.SET sets the limit (0: that of the function; below 1024 or above 32 bits: 19.3), WDOG.KICK
clears the count, and GTIME reads guest time and keeps the largest value read. -/
def Sys2Proof.Claims.WatchdogAndTime : Prop :=
  ∀ (s : State) (w : Warp) (d a : Nat) (f : Func), actsOn s w → allIssued (actPath s w) = true →
    fget s.funcs w.fn = some f →
    let v := (rx w s.cur.path a).toNat
    let g := if f.gtStop && f.gtMode then f.gtFrozen
      else f.gtOff + BitVec.ofNat 64 (s.mgmt.tb * f.gtMul.toNat / 2 ^ 32)
    ((actPath s w).priv ≠ 0 → v ≠ 0 → (v < 1024 ∨ 2 ^ 32 ≤ v) → trapsAt (.wdogSet a) s w 0x133) ∧
    ((actPath s w).priv ≠ 0 → (v = 0 ∨ (1024 ≤ v ∧ v < 2 ^ 32)) → runs (.wdogSet a) s fun t =>
      scalarStep s t { ended w with wdlim := if v = 0 then f.wdlim else v } 0 0 (nextPc s w)) ∧
    ((actPath s w).priv ≠ 0 → runs .wdogKick s fun t => ∃ w', t = putWarp s s.cur.warp w' ∧ w'.wdc = 0 ∧
      (actPath s w').pc = nextPc s w ∧ w'.nidem = w.nidem ∧ w'.regs = w.regs ∧ w'.xs = w.xs ∧
      (actPath s w').x = (actPath s w).x ∧ (actPath s w').k = (actPath s w).k ∧
      w'.path (!s.cur.path) = w.path (!s.cur.path)) ∧
    runs (.gtime d) s fun t => scalarStep { s with funcs := t.funcs } t w d g (nextPc s w) ∧
      fget t.funcs w.fn = some { f with gtLast := if f.gtLast.toNat < g.toNat then g else f.gtLast } ∧
      ∀ n, n ≠ w.fn → fget t.funcs n = fget s.funcs n

/-- R205: INJECT: a corrected error and an uncorrectable word at an address, an uncorrectable word in a register line of
the warp in a slot, a residue error and a dropped packet; any other kind raises 19.3, an empty slot or an address that
does not translate 19.7. A word of another module is poisoned by a WRITE packet, whose acknowledgement ends the form. -/
def Sys2Proof.Claims.ErrorInjection : Prop :=
  ∀ (s : State) (w : Warp) (d a : Nat), actsOn s w →
    let p := actPath s w
    let kind := (rx w s.cur.path a).toNat
    let t := (rx w s.cur.path d).toNat
    let req := warpReq s w false .write none
    let i := Instr.inject d a
    p.priv ≠ 0 → allIssued p = true →
    (4 < kind → trapsAt i s w 0x133) ∧
    ((kind = 3 ∨ kind = 4) → t ≠ 0 → trapsAt i s w 0x133) ∧
    (kind = 2 → 2 ^ 17 ≤ t → trapsAt i s w 0x133) ∧
    (kind ≤ 1 → ∀ f, translate s req t = .fault f → trapsAt i s w 0x137) ∧
    (∀ m, translate s req t = .ok m →
      (kind = 0 → runs i s fun u => scalarStep (countError s m) u (ended w) 0 0 (nextPc s w)) ∧
      (kind = 1 → isLocal m = true → runs i s fun u => scalarStep { s with pois := u.pois } u (ended w) 0 0 (nextPc s w) ∧
        ∀ g, g ∈ u.pois ↔ g ∈ s.pois ∨ g = granule m) ∧
      (∀ o, kind = 1 → isLocal m = false → poisOp s s.cur.warp s.cur.path t 1 = some o → o.body = .pois t 1 [] [] →
        runs i s fun u => scalarStep (dropOp s o.id) u (ended w) 0 0 (nextPc s w))) ∧
    (kind = 2 → t < 2 ^ 17 → slotWarp s (coreKey w) (t % 64) = none → trapsAt i s w 0x137) ∧
    (∀ n v, kind = 2 → t < 2 ^ 17 → slotWarp s (coreKey w) (t % 64) = some (n, v) → n ≠ s.cur.warp →
      runs i s fun u => scalarStep (putWarp s n { v with regs := fmod v.regs (t / 64) fun r =>
        { r with pois := BitVec.allOnes 32 } }) u (ended w) 0 0 (nextPc s w)) ∧
    (t = 0 → ((kind = 3 → runs i s fun u => ∃ w', wentOn s u w w' (nextPc s w) ∧ w'.regs = w.regs ∧ w'.xs = w.xs ∧
        (actPath s w').residue = true ∧ (actPath s w').x = p.x ∧ (actPath s w').k = p.k) ∧
      (kind = 4 → runs i s fun u => ∃ w', wentOn s u w w' (nextPc s w) ∧ w'.regs = w.regs ∧ w'.xs = w.xs ∧
        (actPath s w').dropPkt = true ∧ (actPath s w').x = p.x ∧ (actPath s w').k = p.k)))

/-- R201, R203, R205, R206: the forms of the supervisor level that act on the core, and the read of guest time. What
the spec leaves open here is the model's choice: log entries 49, 78. -/
def Obligations.SystemForms : Prop := TlbInvalidates ∧ WatchdogAndTime ∧ ErrorInjection

/-! ## The patrol core -/

/-- R207, R208, R382 to R386: QUIESCE starts or reports the quiesce of a cluster, RETSAVE makes its retention image with
the next sequence number, RETLOAD applies one whose CRC holds, and answers 1 with vector 3 for another, after which a cluster
in RESET stays there; HALT stops the core unless a wake request is pending; the causes 22.0, 22.1 and 22.2 have no effect. -/
def Obligations.PatrolForms : Prop :=
  ∀ (s : State) (w : Warp) (d a : Nat), actsOn s w → (actPath s w).priv ≠ 0 → w.kind = .patrol →
    allIssued (actPath s w) = true →
    let n := (rx w s.cur.path a).toNat
    let c := clusterAt s w.die n
    let p := patrolAt s w.die
    ((3 < n ∨ clusterPresent s w.die n = false) → trapsAt (.quiesce d a) s w 0x160 ∧ trapsAt (.retsave d a) s w 0x160 ∧
      trapsAt (.retload d a) s w 0x160) ∧
    (n ≤ 3 → clusterPresent s w.die n = true →
      (c.st = .run → (∀ e ∈ s.blocks, ¬(e.2.placed = true ∧ pairInCluster w.die n e.2.die e.2.pair = true)) →
        runs (.quiesce d a) s fun t => scalarStep { s with power := t.power } t (ended w) d 0 (nextPc s w) ∧
          clusterAt t w.die n = { c with st := .quiescing, fresh := false }) ∧
      (c.st = .quiescing → runs (.quiesce d a) s fun t => scalarStep s t (ended w) d 2 (nextPc s w)) ∧
      (c.st ≠ .run → c.st ≠ .quiescing →
        runs (.quiesce d a) s fun t => scalarStep s t (ended w) d 1 (nextPc s w)) ∧
      (c.st ≠ .quiesced → trapsAt (.retsave d a) s w 0x161) ∧
      (c.st = .quiesced → runs (.retsave d a) s fun t =>
        let seq := (p.retSeq + 1) % 2 ^ 32
        scalarStep { s with power := t.power } t (ended w) d (BitVec.ofNat 64 seq) (nextPc s w) ∧
        patrolAt t w.die = { p with retSeq := seq } ∧ ∃ m, clusterAt t w.die n =
          { c with img := some m, seqReg := seq, fresh := true } ∧ m.seq = seq ∧ m.fsel = c.fsel ∧ m.repair = c.repair ∧
          m.trims = c.trims ∧ (∀ i, i < 32 → (i ∈ m.off ↔ coreOn s w.die (32 * n + i) = false)) ∧
          m.bases = ((List.range 32).map fun i => (supOf s (128 * w.die + 32 * n + i)).base) ∧ retGood m = true) ∧
      ((c.img = none ∨ c.clkAck = false ∨ c.railGood = false) → trapsAt (.retload d a) s w 0x162) ∧
      (∀ m, c.img = some m → c.clkAck = true → c.railGood = true →
        let good := retGood m = true ∧ c.failed = false
        (c.st = .run ∨ c.st = .quiescing → good → runs (.retload d a) s fun t => scalarStep s t (ended w) d 0 (nextPc s w)) ∧
        (c.st = .run ∨ c.st = .quiescing → ¬good → runs (.retload d a) s fun t => scalarStep s t (ended w) d 1 (nextPc s w)) ∧
        (c.st ≠ .run → c.st ≠ .quiescing → good → runs (.retload d a) s fun t => clusterAt t w.die n =
            { c with st := .quiesced, fsel := m.fsel, repair := m.repair, trims := m.trims } ∧
          (∀ i ∈ m.off, i < 32 → coreOn t w.die (32 * n + i) = false) ∧
          t.mem = s.mem ∧ ∃ w', fget t.warps s.cur.warp = some w' ∧ rx w' s.cur.path d = 0 ∧
            (actPath s w').pc = nextPc s w) ∧
        (∀ f, c.st ≠ .run → c.st ≠ .quiescing → ¬good → fget s.funcs 0 = some f → runs (.retload d a) s fun t =>
          scalarStep { s with power := t.power, funcs := t.funcs } t (ended w) d 1 (nextPc s w) ∧
          clusterAt t w.die n = { c with failed := c.failed || c.st = .reset } ∧
          fget t.funcs 0 = some { f with vectors := f.vectors ++ [3] }))) ∧
    runs .halt s fun t => scalarStep { s with power := t.power } t (ended w) 0 0 (nextPc s w) ∧
      t.power.clusters = s.power.clusters ∧ patrolAt t w.die = if p.wake = 0 then { p with halted := true } else p

/-! ## Lane instructions -/

/-- R25, R26, R58: the tag check of one source: equal tags and b32 on either side pass the word as it is, tags of two
groups raise 1.1, and a source of the expected group is converted, or raises 1.0 with TAGX. -/
def Obligations.TagChecks : Prop :=
  ∀ (s : State) (c : LCtx) (o : LaneOp) (rok : Bool) (draw : Nat) (v : Lanes) (tag want : Fmt),
    let r := tagCheck s c o rok draw (v, tag) want
    ((tag = want ∨ tag = .b32 ∨ want = .b32) → r = .ok (v, tag, 0)) ∧
    (tag ≠ want → tag ≠ .b32 → want ≠ .b32 →
      ((tagGroup tag = none ∨ tagGroup tag ≠ tagGroup want) → r = .error 0x11) ∧
      (tagGroup tag ≠ none → tagGroup tag = tagGroup want →
        (c.w.wmode.getLsbD 4 = true → r = .error 0x10) ∧
        (c.w.wmode.getLsbD 4 = false → ∃ ls fl, r = .ok (ls, tag, fl) ∧ ∀ l e, l < 32 → e < fmtCount want →
          elem want (lane ls l) e =
            (convertElem tag want (laneMode s c o rok false draw l e) (elem tag (lane v l) e)).code %
              2 ^ fmtWidth want)))

/-- R119, R135 to R137, R139, R141: the lane forms with one word per lane, from their reading to their end. -/
def Sys2Proof.Claims.LaneWordResults : Prop :=
  ∀ (s : State) (w : Warp) (o : LaneOp), actsOn s w → ∀ e ∈ wordForms o,
    laneDoes s w o e.1 false e.2.1 fun x r => r.tag = e.2.2.1 x ∧ r.fl = 0 ∧ r.kd = none ∧
      ∀ l, x.c.act.getLsbD l = true → lane r.res l = e.2.2.2 x l

/-- R119, R136, R137: BOOL3 and BFI, bit by bit; R132: PACK, element by element. -/
def Sys2Proof.Claims.LaneFieldResults : Prop :=
  ∀ (s : State) (w : Warp) (o : LaneOp), actsOn s w →
    let srcs := [(o.a, Fmt.b32), (o.b, .b32), (o.c, .b32)]
    let word := fun (r : LRes) (tag : Fmt) => r.tag = tag ∧ r.fl = 0 ∧ r.kd = none
    let pos := o.mods % 8
    let sgn := o.mods.testBit 3
    laneDoes s w o (.bool3 o) false srcs (fun x r => word r .b32 ∧ ∀ l i, x.c.act.getLsbD l = true → i < 32 →
      (lane r.res l).getLsbD i = o.mods.testBit
        (4 * b2n ((x.at 2 l).getLsbD i) + 2 * b2n ((x.at 1 l).getLsbD i) + b2n ((x.at 0 l).getLsbD i))) ∧
    laneDoes s w o (.bfi o) false srcs (fun x r => word r .b32 ∧ ∀ l i, x.c.act.getLsbD l = true → i < 32 →
      let p := (x.at 2 l).toNat % 256
      let n := (x.at 2 l).toNat / 256 % 256
      (lane r.res l).getLsbD i = if p ≤ i ∧ i < p + n then (x.at 0 l).getLsbD (i - p) else (x.at 1 l).getLsbD i) ∧
    laneDoes s w o (.pack o) false srcs fun x r => word r (packTag o.fmt sgn) ∧
      ∀ l e, x.c.act.getLsbD l = true → e < fmtCount o.fmt → elem o.fmt (lane r.res l) e =
        (if e = pos + 1 then packElem o.fmt sgn o.sat (x.at 1 l) % 2 ^ fmtWidth o.fmt
         else if e = pos then packElem o.fmt sgn o.sat (x.at 0 l) % 2 ^ fmtWidth o.fmt else elem o.fmt (x.at 2 l) e)

/-- R119, R122, R132, R135 to R137, R139, R141: the lane forms with 32-bit results and those that pack and insert
fields. What the spec leaves open here is the model's choice: log entries 16 and 83. -/
def Obligations.LaneWords : Prop := LaneWordResults ∧ LaneFieldResults

/-- R119, R55, R135, R138: the lane integer forms: the exact result of each element, modulo the format's width or,
with sat = 1, the nearest value of the format; no flag. DP4 and DP8 in integer formats sum the products of a lane
with c. What the spec leaves open here is the model's choice: log entries 16 and 83. -/
def Obligations.LaneIntegerResults : Prop :=
  ∀ (s : State) (w : Warp) (o : LaneOp), actsOn s w → isIntFmt o.fmt = true →
    let fits := fun (f : Fmt) (r : LRes) (l e : Nat) (v : Int) =>
      (o.sat = false → ((elem f (lane r.res l) e : Nat) : Int) = v % 2 ^ fmtWidth f) ∧
      (o.sat = true → intVal f (elem f (lane r.res l) e) = max (intBounds f).1 (min (intBounds f).2 v))
    (∀ e ∈ intForms o, laneDoes s w o e.1 false (e.2.1.map fun x => (x, o.fmt)) fun x r =>
      r.tag = o.fmt ∧ r.fl = 0 ∧ r.kd = none ∧
      ∀ l j, x.c.act.getLsbD l = true → j < fmtCount o.fmt → fits o.fmt r l j (e.2.2 x l j)) ∧
    (o.fmt ∈ [Fmt.i8, .n8, .i4, .n4] → ∀ i ∈ [Instr.dp4 o, .dp8 o],
      let f := if isSigned o.fmt then Fmt.i32 else .n32
      laneDoes s w o i false [(o.a, o.fmt), (o.b, o.fmt), (o.c, f)] fun x r => r.tag = f ∧ r.fl = 0 ∧ r.kd = none ∧
        ∀ l, x.c.act.getLsbD l = true → fits f r l 0 (intVal f (x.at 2 l).toNat +
          ((List.range (fmtCount o.fmt)).map fun e => x.int 0 l e * x.int 1 l e).sum))

/-- R119, R123 to R129, R134, R138: the lane float forms: every element of the result is the one that the operation
gives, and the flags of the lanes of act are raised. What the spec leaves open here is the model's choice: log
entries 16, 80, 82 and 83. -/
def Obligations.LaneFloatResults : Prop :=
  ∀ (s : State) (w : Warp) (o : LaneOp), actsOn s w →
    let gives := fun (x : LIn) (r : LRes) (tag : Fmt) (g : Nat → Nat → Coded) => r.tag = tag ∧ r.kd = none ∧
      (∀ l e, x.c.act.getLsbD l = true → e < fmtCount tag →
        elem tag (lane r.res l) e = (g l e).code % 2 ^ fmtWidth tag) ∧
      ∀ b, r.fl.testBit b = true ↔ ∃ l e, x.c.act.getLsbD l = true ∧ e < fmtCount tag ∧ (g l e).fl.testBit b = true
    (∀ e ∈ floatForms o, laneDoes s w o e.1 e.2.1 e.2.2.1 fun x r => gives x r e.2.2.2.1 (e.2.2.2.2 x)) ∧
    (isIntFmt o.fmt = false → ∀ i ∈ [Instr.dp4 o, .dp8 o],
      laneDoes s w o i false [(o.a, o.fmt), (o.b, o.fmt), (o.c, .f32)] fun x r => gives x r .f32 fun l _ => dotFloat x l)

/-- R119, R130: FCMP and ICMP ballot their condition; FCMP raises NV for a signalling NaN, and with SIG for any. -/
def Sys2Proof.Claims.LaneCompares : Prop :=
  ∀ (s : State) (w : Warp) (o : LaneOp), actsOn s w →
    let el := o.mods / 256 % 4
    let un := fun (x : LIn) (l : Nat) => (x.num 0 l el).isNan || (x.num 1 l el).isNan
    let bad := fun (x : LIn) (l : Nat) =>
      (x.num 0 l el).isSig || (x.num 1 l el).isSig || (o.mods.testBit 10 && un x l)
    let holds := fun (u : Bool) (c : Ordering) => match o.mods % 16 with
      | 0 => !u && c == .eq | 1 => u || c != .eq | 2 => !u && c == .lt | 3 => !u && c != .gt
      | 4 => !u && c == .gt | 5 => !u && c != .lt | 6 => !u | _ => u
    laneDoes s w o (.icmp o) false [(o.a, o.fmt), (o.b, o.fmt)] (fun x r => r.fl = 0 ∧
      isBallot x r fun l => holds false (compare (x.int 0 l el) (x.int 1 l el))) ∧
    laneDoes s w o (.fcmp o) false [(o.a, o.fmt), (o.b, o.fmt)] fun x r =>
      (isBallot x r fun l => holds (un x l) (numCmp (x.num 0 l el) (x.num 1 l el))) ∧
      r.fl = if (List.range 32).any fun l => x.c.act.getLsbD l && bad x l then 1 else 0

/-- R119, R131 to R133, R140: CVT, QNT, SCAN and RED. SCAN and RED fold the lanes of act in ascending order: RED
gives the last accumulator to every lane of act, SCAN gives each lane the one that it read. -/
def Sys2Proof.Claims.LaneConversions : Prop :=
  ∀ (s : State) (w : Warp) (o : LaneOp), actsOn s w →
    let src := fmtOf (o.mods % 32)
    let blen := if o.mods.testBit 3 then 16 else 32
    let scale := o.mods.testBit 4
    laneDoes s w o (.cvt o) true ((o.a, src) :: if cvtNeedsB o then [(o.b, o.fmt)] else []) (fun x r =>
      r.tag = o.fmt ∧ r.kd = none ∧
      (src = .b32 → r.fl = 0 ∧ ∀ l, x.c.act.getLsbD l = true → lane r.res l = x.at 0 l) ∧
      (src ≠ .b32 → ∀ l e, x.c.act.getLsbD l = true → e < fmtCount o.fmt →
        elem o.fmt (lane r.res l) e = (cvtElem x l e).code % 2 ^ fmtWidth o.fmt)) ∧
    laneDoes s w o (.qnt o) true [(o.a, .f32), (o.b, if scale then .e8m0 else o.fmt)] (fun x r =>
      let f := if scale then Fmt.e8m0 else o.fmt
      let sc := fun l => mxScale (qntAmax x blen l) o.fmt
      r.tag = f ∧ r.kd = none ∧ ∀ l e, x.c.act.getLsbD l = true → e < fmtCount f → elem f (lane r.res l) e =
        if e = o.mods % 8 then (if scale then sc l else (qntElem x (sc l) l e).code) % 2 ^ fmtWidth f
        else elem f (x.at 1 l) e) ∧
    laneDoes s w o (.red o) true [(o.a, o.fmt)] (fun x r => r.tag = o.fmt ∧ r.kd = none ∧
      ∀ first rest, lanesOf x.c.act = first :: rest → ∀ l, x.c.act.getLsbD l = true →
        lane r.res l = rest.foldl (fun acc j => (foldStep x (o.mods % 8) j acc (x.at 0 j)).1) (x.at 0 first)) ∧
    laneDoes s w o (.scan o) true [(o.a, o.fmt)] fun x r => r.tag = o.fmt ∧ r.kd = none ∧
      (∀ first rest, lanesOf x.c.act = first :: rest → lane r.res first =
        if o.mods.testBit 3 then foldIdentity o.fmt (o.mods % 8) else x.at 0 first) ∧
      ∀ first pre l rest, lanesOf x.c.act = first :: pre ++ l :: rest →
        let acc := pre.foldl (fun a j => (foldStep x (o.mods % 8) j a (x.at 0 j)).1) (x.at 0 first)
        lane r.res l = if o.mods.testBit 3 then acc else (foldStep x (o.mods % 8) l acc (x.at 0 l)).1

/-- R130, R132, R133: the lane compares and conversions. What the spec leaves open here is the model's choice: log
entries 16, 81 and 83. -/
def Obligations.LaneComparesAndConversions : Prop := LaneCompares ∧ LaneConversions

/-! ## Lane memory instructions -/

/-- R142 to R148: LD and ST in each space: the checks of R145 in their order, and the issue of one operation that
carries an access for every lane of act; of lanes that store to one address, the highest. An instruction whose counter
or flag is full waits, with no lane in act too; so does a store to another module for which fb has no room. -/
def Sys2Proof.Claims.LaneLoadsAndStores : Prop :=
  ∀ (s : State) (w : Warp) (o : LaneOp), actsOn s w →
    let size := if o.mods / 2 ^ 10 % 4 = 0 then 4 else if o.mods / 2 ^ 10 % 4 = 1 then 2 else 1
    let c := lctx s w (actPath s w) o
    let accOf := fun (x : LIn) (home : Nat → Nat) (st : Bool) l =>
      laneAcc l (home l) size (if st then x.at 1 l else 0) 0
    let goes := fun (i : Instr) (space : Space) (st : Bool) (x : LIn) (home : Nat → Nat) =>
      let far := st = true ∧ space ≠ .sp ∧ ∃ l, c.act.getLsbD l = true ∧ isLocal (home l) = false
      (¬memRoom s o space → waits i s) ∧ (far → 255 ≤ fbDue s s.cur.warp s.cur.path → waits i s) ∧
      (memRoom s o space → (far → fbDue s s.cur.warp s.cur.path < 255) → (actPath s w).residue = false →
        runs i s fun t => ∃ m : LaneMem, memIssued s t w c o m (if st then .n32 else o.fmt) (!st) ∧ m.kind = (if st then .store else .load) ∧
        m.space = space ∧ m.act = c.act ∧ m.left = c.act ∧ m.wire = 0 ∧ m.dst = o.dst ∧ m.fmt = o.fmt ∧
        m.ord = o.mods / 2 ^ 12 % 4 ∧ m.scope = scopeOf (o.mods / 2 ^ 14 % 8) ∧
        ∀ a, a ∈ m.accs ↔ ∃ l, c.act.getLsbD l = true ∧ a = accOf x home st l ∧
          (st = true → ∀ j, l < j → c.act.getLsbD j = true → home j ≠ home l))
    let form := fun (i : Instr) (space : Space) (st : Bool) =>
      (c.act = 0 → ¬memRoom s o space → waits i s) ∧
      (c.act = 0 → memRoom s o space → (actPath s w).residue = false → runs i s fun t => laneEmpty s t w c false) ∧
      laneReads s w o i false ((o.a, .b32) :: if st then [(o.b, o.fmt)] else []) fun c x =>
        laneGuarded i s c o x (if st then .n32 else o.fmt) (laneChecked i s c space (if st then .write else .read) size
          (fun l => laneAddress c o (x.at 0 l) size) (goes i space st x))
    form (.ldSp o) .sp false ∧ form (.ldGs o) .gs false ∧ form (.ldDm o) .dm false ∧ form (.ldPv o) .pv false ∧
    form (.stSp o) .sp true ∧ form (.stGs o) .gs true ∧ form (.stDm o) .dm true ∧ form (.stPv o) .pv true

/-- R149: LDT checks its origin and pitch (3.3) and its scratchpad range (4.0), and issues one operation whose accesses
are the elements of its lanes. -/
def Sys2Proof.Claims.TransposingLoad : Prop :=
  ∀ (s : State) (w : Warp) (o : LaneOp), actsOn s w →
    let i := Instr.ldt o
    (let c := lctx s w (actPath s w) o
     (c.act = 0 → ¬memRoom s o .sp → waits i s) ∧
     (c.act = 0 → memRoom s o .sp → (actPath s w).residue = false → runs i s fun t => laneEmpty s t w c false)) ∧
    laneReads s w o i false [(o.a, .b32), (o.b, .b32)] fun c x => laneGuarded i s c o x o.fmt
      (∀ lo, lowLane c.act = some lo →
        let b := fmtWidth o.fmt
        let org := laneAddress c o (x.at 0 lo) 8
        let pitch := (x.at 1 lo).toNat % 2 ^ 24
        let accs := fun l => tileAccs b (o.mods.testBit 8) org pitch l
        let beyond := fun l => if (accs l).any fun a => spSize s w < a.addr + a.size then some 0x40 else none
        ((org % 8 ≠ 0 ∨ pitch % 8 ≠ 0 ∨ pitch < 2 * b) →
          trapsLaneAt i s c 0x33 c.act (BitVec.ofNat 64 org)) ∧
        (org % 8 = 0 → pitch % 8 = 0 → 2 * b ≤ pitch →
          (∀ e m l, firstCause c.act beyond = some (e, m, l) →
            trapsLaneAt i s c e m (BitVec.ofNat 64 org)) ∧
          (firstCause c.act beyond = none → (¬memRoom s o .sp → waits i s) ∧
            (memRoom s o .sp → (actPath s w).residue = false → runs i s fun t => ∃ m : LaneMem,
              memIssued s t w c o m o.fmt true ∧ m.kind = .tload ∧ m.space = .sp ∧ m.act = c.act ∧ m.left = c.act ∧
              m.dst = o.dst ∧ m.accs = (lanesOf c.act).flatMap accs)))) 

/-- R150, R151: the atomics: a .pv address raises 12.1 and FADD with REPRO 12.0, with no lane in act too; the checks of R145 follow, and one
operation is issued with the operands of every lane of act; the region ends (R98). -/
def Sys2Proof.Claims.LaneAtomics : Prop :=
  ∀ (s : State) (w : Warp) (o : LaneOp) (i : Instr) (oper : Nat), actsOn s w →
    (i, oper) ∈ [(Instr.atomAdd o, 0), (.atomMin o, 1), (.atomMax o, 2), (.atomAnd o, 3), (.atomOr o, 4),
      (.atomXor o, 5), (.atomExch o, 6), (.atomCas o, 7), (.atomIncb o, 8), (.atomFadd o, 9)] →
    let c := lctx s w (actPath s w) o
    let spc := o.mods / 2 ^ 8 % 4
    let space := if spc = 0 then Space.sp else if spc = 1 then .gs else .dm
    let repro := oper = 9 ∧ w.wmode.getLsbD 5 = true
    (c.act = 0 → spc = 3 → trapsLane i s c 0xC1) ∧ (c.act = 0 → spc ≠ 3 → repro → trapsLane i s c 0xC0) ∧
    (c.act = 0 → spc ≠ 3 → ¬repro → ¬memRoom s o space → waits i s) ∧
    (c.act = 0 → spc ≠ 3 → ¬repro → memRoom s o space → (actPath s w).residue = false →
      runs i s fun t => laneEmpty s t w c true) ∧
    laneReads s w o i false ([(o.a, .b32), (o.b, o.fmt)] ++ if oper = 7 then [(o.c, o.fmt)] else []) fun c x =>
      laneGuarded i s c o x o.fmt ((spc = 3 → trapsLane i s c 0xC1) ∧ (spc ≠ 3 → repro → trapsLane i s c 0xC0) ∧
        (spc ≠ 3 → ¬repro → laneChecked i s c space .write 4 (fun l => laneAddress c o (x.at 0 l) 4) fun home =>
          let far := space ≠ .sp ∧ ∃ l, c.act.getLsbD l = true ∧ isLocal (home l) = false
          (¬memRoom s o space → waits i s) ∧ (far → 255 ≤ fbDue s s.cur.warp s.cur.path → waits i s) ∧
          (memRoom s o space → (far → fbDue s s.cur.warp s.cur.path < 255) → (actPath s w).residue = false → runs i s fun t =>
            (fget t.warps s.cur.warp).map (·.nidem) = some true ∧ ∃ m : LaneMem,
              memIssued s t w c o m o.fmt true ∧ m.kind = .atom oper ∧ m.space = space ∧ m.act = c.act ∧
              m.left = c.act ∧ m.dst = o.dst ∧
              m.accs = (lanesOf c.act).map fun l => laneAcc l (home l) 4 (x.at 1 l) (x.at 2 l))))

/-- R142 to R151: the issue of lane memory instructions. What the spec leaves open here is the model's choice: log
entries 16, 34, 71, 83, 103 and 104. -/
def Obligations.LaneMemory : Prop := LaneLoadsAndStores ∧ TransposingLoad ∧ LaneAtomics

/-! ## The events of the engines -/

/-- R166 to R168, R172, R175: the operations in the order of a bank act once those ahead of them have retired: a
ZERO clears its banks, a DRAIN copies its rows into registers and clears them when it says so, an MMA adds one group
of products to every position of one bank, from operand bytes that it reads once, and retires after its last step, and an AMV
adds its 1024 outputs. A poisoned byte that an MMA reads, a poisoned input of an AMV and an error in its copy raise 18.0, and
the tag is purged (R152, R196, R282). What the spec leaves open here is the model's choice: log entries 4, 75, 105, 106 and
108. -/
def Obligations.BankEvents : Prop :=
  ∀ (s : State) (id : Nat) (o : Op) (w : Warp), findOp s id = some o → fget s.warps o.warp = some w →
    (∀ ks, o.body = .zero ks →
      ((∃ k ∈ ks, bankReady s o k = false) ∨ acquireBefore s o = true → waits (.accZeroRetire id) s) ∧
      ((∀ k ∈ ks, bankReady s o k = true) → acquireBefore s o = false →
        runs (.accZeroRetire id) s fun t => opLeft s t id ∧ t.warps = s.warps ∧
          ∀ k, fget t.banks k = if k ∈ ks then (fget s.banks k).map (fun b => { b with vals := [], pois := [] })
            else fget s.banks k)) ∧
    (∀ d k b, o.body = .drain d k → fget s.banks k = some b →
      let within := fun (n p : Nat) => n * d.row0 ≤ p ∧ p < n * (d.row0 + d.nrows)
      (bankReady s o k = false ∨ acquireBefore s o = true ∨ drainMissing w d = true → waits (.accDrainRetire id) s) ∧
      (bankReady s o k = true → acquireBefore s o = false → drainMissing w d = false →
        runs (.accDrainRetire id) s fun t => opLeft s t id ∧
        (∀ j, j ≠ k → fget t.banks j = fget s.banks j) ∧
        (∃ b', fget t.banks k = some b' ∧ { b' with vals := b.vals, pois := b.pois } = b ∧
          (d.zafter = false → b'.vals = b.vals ∧ b'.pois = b.pois) ∧
          (d.zafter = true → (∀ p, fget b'.vals p = if within 32 p then none else fget b.vals p) ∧
            ∀ g, g ∈ b'.pois ↔ g ∈ b.pois ∧ ¬within 2 g)) ∧
        ∃ w', fget t.warps o.warp = some w' ∧ { w' with regs := w.regs } = w ∧
          (∀ i, i < d.nrows → vtag w' (d.dst + i) = .f32 ∧ ∀ l, l < 32 → lane (vread w' (d.dst + i)) l =
            if d.mask.getLsbD l then fgetD 0 b.vals (32 * (d.row0 + i) + l) else lane (vread w (d.dst + i)) l) ∧
          (∀ i l, i < d.nrows → l < 32 → wordPoisoned w' (d.dst + i) (laneBit l) =
            if d.mask.getLsbD l then b.pois.contains (2 * (d.row0 + i) + l / 16)
            else wordPoisoned w (d.dst + i) (laneBit l)) ∧
          ∀ n, ¬(d.dst ≤ n ∧ n < d.dst + d.nrows) → fget w'.regs n = fget w.regs n)) ∧
    (∀ r ks b, o.body = .mma r ks → w.st ≠ .saved →
      let h := mmaShape r.ctl
      let nt := (h.n + 31) / 32
      let tiles := (h.m + 31) / 32 * nt
      let q := (r.step - 1) % tiles
      let g := (r.step - 1) / tiles
      let k := ks.getD q 0
      let steps := tiles * ((h.k + 31) / 32)
      let bytes := stepBytes h r q g
      let seen := mmaLatch (spCells s o.block) r bytes
      let whole := fun n => r.z = true ∧ g = 0 ∧ 32 * (q / nt) + n / 2 < h.m ∧ 32 * (q % nt) + 16 * (n % 2 + 1) ≤ h.n ∧
        n / 2 < 32
      fget s.banks k = some b →
      ((bankReady s o k = false ∨ spReady s o = false) → waits (.mmaStep id) s) ∧
      (bankReady s o k = true → spReady s o = true → stepPoisoned (spPoison s o.block) r bytes = true →
        w.kind = .kernel → disowned o = false → runs (.mmaStep id) s fun t => purgedFor s t o.warp w 0x120) ∧
      (bankReady s o k = true → spReady s o = true → stepPoisoned (spPoison s o.block) r bytes = false →
        runs (.mmaStep id) s fun t => t.mem = s.mem ∧ t.warps = s.warps ∧
        (∀ j, j ≠ k → fget t.banks j = fget s.banks j) ∧
        (∃ b', fget t.banks k = some b' ∧ { b' with vals := b.vals, pois := b.pois } = b ∧
          (∀ n, n ∈ b'.pois ↔ n ∈ b.pois ∧ ¬whole n) ∧ ∀ i j, i < 32 → j < 32 →
          fgetD 0 b'.vals (32 * i + j) =
            if 32 * (q / nt) + i < h.m ∧ 32 * (q % nt) + j < h.n then
              mmaPos r.z g (fgetD 0 b.vals (32 * i + j)) (dotGroup seen h (matOp r.opa0 r.opa1)
                (matOp r.opb0 r.opb1) (fdesc r.fblk 0) (fdesc r.fblk 16) (32 * (q / nt) + i) (32 * (q % nt) + j) g)
            else fgetD 0 b.vals (32 * i + j)) ∧
        (steps ≤ r.step → t.ops = s.ops.filter fun e => e.id ≠ id) ∧
        (r.step < steps → t.ops = s.ops.map fun e =>
          if e.id = id then { e with body := .mma { r with step := r.step + 1, seen := seen } ks } else e) ∧
        (∀ x v, fget r.seen x = some v → fget seen x = some v) ∧
        ∀ x v, fget r.seen x = none → fget seen x = some v → v = rdByte (spCells s o.block) x)) ∧
    (∀ a k r b t0, o.body = .amv a k → fget s.arrays.regions a.region = some r → fget s.banks k = some b →
      fget r.tiles a.tile = some t0 →
      let xs := (List.range 1024).map fun i => (fget a.seen (a.inOff + i)).getD (rdByte (spCells s o.block) (a.inOff + i))
      let poisoned := poisonedIn (spPoison s o.block) a.inOff 1024 || copyPoisoned s r t0 a
      let isc := f32Val a.isc
      let zs := (List.range 4).map fun m => zOf (tileCopy t0 a.copy) a.transposed xs isc m
      let cs := fun j => if a.transposed then f32Val 0x3F800000
        else f32Val (fgetD 0 r.scales (1024 * (a.tile % 256) + j))
      ((bankReady s o k = false ∨ spReady s o = false) → waits (.amvRetire id) s) ∧
      (bankReady s o k = true → spReady s o = true → poisoned = true → w.kind = .kernel → disowned o = false →
        runs (.amvRetire id) s fun t => purgedFor s t o.warp w 0x120) ∧
      (bankReady s o k = true → spReady s o = true → poisoned = false → runs (.amvRetire id) s fun t => opLeft s t id ∧ t.warps = s.warps ∧
          (∀ j, j ≠ k → fget t.banks j = fget s.banks j) ∧
          ∃ b', fget t.banks k = some b' ∧ { b' with vals := b.vals } = b ∧ ∀ j, j < 1024 →
            fgetD 0 b'.vals j = f32Of (sumNums 1 [f32Val (fgetD 0 b.vals j),
              f32Val (amvOut s.free t0 (tileCopy t0 a.copy) a.transposed xs isc (cs j) zs j)]).1))

/-- R147, R150, R151, R254: a load, store or atomic of the module's own storage completes in one event: it leaves
its counter and flag; a load writes its words to its destination and to the age entries that wait for it, a store
its bytes, an atomic both, lane by lane in ascending order. An operation that an earlier one holds back waits. A load or an
atomic that reads a poisoned granule writes nothing and raises 18.0, by which its tag is purged (R152, R196); one that a rewind
has left behind only ends. What the spec leaves open here is the model's choice: log entries 15, 68, 86. -/
def Obligations.MemoryEvents : Prop :=
  ∀ (s : State) (id : Nat) (o : Op) (m : LaneMem) (w : Warp), findOp s id = some o → o.body = .mem m →
    fget s.warps o.warp = some w → m.left = m.act → m.wire = 0 → remoteLanes m = 0 →
    (m.space = .sp → (fget s.blocks m.block).isSome = true) → (∀ a ∈ m.accs, isLocal a.addr = true) →
    (∀ a ∈ m.accs, m.act.getLsbD a.lane = true) → dstMissing w m = false →
    let all := 2 ^ 32 - 1
    let key := coreKey w
    let cells := cellsOf s m.space m.block
    let wrote := fun (w' : Warp) (words : Nat → W32) =>
      (∀ d, m.dst = some d → vtag w' d = m.fmt ∧ ∀ l, l < 32 → lane (vread w' d) l =
        if m.act.getLsbD l then words l else lane (vread w d) l) ∧
      (∀ n, m.dst ≠ some n → fget w'.regs n = fget w.regs n) ∧
      (∀ pf, (w'.path pf).age.length = (w.path pf).age.length ∧ ∀ (i : Nat) (e : AgeEntry), (w.path pf).age[i]? = some e →
        ∃ e' : AgeEntry, (w'.path pf).age[i]? = some e' ∧ e'.valid = e.valid ∧ e'.tag = e.tag ∧
          (e.pend ≠ some id → e' = e) ∧ (e.pend = some id → e'.pend = none ∧
            ∀ l, l < 32 → lane e'.data l = if m.act.getLsbD l then words l else lane e.data l))
    let stopped := fun (i : Instr) =>
      (disowned o = false → w.kind = .kernel → runs i s fun t => purgedFor s t o.warp w 0x120) ∧
      (disowned o = true → runs i s fun t => opLeft s t id ∧ t.warps = s.warps ∧ t.blocks = s.blocks)
    ((m.kind = .load ∨ m.kind = .tload) →
      (mayPerform s o m m.act = false → waits (.loadComplete id all) s) ∧
      (mayPerform s o m m.act = true → lanesPoisoned s key o.warp m m.act = false →
        runs (.loadComplete id all) s fun t => memLeft s t id m ∧ t.mem = s.mem ∧ t.blocks = s.blocks ∧
          (∃ w', fget t.warps o.warp = some w' ∧ wrote w' (laneValue s key o.warp m)) ∧
          ∀ l a, l < 32 → m.accs.filter (fun e => e.lane = l) = [a] → l1May m = false → m.signed = false →
            a.shift = 0 → a.nib = 0 → a.width = 8 * a.size →
            laneValue s key o.warp m l = BitVec.ofNat 32
              (rdLe cells (if m.space = .sp then a.addr else fromCopy s (key / 128) a.addr) a.size)) ∧
      (mayPerform s o m m.act = true → lanesPoisoned s key o.warp m m.act = true → stopped (.loadComplete id all))) ∧
    (m.kind = .store →
      (mayPerform s o m m.act = false → waits (.storeComplete id all) s) ∧
      (mayPerform s o m m.act = true → runs (.storeComplete id all) s fun t =>
        t.ops = s.ops.filter (fun e => e.id ≠ id) ∧ t.warps = s.warps ∧
        cellsOf t m.space m.block = m.accs.foldl (fun c a => wrLe c a.addr a.size a.data.toNat) cells ∧
        (m.space = .sp → t.mem = s.mem) ∧ (m.space ≠ .sp → ∀ b, spCells t b = spCells s b))) ∧
    (∀ k, m.kind = .atom k →
      let r := m.accs.foldl (fun (x : List Host.Cell × Lanes) a =>
        let old := BitVec.ofNat 32 (rdLe x.1 a.addr 4)
        (wrLe x.1 a.addr 4 (atomNew k m.fmt old a.data a.data2).toNat, x.2.set a.lane old)) (cells, m.got)
      let i := Instr.atomComplete (2 ^ 32 * id + all)
      (∀ l, m.act.getLsbD l = true → ∃ a ∈ m.accs, a.lane = l) →
      (mayPerform s o m m.act = false → waits i s) ∧
      (mayPerform s o m m.act = true → lanesPoisoned s key o.warp m m.act = true → stopped i) ∧
      (mayPerform s o m m.act = true → lanesPoisoned s key o.warp m m.act = false →
        runs i s fun t => memLeft s t id m ∧ cellsOf t m.space m.block = r.1 ∧ (m.space = .sp → t.mem = s.mem) ∧
          ∃ w', fget t.warps o.warp = some w' ∧ wrote w' (lane r.2)))

/-- R179, R180, R182, R185, R393: a shuttle transfer moves one element of a fill, a copy or a gather between storage of the
module and steps on, once its engine serves no other operation; a gather reads the index of a row when the row begins, takes
zeros for a row whose index is out of range, and raises 13.3 for it. A batch whose elements are all transferred and written
leaves its counter in the order of closing, and so does a collective that has written; a collective of a group of one delivers
its elements. What the spec leaves open here is the model's choice: log entries 42, 75 and 111. -/
def Obligations.ShuttleEvents : Prop :=
  ∀ (s : State) (id item : Nat) (o : Op) (w : Warp), findOp s id = some o → fget s.warps o.warp = some w →
    let s1 := engineBegin s w id item
    let eop := engineOp id item
    (∀ l it b, o.body = .batch l → l[item]? = some it → it.stall = false → it.done < it.total → it.whole = false →
      engineBusy s w id item = false → it.obuf = [] →
      unbound s w it = false → locate s1 w eop it.user it.skip .write it.dst (elemVa it.dst it.done) = .home b →
      (it.dst.space = 0 ∨ isLocal b = true) → (it.dst.space = 0 → (fget s.blocks o.block).isSome = true) →
      shOrdered s o it = true →
      let i := Instr.shuttleTransfer id item 1
      let sp := fun (r : TRec) => if r.space = 0 then Space.sp else .dm
      let size := recSize it.dst
      let unread := fun (a n : Nat) => ∀ k, k < n → fget it.seen (a + k) = none
      let moved := fun (t : State) (v : Nat) =>
        cellsOf t (sp it.dst) o.block = wrLe (cellsOf s (sp it.dst) o.block) b size v ∧
        ∃ o' l' it', findOp t id = some o' ∧ o'.body = .batch l' ∧ l'[item]? = some it' ∧ it'.done = it.done + 1 ∧
          it'.total = it.total
      let taken := fun (n : Nat) => ∀ a, locate s1 w eop it.user it.skip .read it.src (elemVa it.src n) = .home a →
        (it.src.space = 0 → unread a (recSize it.src)) → (it.src.space = 0 ∨ isLocal a = true) → runs i s fun t =>
          moved t (rdLe (cellsOf s (sp it.src) o.block) (if it.src.space = 0 then a else fromCopy s w.die a) (recSize it.src))
      let row := it.done / recInner it.dst
      let begins := it.rows ≤ row ∧ unread (it.start + 4 * row) 4
      let index := if it.rows ≤ row then rdLe (spCells s o.block) (it.start + 4 * row) 4 else it.value.toNat
      let pf := opPath o
      (it.kind = .fill → runs i s fun t => moved t (it.value.toNat % 2 ^ (8 * size))) ∧
      (it.kind = .copy → taken it.done) ∧
      (it.kind = .gather → (it.rows ≤ row → begins) → index < recOuter it.src →
        taken (index * recInner it.src + it.done % recInner it.dst)) ∧
      (it.kind = .gather → row < it.rows → recOuter it.src ≤ index → runs i s fun t => moved t 0) ∧
      (it.kind = .gather → begins → recOuter it.src ≤ index → disowned o = false → trapWaits w pf = true →
        (w.path pf).priv = 0 → (w.path pf).pend = none → runs i s fun t => moved t 0 ∧ ∃ w', fget t.warps o.warp = some w' ∧
          (w'.path pf).pend = some { sTrap (w.path pf) 0xD3 with impr := true })) ∧
    (∀ l, o.body = .batch l → laterBatch s o = false → writesOut s id = false →
      ((∃ it ∈ l, it.done < it.total ∨ it.obuf ≠ []) → waits (.shBatchComplete id) s) ∧
      ((∀ it ∈ l, it.total ≤ it.done ∧ it.obuf = []) →
        runs (.shBatchComplete id) s fun t => opLeft s t id ∧ t.warps = s.warps)) ∧
    (∀ c, o.body = .coll c →
      (collWritten s o c = true → laterBatch s o = false →
        runs (.collComplete id []) s fun t => opLeft s t id ∧ t.warps = s.warps) ∧
      (∀ g src, c.wrote = false → c.stall = false → c.rank = 0 → c.dst.space = 0 → c.src.space = 0 → otherPod c.dst = none →
        otherPod c.src = none → (fget s.blocks o.block).isSome = true → members s (partOf s w.fn) c = [⟨o, c, w⟩] →
        collBusy s [⟨o, c, w⟩] = false →
        groupOf s (partOf s w.fn) c.group = some [g] → s.fabric.bobbin.length ≤ bobbinSize →
        (src : FMap (List (Option (Nat × Bool)))) = [(0, (List.range (recCount c.src)).map fun i =>
          some (rdLe (spCells s o.block) (elemVa c.src i) (recSize c.src),
           poisonedIn (spPoison s o.block) (elemVa c.src i) (recSize c.src)))] →
        runs (.collComplete id []) s fun t =>
          spCells t o.block = (List.range (recCount c.dst)).foldl (fun m i =>
            (collElem c (wmodeRepro w.wmode) (s.free + 1024 * i) 1 0 i src).elim m fun v =>
              wrLe m (elemVa c.dst i) (recSize c.dst) v.1) (spCells s o.block)))

/-! ## The events of fetching, of the cores and of launches -/

/-- R29, R78, R80 to R83, R340, R341: a malformed S-stream word and an unassigned lane opcode raise their causes of
class 0; a fetch that does not translate raises the walk's cause, and one of class 7 parks the warp and goes to the
PF; the clause at the head of the queue is fetched whole, or its header raises its cause; it starts once every flag
of its wait mask is 0. What the spec leaves open here is the model's choice: log entries 18, 34. -/
def Obligations.FetchEvents : Prop :=
  ∀ (s : State) (w : Warp), actsOn s w →
    let p := actPath s w
    let c := wordCtx s w p
    let req := fetchReq s w p.priv
    (∀ d, trapsAt (.malformedEncoding d) s w (d % 16)) ∧
    (∀ n, trapsLane (.laneOpcodeUnassigned n) s c (if n = 0x3FF then 7 else 4)) ∧
    (∀ f, translate s req p.pc.toNat = .fault f →
      (f.cause / 16 ≠ 7 → exec (.instructionFetchFault f.cause) s = .next (raiseTrap s s.cur.warp s.cur.path
        { sTrap p f.cause with va := p.pc })) ∧
      (f.cause / 16 = 7 → ∀ pfn, fget s.funcs 0 = some pfn → runs (.instructionFetchFault f.cause) s fun t =>
        (fget t.warps s.cur.warp).map (·.st) = some .parked ∧ ∃ r, r.cause = f.cause ∧ r.pc = p.pc ∧ r.va = p.pc ∧
          r.fn = w.fn ∧ r.addr = BitVec.ofNat 64 f.ipa ∧
          fget t.funcs 0 = some { pfn with fqWait := pfn.fqWait ++ [r] })) ∧
    (∀ k l, headClause p = some k → k.hdr = none → fetchAddrs s (fetchReq s w k.priv) k.addr.toNat 3 = .ok l →
      (∀ x ∈ l, isLocal x = true) →
      let words := fun (l : List Nat) => l.map fun x => rdLe s.mem (fromCopy s w.die x) 4
      let h := hdrFields (joinWord (words l))
      (∀ d, hdrFault h = some d → trapsLane .clauseFetch s c d) ∧
      (∀ b, hdrFault h = none →
        fetchAddrs s (fetchReq s w k.priv) (k.addr.toNat + 12) (3 * (h.count + 1)) = .ok b →
        (∀ x ∈ b, isLocal x = true) → runs .clauseFetch s fun t => clauseSet s t w k
          { k with hdr := some { wait := h.wait, setA := h.setA, setB := h.setB, count := h.count },
                   body := joinWords (h.count + 1) (words b), idx := 1 })) ∧
    (∀ k h, headClause p = some k → k.hdr = some h → k.started = false →
      let pending := ∃ f, f < 12 ∧ h.wait.testBit f = true ∧ flagCount s s.cur.warp s.cur.path f ≠ 0
      (pending → waits .clauseStart s) ∧
      (¬pending → runs .clauseStart s fun t => clauseSet s t w k { k with started := true }))

/-- R39, R40, R230 to R233, R239: a fill brings in one line from a slot on this module; LODGE_PRIME primes every ready warp whose
hot list is empty or resident, and fetches the next line of the oldest other one; the exchanges move the oldest warps that hold
their context between rink and lodge, at most 8 in the rink; a path that has taken one branch 8 times with nothing changed is demoted; a warp that runs on past the end
of its region without a mark takes a full save. -/
def Sys2Proof.Claims.RinkEvents : Prop :=
  ∀ (s : State) (core : Nat) (u : Nat) (w : Warp), fget s.warps u = some w →
    (∀ n r, fget w.regs n = some r → r.line = none → w.st ≠ .parked → w.st ≠ .saved → w.st ≠ .ended →
      (∀ a, ctxXlate s w .read (slotVa s w + 0x1000 + 128 * n) = .ok a → ctxHere w a = true →
        runs (.registerFill u n) s fun t => ∃ w',
        t = putWarp s u w' ∧ { w' with regs := w.regs } = w ∧ (∀ m, m ≠ n → fget w'.regs m = fget w.regs m) ∧
        vtag w' n = r.tag ∧ missing w' n = false ∧
        ∀ l, l < 32 → lane (vread w' n) l = BitVec.ofNat 32 (rdLe s.mem (a + 4 * l) 4)) ∧
      (∀ c, ctxXlate s w .read (slotVa s w + 0x1000 + 128 * n) = .bad c → w.kind = .kernel →
        runs (.registerFill u n) s fun t => (fget t.warps u).map (·.st) = some .parked ∨ c ≠ 0x80 ∧ c ≠ 0x82)) ∧
    (let idle := fun (x : Warp) => coreKey x = core ∧ x.kind = .kernel ∧ x.st = .ready ∧ x.reload = false ∧ hotMissing x = []
     ∃ s1 : State, { s1 with warps := s.warps } = s ∧
       (∀ v x, fget s.warps v = some x →
         (idle x → fget s1.warps v = some { x with primed := true }) ∧ (¬idle x → fget s1.warps v = some x)) ∧
       ((∀ v x, fget s1.warps v = some x → coreKey x = core → x.kind = .kernel → x.st = .ready → x.reload = false →
         x.primed = true) → rising s.warps = true → exec (.lodgePrime core) s = .next s1) ∧
       ∀ v x r l, oldestOf s1 core (fun _ y => y.st = .ready && !y.reload && !y.primed) v x → hotMissing x = r :: l →
         exec (.lodgePrime core) s = exec (.registerFill v r) s1) ∧
    (let s1 := wakeBlocked s core
     let awake := fun (v : Nat) (x : Warp) => coreKey x = core ∧ x.kind = .kernel ∧ x.st = .blocked ∧
       ∃ pf, (x.path pf).live = true ∧ longWait s v x pf = false
     (rising s.warps = true → ∀ v x, fget s.warps v = some x →
       (awake v x → fget s1.warps v = some { x with st := .ready, primed := false, since := s.turn }) ∧
       (¬awake v x → fget s1.warps v = some x)) ∧
     ∀ x, oldestOf s1 core (fun _ y => y.st = .ready && !y.reload && y.primed) u x →
       let enters := { x with st := .rink, primed := false, since := s.turn }
       (rinkCount s1 core < 8 → exec (.rinkExchange core) s = .next (putWarp s1 u enters)) ∧
       (∀ v y, 8 ≤ rinkCount s1 core → oldestOf s1 core (fun n z => z.st = .rink && warpBlocked s1 n z) v y →
         exec (.rinkExchange core) s = .next (putWarp
           (putWarp s1 v { y with st := .blocked, primed := false, since := s.turn }) u enters))) ∧
    (∀ v y, oldestOf s core (fun _ x => x.st = .ready && !x.reload) u w →
      oldestOf s core (fun _ x => x.st = .rink && !inHandler x) v y →
      (rinkCount s core < 8 → waits (.lodgeAgeExchange core) s) ∧
      (8 ≤ rinkCount s core → w.primed = true → exec (.lodgeAgeExchange core) s = .next (putWarp
        (putWarp s v { y with st := .ready, primed := false, since := s.turn }) u
        { w with st := .rink, primed := false, since := s.turn })) ∧
      (8 ≤ rinkCount s core → w.primed = false → hotMissing w = [] →
        exec (.lodgeAgeExchange core) s = .next (putWarp s u { w with primed := true })) ∧
      (∀ r l, 8 ≤ rinkCount s core → w.primed = false → hotMissing w = r :: l →
        exec (.lodgeAgeExchange core) s = exec (.registerFill u r) s)) ∧
    (∀ pf, (w.path pf).live = true → 8 ≤ (w.path pf).spin.count → runs (.spinDemotion u pf) s fun t => ∃ w',
      t = putWarp s u w' ∧ { w' with a := w.a, b := w.b } = w ∧ w'.path (!pf) = w.path (!pf) ∧
      w'.path pf = { w.path pf with demoted := true }) ∧
    (w.saving = true → w.runOn = true →
      exec (.preemptMarkTimeout u) s = .next (putWarp s u { w with runOn := false }))

/-- R192 to R194, R196, R203, R235: a pending trap enters its handler, or the default action is taken where the table
has no entry; xs1 of a lane or imprecise cause is the next instruction at the delivery; a warp whose watchdog count reaches its
limit takes 11.0 on path A, which stops path B, and a handler
that runs so long is a double fault. -/
def Sys2Proof.Claims.TrapEvents : Prop :=
  ∀ (s : State) (u : Nat) (w : Warp), fget s.warps u = some w → w.kind = .kernel → w.saving = false →
    w.reload = false →
    (∀ pf tr, (w.path pf).pend = some tr → (w.st = .ready ∨ w.st = .rink ∨ w.st = .blocked) →
      (w.path pf).stopped = false → (w.path pf).priv = 0 → (w.path (!pf)).held = none →
      (pf = true → w.a.pend = none) → tr.cause / 16 ≠ 11 →
      (∀ pc lbase, handlerEntry s w (tr.cause / 16) = .entry pc lbase →
        let now := if (tr.lane = true ∨ tr.impr = true) ∧ ¬(tr.cause = 0x20 ∧ tr.lane = false)
          then { tr with resume := (w.path pf).pc } else tr
        runs (.trapEntry u pf) s fun t => ∃ w', t = putWarp s u w' ∧ tookTrap w w' pf now pc lbase ∧ w'.wdc = w.wdc) ∧
      (handlerEntry s w (tr.cause / 16) = .none → runs (.trapEntry u pf) s fun t => purgedFor s t u w tr.cause)) ∧
    (w.wdc < w.wdlim → waits (.watchdogExpiry u) s) ∧
    (w.wdlim ≤ w.wdc → w.a.pend = none → w.a.more = [] →
      (∀ tr ∈ w.b.pend.toList ++ w.b.more, tr.cause ≠ 0xB0) → (w.st = .ready ∨ w.st = .rink ∨ w.st = .blocked) →
      w.a.live = true → w.b.held = none →
      (∀ pc lbase, w.a.held = none → w.a.priv = 0 → handlerEntry s w 11 = .entry pc lbase →
        runs (.watchdogExpiry u) s fun t => ∃ w', t = putWarp s u w' ∧ w'.wdc = 0 ∧
          w'.a.priv = 1 ∧ w'.a.pc = pc ∧ w'.a.lbase = lbase ∧ w'.a.queue = [] ∧ w'.a.x = w.a.x ∧
          (∀ r, rk w' false r = rk w false r) ∧ (fgetD 0 w'.xs 0 : W64) = causeWord 0xB0 false w.b.live w.a.k0 ∧
          (fgetD 0 w'.xs 1 : W64) = w.a.pc ∧
          (fgetD 0 w'.xs 2 : W64) = (if w.b.live then w.b.pc else 0) ∧ (fgetD 0 w'.xs 3 : W64) = 0 ∧
          (fgetD 0 w'.xs 4 : W64) = w.a.k0.setWidth 64 ∧
          (∀ n, 5 ≤ n → (fgetD 0 w'.xs n : W64) = fgetD 0 w.xs n) ∧
          w'.b = (if w.b.live then { w.b with stopped := true, wait := .none } else w.b) ∧
          { w' with a := w.a, b := w.b, xs := w.xs, wdc := w.wdc } = w) ∧
      (w.a.held ≠ none → w.a.priv ≠ 0 → (fget s.funcs w.fn).isSome = true → runs (.watchdogExpiry u) s fun t =>
        ∃ r, parkedWith s t u w r ∧ r.cause = 0x132 ∧ r.orig = 0xB0 ∧ r.pc = w.a.pc))

/-- R109, R228: a warp ends once its paths are at their EXIT and its queue, counters and flags are empty; with the last
warp of a block the block ends: its banks are free and it counts for its launch. -/
def Sys2Proof.Claims.WarpEnds : Prop :=
  ∀ (s : State) (u : Nat) (w : Warp) (k : Block) (l : Launch), tablesRising s = true → fget s.warps u = some w →
    fget s.blocks w.block = some k → k.launch = w.launch → fget s.launches w.launch = some l → l.lbars = [] →
    w.kind = .kernel → (w.st = .ready ∨ w.st = .rink ∨ w.st = .blocked) →
    let done := ∀ pf, ((w.path pf).live = false ∨ (w.path pf).wait = .exit) ∧ (w.path pf).pend = none ∧
      liveQueue s u pf (w.path pf) = []
    let out := ∃ o ∈ s.ops, o.warp = u
    let last := ∀ v x, v ≠ u → fget s.warps v = some x → x.block = w.block → x.kind = .kernel → x.st = .ended
    ((¬done ∨ out) → waits (.warpEnd u) s) ∧
    (done → ¬out → ¬last → runs (.warpEnd u) s fun t => t.blocks = s.blocks ∧ t.launches = s.launches ∧
      t.mem = s.mem ∧ (∀ v, v ≠ u → fget t.warps v = fget s.warps v) ∧ ∃ w', fget t.warps u = some w' ∧
        w'.st = .ended ∧ w'.a.live = false ∧ w'.b.live = false ∧ w'.regs = []) ∧
    (done → ¬out → last → runs (.warpEnd u) s fun t => fget t.blocks w.block = none ∧ t.mem = s.mem ∧
      (∀ b, b ≠ w.block → fget t.blocks b = fget s.blocks b) ∧
      fget t.launches w.launch = some { l with endedN := l.endedN + 1 } ∧
      (∀ v x, fget t.warps v = some x → ¬(x.block = w.block ∧ x.kind = .kernel)) ∧
      ∀ n b, fget t.banks n = some b → b.block ≠ w.block)

/-- R109, R192 to R194, R235: the traps that a warp takes between instructions, and its end. What the spec leaves
open here is the model's choice: log entries 12, 28, 66. -/
def Obligations.WarpEvents : Prop := TrapEvents ∧ WarpEnds

/-- R197, R348: the oldest record of a core's supervisor slot enters the slot's handler for its class with the record
in xs0 to xs4, or, where the slot's own table has no entry, passes on to the fault queue of its function. -/
def Sys2Proof.Claims.SupervisorRecords : Prop :=
  ∀ (s s1 : State) (core u : Nat) (w : Warp) (sup : Sup) (r : FRec) (rest : List FRec),
    fget s.cores.sups core = some sup → sup.queue = r :: rest → sup.cur = none → supWarp s core = (s1, u, w) →
    w.st = .idle → w.reload = false → w.kind = .supervisor → coreKey w = core → fget s1.warps u = some w →
    let entry := supEntry s1 u { w with fn := r.fn } sup.table (r.cause / 16)
    let taken := fun (t1 : State) => { t1 with cores := { t1.cores with
      sups := fput t1.cores.sups core { sup with queue := rest, cur := some r } } }
    (∀ t1 pc lbase, entry = (t1, .entry pc lbase) →
      runs (.supervisorRecordEntry core) s fun t => ∃ w', t = putWarp (taken t1) u w' ∧ w'.st = .rink ∧ w'.fn = r.fn ∧
        w'.a.pc = pc ∧ w'.a.lbase = lbase ∧ w'.a.priv = 1 ∧ w'.a.queue = [] ∧ w'.a.k0 = BitVec.allOnes 32 ∧
        (w.a.live = true → w'.a.x = w.a.x) ∧ (fgetD 0 w'.xs 0 : W64) = BitVec.ofNat 64 r.cause ∧ (fgetD 0 w'.xs 1 : W64) = r.pc ∧
        (∀ n, r.subj = .warp n → (fgetD 0 w'.xs 2 : W64) = BitVec.ofNat 64 r.slot) ∧
        (fgetD 0 w'.xs 3 : W64) = r.va ∧ (fgetD 0 w'.xs 4 : W64) = 0 ∧
        w'.b.live = false ∧ w'.div = false) ∧
    (∀ t1 n f, entry = (t1, .none) → r.subj = .warp n → fget t1.funcs r.fn = some f →
      runs (.supervisorRecordEntry core) s fun t =>
        fget t.cores.sups core = some { sup with queue := rest, cur := none } ∧
        (fget t.warps u).map (·.st) = some .idle ∧
        fget t.funcs r.fn = some { f with fqWait := f.fqWait ++ [r] })

/-- R39, R197, R230 to R233: the events of rink, lodge and supervisor slot. What the spec leaves open here is the model's
choice: log entry 73. -/
def Obligations.CoreEvents : Prop := RinkEvents ∧ SupervisorRecords

/-- R118, R321 to R323: the doorbell raises LQTAIL, or reports a function that is not ready or a tail more than the ring
ahead, when a VF's driver or the owner rings it; a ring entry becomes a launch with the next host sequence number, the last of which sets SEQX; an entry that
cannot be read stops the ring, and so does SEQX. -/
def Sys2Proof.Claims.LaunchRing : Prop :=
  ∀ (s : State) (fn v : Nat) (f : Func), fget s.funcs fn = some f → f.clr = false →
    (∀ a m, names a m fn → f.enabled = true →
      (m ≠ 0 → isOwner s m = false → exec (.launchDoorbell a v) s = .next (dropMaster s m)) ∧
      (mayWrite s m fn → f.ready = false → runs (.launchDoorbell a v) s fun t => funcStep s t fn
        { f with qerr := true, qcause := 3, vectors := f.vectors ++ [1] }) ∧
      (mayWrite s m fn → f.ready = true → 2 ^ f.lqLog2 < (v % 2 ^ 32 + 2 ^ 32 - f.lqHead) % 2 ^ 32 →
        runs (.launchDoorbell a v) s fun t => funcStep s t fn
          { f with qerr := true, qcause := 1, vectors := f.vectors ++ [1] }) ∧
      (mayWrite s m fn → f.ready = true → (v % 2 ^ 32 + 2 ^ 32 - f.lqHead) % 2 ^ 32 ≤ 2 ^ f.lqLog2 →
        runs (.launchDoorbell a v) s fun t => funcStep s t fn { f with lqTail := v % 2 ^ 32 })) ∧
    ((f.lqEn = false ∨ f.lqHead = f.lqTail ∨ f.seqx = true) → waits (.ringEntryConsume fn) s) ∧
    (f.lqEn = true → f.lqHead ≠ f.lqTail → f.seqx = false →
      let entry := deviceRead s fn (f.lqbase.toNat + 192 * (f.lqHead % 2 ^ f.lqLog2)) 192
      (∀ s1, entry = .lost s1 → runs (.ringEntryConsume fn) s fun t => funcStep s1 t fn
        { f with qerr := true, qcause := 2, lqEn := false, vectors := f.vectors ++ [1] }) ∧
      (∀ t, entry = .wait t → exec (.ringEntryConsume fn) s = .next t) ∧
      (∀ s1 b bad, entry = .ok s1 b bad → runs (.ringEntryConsume fn) s fun t => ∃ (q : Launch) (f' : Func),
        q.id = BitVec.ofNat 64 ((parseRec b).tag * 2 ^ 48 + 2 ^ 47 + f.hostSeq) ∧ q.fn = fn ∧ q.dev = false ∧
        q.st = .queued ∧ q.lrec = parseRec b ∧
        { f' with seqx := f.seqx, vectors := f.vectors } =
          { f with hostSeq := f.hostSeq + 1, lqHead := (f.lqHead + 1) % 2 ^ 32 } ∧
        (f.hostSeq + 1 < 2 ^ 47 → f'.seqx = false ∧ f'.vectors = f.vectors) ∧
        (2 ^ 47 ≤ f.hostSeq + 1 → f'.seqx = true ∧ f'.vectors = f.vectors ++ [1]) ∧
        t = { s1 with launches := fput s1.launches s1.next q, next := s1.next + 1,
                      funcs := fput s.funcs fn f' }))

/-- R223 to R225: a queued launch whose record breaks a check is refused with the check's cause; one whose
prerequisites have not all ended with STATE 1 waits, or is refused with 20.7; otherwise the next by priority and order
is admitted under its function's descriptor with its gate table. -/
def Sys2Proof.Claims.LaunchAdmission : Prop :=
  ∀ (s : State) (n : Nat) (l : Launch) (f : Func), fget s.launches n = some l → l.st = .queued →
    fget s.funcs l.fn = some f → f.clr = false →
    let fault := admissionFault s l
    let first := ∀ m x, fget s.launches m = some x → x.fn = l.fn → x.st = .queued →
      (∀ p ∈ prereqs s x, p.st = .ended) → admissionFault s x = none →
      x.lrec.prio < l.lrec.prio ∨ (x.lrec.prio = l.lrec.prio ∧ l.sub ≤ x.sub)
    (∀ c, fault = some c → exec (.launchAdmission n) s = .next { s with
      launches := fput s.launches n { l with st := .refused, cause := c } }) ∧
    (fault = none → (∃ p ∈ prereqs s l, p.st = .queued ∨ p.st = .admitted) → waits (.launchAdmission n) s) ∧
    (fault = none → (∀ p ∈ prereqs s l, p.st ≠ .queued ∧ p.st ≠ .admitted) → (∃ p ∈ prereqs s l, p.st ≠ .ended) →
      exec (.launchAdmission n) s = .next { s with
        launches := fput s.launches n { l with st := .refused, cause := 0x147 } }) ∧
    (fault = none → (∀ p ∈ prereqs s l, p.st = .ended) → rising s.launches = true → first →
      runs (.launchAdmission n) s fun t => ∃ l', fget t.launches n = some l' ∧ l'.st = .admitted ∧ l'.xd = f.xd ∧
        l'.gate = gateOf s f.part l.lrec ∧ l'.placedN = [0, 0, 0, 0] ∧
        l'.tadm = (guestTime s f).toNat ∧ l'.lrec = l.lrec ∧ l'.id = l.id ∧ l'.fn = l.fn ∧
        (∀ m, m ≠ n → fget t.launches m = fget s.launches m) ∧ t.mem = s.mem ∧ t.warps = s.warps)

/-- R223 to R225, R322: launches from the ring to their admission. What the spec leaves open here is the model's
choice: log entry 50. -/
def Obligations.Launches : Prop := LaunchRing ∧ LaunchAdmission

/-- R222, R227, R228, R38: the first waiting block of a launch that heads the dispatch order is placed on the pair that
takes it, with its warps at the kernel entry on alternating cores and its creation header in its slot, where that lies on
this module; a block whose save is ready is written to its image and leaves the pair; a completion record is written with its bytes and vector 0. -/
def Sys2Proof.Claims.BlockEvents : Prop :=
  ∀ (s : State) (n : Nat) (l : Launch), fget s.launches n = some l →
    (∀ die pair i r rest, misfit s die = none → dispatchOrder s = (n, l) :: rest → l.lrec.gang = false →
      waitingOf s l die = .fresh i :: r → (∀ x ∈ r, ∃ j, x = .fresh j) →
      choosePair s (partOf s l.fn) die { r := l.lrec, image := imageNeed l.lrec, banks := [] } = some pair →
      runs (.blockPlacement die) s fun t =>
        (∃ k, fget t.blocks s.next = some k ∧ k.launch = n ∧ k.index = i ∧ k.die = die ∧ k.pair = pair ∧
          k.placed = true ∧ k.sp = [] ∧ k.bars = [] ∧ k.recs = []) ∧
        (∀ j, j < l.lrec.bwarps → ∃ w, fget t.warps (s.next + 1 + j) = some w ∧
          (w.st = .ready ∨ (w.st = .parked ∧ w.unborn = true)) ∧ w.fn = l.fn ∧
          w.launch = n ∧ w.block = s.next ∧ w.idx = j ∧ w.gwi = i * l.lrec.bwarps + j ∧ w.die = die ∧
          w.core = 2 * pair + j % 2 ∧ w.a.live = true ∧ w.a.pc = BitVec.ofNat 64 l.lrec.entry ∧
          w.a.lbase = BitVec.ofNat 64 l.lrec.lbase ∧ w.a.priv = 0 ∧ w.a.x = [] ∧ w.b.live = false ∧
          w.div = false ∧ w.regs = [] ∧
          w.a.k0 = if j = l.lrec.bwarps - 1 ∧ l.lrec.lastmask ≠ 0 then BitVec.ofNat 32 l.lrec.lastmask
            else BitVec.allOnes 32) ∧
        fget t.launches n = some { l with placedN := setAt l.placedN die (l.placedN.getD die 0 + 1) } ∧
        ∀ a, l.lrec.bwarps = 1 →
          (∀ v : Warp, v.kind = .kernel → v.launch = n → v.fn = l.fn → v.die = die → v.core = 2 * pair →
            ctxXlate s v .write (l.lrec.ctxb + i * slotSize l.lrec.vregs) = .ok a) → isLocal a = true →
          rdLe t.mem a 8 = l.lrec.tag % 2 ^ 16 * 2 ^ 16 ∧ rdLe t.mem (a + 8) 8 = l.lrec.entry % 2 ^ 64 ∧
          ∃ w, fget t.warps (s.next + 1) = some w ∧ w.unborn = false ∧ w.st = .ready ∧
            rdLe t.mem (a + 0x18) 8 = w.wmode.toNat) ∧
    (∀ b k s1 t1, fget s.blocks b = some k → k.saving = true → k.launch = n →
      s1 = (blockWarps s b).foldl (fun t e => closeSp (settleWarp t e.1) e.1) s → saveReady s1 b = true →
      (∀ e ∈ blockWarps s1 b, writeBackWaits s1 e.1 = false) → writeWarps s1 (blockWarps s1 b) = .ok t1 →
      ∀ k1, fget t1.blocks b = some k1 →
      runs (.blockSaveComplete b) s fun t => t.mem = t1.mem ∧ (∀ m x, fget t.banks m = some x → x.block ≠ b) ∧
        (∃ k' img, fget t.blocks b = some k' ∧ k'.placed = false ∧ k'.saving = false ∧ k'.img = some img ∧
          img.vdie = k1.die ∧ k'.sp = k1.sp ∧ k'.bars = k1.bars ∧ k'.recs = k1.recs) ∧
        ∀ u w, fget s1.warps u = some w → w.block = b → w.kind = .kernel → w.st ≠ .ended →
          ∃ w', fget t.warps u = some w' ∧ w'.st = .saved ∧ w'.saving = false ∧ w'.a = w.a ∧ w'.b = w.b) ∧
    (∀ a f, l.recWritten = false → l.recWaits = false → fget s.funcs l.fn = some f → isLocal a = true →
      (l.st = .purged ∨ (l.st = .admitted ∧ l.endedN = gridSize l.lrec)) →
      translate s { deviceReq s l.fn .write with d := l.xd } l.lrec.done = .ok a →
      runs (.launchCompletionRecord n) s fun t =>
        t.mem = wrBytes s.mem a (leBytes 8 l.id.toNat ++ leBytes 2 (if l.st = .purged then 3 else 1) ++
          leBytes 2 (if l.st = .purged then l.cause else 0) ++ leBytes 4 l.endedN ++ leBytes 8 l.tadm ++
          leBytes 8 (guestTime s f).toNat ++ List.replicate 32 0) ∧
        (fget t.launches n).map (·.recWritten) = some true ∧
        (fget t.funcs l.fn).map (·.vectors) = some (f.vectors ++ [0]) ∧ t.warps = s.warps)

/-- R364, R414: a purge ends every queued or admitted launch of one (function, request tag) with STATE 3 and its
cause, with their warps and blocks; the other launches and their warps stay. A completion record remains to be written, but for
21.0 and 21.1. A code that R354 does not assign is no cause of a purge. -/
def Sys2Proof.Claims.PurgeEvent : Prop :=
  ∀ (s : State) (fn tag cause : Nat), tablesRising s = true →
    let hit := fun n => ∃ l, fget s.launches n = some l ∧ l.fn = fn ∧ l.lrec.tag = tag ∧
      (l.st = .queued ∨ l.st = .admitted)
    (causeAssigned cause = false → waits (.purge fn tag cause) s) ∧
    (causeAssigned cause = true → runs (.purge fn tag cause) s fun t =>
      (∀ n l, fget s.launches n = some l → (hit n → ∃ l', fget t.launches n = some l' ∧ l'.st = .purged ∧
        l'.cause = cause ∧ l'.recWritten = decide (cause = 0x150 ∨ cause = 0x151) ∧ l'.endedN = l.endedN ∧ l'.id = l.id) ∧
        (¬hit n → fget t.launches n = some l)) ∧
      (∀ u w, fget s.warps u = some w → fget t.warps u = if w.kind = .kernel ∧ (∃ l, fget s.launches w.launch = some l ∧
        l.fn = fn ∧ l.lrec.tag = tag ∧ (l.st = .queued ∨ l.st = .admitted)) then none else some w) ∧
      (∀ b k, fget t.blocks b = some k → ¬hit k.launch) ∧ t.funcs = s.funcs ∧ t.next = s.next ∧
      ∀ o ∈ t.ops, ∀ w, fget s.warps o.warp = some w → w.kind = .kernel → ¬hit w.launch)

/-- R225 to R228, R356, R414: the placing, saving and ending of blocks and launches. What the spec leaves open here
is the model's choice: log entry 47. -/
def Obligations.BlocksAndPurge : Prop := BlockEvents ∧ PurgeEvent

/-! ## The events of fault queues, pages and the host interface -/

/-- R344, R345, R350, R194: the oldest waiting record is written whole into its own free entry, with vector 2, or
FSTAT takes FQERR with vector 1; a valid retry makes the parked warp READY again, a valid purge ends its launch, and
either frees the entry; a count that reaches its threshold becomes one proposal in an epoch. What the spec leaves
open here is the model's choice: log entries 52, 53 and 124. -/
def Obligations.FaultQueues : Prop :=
  ∀ (s : State) (fn : Nat) (f : Func), fget s.funcs fn = some f →
    ((f.fqWait = [] ∨ f.fqerr = true) → waits (.faultRecordWrite fn) s) ∧
    (∀ r rest a, f.fqWait = r :: rest → f.fqerr = false → fqAddr s fn f .write (recOffset f.fqNext) = .ok a →
      isLocal a = true →
      (poisonedIn s.pois a 64 = true → runs (.faultRecordWrite fn) s fun t =>
        funcStep s t fn { f with fqerr := true, vectors := f.vectors ++ [1] }) ∧
      (poisonedIn s.pois a 64 = false → rdLe s.mem a 8 ≠ 0 → waits (.faultRecordWrite fn) s) ∧
      (poisonedIn s.pois a 64 = false → rdLe s.mem a 8 = 0 → runs (.faultRecordWrite fn) s fun t =>
        funcStep { s with mem := wrBytes s.mem a (recBytes f.fqNext r) } t fn { f with
          fqWait := rest, fqNext := f.fqNext + 1, fqOut := f.fqOut ++ [(f.fqNext, r)],
          vectors := f.vectors ++ [2] })) ∧
    (∀ r rest x, f.fqWait = r :: rest → f.fqerr = false → fqAddr s fn f .write (recOffset f.fqNext) = .fault x →
      (fn = 0 ∨ x.cause / 16 ≠ 7) → runs (.faultRecordWrite fn) s fun t =>
        funcStep s t fn { f with fqerr := true, vectors := f.vectors ++ [1] }) ∧
    (∀ a m, names a m fn →
      (m ≠ 0 → isOwner s m = false → exec (.fqerrClear a) s = .next (dropMaster s m)) ∧
      (mayWrite s m fn → runs (.fqerrClear a) s fun t => funcStep s t fn { f with fqerr := false })) ∧
    (∀ n r a entry, f.fqOut.find? (fun e => recOffset e.1 = 64 * entry) = some (n, r) →
      fqAddr s fn f .write (64 * entry) = .ok a → isLocal a = true →
      let resp := rdLe s.mem (a + 0x38) 8
      let mark := fld resp 63 8
      let valid := (resp % 4 = 1 ∨ resp % 4 = 2) ∧ fld resp 7 2 = 0 ∧
        (mark = 0 ∨ (r.cause = 0x132 ∧ r.orig / 16 = 9))
      let freed := fun t : State => rdLe t.mem a 8 = 0 ∧
        (fget t.funcs fn).map (·.fqOut) = some (f.fqOut.filter fun e => e.1 ≠ n)
      ∀ u, r.subj = .warp u →
        (fget s.warps u = none → r.cause ≠ 0x132 → r.cause ≠ 0x139 →
          runs (.faultResponse fn entry) s fun t => freed t ∧
          ∀ m l, fget s.launches m = some l → l.fn = r.fn → l.lrec.tag = r.tag → launchOpen l = true →
            ∃ l', fget t.launches m = some l' ∧ l'.st = .purged ∧ l'.cause = r.cause) ∧
        (∀ w, fget s.warps u = some w → w.kind = .kernel →
          (¬valid → waits (.faultResponse fn entry) s) ∧
          (valid → resp % 4 = 1 → r.cause ≠ 0x132 → w.st = .parked → w.reload = false →
            runs (.faultResponse fn entry) s fun t => freed t ∧ fget t.warps u = some { w with st := .ready, parkCtx := false }) ∧
          (valid → resp % 4 = 1 → r.cause = 0x132 → w.st = .parked → w.reload = false →
            runs (.faultResponse fn entry) s fun t => freed t ∧ fget t.warps u = some
              { w.modPath w.dblPath fun p => { p with pc := r.pc } with
                st := .ready, parkCtx := false, hwm := max w.hwm (mark * 256) }) ∧
          (valid → resp % 4 = 2 → r.cause ≠ 0x132 → r.cause ≠ 0x139 →
            runs (.faultResponse fn entry) s fun t => freed t ∧ purgedFor s t u w r.cause))) ∧
    (∀ port part page src c, fn = 0 →
      s.mgmt.hot.find? (fun d => d.port = port && d.part = part && d.page = page && d.src = src) = some c →
      let told := hotKey port part page src ∈ s.mgmt.hotTold
      ((told ∨ c.reads + c.writes < Config.hotThreshold) → waits (.hotnessProposal port part page src) s) ∧
      (¬told → Config.hotThreshold ≤ c.reads + c.writes →
        runs (.hotnessProposal port part page src) s fun t => ∃ r : FRec, r.cause = 0 ∧ r.flags = 4 ∧
          r.addr = BitVec.ofNat 64 (page * 2 ^ 21) ∧
          r.data = BitVec.ofNat 64 (c.reads + c.writes * 2 ^ 32 + src * 2 ^ 48) ∧
          fget t.funcs 0 = some { f with fqWait := f.fqWait ++ [r] } ∧
          t.mgmt = { s.mgmt with hotTold := hotKey port part page src :: s.mgmt.hotTold })) ∧
    (∀ port, exec (.hotnessEpoch port) s = .next { s with mgmt := { s.mgmt with
      hot := s.mgmt.hot.filter fun c => c.port ≠ port,
      hotTold := s.mgmt.hotTold.filter fun k => k.head? ≠ some port } })

/-- R340, R351: MOVE turns every leaf of the page to its new home with no part present, copies part after part, and ends with
RV clear and DONE 1; DUP copies a page that no leaf maps writable to another die of the package and sets DUP, by packets where
its home is on another module; a request that cannot be met gets DONE 2; either waits while a table of another module is read. What the spec leaves open here is the model's choice: log entries 55, 57, 91. -/
def Obligations.PageMoves : Prop :=
  ∀ (s : State) (fn entry : Nat) (q : HostReq), memWf s.mem = true → isLocal (q.addr + 0x38) = true →
    (reqWaits s fn q = true → (hostReq s fn entry 1 = some q → waits (.move fn entry) s) ∧
      (hostReq s fn entry 2 = some q → waits (.dup fn entry) s)) ∧
    (hostReq s fn entry 1 = some q → reqWaits s fn q = false →
      (∀ leaf src dst, (∀ j ∈ s.mgmt.moves, ¬(j.fn = fn ∧ j.entry = entry)) →
        reqLeaf s fn q.va = some leaf →
        let l := readLeaf s leaf
        leafPage s fn l.kind l.home = some src → leafPage s fn l.kind q.target = some dst →
        let ls := leavesNaming s fn leaf src
        let may := movable l = true ∧ targetOk s fn l q.target = true ∧ src ≠ dst
        (¬may → runs (.move fn entry) s fun t => reqEnded s t q 2) ∧
        (may → (∀ b ∈ ls, isLocal b = true ∧ isLocal (b + 8) = true) → (∀ b ∈ ls, ∀ c ∈ ls, b ≠ c → apart b 16 c 16) →
          runs (.move fn entry) s fun t =>
          (∀ b ∈ ls, let k := readLeaf s b
            readLeaf t b = leafUndup (leafRv (leafRes (leafHomed k k.kind q.target) 0) true k.home)) ∧
          t.mgmt.moves = s.mgmt.moves ++ [{ fn := fn, entry := entry, src := src, dst := dst, todo := List.range 32,
                                            sent := false, leaves := ls.map fun b => (b, (readLeaf s b).res) }] ∧
          (∀ d ∈ t.mgmt.dups, d.1 ≠ src) ∧ t.warps = s.warps)) ∧
      (∀ j n r, s.mgmt.moves.find? (fun j => j.fn = fn && j.entry = entry) = some j → j.todo = n :: r →
        let a := j.src + 65536 * n
        let b := j.dst + 65536 * n
        isLocal j.src = true → isLocal j.dst = true → isLocal a = true → (∀ e ∈ j.leaves, isLocal e.1 = true) →
        apart a 65536 b 65536 → (∀ e ∈ j.leaves, apart e.1 16 a 65536 ∧ apart e.1 16 b 65536) →
        runs (.move fn entry) s fun t => { j with todo := r } ∈ t.mgmt.moves ∧ t.warps = s.warps ∧
          ∀ i, i < 65536 → rdByte t.mem (b + i) = rdByte s.mem (a + i) ∧
            rdByte t.mem (a + i) = if fn = 0 then 0 else rdByte s.mem (a + i)) ∧
      (∀ j, s.mgmt.moves.find? (fun j => j.fn = fn && j.entry = entry) = some j → j.todo = [] →
        (∀ e ∈ j.leaves, isLocal e.1 = true) → runs (.move fn entry) s fun t => reqDone t q ∧ t.warps = s.warps ∧
          ∀ k ∈ t.mgmt.moves, ¬(k.fn = fn ∧ k.entry = entry))) ∧
    (hostReq s fn entry 2 = some q → reqWaits s fn q = false →
      (∀ j ∈ s.mgmt.copies, ¬(j.fn = fn ∧ j.entry = 64 + entry)) → (∀ leaf src dst, reqLeaf s fn q.va = some leaf →
      let l := readLeaf s leaf
      leafPage s fn l.kind l.home = some src → leafPage s fn l.kind q.target = some dst →
      let ls := leavesNaming s fn leaf src
      let may := movable l = true ∧ targetOk s fn l q.target = true ∧ homeModule src = homeModule dst ∧
        homeDie src ≠ homeDie dst ∧ pageWritable s src = false
      (¬may → runs (.dup fn entry) s fun t => reqEnded s t q 2) ∧
      (may → isLocal src = false → exec (.dup fn entry) s = .next { s with mgmt := { s.mgmt with copies := s.mgmt.copies ++
        [{ fn := fn, entry := 64 + entry, leaves := [], src := src, dst := dst, todo := List.range 32, sent := false }] } }) ∧
      (may → isLocal src = true → apart src (2 ^ 21) dst (2 ^ 21) → (∀ b ∈ ls, isLocal b = true ∧ apart b 16 dst (2 ^ 21)) →
        apart q.addr 64 dst (2 ^ 21) → runs (.dup fn entry) s fun t => reqDone t q ∧ t.warps = s.warps ∧
          (src, dst) ∈ t.mgmt.dups ∧
          ∀ i, i < 2 ^ 21 → rdByte t.mem (dst + i) = rdByte s.mem (src + i)))) ∧
    (reqLeaf s fn q.va = none → reqWaits s fn q = false →
      (hostReq s fn entry 1 = some q → (∀ j ∈ s.mgmt.moves, ¬(j.fn = fn ∧ j.entry = entry)) →
        runs (.move fn entry) s fun t => reqEnded s t q 2) ∧
      (hostReq s fn entry 2 = some q → (∀ j ∈ s.mgmt.copies, ¬(j.fn = fn ∧ j.entry = 64 + entry)) → runs (.dup fn entry) s fun t => reqEnded s t q 2))

/-- R352, R353, R271, R329 to R331, R335, R401: EVICT makes a shared page MOVING, drops it here and asks the other
modules by packets of class 3; when all have answered and no access is left, its bytes are in host memory and DONE
is 1. SHOOT drops every translation and L1 line of a page, waiting for the accesses to it; SETXD writes a
descriptor; freed pages are zeroed. What the spec leaves open here is the model's choice: log entries 55, 57, 59, 92
and 117. -/
def Obligations.SharedPages : Prop :=
  ∀ (s : State),
    (∀ fn entry q leaf home, hostReq s fn entry 3 = some q → isLocal (q.addr + 0x38) = true →
      reqWaits s fn q = false → reqLeaf s fn q.va = some leaf →
      (∀ j ∈ s.mgmt.evicts, ¬(j.fn = fn ∧ j.entry = entry)) →
      let l := readLeaf s leaf
      leafPage s fn l.kind l.home = some home →
      (l.sh = 3 → waits (.evict fn entry) s) ∧
      ((l.sh = 0 ∨ l.sh = 2 ∨ (l.sh = 1 ∧ movable l = false)) →
        runs (.evict fn entry) s fun t => reqEnded s t q 2) ∧
      (l.sh = 1 → movable l = true → isLocal leaf = true → isLocal (leaf + 8) = true → runs (.evict fn entry) s fun t =>
        readLeaf t leaf = leafUndup (leafSh l 3) ∧ (∀ d ∈ t.mgmt.dups, d.1 ≠ home) ∧
        (∀ e ∈ t.cores.tlb, e.home ≠ home) ∧
        (∀ x ∈ partModules s (partOf s fn), (routeNow s (partOf s fn) x).isSome = true →
          s.fabric.bobbin.length + (partModules s (partOf s fn)).length ≤ bobbinSize →
          (∀ e ∈ s.fabric.bobbin, e.lanes ≠ 6) →
          ∃ e ∈ t.fabric.bobbin, e.pkt.cls = 3 ∧ e.pkt.dst = x ∧ e.pkt.addr = home) ∧
        t.mgmt.evicts = s.mgmt.evicts ++ [{ fn := fn, entry := entry, leaf := leaf, home := home, bus := q.target,
                                            waits := partModules s (partOf s fn) }])) ∧
    (∀ fn entry q j, memWf s.mem = true → hostReq s fn entry 3 = some q → isLocal (q.addr + 0x38) = true →
      reqWaits s fn q = false → s.mgmt.evicts.find? (fun j => j.fn = fn && j.entry = entry) = some j →
      let dst := hostBase + j.bus / 2 ^ 21 * 2 ^ 21
      (j.waits = [] → pageBusy s j.home = true → waits (.evict fn entry) s) ∧
      (j.waits ≠ [] → runs (.evict fn entry) s fun t => t.mgmt = s.mgmt ∧ t.mem = s.mem ∧ t.launches = s.launches) ∧
      (j.waits = [] → pageBusy s j.home = false → isLocal j.home = true → apart j.home (2 ^ 21) dst (2 ^ 21) →
        apart j.leaf 16 dst (2 ^ 21) → apart (homeLeaf s fn j.leaf) 16 dst (2 ^ 21) →
        apart q.addr 64 dst (2 ^ 21) →
        runs (.evict fn entry) s fun t => reqDone t q ∧ (∀ k ∈ t.mgmt.evicts, ¬(k.fn = fn ∧ k.entry = entry)) ∧
          fget t.mgmt.kept j.leaf = some j.home ∧
          (∀ e ∈ t.cores.tlb, e.home ≠ j.home) ∧
          (∀ l ∈ t.cores.l1, ¬(j.home ≤ 128 * l.line ∧ 128 * l.line < j.home + 2 ^ 21)) ∧
          (fn = 0 → isLocal j.leaf = true → isLocal (j.leaf + 8) = true → apart q.addr 64 j.leaf 16 → let l := readLeaf s j.leaf
            readLeaf t j.leaf = leafSh (leafRv (leafRes (leafHomed l 2 (homeField dst)) (2 ^ 32 - 1)) false 0) 2) ∧
          ∀ i, i < 2 ^ 21 → rdByte t.mem (dst + i) = rdByte s.mem (j.home + i))) ∧
    (∀ src home, src ≠ Config.moduleNo →
      (pageBusy s home = true → waits (.shoot src home) s) ∧
      (pageBusy s home = false → runs (.shoot src home) s fun t =>
        t = { s with cores := { s.cores with tlb := t.cores.tlb, l1 := t.cores.l1 } } ∧
        (∀ e, e ∈ t.cores.tlb ↔ e ∈ s.cores.tlb ∧ e.home ≠ home) ∧
        ∀ l, l ∈ t.cores.l1 ↔ l ∈ s.cores.l1 ∧ ¬(home ≤ 128 * l.line ∧ 128 * l.line < home + 2 ^ 21))) ∧
    (∀ module home, runs (.shootAnswer module home) s fun t => t.mem = s.mem ∧ t.launches = s.launches ∧
      (∀ e ∈ t.fabric.bobbin, ¬(e.lanes = 6 ∧ e.op = none ∧ e.pkt.dst = module ∧ e.pkt.addr = home)) ∧
      t.mgmt = { s.mgmt with evicts := s.mgmt.evicts.map fun j =>
        if j.home = home then { j with waits := j.waits.filter (· ≠ module) } else j }) ∧
    (∀ requester target d f, fget s.funcs target = some f →
      (requester = 0 → runs (.setxd requester target d) s fun t => funcStep s t target { f with xd :=
        { s1root := d.s1root, asid := d.asid % 2 ^ 16, vmid := d.vmid % 2 ^ 16, s2root := d.s2root } }) ∧
      (requester ≠ 0 → requester = target → runs (.setxd requester target d) s fun t => funcStep s t target
        { f with xd := { f.xd with s1root := d.s1root, asid := d.asid % 2 ^ 16 } }) ∧
      (requester ≠ 0 → requester ≠ target → waits (.setxd requester target d) s)) ∧
    (runs .freedPageZeroed s fun t => t.mgmt.freed = [] ∧ t.mgmt.zpend = false ∧ t.warps = s.warps ∧
      (∀ p ∈ s.mgmt.freed, (∀ e ∈ t.cores.tlb, e.home ≠ p) ∧
        ∀ l ∈ t.cores.l1, ¬(p ≤ 128 * l.line ∧ 128 * l.line < p + 2 ^ 21)) ∧
      ∀ a, rdByte t.mem a = if ∃ p ∈ s.mgmt.freed, p ≤ a ∧ a < p + 2 ^ 21 then 0 else rdByte s.mem a)

/-- R323 to R326: the table of OWNCTL: what each command of a master does to the ownership and to the open offer,
and its LAST; an unknown command sets LAST to 3; a lapse ends ownership with vector 3, and a timeout the offer. What
the spec leaves open here is the model's choice: log entry 65. -/
def Obligations.OwnerCommands : Prop :=
  ∀ (s : State) (m : Nat), 1 ≤ m → m ≤ 3 →
    let o := s.mgmt.own
    let x := fgetD Master.reset o.masters m
    let ran := fun (i : Instr) (cmd : Nat) (o' : Own) (last : Nat) => runs i s fun t => ownerRan s t m cmd o' x last
    (o.owner = 0 → ran (.ownerClaim m) 1 { o with owner := m, offer := none } 0) ∧
    (o.owner = m → ran (.ownerClaim m) 1 o 0) ∧ (o.owner ≠ 0 → o.owner ≠ m → ran (.ownerClaim m) 1 o 1) ∧
    (o.owner = m → ran (.ownerRelease m) 2 { o with owner := 0, offer := none } 0) ∧
    (o.owner ≠ m → ran (.ownerRelease m) 2 o 2) ∧
    (∀ n, let o1 := { o with target := n % 4 }
      let offered := fun (o' : Own) (last : Nat) => ran (.ownerOffer m n) 3 o' last
      (o.owner ≠ m → offered o 2) ∧ (o.owner = m → o.offer ≠ none → offered o1 1) ∧
      (o.owner = m → o.offer = none → (n = 0 ∨ 3 < n ∨ n = m) → offered o1 3) ∧
      (o.owner = m → o.offer = none → 1 ≤ n → n ≤ 3 → n ≠ m → offered { o1 with offer := some n } 0)) ∧
    (o.offer = some m → ran (.ownerAccept m) 4 { o with owner := m, offer := none } 0) ∧
    (∀ n, o.offer = some n → n ≠ m → ran (.ownerAccept m) 4 o 1) ∧
    (o.offer = none → ran (.ownerAccept m) 4 o (if o.owner = m then 3 else 2)) ∧
    (o.owner ≠ m → ran (.ownerWithdraw m) 5 o 2) ∧
    (o.owner = m → o.offer ≠ none → ran (.ownerWithdraw m) 5 { o with offer := none } 0) ∧
    (o.owner = m → o.offer = none → ran (.ownerWithdraw m) 5 o 3) ∧
    ran (.ownerBeat m) 6 o (if o.owner = m then 0 else 2) ∧
    (∀ cmd, (cmd % 16 = 0 ∨ 6 < cmd % 16) → ran (.ownerInvalidCmd m cmd) (cmd % 16) o 3) ∧
    (o.owner = 0 → waits .ownerLapse s) ∧
    (∀ f, o.owner ≠ 0 → fget s.funcs 0 = some f → runs .ownerLapse s fun t =>
      t = { s with mgmt := { s.mgmt with own := { o with owner := 0, offer := none } },
                   funcs := fput s.funcs 0 { f with vectors := f.vectors ++ [3] } }) ∧
    (runs .offerTimeout s fun t => t = { s with mgmt := { s.mgmt with own := { o with offer := none } } })

/-- R327, R328, R369, R371: what a cold start, the loss of power and a warm start leave. Host memory and the array
record stores stay over a cold start and a power loss; LPDDR and the owner stay over a warm start. What the spec
leaves open here is the model's choice: log entries 1, 6, 8, 58 and 95. -/
def Obligations.Starts : Prop :=
  ∀ (s : State),
    let empty := fun t : State => t.warps = [] ∧ t.blocks = [] ∧ t.banks = [] ∧ t.ops = [] ∧ t.launches = []
    let off := fun t : State => empty t ∧ t.power = State.reset.power ∧ t.fabric = State.reset.fabric ∧
      t.parts = State.reset.parts ∧ t.mgmt = State.reset.mgmt ∧ t.bind = State.reset.bind ∧
      ∀ a, rdByte t.mem a = if 2 ^ 64 ≤ a then rdByte s.mem a else 0
    (runs .coldStart s fun t => off t ∧ t.funcs = State.reset.funcs ∧
      ∀ n r, fget s.arrays.regions n = some r →
        let open' := ∃ j ∈ journalOf s r.site, j.region = n ∧ (j.phase = 1 ∨ j.phase = 2)
        let bad := ∃ e ∈ r.tiles, 4 ≤ e.2.tries ∨ fgetD [] s.arrays.digests (65536 * n + e.1) ≠ tileDigest e.2
        (fget t.arrays.regions n).map (·.st) = some (if open' ∨ bad then .damaged else .calibrating)) ∧
    (runs .powerLoss s fun t => off t ∧ t.arrays = { s.arrays with queue := [], status := none, handle := none } ∧
      ∀ n f, fget t.funcs n = some f → f.enabled = false ∧ f.ready = false) ∧
    (runs .warmStart s fun t => empty t ∧ t.fabric.down = [] ∧
      t.mgmt.own = { owner := s.mgmt.own.owner, offer := none, target := 0, masters := [] } ∧
      t.mgmt.vfEnable = false ∧ t.mgmt.vfBusy = [] ∧ t.cores.l1 = [] ∧ t.cores.tlb = [] ∧
      (∀ d r, fget s.fabric.routes d = some r → ∃ r', fget t.fabric.routes d = some r' ∧
        { r' with cur := r.cur, failed := r.failed } = r ∧ r'.failed = [] ∧
        r'.cur = if r.pv then 0 else if r.a1v then 1 else if r.a2v then 2 else 3) ∧
      (∀ n f, fget s.funcs n = some f → ∃ f', fget t.funcs n = some f' ∧ f'.lqEn = false ∧ f'.hvec = 0 ∧
        f'.lqbase = 0 ∧ f'.lqHead = 0 ∧ f'.lqTail = 0 ∧ f'.qerr = false ∧ f'.qcause = 0 ∧ f'.gterr = false ∧
        f'.seqx = false ∧ f'.fqerr = false ∧ f'.gtLast = 0 ∧ f'.grants = [] ∧
        (n ≠ 0 → f'.enabled = false ∧ f'.ready = false)) ∧
      (s.ops = [] → ∀ a, rdByte t.mem a = if 2 ^ 48 ≤ a ∧ a < 2 ^ 64 then 0 else rdByte s.mem a))

/-- R329, R330, R332 to R334, R10, R321: a VF that is cleared loses its launches, its warps and its registers, and
is BUSY until the clear is complete; the clear of the last one raises vector 3. GTCTL applies a pair that does not
turn guest time back, and stops and resumes it; the registers take writes under their access codes. A write names its
master, or a function's own driver, in the bits above the function number (R323). -/
def Sys2Proof.Claims.FunctionClears : Prop :=
  ∀ (s : State) (fn : Nat) (f : Func), fget s.funcs fn = some f →
    (s.mgmt.vfEnable = false → waits .vfEnableClear s) ∧
    (s.mgmt.vfEnable = true → rising s.funcs = true → runs .vfEnableClear s fun t => t.mgmt.vfEnable = false ∧
      (fn ≠ 0 → f.enabled = true → fn ∈ t.mgmt.vfBusy ∧
        ∃ f', fget t.funcs fn = some f' ∧ f'.enabled = false ∧ f'.ready = false)) ∧
    (f.enabled = false → waits (.flr fn) s) ∧
    (fn = 0 → f.enabled = true → runs (.flr 0) s fun t => (∀ n l, fget t.launches n = some l → l.fn ≠ 0) ∧
      ∃ f', fget t.funcs 0 = some f' ∧ f'.hostSeq = 0 ∧ f'.devSeq = 1 ∧ f'.seqx = false ∧ f'.lqEn = false ∧
        f'.lqHead = 0 ∧ f'.lqTail = 0 ∧ f'.enabled = true) ∧
    (fn ≠ 0 → f.enabled = true → fn ∉ s.mgmt.vfBusy → tablesRising s = true → runs (.flr fn) s fun t =>
      fget t.funcs fn = some { resetFunc f with clr := true } ∧ fn ∈ t.mgmt.vfBusy ∧
      (∀ p ∈ ownPages s fn, p ∈ t.mgmt.freed) ∧ (∀ n l, fget t.launches n = some l → l.fn ≠ fn) ∧
      ∀ u w l, fget s.warps u = some w → w.kind = .kernel → fget s.launches w.launch = some l → l.fn = fn →
        (l.st = .queued ∨ l.st = .admitted) → fget t.warps u = none) ∧
    (fn ∉ s.mgmt.vfBusy → waits (.vfClearComplete fn) s) ∧
    (∀ pfn, fn ≠ 0 → fn ∈ s.mgmt.vfBusy → fget s.funcs 0 = some pfn → runs (.vfClearComplete fn) s fun t =>
      t.mgmt.vfBusy = s.mgmt.vfBusy.filter (· ≠ fn) ∧
      fget t.funcs fn = some { f with clr := false, grants := [] } ∧
      (fget t.funcs 0).map (·.vectors) =
        some (if t.mgmt.vfBusy = [] then pfn.vectors ++ [3] else pfn.vectors)) ∧
    (∀ a m, names a m fn → isOwner s m = false →
      (runs (.gtctlApply a) s fun t => t = dropMaster s m) ∧
      ∀ stop, runs (.gtctlStop a stop) s fun t => t = dropMaster s m) ∧
    (∀ a m, names a m fn → isOwner s m = true →
      let n : Nat := s.mgmt.tb * f.newMul.toNat / 2 ^ 32
      (∀ pfn, f.newOff.toInt + n < f.gtLast.toNat → fget s.funcs 0 = some pfn →
        runs (.gtctlApply a) s fun t => funcStep s t 0 { pfn with gterr := true }) ∧
      ((f.gtLast.toNat : Int) ≤ f.newOff.toInt + n → runs (.gtctlApply a) s fun t => funcStep s t fn
        { f with gtOff := f.newOff, gtMul := f.newMul, gtFrozen := f.newOff + BitVec.ofNat 64 n }) ∧
      (f.gtStop = false → runs (.gtctlStop a true) s fun t => funcStep s t fn
        { f with gtFrozen := guestTime s f, gtStop := true }) ∧
      (f.gtStop = true → f.gtMode = true → runs (.gtctlStop a false) s fun t => ∃ f', funcStep s t fn f' ∧
        f'.gtStop = false ∧ guestTime t f' = guestTime s f)) ∧
    (∀ a m offset v, names a m fn → (fn = 0 → offset ≠ 2 ^ 16) →
      (¬takesWrites f → waits (.registerWrite a offset v) s) ∧
      (takesWrites f → m ≠ 0 → isOwner s m = false → (fn = 0 → offset ≠ 0x100) →
        runs (.registerWrite a offset v) s fun t => t = dropMaster s m)) ∧
    (∀ a m v, names a m fn → fn = 0 → v % 2 = 1 → s.mgmt.vfEnable = false → runs (.registerWrite a (2 ^ 16) v) s fun t =>
      t.mgmt.vfEnable = true ∧ ∀ k, 1 ≤ k → k < 64 → ∃ g, fget t.funcs k = some g ∧ g.enabled = true ∧ g.ready = true) ∧
    (takesWrites f → ∀ a m v, names a m fn → mayWrite s m fn → v < 2 ^ 64 →
      let wrote := fun (offset : Nat) (f' : Func) =>
        runs (.registerWrite a offset v) s fun t => funcStep s t fn f'
      wrote 0 { f with
        qerr := f.qerr && !v.testBit 1, gterr := f.gterr && !(fn = 0 && v.testBit 4),
        fqerr := f.fqerr && !v.testBit 7 } ∧
      wrote 8 { f with hvec := BitVec.ofNat 64 (v / 512 * 512) } ∧
      wrote 0x10 { f with lqbase := if f.lqEn then f.lqbase else BitVec.ofNat 64 (v / 64 * 64) } ∧
      wrote 0x18 (if 12 < v / 2 ^ 8 % 16 then f
         else { f with lqEn := v.testBit 0, lqLog2 := if f.lqEn then f.lqLog2 else v / 2 ^ 8 % 16 }) ∧
      (∀ k g, fn = 0 → k < 64 → fget s.funcs k = some g →
        (runs (.registerWrite a (0x1000 + 32 * k) v) s fun t =>
          funcStep s t k { g with newOff := BitVec.ofNat 64 v }) ∧
        (runs (.registerWrite a (0x1008 + 32 * k) v) s fun t =>
          funcStep s t k { g with newMul := BitVec.ofNat 64 v }) ∧
        (g.gtStop = false → v < 2 → runs (.registerWrite a (0x1010 + 32 * k) v) s fun t => funcStep s t k
          { g with gtMode := v.testBit 0,
                   gtFrozen := if v.testBit 0 = g.gtMode then g.gtFrozen else guestTime s g }) ∧
        (runs (.registerWrite a (0x1018 + 32 * k) v) s fun t => funcStep s t k
          (if g.gtStop = true ∧ g.gtLast.toNat ≤ v then { g with gtLast := BitVec.ofNat 64 v } else g))))

/-- R10, R321, R326, R329 to R332: what a management register reads: a VF's BAR0 reads all ones while it is off or being
cleared; otherwise FSTAT, HVEC, LQBASE, LQCTL, LQHEAD and LQTAIL, and for the PF OWNCTL as the master sees it, VFCLR, TBRATE
and the guest-time registers in force. A read changes nothing else. -/
def Sys2Proof.Claims.ManagementReads : Prop :=
  ∀ (s : State) (m fn offset : Nat) (f : Func) (rest : List Choice), fget s.funcs fn = some f →
    s.agenda = .hostRead m fn offset :: rest →
    let off := f.enabled = false ∨ f.clr = true ∨ fn ∈ s.mgmt.vfBusy
    let x := fgetD Master.reset s.mgmt.own.masters m
    ∃ v : W64, step s = .next { s with turn := s.turn + 1, agenda := rest, mgmt := { s.mgmt with rdata := v } } ∧
      (m = 0 → off → v = BitVec.allOnes 64) ∧
      ((m ≠ 0 ∨ ¬off) →
        (offset = 0 → v.getLsbD 0 = f.ready ∧ v.getLsbD 1 = f.qerr ∧ (v.extractLsb' 2 2).toNat = f.qcause % 4 ∧
          v.getLsbD 4 = (decide (fn = 0) && f.gterr) ∧ v.getLsbD 5 = f.clr ∧ v.getLsbD 6 = f.seqx ∧
          v.getLsbD 7 = f.fqerr ∧ v.extractLsb' 8 56 = 0) ∧
        (offset = 0x08 → v = f.hvec) ∧ (offset = 0x10 → v = f.lqbase) ∧
        (offset = 0x18 → v = BitVec.ofNat 64 (b2n f.lqEn + 256 * f.lqLog2)) ∧
        (offset = 0x20 → v = BitVec.ofNat 64 f.lqHead) ∧ (offset = 0x28 → v = BitVec.ofNat 64 f.lqTail) ∧
        (offset = 0x100 → v = if fn = 0 then BitVec.ofNat 64 (s.mgmt.own.owner % 4 + 4 * (s.mgmt.own.target % 4) +
          16 * (x.cmd % 16) + 256 * (x.last % 4)) else 0) ∧
        (offset = 0x108 → fn = 0 → (∀ n ∈ s.mgmt.vfBusy, 1 ≤ n ∧ n < 64) → s.mgmt.vfBusy.Nodup →
          v.getLsbD 0 = s.mgmt.zpend ∧ ∀ n, 1 ≤ n → n < 64 → v.getLsbD n = decide (n ∈ s.mgmt.vfBusy)) ∧
        (offset = 0x108 → fn ≠ 0 → v = 0) ∧
        (offset = 0x110 → v = if fn = 0 then BitVec.ofNat 64 (s.mgmt.tbRate % 2 ^ 32) else 0) ∧
        (∀ k g, fn = 0 → k < 64 → fget s.funcs k = some g →
          (offset = 0x1000 + 32 * k → v = g.gtOff) ∧ (offset = 0x1008 + 32 * k → v = g.gtMul) ∧
          (offset = 0x1010 + 32 * k → v = BitVec.ofNat 64 (b2n g.gtMode + 2 * b2n g.gtStop)) ∧
          (offset = 0x1018 + 32 * k → v = g.gtLast)))

/-- R10, R320, R321, R323, R326, R329 to R334: clearing functions, guest time, and the registers of the management space.
What the spec leaves open here is the model's choice: log entries 24, 59, 93, 94, 96. -/
def Obligations.FunctionEvents : Prop := FunctionClears ∧ ManagementReads

/-! ## The events of the arrays -/

/-- R367, R368, R370, R374, R284, R352: the ARRAY commands of the owner; one whose region has another in progress,
or earlier ones that wait, joins the queue. PROGRAM stages a valid image and opens a journal entry; OFFLINE waits
for outstanding AMVs; ONLINE calibrates again; GRANT gives a handle and the column scales, or the handle that the
function has; REVOKE ends it, and FREE returns a region that nobody holds. What the spec leaves open here is the
model's choice: log entries 23, 56, 85, 102 and 118. -/
def Obligations.ArrayCommands : Prop :=
  ∀ (s : State) (m region : Nat) (q : ProgramReq) (fn dest handle : Nat),
    let forms : List (Instr × ArrayReq) := [(.program m region q, .program q), (.offline m region, .offline),
      (.online m region, .online), (.grant m region fn dest handle, .grant fn dest handle), (.revoke m region fn, .revoke fn),
      (.freeRegion m region, .free)]
    let status := fun (t : State) (v : Nat) => t = { s with arrays := { s.arrays with status := some v } }
    let queued := fun (t : State) (x : ArrayReq) =>
      t = { s with arrays := { s.arrays with queue := s.arrays.queue ++ [(region, x)] } }
    let idle := regionBusy s region = false ∧ ∀ e ∈ s.arrays.queue, e.1 ≠ region
    let sized := 1 ≤ q.rs ∧ q.rs ≤ 256 ∧ 1 ≤ q.cs ∧ q.cs ≤ 256
    (isOwner s m = false → ∀ i x, (i, x) ∈ forms → runs i s fun t =>
      t = { dropMaster s m with arrays := { s.arrays with status := some 4 } }) ∧
    (isOwner s m = true → (region = 0 ∨ 4095 < region) → ∀ i x, (i, x) ∈ forms → runs i s fun t => status t 2) ∧
    (isOwner s m = true → 1 ≤ region → region ≤ 4095 → ¬idle → ∀ i x, (i, x) ∈ forms → runs i s fun t => queued t x) ∧
    (isOwner s m = true → 1 ≤ region → region ≤ 4095 → idle →
      (¬sized → runs (.program m region q) s fun t => status t 3) ∧
      (∀ va, sized → programBlocked s q = some (va, none) → runs (.program m region q) s fun t => queued t (.program q)) ∧
      (∀ va leaf, sized → programBlocked s q = some (va, some leaf) → isLocal leaf = true →
        runs (.program m region q) s fun t => t.arrays.queue = s.arrays.queue ++ [(region, .program q)] ∧
          t.arrays.regions = s.arrays.regions ∧ rdLe t.mem leaf 8 = (rdLe s.mem leaf 8 + 2 ^ 5) % 2 ^ 64) ∧
      (∀ img sc, sized → programBlocked s q = none → imageFar s q = [] → readImage s q (q.rs * q.cs) = some img →
        readScales s q.scale (1024 * q.cs) = some sc →
        let waiting := ∃ r, fget s.arrays.regions region = some r ∧ r.st = .inService ∧ amvOut? s region = true
        let staged := fun (r : Region) => r.busy = true ∧ r.staged = some q ∧ r.image = seatTiles s q.site region img ∧
          r.imScales = sc
        ((freeTiles s q.site region).length < q.rs * q.cs → runs (.program m region q) s fun t => status t 3) ∧
        (q.rs * q.cs ≤ (freeTiles s q.site region).length →
          (journalFull s q.site = true → mayProgram s q = none) ∧
          (mayProgram s q = none → runs (.program m region q) s fun t => queued t (.program q)) ∧
          ∀ stage, mayProgram s q = some stage →
            (waiting → runs (.program m region q) s fun t => t.mem = s.mem ∧ t.arrays.journal = s.arrays.journal ∧
              ∃ r, fget t.arrays.regions region = some r ∧ r.st = .inService ∧ r.leaving = some .programming ∧ staged r) ∧
            (¬waiting → runs (.program m region q) s fun t => t.mem = s.mem ∧
              ∃ r e, fget t.arrays.regions region = some r ∧ r.st = .programming ∧ r.leaving = none ∧ staged r ∧
                r.site = q.site ∧ (fgetD [] t.arrays.journal q.site).getLast? = some e ∧ e.region = region ∧ e.phase = 1 ∧
                e.seq = fgetD 0 s.arrays.jseq q.site + 1 ∧ e.stage = stage ∧ e.digest = imageDigest r.image))) ∧
      (sized → programBlocked s q = none → imageFar s q = [] →
        (readImage s q (q.rs * q.cs) = none ∨ readScales s q.scale (1024 * q.cs) = none) →
        runs (.program m region q) s fun t => status t 1) ∧
      (∀ t, sized → programBlocked s q = none → imageFar s q ≠ [] →
        let got := farPieces s 0 0 Reader.device ((imageFar s q).map fun a => (a, 64))
        (got = .wait t → exec (.program m region q) s = .next { t with arrays := { t.arrays with
          queue := t.arrays.queue ++ [(region, .program q)] } }) ∧
        (got = .lost t → exec (.program m region q) s = .next { t with arrays := { t.arrays with status := some 1 } }) ∧
        (∀ b, got = .ok t b true →
          exec (.program m region q) s = .next { t with arrays := { t.arrays with status := some 1 } }) ∧
        (∀ b, got = .ok t b false →
          let u := programFrom { t with mem := putGranules t.mem (imageFar s q) b } t region q (fget s.arrays.regions region)
          exec (.program m region q) s = .next (if u.2 then u.1 else { u.1 with arrays := { u.1.arrays with
            queue := u.1.arrays.queue ++ [(region, .program q)] } }))) ∧
      (∀ r, fget s.arrays.regions region = some r →
        let put := fun (t : State) (r' : Region) => fget t.arrays.regions region = some r' ∧
          (∀ n, n ≠ region → fget t.arrays.regions n = fget s.arrays.regions n) ∧ t.mem = s.mem
        (r.st = .inService → amvOut? s region = false → runs (.offline m region) s fun t => t.arrays.status = some 0 ∧
          put t { r with st := .offline, leaving := none }) ∧
        (r.st = .inService → amvOut? s region = true → runs (.offline m region) s fun t =>
          t.arrays.status = s.arrays.status ∧ put t { r with leaving := some .offline, busy := true }) ∧
        (r.st ≠ .inService → runs (.offline m region) s fun t => status t 2) ∧
        (r.st = .offline → runs (.online m region) s fun t => ∃ r', put t r' ∧ r'.st = .calibrating ∧ r'.busy = true ∧
          (∀ k x, fget r.tiles k = some x → ∃ x', fget r'.tiles k = some x' ∧ x'.w = x.w ∧ x'.published = false) ∧
          r'.scales = r.scales ∧ t.arrays.status = s.arrays.status) ∧
        (r.st ≠ .offline → runs (.online m region) s fun t => status t 2) ∧
        (∀ f, fget s.funcs fn = some f →
          (r.st = .empty → runs (.grant m region fn dest handle) s fun t => status t 2) ∧
          (∀ g, r.st ≠ .empty → f.grants.find? (fun g => g.2 = region) = some g →
            exec (.grant m region fn dest handle) s =
              .next { s with arrays := { s.arrays with status := some 0, handle := some g.1 } }) ∧
          (r.st ≠ .empty → (∀ g ∈ f.grants, g.2 ≠ region) → handleOk f handle = true → isLocal dest = true →
            runs (.grant m region fn dest handle) s fun t => t.arrays.status = some 0 ∧ t.arrays.handle = some handle ∧
              (fget t.funcs fn).map (·.grants) = some (f.grants ++ [(handle, region)]) ∧
              rdLe t.mem dest 4 = r.rs % 2 ^ 32 ∧ rdLe t.mem (dest + 4) 4 = r.cs % 2 ^ 32 ∧
              ∀ j, j < 1024 * r.cs → rdLe t.mem (dest + 8 + 4 * j) 4 = (fgetD 0 r.scales j : W32).toNat) ∧
          (runs (.revoke m region fn) s fun t => t.arrays.status = some 0 ∧ t.mem = s.mem ∧
            (fget t.funcs fn).map (·.grants) = some (f.grants.filter fun g => g.2 ≠ region))) ∧
        (((r.st ≠ .offline ∧ r.st ≠ .damaged) ∨ (∃ e ∈ s.funcs, ∃ g ∈ e.2.grants, g.2 = region)) →
          runs (.freeRegion m region) s fun t => status t 2) ∧
        ((r.st = .offline ∨ r.st = .damaged) → (∀ e ∈ s.funcs, ∀ g ∈ e.2.grants, g.2 ≠ region) →
          runs (.freeRegion m region) s fun t => t.arrays.status = some 0 ∧ t.mem = s.mem ∧
            ∀ n, fget t.arrays.regions n = if n = region then none else fget s.arrays.regions n)) ∧
      (fget s.arrays.regions region = none → ∀ i ∈ [Instr.offline m region, .online m region, .grant m region fn dest handle,
        .freeRegion m region], runs i s fun t => status t 2))

/-- R176, R281, R284, R369 to R373: the course of a region: its tiles are written and their digests stored, verified
against them or failed after three rewrites, calibrated by probes and fits; a copy is published only when no AMV
uses it, and then becomes the current one; a probe outside the limit forces a refit, and a fit outside it ends the
service; the last fit puts the region in service; a region leaves service once its AMVs have retired. Whether a
probe or a fit stands within the limit rests on the free codes of log entry 4. What the spec leaves open here is the
model's choice: log entries 4, 85, 102 and 119. -/
def Obligations.ArrayEvents : Prop :=
  ∀ (s : State) (region : Nat) (r : Region), fget s.arrays.regions region = some r →
    let st := fun t : State => (fget t.arrays.regions region).map (·.st)
    let phases := fun (t : State) (p : Nat) => fgetD [] t.arrays.journal r.site =
      (fgetD [] s.arrays.journal r.site).map fun e =>
        if e.region = region ∧ (e.phase = 1 ∨ e.phase = 2) then { e with phase := p } else e
    let told := fun (t : State) (v : Nat) => t.arrays.status = if r.busy then some v else s.arrays.status
    (r.st ≠ .programming → waits (.tilesWritten region) s) ∧
    (∀ q, r.st = .programming → r.staged = some q → rising r.image = true →
      runs (.tilesWritten region) s fun t => fget t.arrays.regions region = some { r with
        st := .verifying, rs := q.rs, cs := q.cs, tiles := r.image, scales := r.imScales } ∧ phases t 2 ∧
        ∀ k x, fget r.image k = some x → fget t.arrays.digests (65536 * region + k) = some (tileDigest x)) ∧
    (let matched := fun (e : Nat × Tile) => e.2.tries < 4 ∧ fgetD [] s.arrays.digests (65536 * region + e.1) = tileDigest e.2
     (r.st = .verifying → (∀ e ∈ r.tiles, matched e) → r.dests = [] →
       runs (.tileVerify region true) s fun t => st t = some .calibrating ∧ phases t 3 ∧ t.mem = s.mem ∧
         ∀ k x, fget r.tiles k = some x → ∃ r' x', fget t.arrays.regions region = some r' ∧ fget r'.tiles k = some x' ∧
           x'.w = x.w ∧ x'.sigs = some x.w ∧ x'.published = false) ∧
     (r.st = .verifying → (∃ e ∈ r.tiles, ¬matched e) → waits (.tileVerify region true) s) ∧
     (r.st = .verifying → (∃ e ∈ r.tiles, 3 ≤ e.2.tries ∧ ¬matched e) →
       runs (.tileVerify region false) s fun t => st t = some .damaged ∧ phases t 4 ∧ told t 5) ∧
     (r.st = .verifying → (∀ e ∈ r.tiles, e.2.tries < 3 ∨ matched e) → waits (.tileVerify region false) s)) ∧
    (∀ v, r.st ≠ .verifying → waits (.tileVerify region v) s) ∧
    (∀ k x, fget r.tiles k = some x →
      let tile := fun t : State => (fget t.arrays.regions region).bind fun r' => fget r'.tiles k
      (∀ ok, (r.st = .inService ∨ r.st = .calibrating) → x.published = true → dueElse s r x = false →
        (probeWithin x (tileCopy x x.cur) s.free (probeNo s) ≠ ok → waits (.tailorProbe region k ok) s) ∧
        (probeWithin x (tileCopy x x.cur) s.free (probeNo s) = ok → runs (.tailorProbe region k ok) s fun t =>
          tile t = some { x with due := false,
                                 refit := x.refit || (!ok && r.st = .inService && r.leaving.isNone) } ∧ st t = some r.st)) ∧
      (runs (.probeDeadline region k) s fun t => tile t = some { x with due := true } ∧ st t = some r.st) ∧
      (∀ c, copyInUse s region k (1 - x.cur) = true → waits (.tailorPublish region k c) s) ∧
      (∀ c, copyInUse s region k (1 - x.cur) = false → x.cur ≤ 1 →
        let other := fun (x' : Tile) (c : CompCopy) => x'.cur = 1 - x.cur ∧ x'.w = x.w ∧ x'.published = true ∧
          (if x.cur = 0 then x'.c1 = c ∧ x'.c0 = x.c0 else x'.c0 = c ∧ x'.c1 = x.c1)
        (copyKeeps c = false → fitWithin s r x c = false) ∧ (sigsPoisoned s r x = true → fitWithin s r x c = false) ∧
        (r.st = .calibrating → x.published = false → runs (.tailorPublish region k c) s fun t =>
          st t = some .calibrating ∧ ∃ x', tile t = some x' ∧ other x' { nominal := true, words := [] }) ∧
        (x.published = true → fitWithin s r x c = false → (r.st = .calibrating → runs (.tailorPublish region k c) s fun t =>
          st t = some .offline ∧ told t 5) ∧
          ∀ f, r.st = .inService → r.leaving = none → fget s.funcs 0 = some f →
            runs (.tailorPublish region k c) s fun t => (fget t.funcs 0).map (·.vectors) = some (f.vectors ++ [3]) ∧
              tile t = some x ∧ (fget t.arrays.regions region).map (fun r' => (r'.st, r'.leaving)) =
                some (if amvOut? s region then (.inService, some .offline) else (.offline, none))) ∧
        (r.st = .calibrating → x.published = true → rising r.tiles = true →
          runs (.tailorPublish region k c) s fun t => fitWithin s r x c = true →
          (∃ x', tile t = some x' ∧ other x' c ∧ x'.fitted = true) ∧
          st t = some (if ∀ e ∈ r.tiles, e.1 ≠ k → e.2.published = true ∧ e.2.fitted = true
            then .inService else .calibrating)) ∧
        (r.st = .inService → r.leaving = none → x.published = true →
          runs (.tailorPublish region k c) s fun t => fitWithin s r x c = true →
          st t = some .inService ∧ ∃ x', tile t = some x' ∧ other x' c ∧ x'.refit = false))) ∧
    ((r.leaving = none ∨ amvOut? s region = true) → waits (.regionLeaveService region) s) ∧
    (r.leaving = some .offline → amvOut? s region = false → runs (.regionLeaveService region) s fun t =>
      fget t.arrays.regions region = some { r with st := .offline, leaving := none, busy := false } ∧ told t 0) ∧
    (∀ q, r.leaving = some .programming → amvOut? s region = false → r.staged = some q →
      (mayProgram s q = none → waits (.regionLeaveService region) s) ∧
      ∀ stage, mayProgram s q = some stage → runs (.regionLeaveService region) s fun t => st t = some .programming)

/-! ## The events of partitions, power and reliability -/

/-- R391, R392, R394 to R397: the PART commands of the owner: what each needs, and what it gives its partition;
another master gets status 4 and LAST 2, and a partition that is not on the module status 6. A CLUSTER that has
begun goes on when the cluster has quiesced, and every other command waits for it. What the spec leaves open here is
the model's choice: log entries 7, 41, 55 and 61. -/
def Obligations.PartitionCommands : Prop :=
  ∀ (s : State) (m part fn die c first count port weight wdm wsh wan g pod remote : Nat) (l : List (Nat × Nat)),
    let others : List Instr := [.cluster m part die c, .funcJoin m part fn, .pages m part first count,
      .port m part port weight, .qos m part wdm wsh wan, .group m part g l, .bind m part pod remote]
    let done := fun t : State => t.parts.status = some 0 ∧ t.warps = s.warps
    let free := s.parts.job = none
    (∀ j, s.parts.job = some j → (∀ i ∈ Instr.create m part :: .destroy m part :: others.drop 1, waits i s) ∧
      (j ≠ (part, die, c) → waits (.cluster m part die c) s)) ∧
    (free → isOwner s m = false → ∀ i ∈ Instr.create m part :: .destroy m part :: others, runs i s fun t =>
      t = { dropMaster s m with parts := { s.parts with status := some 4 } }) ∧
    (free → isOwner s m = true → fget s.parts.parts part = none →
      (∀ i ∈ others, runs i s fun t => partAnswer s t 6) ∧
      (runs (.destroy m part) s fun t => partAnswer s t 2) ∧
      (1 ≤ part → part ≤ 4095 → runs (.create m part) s fun t => done t ∧ t.mem = s.mem ∧
        (∀ p, fget t.parts.parts p = if p = part then some Part.reset else fget s.parts.parts p) ∧
        fget t.parts.finals part = none) ∧
      ((part = 0 ∨ 4095 < part) → runs (.create m part) s fun t => partAnswer s t 6)) ∧
    (let k := clusterAt s die c
     let lo := 2 ^ 48 + Config.moduleNo * 2 ^ 29 + die * 2 ^ 27 + c * 2 ^ 25
     let begun := s.parts.job = some (part, die, c) ∨ (free ∧ isOwner s m = true ∧ (fget s.parts.parts part).isSome = true ∧
       c ≤ 3 ∧ clusterPresent s die c = true ∧ foreignHomed s part die c = false)
     (begun → k.st = .quiescing → exec (.cluster m part die c) s =
       .next { s with parts := { s.parts with job := some (part, die, c) } }) ∧
     (begun → k.st = .run → (∀ e ∈ s.blocks, ¬(e.2.placed = true ∧ e.2.die = die ∧ e.2.pair / 16 = c)) →
       runs (.cluster m part die c) s fun t => clusterAt t die c = { k with st := .quiescing, fresh := false } ∧
         t.warps = s.warps ∧ t.parts = { s.parts with job := some (part, die, c) }) ∧
     (begun → k.st ≠ .run → k.st ≠ .quiescing → runs (.cluster m part die c) s fun t => t.parts.status = some 0 ∧
       t.parts.job = none ∧ fgetD 0 t.parts.clusters (clusterKey s die c) = part ∧
       (clusterAt t die c).st = (if k.st = .quiesced then .run else k.st) ∧
       ∀ a, rdByte t.mem a = if lo ≤ a ∧ a < lo + 2 ^ 25 then 0 else rdByte s.mem a)) ∧
    (∀ x, free → isOwner s m = true → fget s.parts.parts part = some x →
      (1 ≤ part → part ≤ 4095 → runs (.create m part) s fun t => partAnswer s t 2) ∧
      (ownsAny s part = true → runs (.destroy m part) s fun t => partAnswer s t 2) ∧
      (ownsAny s part = false → runs (.destroy m part) s fun t => done t ∧ t.mem = s.mem ∧
        (∀ p, fget t.parts.parts p = if p = part then none else fget s.parts.parts p) ∧
        fget t.parts.finals part = some (snapshotBytes s part x true (x.snaps + 1))) ∧
      (c ≤ 3 → clusterPresent s die c = true → foreignHomed s part die c = true →
        runs (.cluster m part die c) s fun t => partAnswer s t 2) ∧
      ((3 < c ∨ clusterPresent s die c = false) → runs (.cluster m part die c) s fun t => partAnswer s t 6) ∧
      (∀ f, fget s.funcs fn = some f →
        let busy := (s.launches.any fun e => e.2.fn = fn && launchOpen e.2) = true ∨
          (s.warps.any fun e => e.2.kind = .kernel && e.2.fn = fn) = true
        ((fn = 0 ∨ busy ∨ f.grants ≠ []) → runs (.funcJoin m part fn) s fun t => partAnswer s t 2) ∧
        (fn ≠ 0 → ¬busy → f.grants = [] → runs (.funcJoin m part fn) s fun t => done t ∧
          fget t.funcs fn = some { f with part := part } ∧ t.mem = s.mem)) ∧
      (let ns := (List.range count).map (first + ·)
       ((∃ n ∈ ns, pagePresent s n = false) → runs (.pages m part first count) s fun t => partAnswer s t 6) ∧
       ((∀ n ∈ ns, pagePresent s n = true) →
         (∃ n ∈ ns, pageTaken s (n * 2 ^ 21) = true) →
         runs (.pages m part first count) s fun t => partAnswer s t 2) ∧
       ((∀ n ∈ ns, pagePresent s n = true ∧ pageTaken s (n * 2 ^ 21) = false) →
         runs (.pages m part first count) s fun t => done t ∧
           (∀ n, fgetD 0 t.parts.pages n = if first ≤ n ∧ n < first + count then part else fgetD 0 s.parts.pages n) ∧
           ∀ a, rdByte t.mem a =
             if first * 2 ^ 21 ≤ a ∧ a < (first + count) * 2 ^ 21 then 0 else rdByte s.mem a)) ∧
      (let o := fgetD 0 s.parts.portOwn port
       ((15 < port ∨ 255 < weight ∨ (weight = 0 ∧ o ≠ part)) →
         runs (.port m part port weight) s fun t => partAnswer s t 6) ∧
       (port ≤ 15 → weight ≤ 255 → (weight ≠ 0 ∨ o = part) →
         (runs (.port m part port weight) s fun t => t.parts.status = some 0) ∧
         (s.fabric.bobbin = [] → runs (.port m part port weight) s fun t => done t ∧ portWeight t part port = weight ∧
           t.mem = s.mem ∧ fgetD 0 t.parts.portOwn port =
             if weight ≠ 0 ∧ portWeight s o port = 0 then part else o))) ∧
      ((∀ v ∈ [wdm, wsh, wan], 1 ≤ v ∧ v ≤ 255) → runs (.qos m part wdm wsh wan) s fun t => done t ∧ t.mem = s.mem ∧
        fget t.parts.parts part = some { x with wdm := wdm, wsh := wsh, wan := wan }) ∧
      ((∃ v ∈ [wdm, wsh, wan], v = 0 ∨ 255 < v) → runs (.qos m part wdm wsh wan) s fun t => partAnswer s t 6) ∧
      (fget x.groups g ≠ none → runs (.group m part g l) s fun t => partAnswer s t 2) ∧
      (let ok := 2 ≤ l.length ∧ l.length ≤ 65536 ∧ ∀ e ∈ l, e.1 = Config.moduleNo → ∃ f, fget s.funcs e.2 = some f ∧
         (f.part = part ∨ ∃ b ∈ x.binds, b.2 = f.part)
       (fget x.groups g = none → ¬ok → runs (.group m part g l) s fun t => partAnswer s t 6) ∧
       (fget x.groups g = none → ok → runs (.group m part g l) s fun t => done t ∧
        t.mem = s.mem ∧ fget t.parts.parts part = some { x with groups := fput x.groups g l })) ∧
      (pod ≠ Config.podNo → runs (.bind m part pod remote) s fun t => done t ∧ t.mem = s.mem ∧
        fget t.parts.parts part = some { x with binds := fput x.binds pod remote }))

/-- R365, R366, R399: GET_MEASUREMENTS takes a snapshot of the meters for a function of the partition or the owner,
who also reads the FINAL one; a remapping stops dispatch on its dies and, once no block is left on them, switches
the binding; one that cannot be made gets status 2. What the spec leaves open here is the model's choice: log
entries 55, 60, 62. -/
def Obligations.SnapshotsAndRemaps : Prop :=
  ∀ (s : State) (r part : Nat) (via : Bool),
    let may := if via then isOwner s r = true else ∃ f, fget s.funcs r = some f ∧ f.part = part
    (¬may → waits (.getMeasurements r part via) s) ∧
    (∀ x, may → fget s.parts.parts part = some x → runs (.getMeasurements r part via) s fun t => t.mem = s.mem ∧
      t.parts.snapshot = some (snapshotBytes s part x false (x.snaps + 1)) ∧
      fget t.parts.parts part = some { x with snaps := x.snaps + 1 }) ∧
    (∀ b, may → via = true → fget s.parts.parts part = none → fget s.parts.finals part = some b →
      exec (.getMeasurements r part via) s = .next { s with parts := { s.parts with snapshot := some b } }) ∧
    (∀ m die site, isOwner s m = false → exec (.remapMove m die site) s = .next (dropMaster s m)) ∧
    (∀ m die site, isOwner s m = true →
      let refused := 3 < die ∨ (∃ e ∈ s.bind, e.2 = site) ∨ siteRefuses s die site = true
      (s.mgmt.remaps = [] → refused → runs (.remapMove m die site) s fun t => remapAnswer s t 2) ∧
      (s.mgmt.remaps = [] → ¬refused → diesBusy s [die] = false → runs (.remapMove m die site) s fun t =>
        t = { s with mgmt := { s.mgmt with remaps := [die] } }) ∧
      (s.mgmt.remaps = [die] → diesBusy s [die] = false → runs (.remapMove m die site) s fun t =>
        t.bind = fput s.bind die site ∧ t.mgmt.remaps = [] ∧ t.mgmt.status = some 0 ∧
        ∀ l ∈ t.cores.l1, l.core / 128 ≠ die)) ∧
    (∀ m d1 d2, isOwner s m = false → exec (.remapSwap m d1 d2) s = .next (dropMaster s m)) ∧
    (∀ m d1 d2 a b, isOwner s m = true → fget s.bind d1 = some a → fget s.bind d2 = some b →
      let refused := d1 = d2 ∨ siteRefuses s d1 b = true ∨ siteRefuses s d2 a = true
      (s.mgmt.remaps = [] → refused → runs (.remapSwap m d1 d2) s fun t => remapAnswer s t 2) ∧
      (s.mgmt.remaps = [] → ¬refused → diesBusy s [d1, d2] = false → runs (.remapSwap m d1 d2) s fun t =>
        t = { s with mgmt := { s.mgmt with remaps := [d1, d2] } }) ∧
      (s.mgmt.remaps = [d1, d2] → d1 ≠ d2 → diesBusy s [d1, d2] = false → runs (.remapSwap m d1 d2) s fun t =>
        fget t.bind d1 = some b ∧ fget t.bind d2 = some a ∧
        (∀ d, d ≠ d1 → d ≠ d2 → fget t.bind d = fget s.bind d) ∧ t.mgmt.remaps = [] ∧ t.mgmt.status = some 0))

/-- R378 to R382, R385, R386, R208: the handshake of a cluster: the requests that each state takes, any other
setting ERR; the answers of the clock and of the rail; the end of a quiesce; and the wake requests of the owner.
What the spec leaves open here is the model's choice: log entry 54. -/
def Obligations.PowerEvents : Prop :=
  ∀ (s : State) (die c : Nat),
    let x := clusterAt s die c
    let x' := { x with fsel := x.fsel % 4 }
    let becomes := fun (i : Instr) (y : Cluster) => runs i s fun t => clusterAt t die c = y ∧ t.mem = s.mem
    (clusterPresent s die c = true →
      becomes (.clctlClkreq die c x.clkReq) x' ∧ becomes (.clctlRailreq die c x.railReq) x' ∧
      (∀ on, x.clkReq ≠ on →
        let ok := if on then x.st = .clkoff ∨ x.st = .railup else x.st = .quiesced
        (ok → becomes (.clctlClkreq die c on) { x' with clkReq := on }) ∧
        (¬ok → becomes (.clctlClkreq die c on) { x with err := true })) ∧
      (x.railReq = true → x.st = .clkoff → x.fresh = true →
        becomes (.clctlRailreq die c false) { x' with railReq := false, st := .railoff }) ∧
      (x.railReq = true → ¬(x.st = .clkoff ∧ x.fresh = true) →
        becomes (.clctlRailreq die c false) { x with err := true }) ∧
      (x.railReq = false → x.st = .railoff → becomes (.clctlRailreq die c true) { x' with railReq := true }) ∧
      (x.railReq = false → x.st ≠ .railoff → becomes (.clctlRailreq die c true) { x with err := true }) ∧
      ((x.st = .quiescing ∨ x.st = .quiesced) → becomes (.clctlResume die c) { x' with st := .run }) ∧
      (x.st ≠ .quiescing → x.st ≠ .quiesced → becomes (.clctlResume die c) { x with err := true })) ∧
    (clusterPresent s die c = false → waits (.clctlClkreq die c true) s ∧ waits (.clctlClkreq die c false) s ∧
      waits (.clctlRailreq die c true) s ∧ waits (.clctlRailreq die c false) s ∧ waits (.clctlResume die c) s) ∧
    (let idle := clusterBusy s die c = false ∧ clusterEngines s die c = false
     (x.st = .quiescing → idle → rising s.warps = true → (∀ u v, fget s.warps u = some v → u < s.next) →
       runs (.clusterQuiesced die c) s fun t => clusterAt t die c = { x with st := .quiesced } ∧
       t.ops = s.ops ∧ t.blocks = s.blocks ∧ t.launches = s.launches ∧
       (∀ u w, fget s.warps u = some w → w.kind ≠ .supervisor → fget t.warps u = some w) ∧
       ∀ u w, c ≤ 3 → w.core < 128 → supWarp s (coreKey w) = (s, u, w) → fget s.warps u = some w → w.kind = .supervisor →
         w.die = die → w.core / 32 = c → coreOn s die w.core = true → (fget t.warps u).map (·.st) = some .saved) ∧
     ((x.st ≠ .quiescing ∨ ¬idle) → waits (.clusterQuiesced die c) s)) ∧
    (x.st = .quiesced → x.clkReq = false → becomes (.clkackChange die c) { x with st := .clkoff, clkAck := false }) ∧
    (x.st = .clkoff → x.clkReq = true → becomes (.clkackChange die c) { x with st := .quiesced, clkAck := true }) ∧
    (x.st = .railup → x.clkReq = true → becomes (.clkackChange die c) { x with st := .reset, clkAck := true }) ∧
    (x.st = .railoff → x.railGood = true → becomes (.railgoodChange die c) { x with railGood := false }) ∧
    (x.st = .railoff → x.railGood = false → x.railReq = true →
      becomes (.railgoodChange die c) { x with st := .railup, railGood := true }) ∧
    (x.st ≠ .railoff → waits (.railgoodChange die c) s) ∧
    (∀ m mask, (isOwner s m = false → exec (.wake m die mask) s = .next (dropMaster s m)) ∧
      (isOwner s m = true → harvested s die = false → runs (.wake m die mask) s fun t => t.mem = s.mem ∧
        patrolAt t die = { patrolAt s die with wake := (patrolAt s die).wake ||| BitVec.ofNat 4 mask })) ∧
    ((patrolAt s die).halted = true → (patrolAt s die).dead = false → runs (.patrolWake die) s fun t =>
      patrolAt t die = { patrolAt s die with halted := false } ∧ t.warps = s.warps)

/-- R256, R409 to R413, R416, R417: a checker's mismatch raises an imprecise 2.0 on its path, one of the replay queue
2.1, and is counted; the scrub poisons the granule of an uncorrectable word, marks a register's word and drops an L1
line; a corrected word is counted in the window of its pair; a pair that has passed the threshold is saved, and when its blocks are
gone it is disabled, with vector 3 and a record for the PF; an L1 line expires. What the spec leaves open here is the model's
choice: log entry 51. -/
def Obligations.ReliabilityEvents : Prop :=
  ∀ (s : State),
    (∀ u w pf, fget s.warps u = some w → (w.path pf).live = true → (w.path pf).stopped = false →
      (w.st = .ready ∨ w.st = .rink ∨ w.st = .blocked) →
      let p := w.path pf
      (∀ pc lbase, p.priv = 0 → (w.path (!pf)).held = none → p.pend = none → w.saving = false → w.reload = false →
        handlerEntry s w 2 = .entry pc lbase → runs (.checkerMismatch u pf false) s fun t => ∃ w', t = putWarp s u w' ∧
          tookTrap w w' pf { sTrap p 0x20 with impr := true, resume := p.issued } pc lbase) ∧
      (∀ l k, p.last = some l → checkedClause p l = some k →
        let w1 := w.setPath pf { p with
          queue := p.queue.map fun d => if d.seq = k.seq then { k with idx := l.widx } else d }
        exec (.checkerMismatch u pf true) s = .next (raiseTrap (putWarp s u w1) u pf { sTrap p 0x20 with
          lane := true, impr := true, widx := l.widx, lmask := l.act, clauseAddr := l.addr }))) ∧
    (∀ core n r, (fgetD [] s.cores.replay core)[n]? = some r →
      let s1 := countPair s (core / 128) (core % 128 / 2)
      (waits (.replayQueueCheck core n false) s) ∧
      (fget s.warps r.warp = none → exec (.replayQueueCheck core n true) s = .next s1) ∧
      (∀ w, fget s.warps r.warp = some w → (w.path r.path).live = true → w.st ≠ .ended →
        exec (.replayQueueCheck core n true) s = .next (raiseTrap s1 r.warp r.path { sTrap (w.path r.path) 0x21 with
          lane := true, impr := true, widx := r.widx, lmask := r.act, clauseAddr := r.addr }))) ∧
    (∀ a, isLocal a = true → a < 2 ^ 64 →
      (runs (.patrolScrub a true) s fun t => t = { s with pois := t.pois } ∧ ∀ g, g ∈ t.pois ↔ g ∈ s.pois ∨ g = a / 64) ∧
      (runs (.patrolScrub a false) s fun t => t = { s with mgmt := { s.mgmt with errors := t.mgmt.errors } } ∧
        ∀ die pair, pairErrors t die pair = pairErrors s die pair +
          if 2 ^ 48 ≤ a ∧ 64 * die + pair = 64 * homeDie a + homeFrame a then 1 else 0)) ∧
    (∀ b k off, fget s.blocks b = some k → b < 2 ^ 32 → off < 2 ^ 40 →
      runs (.patrolScrub (2 ^ 72 + 2 ^ 40 * b + off) true) s fun t => ∃ l, t = { s with blocks := t.blocks } ∧
        fget t.blocks b = some { k with spPois := l } ∧ ∀ g, g ∈ l ↔ g ∈ k.spPois ∨ g = off / 64) ∧
    (∀ u w r v l, fget s.warps u = some w → fget w.regs r = some v → u < 2 ^ 32 → r < 1536 → l < 32 →
      runs (.patrolScrub (2 ^ 73 + 2 ^ 40 * u + 32 * r + l) true) s fun t => ∃ w', t = putWarp s u w' ∧
        w' = { w with regs := w'.regs } ∧ ∀ n, fget w'.regs n = if n = r then some { v with pois := v.pois ||| 1#32 <<< l }
          else fget w.regs n) ∧
    (∀ k b g, fget s.banks k = some b → k < 2 ^ 64 → g < 64 →
      runs (.patrolScrub (4 * 2 ^ 72 + 64 * k + g) true) s fun t => ∃ l, t = { s with banks := t.banks } ∧
        fget t.banks k = some { b with pois := l } ∧ ∀ x, x ∈ l ↔ x ∈ b.pois ∨ x = g) ∧
    (∀ core line, core < 2 ^ 16 → line < 2 ^ 48 → runs (.patrolScrub (3 * 2 ^ 72 + 2 ^ 48 * core + line) true) s fun t =>
      ∀ l, l ∈ t.cores.l1 ↔ l ∈ s.cores.l1 ∧ ¬(l.core = core ∧ l.line = line)) ∧
    (∀ die pair f, pair < 64 → pairOn s die pair = true → fget s.funcs 0 = some f →
      let begun := 64 * die + pair ∈ s.mgmt.evac ∨ Config.evacThreshold < pairErrors s die pair
      (¬begun → waits (.predictiveEvacuation die pair) s) ∧
      (begun → pairBlocks s die pair ≠ [] → runs (.predictiveEvacuation die pair) s fun t =>
        64 * die + pair ∈ t.mgmt.evac ∧ ∀ e ∈ pairBlocks s die pair, ∃ k, fget t.blocks e.1 = some k) ∧
      (begun → pairBlocks s die pair = [] → runs (.predictiveEvacuation die pair) s fun t =>
        coreOn t die (2 * pair) = false ∧ coreOn t die (2 * pair + 1) = false ∧ 64 * die + pair ∉ t.mgmt.evac ∧
        ((∀ a ∈ allLeaves s, isLocal a = true) → t.warps = s.warps) ∧
        ∃ r : FRec, r.core = 2 * pair ∧ r.die = die ∧
          fget t.funcs 0 = some { f with fqWait := f.fqWait ++ [r], vectors := f.vectors ++ [3] })) ∧
    (∀ core line, runs (.l1LineExpiry core line) s fun t => t = { s with cores := { s.cores with l1 := t.cores.l1 } } ∧
      ∀ l, l ∈ t.cores.l1 ↔ l ∈ s.cores.l1 ∧ ¬(l.core = core ∧ l.line = line))

/-! ## The events of the fabric -/

/-- R400 to R404, R412: a request at its home: one outside the window is rejected; a READ returns its granule; a
WRITE, an EWRITE and an ATOMIC are applied once, and a replay gets the same answer and writes nothing; POIS marks the
granule of a WRITE, and an ATOMIC on a poisoned one writes nothing; whether MIN and MAX are signed is free (log entry 3); a
packet that breaks R400 is dropped and counted, and the sixteenth within 1 µs whose CRC fails brings the link down (R409). What the
spec leaves open here is the model's choice: log entries 20, 63, 114. -/
def Obligations.FabricHome : Prop :=
  ∀ (s : State) (p : Packet), (routeNow s p.part p.src).isSome = true →
    let win := windowFor s p
    let inside := seqDist win.base p.seq < 1024
    let fresh := inside ∧ fget win.ents p.seq = none
    let base := 64 * (p.addr / 64)
    let granuleNow := rdBytes s.mem base 64
    let pois := if s.pois.contains (p.addr / 64) then 3 else 0
    (∀ i kind cls, (i, kind, cls) ∈ [(Instr.read p, 1, 0), (.write p, 2, 1), (.atomic p, 3, 0), (.ewrite p, 8, 1)] →
      (forHere p kind cls = false → waits i s) ∧
      (forHere p kind cls = true → ¬inside → runs i s fun t => answeredWith t p 7 [] 0 ∧ t.mem = s.mem ∧
        t.fabric.windows = s.fabric.windows)) ∧
    (forHere p 1 0 = true → inside → runs (.read p) s fun t => answeredWith t p 4 granuleNow pois ∧ t.mem = s.mem ∧
      (fresh → recorded t p [])) ∧
    (forHere p 2 1 = true → fresh → runs (.write p) s fun t => answeredWith t p 5 [] 0 ∧ recorded t p [] ∧
      (∀ a, rdByte t.mem a = if base ≤ a ∧ a - base ∈ writtenBytes p then p.payload.getD (a - base) 0
        else rdByte s.mem a) ∧
      ∀ g, g ∈ t.pois ↔ if g = p.addr / 64 then p.pois ≠ 0 ∨ ((writtenBytes p).length ≠ 64 ∧ g ∈ s.pois)
        else g ∈ s.pois) ∧
    (forHere p 8 1 = true → fresh → runs (.ewrite p) s fun t => answeredWith t p 5 [] 0 ∧ recorded t p [] ∧
      t.mem = wrBytes s.mem p.addr p.payload ∧ (p.pois = 0 → t.pois = clearCovered s.pois p.addr p.payload.length) ∧
      ∀ n g, 32 * n < p.payload.length → p.pois.testBit n = true →
        g ∈ granulesOf (p.addr + 32 * n) (min 32 (p.payload.length - 32 * n)) → g ∈ t.pois) ∧
    (∀ words, inside → fget win.ents p.seq = some words →
      let kept := fun t : State => t.mem = s.mem ∧ fget t.fabric.windows (4 * p.src + p.cls) = some win
      (forHere p 2 1 = true → runs (.write p) s fun t => answeredWith t p 5 [] 0 ∧ kept t) ∧
      (forHere p 8 1 = true → runs (.ewrite p) s fun t => answeredWith t p 5 [] 0 ∧ kept t) ∧
      (forHere p 3 0 = true → words ≠ [] → runs (.atomic p) s fun t => kept t ∧
        answeredWith t p 6 (words.flatMap fun v => leBytes 4 v.toNat) 0)) ∧
    (forHere p 3 0 = true → fresh →
      let ws := maskWords p.mask
      let word := fun i => base + 4 * ws.getD i 0
      let arg := fun j => BitVec.ofNat 32 (leNat ((p.payload.drop (4 * j)).take 4))
      let old := fun i => BitVec.ofNat 32 (rdLe s.mem (word i) 4)
      let olds := (List.range ws.length).map old
      let lanes := fun (i : Nat) => if ws.length = 1 then List.range (p.payload.length / 8) else [i]
      (pois = 0 → runs (.atomic p) s fun t => ∃ f : Fmt, (f = .n32 ∨ f = .i32) ∧
        t.mem = (List.range ws.length).foldl (fun m i =>
          wrLe m (word i) 4 ((lanes i).foldl (fun v j => atomNew p.oper f v (arg (2 * j)) (arg (2 * j + 1)))
            (old i)).toNat) s.mem ∧
        recorded t p olds ∧ answeredWith t p 6 (olds.flatMap fun v => leBytes 4 v.toNat) 0) ∧
      (pois ≠ 0 → runs (.atomic p) s fun t => t.mem = s.mem ∧ recorded t p [] ∧
        answeredWith t p 6 (List.replicate 64 0) 3)) ∧
    (∀ port, ((p.kind = 0 ∨ 8 < p.kind ∨ 8 < p.len) → runs (.invalidPacket port p) s fun t =>
        t = { s with fabric := { s.fabric with errs := t.fabric.errs } } ∧
        ∀ q, fgetD 0 t.fabric.errs q = fgetD 0 s.fabric.errs q + if q = port then 1 else 0) ∧
      (1 ≤ p.kind → p.kind ≤ 8 → p.len ≤ 8 → crcMatches p = true → waits (.invalidPacket port p) s) ∧
      (1 ≤ p.kind → p.kind ≤ 8 → p.len ≤ 8 → crcMatches p = false →
        let l := s.mgmt.tb :: (fgetD [] s.fabric.crcs port).filter fun t =>
          (s.mgmt.tb + 2 ^ 64 - t) % 2 ^ 64 ≤ s.mgmt.tbRate / 1000
        (l.length < 16 → runs (.invalidPacket port p) s fun t =>
          t = { s with fabric := { s.fabric with crcs := fput s.fabric.crcs port l } }) ∧
        (16 ≤ l.length → exec (.invalidPacket port p) s =
          exec (.linkDown port) { s with fabric := { s.fabric with crcs := fdel s.fabric.crcs port } })))

/-- R402, R403: a response retires its packet: the lanes of a load or an atomic get their words, and those of a store
are performed; an operation all of whose lanes are done leaves; a REJECT marks the packet, which is sent again on its
route, or on the next where that one is usable no longer (R396). -/
def Sys2Proof.Claims.FabricResponses : Prop :=
  ∀ (s : State) (p : Packet) (e : BEntry) (id : Nat) (o : Op) (m : LaneMem) (w : Warp),
    findOp s id = some o → o.body = .mem m → fget s.warps o.warp = some w → e.op = some id → p.pois = 0 →
    dstMissing w m = false →
    let left := m.left ||| (m.wire &&& ~~~ e.lanes)
    let fills := fun (i : Instr) (got : Nat → W32) => runs i s fun t => t.mem = s.mem ∧
      t.fabric.bobbin.length + 1 = s.fabric.bobbin.length ∧
      (left = 0 → findOp t id = none) ∧
      (left ≠ 0 → ∃ (o' : Op) (m' : LaneMem), findOp t id = some o' ∧ o'.body = .mem m' ∧
        m'.wire = m.wire &&& ~~~ e.lanes ∧ m'.left = m.left ∧ m'.accs = m.accs ∧
        ∀ l, l < 32 → lane m'.got l = if e.lanes.getLsbD l then got l else lane m.got l)
    (forSource p 4 = true → answered s p [1] = some e → fills (.rdata p) (farValue m p.payload)) ∧
    (forSource p 5 = true → answered s p [2, 8] = some e → fills (.ack p) (lane m.got)) ∧
    (forSource p 6 = true → answered s p [3] = some e → fills (.aresult p) (resultWord m e p)) ∧
    (∀ i kind kinds, (i, kind, kinds) ∈ [(Instr.rdata p, 4, [1]), (.ack p, 5, [2, 8]), (.aresult p, 6, [3])] →
      (forSource p kind = false ∨ answered s p kinds = none) → waits i s) ∧
    (forSource p 7 = true → runs (.reject p) s fun t => t = { s with fabric := { s.fabric with
      bobbin := s.fabric.bobbin.map fun d =>
        if d.sent && d.pkt.dst = p.src && d.pkt.seq = p.seq && d.pkt.addr = p.addr then { d with rejected := true }
        else d } }) ∧
    (∀ n d, s.fabric.bobbin[n]? = some d → (d.rejected = false → waits (.rejectResend n) s) ∧
      (let route := if usable s d.pkt.part d.pkt.dst d.route then some d.route else routeNow s d.pkt.part d.pkt.dst
       (route = none → waits (.rejectResend n) s) ∧
       ∀ k, d.rejected = true → route = some k → runs (.rejectResend n) s fun t => ∃ low,
        t.fabric.out = sealPacket { d.pkt with lowAck := low } :: s.fabric.out ∧ t.mem = s.mem ∧
        t.fabric.bobbin[n]? = some { d with rejected := false, route := k }))

/-- R405 to R407: a link that goes down moves CUR of the destinations that used it to their next route whose link is
up, with vector 3, and one that comes up moves it back; a packet that gets no answer is sent again on the next route
that it may use; the owner writes route-table entries. -/
def Sys2Proof.Claims.FabricRoutes : Prop :=
  ∀ (s : State) (port dest : Nat) (f : Func), fget s.funcs 0 = some f → rising s.fabric.routes = true →
    let moved := fun (t s1 : State) (p : Route → Bool) (from' : Route → Nat) => ∀ d r,
      fget s.fabric.routes d = some r → fget t.fabric.routes d = some
        (if p r then { r with cur := curFrom s1 r (from' r) } else r)
    (port ∈ s.fabric.down → waits (.linkDown port) s) ∧
    (port ∉ s.fabric.down → s.fabric.bobbin = [] → runs (.linkDown port) s fun t =>
      let s1 := { s with fabric := { s.fabric with down := ninsert s.fabric.down port } }
      t.fabric.down = s1.fabric.down ∧ t.mem = s.mem ∧
      fget t.funcs 0 = some { f with vectors := f.vectors ++ [3] } ∧
      moved t s1 (fun r => routePort r r.cur = some port) (·.cur + 1)) ∧
    (port ∉ s.fabric.down → waits (.linkUp port) s) ∧
    (port ∈ s.fabric.down → runs (.linkUp port) s fun t =>
      let s1 := { s with fabric := { s.fabric with down := s.fabric.down.filter (· ≠ port) } }
      t.fabric.down = s1.fabric.down ∧ t.mem = s.mem ∧ t.fabric.bobbin = s.fabric.bobbin ∧
      ∀ d r, fget s.fabric.routes d = some r →
        ((∀ k, k < 3 → routePort r k ≠ some port) → fget t.fabric.routes d = some r) ∧
        ∀ k, k < 3 → routePort r k = some port → (∀ j, j < k → routePort r j ≠ some port) →
          (r.cur ≤ k → fget t.fabric.routes d =
            some { r with failed := r.failed.filter fun n => routePort r n ≠ some port }) ∧
          (k < r.cur → let r1 := { r with failed := [] }
            fget t.fabric.routes d = some { r1 with cur := curFrom s1 r1 0 })) ∧
    ((∀ e ∈ s.fabric.bobbin, e.pkt.dst ≠ dest) → waits (.ackTimeout dest) s) ∧
    (∀ e r k, s.fabric.bobbin = [e] → e.pkt.dst = dest → e.sent = true → e.rejected = false →
      fget s.fabric.routes dest = some r →
      let r1 := { r with failed := ninsert r.failed e.route }
      let r2 := { r1 with cur := if e.route = r.cur then curFrom s r1 (r.cur + 1) else r.cur }
      let s1 := { s with fabric := { s.fabric with routes := fput s.fabric.routes dest r2 } }
      routeNow s1 e.pkt.part dest = some k → runs (.ackTimeout dest) s fun t =>
        (∀ d, fget t.fabric.routes d = fget s1.fabric.routes d) ∧
        t.fabric.bobbin = [{ e with route := k }] ∧ t.mem = s.mem ∧
        ∃ low, t.fabric.out = sealPacket { e.pkt with lowAck := low } :: s.fabric.out) ∧
    (∀ m v, isOwner s m = false → exec (.route m dest v) s = .next (dropMaster s m)) ∧
    (∀ m v, isOwner s m = true → (255 < dest ∨ dest = Config.moduleNo) → waits (.route m dest v) s) ∧
    (∀ m v, isOwner s m = true → dest ≤ 255 → dest ≠ Config.moduleNo → s.fabric.bobbin = [] →
      runs (.route m dest v) s fun t => t.mem = s.mem ∧ ∃ r, fget t.fabric.routes dest = some r ∧
        r.pri = v % 16 ∧ r.pv = v.testBit 4 ∧ r.alt1 = v / 2 ^ 5 % 16 ∧ r.a1v = v.testBit 9 ∧
        r.alt2 = v / 2 ^ 10 % 16 ∧ r.a2v = v.testBit 14 ∧ r.failed = [] ∧
        r.cur = curFrom s r 0)

/-- R402 to R407: the source side of the fabric. What the spec leaves open here is the model's choice: log entries
42, 63. -/
def Obligations.FabricSource : Prop := FabricResponses ∧ FabricRoutes

/-! ## Steps, reset and the form of memory -/

/-- R78, R97, R340: a step that issues a path fetches the word at its S-PC, from a copy on its die where one stands (R249), and
runs the instruction that it decodes to; a step of its lane pipeline runs the next word of the clause, and a step for an event
that event. What follows at once from a step is only what R249 and R410 say: nothing while no page has a duplicate and no result
waits for its check. What the spec leaves open here is the model's choice: log entry 2. -/
def Obligations.StepRunsDecoded : Prop :=
  ∀ (s : State) (u : Nat) (pf : Bool) (w : Warp) (rest : List Choice), fget s.warps u = some w →
    let s0 := { s with turn := s.turn + 1, agenda := rest }
    let s1 := { s0 with cur := { warp := u, path := pf } }
    let p := w.path pf
    let ran := fun (c : Choice) (i : Instr) (x : State) =>
      step s = (match exec i x with | .next t => .next (settle c s0 t) | y => y)
    (∀ c t, t.mgmt.dups = [] → (∀ v x, fget s.warps v = some x → x.a.last = none ∧ x.b.last = none) →
      settle c s0 t = t) ∧
    (∀ a i, s.agenda = .issue u pf :: rest → hasContext w = true → p.pend = none → watchdogDue w = false →
      mayIssue s w p = true → translate s1 (fetchReq s1 w p.priv) p.pc.toNat = .ok a → isLocal a = true →
      decodeTableWord 32 (rdLe s.mem (fromCopy s w.die a) 4) = some i →
      ran (.issue u pf) i s1) ∧
    (∀ c h i, s.agenda = .lane u pf :: rest → mayLane s w p = true → headClause p = some c → c.hdr = some h →
      c.started = true → decodeLane (some (h.setA, h.setB)) (c.body.getD (c.idx - 1) 0) = .ok i →
      ran (.lane u pf) i s1) ∧
    (∀ i, s.agenda = .event i :: rest → isEvent i = true → ran (.event i) i s0)

/-- R327, R321, R324, R199: the module after a cold start: nothing runs, storage reads zero in its canonical form,
the PF is ready with its registers clear, there is no owner, and the virtual dies are bound to the sites in order.
What the spec leaves open here is the model's choice: log entries 1, 6, 7, 8. -/
def Obligations.ResetState : Prop :=
  let s := State.reset
  s.warps = [] ∧ s.blocks = [] ∧ s.banks = [] ∧ s.ops = [] ∧ s.launches = [] ∧ memWf s.mem = true ∧
    (∀ a, rdByte s.mem a = 0) ∧ s.pois = [] ∧
    (∀ n, (fget s.funcs n).isSome = decide (n < 64)) ∧
    (∀ n f, fget s.funcs n = some f → f.enabled = decide (n = 0) ∧ f.ready = decide (n = 0) ∧ f.qerr = false ∧
      f.fqerr = false ∧ f.hvec = 0 ∧ f.lqEn = false ∧ f.lqHead = 0 ∧ f.lqTail = 0 ∧ f.gtOff = 0 ∧ f.gtMode = false ∧
      f.gtStop = false ∧ f.gtLast = 0 ∧ f.part = 0) ∧
    s.mgmt.own.owner = 0 ∧ s.mgmt.own.offer = none ∧ s.mgmt.vfEnable = false ∧
    s.bind = [(0, 0), (1, 1), (2, 2), (3, 3)] ∧ tablesRising s = true

/-- No step lists an address of memory twice, out of order, or with the byte that an unlisted address reads as:
equal memories are equal data. What the spec leaves open here is the model's choice: log entry 1. -/
def Obligations.MemoryStaysCanonical : Prop :=
  ∀ (s t : State), memWf s.mem = true → step s = .next t → memWf t.mem = true
end

