-- ==== Sys2Proof/Laws/Dispatch.lean ====
section
/-! SUPPORT. The arms of exec, one equation per constructor, so that no proof unfolds the dispatch. -/

namespace Sys2Proof.Machine

@[simp] theorem exec_add (d a b s) : exec (.add d a b) s = execAdd d a b s := rfl
@[simp] theorem exec_sub (d a b s) : exec (.sub d a b) s = execSub d a b s := rfl
@[simp] theorem exec_mul (d a b s) : exec (.mul d a b) s = execMul d a b s := rfl
@[simp] theorem exec_mulhI64 (d a b s) : exec (.mulhI64 d a b) s = execMulhI64 d a b s := rfl
@[simp] theorem exec_mulhN64 (d a b s) : exec (.mulhN64 d a b) s = execMulhN64 d a b s := rfl
@[simp] theorem exec_divI64 (d a b s) : exec (.divI64 d a b) s = execDivI64 d a b s := rfl
@[simp] theorem exec_divN64 (d a b s) : exec (.divN64 d a b) s = execDivN64 d a b s := rfl
@[simp] theorem exec_remI64 (d a b s) : exec (.remI64 d a b) s = execRemI64 d a b s := rfl
@[simp] theorem exec_remN64 (d a b s) : exec (.remN64 d a b) s = execRemN64 d a b s := rfl
@[simp] theorem exec_and (d a b s) : exec (.and d a b) s = execAnd d a b s := rfl
@[simp] theorem exec_or (d a b s) : exec (.or d a b) s = execOr d a b s := rfl
@[simp] theorem exec_xor (d a b s) : exec (.xor d a b) s = execXor d a b s := rfl
@[simp] theorem exec_andn (d a b s) : exec (.andn d a b) s = execAndn d a b s := rfl
@[simp] theorem exec_shl (d a b s) : exec (.shl d a b) s = execShl d a b s := rfl
@[simp] theorem exec_shr (d a b s) : exec (.shr d a b) s = execShr d a b s := rfl
@[simp] theorem exec_sra (d a b s) : exec (.sra d a b) s = execSra d a b s := rfl
@[simp] theorem exec_ror (d a b s) : exec (.ror d a b) s = execRor d a b s := rfl
@[simp] theorem exec_minI64 (d a b s) : exec (.minI64 d a b) s = execMinI64 d a b s := rfl
@[simp] theorem exec_minN64 (d a b s) : exec (.minN64 d a b) s = execMinN64 d a b s := rfl
@[simp] theorem exec_maxI64 (d a b s) : exec (.maxI64 d a b) s = execMaxI64 d a b s := rfl
@[simp] theorem exec_maxN64 (d a b s) : exec (.maxN64 d a b) s = execMaxN64 d a b s := rfl
@[simp] theorem exec_sltI64 (d a b s) : exec (.sltI64 d a b) s = execSltI64 d a b s := rfl
@[simp] theorem exec_sltN64 (d a b s) : exec (.sltN64 d a b) s = execSltN64 d a b s := rfl
@[simp] theorem exec_clz (d a s) : exec (.clz d a) s = execClz d a s := rfl
@[simp] theorem exec_popc (d a s) : exec (.popc d a) s = execPopc d a s := rfl
@[simp] theorem exec_sextI8 (d a s) : exec (.sextI8 d a) s = execSextI8 d a s := rfl
@[simp] theorem exec_sextI16 (d a s) : exec (.sextI16 d a) s = execSextI16 d a s := rfl
@[simp] theorem exec_sextI32 (d a s) : exec (.sextI32 d a) s = execSextI32 d a s := rfl
@[simp] theorem exec_zextN8 (d a s) : exec (.zextN8 d a) s = execZextN8 d a s := rfl
@[simp] theorem exec_zextN16 (d a s) : exec (.zextN16 d a) s = execZextN16 d a s := rfl
@[simp] theorem exec_zextN32 (d a s) : exec (.zextN32 d a) s = execZextN32 d a s := rfl
@[simp] theorem exec_brev (d a s) : exec (.brev d a) s = execBrev d a s := rfl
@[simp] theorem exec_nop (s) : exec .nop s = execNop s := rfl
@[simp] theorem exec_addi (d a imm s) : exec (.addi d a imm) s = execAddi d a imm s := rfl
@[simp] theorem exec_andi (d a imm s) : exec (.andi d a imm) s = execAndi d a imm s := rfl
@[simp] theorem exec_ori (d a imm s) : exec (.ori d a imm) s = execOri d a imm s := rfl
@[simp] theorem exec_xori (d a imm s) : exec (.xori d a imm) s = execXori d a imm s := rfl
@[simp] theorem exec_shli (d a sh s) : exec (.shli d a sh) s = execShli d a sh s := rfl
@[simp] theorem exec_shri (d a sh s) : exec (.shri d a sh) s = execShri d a sh s := rfl
@[simp] theorem exec_srai (d a sh s) : exec (.srai d a sh) s = execSrai d a sh s := rfl
@[simp] theorem exec_sltiI64 (d a imm s) : exec (.sltiI64 d a imm) s = execSltiI64 d a imm s := rfl
@[simp] theorem exec_sltiN64 (d a imm s) : exec (.sltiN64 d a imm) s = execSltiN64 d a imm s := rfl
@[simp] theorem exec_ldi (d pos imm s) : exec (.ldi d pos imm) s = execLdi d pos imm s := rfl
@[simp] theorem exec_ldiK (d pos imm s) : exec (.ldiK d pos imm) s = execLdiK d pos imm s := rfl
@[simp] theorem exec_b (off s) : exec (.b off) s = execB off s := rfl
@[simp] theorem exec_call (n off s) : exec (.call n off) s = execCall n off s := rfl
@[simp] theorem exec_ret (a s) : exec (.ret a) s = execRet a s := rfl
@[simp] theorem exec_brd (kn toff joff s) : exec (.brd kn toff joff) s = execBrd kn toff joff s := rfl
@[simp] theorem exec_join (s) : exec .join s = execJoin s := rfl
@[simp] theorem exec_loop (a off s) : exec (.loop a off) s = execLoop a off s := rfl
@[simp] theorem exec_exit (s) : exec .exit s = execExit s := rfl
@[simp] theorem exec_beq (a b off s) : exec (.beq a b off) s = execBeq a b off s := rfl
@[simp] theorem exec_bne (a b off s) : exec (.bne a b off) s = execBne a b off s := rfl
@[simp] theorem exec_blt (a b off s) : exec (.blt a b off) s = execBlt a b off s := rfl
@[simp] theorem exec_bge (a b off s) : exec (.bge a b off) s = execBge a b off s := rfl
@[simp] theorem exec_bltu (a b off s) : exec (.bltu a b off) s = execBltu a b off s := rfl
@[simp] theorem exec_bgeu (a b off s) : exec (.bgeu a b off) s = execBgeu a b off s := rfl
@[simp] theorem exec_kand (d a b s) : exec (.kand d a b) s = execKand d a b s := rfl
@[simp] theorem exec_kor (d a b s) : exec (.kor d a b) s = execKor d a b s := rfl
@[simp] theorem exec_kxor (d a b s) : exec (.kxor d a b) s = execKxor d a b s := rfl
@[simp] theorem exec_kandn (d a b s) : exec (.kandn d a b) s = execKandn d a b s := rfl
@[simp] theorem exec_knot (d a s) : exec (.knot d a) s = execKnot d a s := rfl
@[simp] theorem exec_kmov (d a s) : exec (.kmov d a) s = execKmov d a s := rfl
@[simp] theorem exec_ksetx (d n s) : exec (.ksetx d n) s = execKsetx d n s := rfl
@[simp] theorem exec_kgetx (n a s) : exec (.kgetx n a) s = execKgetx n a s := rfl
@[simp] theorem exec_vget (n vn lane s) : exec (.vget n vn lane) s = execVget n vn lane s := rfl
@[simp] theorem exec_vput (n vn lane s) : exec (.vput n vn lane) s = execVput n vn lane s := rfl
@[simp] theorem exec_runc (n off s) : exec (.runc n off) s = execRunc n off s := rfl
@[simp] theorem exec_waitf (mask s) : exec (.waitf mask) s = execWaitf mask s := rfl
@[simp] theorem exec_waitc (a ctr s) : exec (.waitc a ctr) s = execWaitc a ctr s := rfl
@[simp] theorem exec_barArrive (bn a s) : exec (.barArrive bn a) s = execBarArrive bn a s := rfl
@[simp] theorem exec_barWait (bn s) : exec (.barWait bn) s = execBarWait bn s := rfl
@[simp] theorem exec_barSync (bn a s) : exec (.barSync bn a) s = execBarSync bn a s := rfl
@[simp] theorem exec_lbarArrive (scope s) : exec (.lbarArrive scope) s = execLbarArrive scope s := rfl
@[simp] theorem exec_lbarWait (scope s) : exec (.lbarWait scope) s = execLbarWait scope s := rfl
@[simp] theorem exec_lbarSync (scope s) : exec (.lbarSync scope) s = execLbarSync scope s := rfl
@[simp] theorem exec_fence (scope s) : exec (.fence scope) s = execFence scope s := rfl
@[simp] theorem exec_claim (d a b s) : exec (.claim d a b) s = execClaim d a b s := rfl
@[simp] theorem exec_liveDead (vn cnt s) : exec (.liveDead vn cnt) s = execLiveDead vn cnt s := rfl
@[simp] theorem exec_liveHot (vn cnt s) : exec (.liveHot vn cnt) s = execLiveHot vn cnt s := rfl
@[simp] theorem exec_mark (s) : exec .mark s = execMark s := rfl
@[simp] theorem exec_poison (a b s) : exec (.poison a b) s = execPoison a b s := rfl
@[simp] theorem exec_launch (d a s) : exec (.launch d a) s = execLaunch d a s := rfl
@[simp] theorem exec_mma (d a b s) : exec (.mma d a b) s = execMma d a b s := rfl
@[simp] theorem exec_mmaZ (d a b s) : exec (.mmaZ d a b) s = execMmaZ d a b s := rfl
@[simp] theorem exec_accAlloc (d a s) : exec (.accAlloc d a) s = execAccAlloc d a s := rfl
@[simp] theorem exec_accFree (a s) : exec (.accFree a) s = execAccFree a s := rfl
@[simp] theorem exec_accZero (a s) : exec (.accZero a) s = execAccZero a s := rfl
@[simp] theorem exec_accDrain (a b s) : exec (.accDrain a b) s = execAccDrain a b s := rfl
@[simp] theorem exec_amv (d a b s) : exec (.amv d a b) s = execAmv d a b s := rfl
@[simp] theorem exec_amvT (d a b s) : exec (.amvT d a b) s = execAmvT d a b s := rfl
@[simp] theorem exec_trec (slot a s) : exec (.trec slot a) s = execTrec slot a s := rfl
@[simp] theorem exec_shCopy (d a b s) : exec (.shCopy d a b) s = execShCopy d a b s := rfl
@[simp] theorem exec_shFill (d a b s) : exec (.shFill d a b) s = execShFill d a b s := rfl
@[simp] theorem exec_shGather (d a b s) : exec (.shGather d a b) s = execShGather d a b s := rfl
@[simp] theorem exec_shClose (s) : exec .shClose s = execShClose s := rfl
@[simp] theorem exec_collAllreduce (d a b s) : exec (.collAllreduce d a b) s = execCollAllreduce d a b s := rfl
@[simp] theorem exec_collAllgather (d a b s) : exec (.collAllgather d a b) s = execCollAllgather d a b s := rfl
@[simp] theorem exec_collReducescatter (d a b s) :
    exec (.collReducescatter d a b) s = execCollReducescatter d a b s := rfl
@[simp] theorem exec_collAlltoall (d a b s) : exec (.collAlltoall d a b) s = execCollAlltoall d a b s := rfl
@[simp] theorem exec_trap (code s) : exec (.trap code) s = execTrap code s := rfl
@[simp] theorem exec_rets (s) : exec .rets s = execRets s := rfl
@[simp] theorem exec_retsSkip (s) : exec .retsSkip s = execRetsSkip s := rfl
@[simp] theorem exec_retsDecline (s) : exec .retsDecline s = execRetsDecline s := rfl
@[simp] theorem exec_sysrd (d a reg s) : exec (.sysrd d a reg) s = execSysrd d a reg s := rfl
@[simp] theorem exec_syswr (v a reg s) : exec (.syswr v a reg) s = execSyswr v a reg s := rfl
@[simp] theorem exec_tlbiAll (scope s) : exec (.tlbiAll scope) s = execTlbiAll scope s := rfl
@[simp] theorem exec_tlbiVa (d a scope s) : exec (.tlbiVa d a scope) s = execTlbiVa d a scope s := rfl
@[simp] theorem exec_tlbiAsid (a scope s) : exec (.tlbiAsid a scope) s = execTlbiAsid a scope s := rfl
@[simp] theorem exec_tlbiVmid (a scope s) : exec (.tlbiVmid a scope) s = execTlbiVmid a scope s := rfl
@[simp] theorem exec_ctxfl (d a s) : exec (.ctxfl d a) s = execCtxfl d a s := rfl
@[simp] theorem exec_ctxld (a s) : exec (.ctxld a) s = execCtxld a s := rfl
@[simp] theorem exec_quiesce (d a s) : exec (.quiesce d a) s = execQuiesce d a s := rfl
@[simp] theorem exec_retsave (d a s) : exec (.retsave d a) s = execRetsave d a s := rfl
@[simp] theorem exec_retload (d a s) : exec (.retload d a) s = execRetload d a s := rfl
@[simp] theorem exec_wdogSet (a s) : exec (.wdogSet a) s = execWdogSet a s := rfl
@[simp] theorem exec_wdogKick (s) : exec .wdogKick s = execWdogKick s := rfl
@[simp] theorem exec_brk (code s) : exec (.brk code) s = execBrk code s := rfl
@[simp] theorem exec_inject (d a s) : exec (.inject d a) s = execInject d a s := rfl
@[simp] theorem exec_gtime (d s) : exec (.gtime d) s = execGtime d s := rfl
@[simp] theorem exec_halt (s) : exec .halt s = execHalt s := rfl
@[simp] theorem exec_fadd (o s) : exec (.fadd o) s = execFadd o s := rfl
@[simp] theorem exec_fsub (o s) : exec (.fsub o) s = execFsub o s := rfl
@[simp] theorem exec_fmul (o s) : exec (.fmul o) s = execFmul o s := rfl
@[simp] theorem exec_ffma (o s) : exec (.ffma o) s = execFfma o s := rfl
@[simp] theorem exec_fmin (o s) : exec (.fmin o) s = execFmin o s := rfl
@[simp] theorem exec_fmax (o s) : exec (.fmax o) s = execFmax o s := rfl
@[simp] theorem exec_fcmp (o s) : exec (.fcmp o) s = execFcmp o s := rfl
@[simp] theorem exec_fabs (o s) : exec (.fabs o) s = execFabs o s := rfl
@[simp] theorem exec_fneg (o s) : exec (.fneg o) s = execFneg o s := rfl
@[simp] theorem exec_fcpys (o s) : exec (.fcpys o) s = execFcpys o s := rfl
@[simp] theorem exec_frcp (o s) : exec (.frcp o) s = execFrcp o s := rfl
@[simp] theorem exec_frsq (o s) : exec (.frsq o) s = execFrsq o s := rfl
@[simp] theorem exec_fsqrt (o s) : exec (.fsqrt o) s = execFsqrt o s := rfl
@[simp] theorem exec_flog2 (o s) : exec (.flog2 o) s = execFlog2 o s := rfl
@[simp] theorem exec_ftanh (o s) : exec (.ftanh o) s = execFtanh o s := rfl
@[simp] theorem exec_fexpf (o s) : exec (.fexpf o) s = execFexpf o s := rfl
@[simp] theorem exec_fscale (o s) : exec (.fscale o) s = execFscale o s := rfl
@[simp] theorem exec_frint (o s) : exec (.frint o) s = execFrint o s := rfl
@[simp] theorem exec_fclass (o s) : exec (.fclass o) s = execFclass o s := rfl
@[simp] theorem exec_cvt (o s) : exec (.cvt o) s = execCvt o s := rfl
@[simp] theorem exec_pack (o s) : exec (.pack o) s = execPack o s := rfl
@[simp] theorem exec_unpack (o s) : exec (.unpack o) s = execUnpack o s := rfl
@[simp] theorem exec_qnt (o s) : exec (.qnt o) s = execQnt o s := rfl
@[simp] theorem exec_dqnt (o s) : exec (.dqnt o) s = execDqnt o s := rfl
@[simp] theorem exec_iadd (o s) : exec (.iadd o) s = execIadd o s := rfl
@[simp] theorem exec_isub (o s) : exec (.isub o) s = execIsub o s := rfl
@[simp] theorem exec_imul (o s) : exec (.imul o) s = execImul o s := rfl
@[simp] theorem exec_imad (o s) : exec (.imad o) s = execImad o s := rfl
@[simp] theorem exec_imulh (o s) : exec (.imulh o) s = execImulh o s := rfl
@[simp] theorem exec_imin (o s) : exec (.imin o) s = execImin o s := rfl
@[simp] theorem exec_imax (o s) : exec (.imax o) s = execImax o s := rfl
@[simp] theorem exec_icmp (o s) : exec (.icmp o) s = execIcmp o s := rfl
@[simp] theorem exec_iabs (o s) : exec (.iabs o) s = execIabs o s := rfl
@[simp] theorem exec_isad (o s) : exec (.isad o) s = execIsad o s := rfl
@[simp] theorem exec_andB32 (o s) : exec (.andB32 o) s = execAndB32 o s := rfl
@[simp] theorem exec_orB32 (o s) : exec (.orB32 o) s = execOrB32 o s := rfl
@[simp] theorem exec_xorB32 (o s) : exec (.xorB32 o) s = execXorB32 o s := rfl
@[simp] theorem exec_notB32 (o s) : exec (.notB32 o) s = execNotB32 o s := rfl
@[simp] theorem exec_bool3 (o s) : exec (.bool3 o) s = execBool3 o s := rfl
@[simp] theorem exec_shlB32 (o s) : exec (.shlB32 o) s = execShlB32 o s := rfl
@[simp] theorem exec_shrN32 (o s) : exec (.shrN32 o) s = execShrN32 o s := rfl
@[simp] theorem exec_sraI32 (o s) : exec (.sraI32 o) s = execSraI32 o s := rfl
@[simp] theorem exec_popcB32 (o s) : exec (.popcB32 o) s = execPopcB32 o s := rfl
@[simp] theorem exec_clzB32 (o s) : exec (.clzB32 o) s = execClzB32 o s := rfl
@[simp] theorem exec_brevB32 (o s) : exec (.brevB32 o) s = execBrevB32 o s := rfl
@[simp] theorem exec_bfe (o s) : exec (.bfe o) s = execBfe o s := rfl
@[simp] theorem exec_bfi (o s) : exec (.bfi o) s = execBfi o s := rfl
@[simp] theorem exec_sel (o s) : exec (.sel o) s = execSel o s := rfl
@[simp] theorem exec_perm (o s) : exec (.perm o) s = execPerm o s := rfl
@[simp] theorem exec_dp4 (o s) : exec (.dp4 o) s = execDp4 o s := rfl
@[simp] theorem exec_dp8 (o s) : exec (.dp8 o) s = execDp8 o s := rfl
@[simp] theorem exec_mov (o s) : exec (.mov o) s = execMov o s := rfl
@[simp] theorem exec_shfl (o s) : exec (.shfl o) s = execShfl o s := rfl
@[simp] theorem exec_shflx (o s) : exec (.shflx o) s = execShflx o s := rfl
@[simp] theorem exec_bcst (o s) : exec (.bcst o) s = execBcst o s := rfl
@[simp] theorem exec_scan (o s) : exec (.scan o) s = execScan o s := rfl
@[simp] theorem exec_red (o s) : exec (.red o) s = execRed o s := rfl
@[simp] theorem exec_rng (o s) : exec (.rng o) s = execRng o s := rfl
@[simp] theorem exec_ldSp (o s) : exec (.ldSp o) s = execLdSp o s := rfl
@[simp] theorem exec_ldGs (o s) : exec (.ldGs o) s = execLdGs o s := rfl
@[simp] theorem exec_ldDm (o s) : exec (.ldDm o) s = execLdDm o s := rfl
@[simp] theorem exec_ldPv (o s) : exec (.ldPv o) s = execLdPv o s := rfl
@[simp] theorem exec_stSp (o s) : exec (.stSp o) s = execStSp o s := rfl
@[simp] theorem exec_stGs (o s) : exec (.stGs o) s = execStGs o s := rfl
@[simp] theorem exec_stDm (o s) : exec (.stDm o) s = execStDm o s := rfl
@[simp] theorem exec_stPv (o s) : exec (.stPv o) s = execStPv o s := rfl
@[simp] theorem exec_ldt (o s) : exec (.ldt o) s = execLdt o s := rfl
@[simp] theorem exec_atomAdd (o s) : exec (.atomAdd o) s = execAtomAdd o s := rfl
@[simp] theorem exec_atomMin (o s) : exec (.atomMin o) s = execAtomMin o s := rfl
@[simp] theorem exec_atomMax (o s) : exec (.atomMax o) s = execAtomMax o s := rfl
@[simp] theorem exec_atomAnd (o s) : exec (.atomAnd o) s = execAtomAnd o s := rfl
@[simp] theorem exec_atomOr (o s) : exec (.atomOr o) s = execAtomOr o s := rfl
@[simp] theorem exec_atomXor (o s) : exec (.atomXor o) s = execAtomXor o s := rfl
@[simp] theorem exec_atomExch (o s) : exec (.atomExch o) s = execAtomExch o s := rfl
@[simp] theorem exec_atomCas (o s) : exec (.atomCas o) s = execAtomCas o s := rfl
@[simp] theorem exec_atomIncb (o s) : exec (.atomIncb o) s = execAtomIncb o s := rfl
@[simp] theorem exec_atomFadd (o s) : exec (.atomFadd o) s = execAtomFadd o s := rfl
@[simp] theorem exec_malformedEncoding (detail s) :
    exec (.malformedEncoding detail) s = execMalformedEncoding detail s := rfl
@[simp] theorem exec_laneOpcodeUnassigned (opcode s) :
    exec (.laneOpcodeUnassigned opcode) s = execLaneOpcodeUnassigned opcode s := rfl
@[simp] theorem exec_instructionFetchFault (cause s) :
    exec (.instructionFetchFault cause) s = execInstructionFetchFault cause s := rfl
@[simp] theorem exec_clauseFetch (s) : exec .clauseFetch s = execClauseFetch s := rfl
@[simp] theorem exec_clauseStart (s) : exec .clauseStart s = execClauseStart s := rfl
@[simp] theorem exec_loadComplete (op lanes s) : exec (.loadComplete op lanes) s = execLoadComplete op lanes s := rfl
@[simp] theorem exec_storeComplete (op lanes s) :
    exec (.storeComplete op lanes) s = execStoreComplete op lanes s := rfl
@[simp] theorem exec_atomComplete (op s) : exec (.atomComplete op) s = execAtomComplete op s := rfl
@[simp] theorem exec_mmaStep (op s) : exec (.mmaStep op) s = execMmaStep op s := rfl
@[simp] theorem exec_accZeroRetire (op s) : exec (.accZeroRetire op) s = execAccZeroRetire op s := rfl
@[simp] theorem exec_accDrainRetire (op s) : exec (.accDrainRetire op) s = execAccDrainRetire op s := rfl
@[simp] theorem exec_amvRetire (op s) : exec (.amvRetire op) s = execAmvRetire op s := rfl
@[simp] theorem exec_shuttleTransfer (op item n s) :
    exec (.shuttleTransfer op item n) s = execShuttleTransfer op item n s := rfl
@[simp] theorem exec_shBatchComplete (op s) : exec (.shBatchComplete op) s = execShBatchComplete op s := rfl
@[simp] theorem exec_collComplete (op others s) :
    exec (.collComplete op others) s = execCollComplete op others s := rfl
@[simp] theorem exec_registerFill (warp reg s) : exec (.registerFill warp reg) s = execRegisterFill warp reg s := rfl
@[simp] theorem exec_trapEntry (warp path s) : exec (.trapEntry warp path) s = execTrapEntry warp path s := rfl
@[simp] theorem exec_supervisorRecordEntry (core s) :
    exec (.supervisorRecordEntry core) s = execSupervisorRecordEntry core s := rfl
@[simp] theorem exec_watchdogExpiry (warp s) : exec (.watchdogExpiry warp) s = execWatchdogExpiry warp s := rfl
@[simp] theorem exec_warpEnd (warp s) : exec (.warpEnd warp) s = execWarpEnd warp s := rfl
@[simp] theorem exec_spinDemotion (warp path s) :
    exec (.spinDemotion warp path) s = execSpinDemotion warp path s := rfl
@[simp] theorem exec_ringEntryConsume (fn s) : exec (.ringEntryConsume fn) s = execRingEntryConsume fn s := rfl
@[simp] theorem exec_launchAdmission (launch s) :
    exec (.launchAdmission launch) s = execLaunchAdmission launch s := rfl
@[simp] theorem exec_blockPlacement (die s) : exec (.blockPlacement die) s = execBlockPlacement die s := rfl
@[simp] theorem exec_blockSaveComplete (block s) :
    exec (.blockSaveComplete block) s = execBlockSaveComplete block s := rfl
@[simp] theorem exec_launchCompletionRecord (launch s) :
    exec (.launchCompletionRecord launch) s = execLaunchCompletionRecord launch s := rfl
@[simp] theorem exec_faultRecordWrite (fn s) : exec (.faultRecordWrite fn) s = execFaultRecordWrite fn s := rfl
@[simp] theorem exec_lodgePrime (core s) : exec (.lodgePrime core) s = execLodgePrime core s := rfl
@[simp] theorem exec_rinkExchange (core s) : exec (.rinkExchange core) s = execRinkExchange core s := rfl
@[simp] theorem exec_regionLeaveService (region s) :
    exec (.regionLeaveService region) s = execRegionLeaveService region s := rfl
@[simp] theorem exec_clusterQuiesced (die cluster s) :
    exec (.clusterQuiesced die cluster) s = execClusterQuiesced die cluster s := rfl
@[simp] theorem exec_clkackChange (die cluster s) :
    exec (.clkackChange die cluster) s = execClkackChange die cluster s := rfl
@[simp] theorem exec_railgoodChange (die cluster s) :
    exec (.railgoodChange die cluster) s = execRailgoodChange die cluster s := rfl
@[simp] theorem exec_patrolWake (die s) : exec (.patrolWake die) s = execPatrolWake die s := rfl
@[simp] theorem exec_vfClearComplete (fn s) : exec (.vfClearComplete fn) s = execVfClearComplete fn s := rfl
@[simp] theorem exec_freedPageZeroed (s) : exec .freedPageZeroed s = execFreedPageZeroed s := rfl
@[simp] theorem exec_rejectResend (entry s) : exec (.rejectResend entry) s = execRejectResend entry s := rfl
@[simp] theorem exec_preemptMarkTimeout (warp s) :
    exec (.preemptMarkTimeout warp) s = execPreemptMarkTimeout warp s := rfl
@[simp] theorem exec_tilesWritten (region s) : exec (.tilesWritten region) s = execTilesWritten region s := rfl
@[simp] theorem exec_ownerLapse (s) : exec .ownerLapse s = execOwnerLapse s := rfl
@[simp] theorem exec_offerTimeout (s) : exec .offerTimeout s = execOfferTimeout s := rfl
@[simp] theorem exec_lodgeAgeExchange (core s) : exec (.lodgeAgeExchange core) s = execLodgeAgeExchange core s := rfl
@[simp] theorem exec_checkerMismatch (warp path lane s) :
    exec (.checkerMismatch warp path lane) s = execCheckerMismatch warp path lane s := rfl
@[simp] theorem exec_replayQueueCheck (core entry mismatch s) :
    exec (.replayQueueCheck core entry mismatch) s = execReplayQueueCheck core entry mismatch s := rfl
@[simp] theorem exec_patrolScrub (addr uncorrectable s) :
    exec (.patrolScrub addr uncorrectable) s = execPatrolScrub addr uncorrectable s := rfl
@[simp] theorem exec_predictiveEvacuation (die pair s) :
    exec (.predictiveEvacuation die pair) s = execPredictiveEvacuation die pair s := rfl
@[simp] theorem exec_l1LineExpiry (core line s) :
    exec (.l1LineExpiry core line) s = execL1LineExpiry core line s := rfl
@[simp] theorem exec_launchDoorbell (fn value s) :
    exec (.launchDoorbell fn value) s = execLaunchDoorbell fn value s := rfl
@[simp] theorem exec_purge (fn tag cause s) : exec (.purge fn tag cause) s = execPurge fn tag cause s := rfl
@[simp] theorem exec_faultResponse (fn entry s) :
    exec (.faultResponse fn entry) s = execFaultResponse fn entry s := rfl
@[simp] theorem exec_fqerrClear (fn s) : exec (.fqerrClear fn) s = execFqerrClear fn s := rfl
@[simp] theorem exec_hotnessProposal (port part page src s) :
    exec (.hotnessProposal port part page src) s = execHotnessProposal port part page src s := rfl
@[simp] theorem exec_hotnessEpoch (port s) : exec (.hotnessEpoch port) s = execHotnessEpoch port s := rfl
@[simp] theorem exec_move (fn entry s) : exec (.move fn entry) s = execMove fn entry s := rfl
@[simp] theorem exec_dup (fn entry s) : exec (.dup fn entry) s = execDup fn entry s := rfl
@[simp] theorem exec_evict (fn entry s) : exec (.evict fn entry) s = execEvict fn entry s := rfl
@[simp] theorem exec_setxd (requester target d s) :
    exec (.setxd requester target d) s = execSetxd requester target d s := rfl
@[simp] theorem exec_shoot (src home s) : exec (.shoot src home) s = execShoot src home s := rfl
@[simp] theorem exec_ownerClaim (m s) : exec (.ownerClaim m) s = execOwnerClaim m s := rfl
@[simp] theorem exec_ownerRelease (m s) : exec (.ownerRelease m) s = execOwnerRelease m s := rfl
@[simp] theorem exec_ownerOffer (m target s) : exec (.ownerOffer m target) s = execOwnerOffer m target s := rfl
@[simp] theorem exec_ownerAccept (m s) : exec (.ownerAccept m) s = execOwnerAccept m s := rfl
@[simp] theorem exec_ownerWithdraw (m s) : exec (.ownerWithdraw m) s = execOwnerWithdraw m s := rfl
@[simp] theorem exec_ownerBeat (m s) : exec (.ownerBeat m) s = execOwnerBeat m s := rfl
@[simp] theorem exec_ownerInvalidCmd (m cmd s) : exec (.ownerInvalidCmd m cmd) s = execOwnerInvalidCmd m cmd s := rfl
@[simp] theorem exec_coldStart (s) : exec .coldStart s = execColdStart s := rfl
@[simp] theorem exec_warmStart (s) : exec .warmStart s = execWarmStart s := rfl
@[simp] theorem exec_vfEnableClear (s) : exec .vfEnableClear s = execVfEnableClear s := rfl
@[simp] theorem exec_flr (fn s) : exec (.flr fn) s = execFlr fn s := rfl
@[simp] theorem exec_gtctlApply (fn s) : exec (.gtctlApply fn) s = execGtctlApply fn s := rfl
@[simp] theorem exec_gtctlStop (fn stop s) : exec (.gtctlStop fn stop) s = execGtctlStop fn stop s := rfl
@[simp] theorem exec_registerWrite (fn offset value s) :
    exec (.registerWrite fn offset value) s = execRegisterWrite fn offset value s := rfl
@[simp] theorem exec_program (m region r s) : exec (.program m region r) s = execProgram m region r s := rfl
@[simp] theorem exec_offline (m region s) : exec (.offline m region) s = execOffline m region s := rfl
@[simp] theorem exec_online (m region s) : exec (.online m region) s = execOnline m region s := rfl
@[simp] theorem exec_grant (m region fn dest handle s) :
    exec (.grant m region fn dest handle) s = execGrant m region fn dest handle s := rfl
@[simp] theorem exec_revoke (m region fn s) : exec (.revoke m region fn) s = execRevoke m region fn s := rfl
@[simp] theorem exec_freeRegion (m region s) : exec (.freeRegion m region) s = execFreeRegion m region s := rfl
@[simp] theorem exec_tileVerify (region verified s) :
    exec (.tileVerify region verified) s = execTileVerify region verified s := rfl
@[simp] theorem exec_tailorProbe (region tile withinLimit s) :
    exec (.tailorProbe region tile withinLimit) s = execTailorProbe region tile withinLimit s := rfl
@[simp] theorem exec_probeDeadline (region tile s) :
    exec (.probeDeadline region tile) s = execProbeDeadline region tile s := rfl
@[simp] theorem exec_tailorPublish (region tile fit s) :
    exec (.tailorPublish region tile fit) s = execTailorPublish region tile fit s := rfl
@[simp] theorem exec_create (m part s) : exec (.create m part) s = execCreate m part s := rfl
@[simp] theorem exec_destroy (m part s) : exec (.destroy m part) s = execDestroy m part s := rfl
@[simp] theorem exec_cluster (m part die cluster s) :
    exec (.cluster m part die cluster) s = execCluster m part die cluster s := rfl
@[simp] theorem exec_funcJoin (m part fn s) : exec (.funcJoin m part fn) s = execFuncJoin m part fn s := rfl
@[simp] theorem exec_pages (m part first count s) :
    exec (.pages m part first count) s = execPages m part first count s := rfl
@[simp] theorem exec_port (m part port weight s) :
    exec (.port m part port weight) s = execPort m part port weight s := rfl
@[simp] theorem exec_qos (m part wdm wsh wan s) :
    exec (.qos m part wdm wsh wan) s = execQos m part wdm wsh wan s := rfl
@[simp] theorem exec_group (m part group members s) :
    exec (.group m part group members) s = execGroup m part group members s := rfl
@[simp] theorem exec_bind (m part pod remote s) :
    exec (.bind m part pod remote) s = execBind m part pod remote s := rfl
@[simp] theorem exec_getMeasurements (requester part viaOwner s) :
    exec (.getMeasurements requester part viaOwner) s = execGetMeasurements requester part viaOwner s := rfl
@[simp] theorem exec_remapMove (m die site s) : exec (.remapMove m die site) s = execRemapMove m die site s := rfl
@[simp] theorem exec_remapSwap (m d1 d2 s) : exec (.remapSwap m d1 d2) s = execRemapSwap m d1 d2 s := rfl
@[simp] theorem exec_wake (m die mask s) : exec (.wake m die mask) s = execWake m die mask s := rfl
@[simp] theorem exec_clctlClkreq (die cluster on s) :
    exec (.clctlClkreq die cluster on) s = execClctlClkreq die cluster on s := rfl
@[simp] theorem exec_clctlRailreq (die cluster on s) :
    exec (.clctlRailreq die cluster on) s = execClctlRailreq die cluster on s := rfl
@[simp] theorem exec_clctlResume (die cluster s) :
    exec (.clctlResume die cluster) s = execClctlResume die cluster s := rfl
@[simp] theorem exec_route (m dest entry s) : exec (.route m dest entry) s = execRoute m dest entry s := rfl
@[simp] theorem exec_read (p s) : exec (.read p) s = execRead p s := rfl
@[simp] theorem exec_write (p s) : exec (.write p) s = execWrite p s := rfl
@[simp] theorem exec_atomic (p s) : exec (.atomic p) s = execAtomic p s := rfl
@[simp] theorem exec_ewrite (p s) : exec (.ewrite p) s = execEwrite p s := rfl
@[simp] theorem exec_rdata (p s) : exec (.rdata p) s = execRdata p s := rfl
@[simp] theorem exec_ack (p s) : exec (.ack p) s = execAck p s := rfl
@[simp] theorem exec_aresult (p s) : exec (.aresult p) s = execAresult p s := rfl
@[simp] theorem exec_reject (p s) : exec (.reject p) s = execReject p s := rfl
@[simp] theorem exec_invalidPacket (port p s) : exec (.invalidPacket port p) s = execInvalidPacket port p s := rfl
@[simp] theorem exec_linkDown (port s) : exec (.linkDown port) s = execLinkDown port s := rfl
@[simp] theorem exec_ackTimeout (dest s) : exec (.ackTimeout dest) s = execAckTimeout dest s := rfl
@[simp] theorem exec_linkUp (port s) : exec (.linkUp port) s = execLinkUp port s := rfl
@[simp] theorem exec_shootAnswer (module home s) :
    exec (.shootAnswer module home) s = execShootAnswer module home s := rfl
@[simp] theorem exec_powerLoss (s) : exec .powerLoss s = execPowerLoss s := rfl

end Sys2Proof.Machine
end

