-- ==== Sys2Proof/Laws/Tables.lean ====
section
/-! SUPPORT. Sparse tables: what a read gives after each update, and that updates keep the keys rising. -/

namespace Sys2Proof.Machine

/-! ## Reads after updates -/

@[simp] theorem fget_nil {α : Type} (k : Nat) : fget ([] : FMap α) k = none := rfl

theorem fget_cons {α : Type} (i k : Nat) (u : α) (r : FMap α) :
    fget ((i, u) :: r) k = if i = k then some u else fget r k := rfl

theorem fget_fput {α : Type} (m : FMap α) (k j : Nat) (v : α) :
    fget (fput m k v) j = if j = k then some v else fget m j := by
  induction m with
  | nil => simp [fput, fget_cons, eq_comm]
  | cons e r ih =>
    obtain ⟨i, u⟩ := e
    simp only [fput]
    split
    · simp only [fget_cons]; split <;> simp_all [eq_comm]
    · split
      · simp only [fget_cons]; split <;> simp_all [eq_comm]
      · simp only [fget_cons, ih]; split <;> simp_all; omega

@[simp] theorem fget_fput_same {α : Type} (m : FMap α) (k : Nat) (v : α) : fget (fput m k v) k = some v := by
  simp [fget_fput]

theorem fget_fput_other {α : Type} (m : FMap α) {k j : Nat} (v : α) (h : j ≠ k) : fget (fput m k v) j = fget m j := by
  simp [fget_fput, h]

theorem fget_fdel {α : Type} (m : FMap α) (k j : Nat) : fget (fdel m k) j = if j = k then none else fget m j := by
  induction m with
  | nil => simp [fdel]
  | cons e r ih =>
    obtain ⟨i, u⟩ := e
    simp only [fdel]
    split
    · rw [ih]; simp only [fget_cons]; split <;> simp_all; omega
    · simp only [fget_cons, ih]; split <;> simp_all

theorem fgetD_fputD {α : Type} [DecidableEq α] (d : α) (m : FMap α) (k j : Nat) (v : α) :
    fgetD d (fputD d m k v) j = if j = k then v else fgetD d m j := by
  unfold fgetD fputD
  split
  · rw [fget_fdel]; split <;> simp_all
  · rw [fget_fput]; split <;> simp_all

@[simp] theorem fgetD_fputD_same {α : Type} [DecidableEq α] (d : α) (m : FMap α) (k : Nat) (v : α) :
    fgetD d (fputD d m k v) k = v := by simp [fgetD_fputD]

theorem fget_fmod {α : Type} (m : FMap α) (k j : Nat) (f : α → α) :
    fget (fmod m k f) j = if j = k then (fget m k).map f else fget m j := by
  unfold fmod
  split
  · split <;> simp_all
  · rw [fget_fput]; split <;> simp_all

theorem fget_fmap {α β : Type} (m : FMap α) (f : Nat → α → β) (k : Nat) :
    fget (fmap m f) k = (fget m k).map (f k) := by
  induction m with
  | nil => rfl
  | cons e r ih =>
    obtain ⟨i, u⟩ := e
    simp only [fmap, List.map_cons, fget_cons] at ih ⊢
    split
    · simp_all
    · exact ih

/-! ## Rising keys -/

theorem rising_tail {α : Type} {e : Nat × α} {r : FMap α} (h : rising (e :: r) = true) : rising r = true := by
  cases r with
  | nil => rfl
  | cons f r => simp only [rising, Bool.and_eq_true] at h; exact h.2

theorem rising_head {α : Type} {i : Nat} {u : α} {r : FMap α} (h : rising ((i, u) :: r) = true) :
    ∀ e ∈ r, i < e.1 := by
  induction r generalizing i u with
  | nil => simp
  | cons f r ih =>
    obtain ⟨j, v⟩ := f
    simp only [rising, Bool.and_eq_true, decide_eq_true_eq] at h
    intro e he
    rcases List.mem_cons.mp he with rfl | he
    · exact h.1
    · exact Nat.lt_trans h.1 (ih h.2 e he)

theorem rising_cons {α : Type} {i : Nat} {u : α} {r : FMap α} (h : rising r = true) (hi : ∀ e ∈ r, i < e.1) :
    rising ((i, u) :: r) = true := by
  cases r with
  | nil => rfl
  | cons f r => simp only [rising, Bool.and_eq_true, decide_eq_true_eq]; exact ⟨hi f (by simp), h⟩

theorem rising_filter {α : Type} (p : Nat × α → Bool) {m : FMap α} (h : rising m = true) :
    rising (m.filter p) = true := by
  induction m with
  | nil => rfl
  | cons e r ih =>
    obtain ⟨i, u⟩ := e
    rw [List.filter_cons]
    split
    · exact rising_cons (ih (rising_tail h)) fun e he => rising_head h e (List.mem_filter.mp he).1
    · exact ih (rising_tail h)

theorem mem_fput {α : Type} {m : FMap α} {k : Nat} {v : α} {e : Nat × α} (h : e ∈ fput m k v) : e = (k, v) ∨ e ∈ m := by
  induction m with
  | nil => simpa [fput] using h
  | cons f r ih =>
    obtain ⟨i, u⟩ := f
    simp only [fput] at h
    split at h
    · simpa using h
    · split at h
      · simp at h ⊢; tauto
      · simp only [List.mem_cons] at h ⊢
        rcases h with h | h
        · tauto
        · rcases ih h with h | h <;> tauto

theorem rising_fput {α : Type} {m : FMap α} (k : Nat) (v : α) (h : rising m = true) : rising (fput m k v) = true := by
  induction m with
  | nil => rfl
  | cons f r ih =>
    obtain ⟨i, u⟩ := f
    simp only [fput]
    split
    · rename_i hk
      exact rising_cons h fun e he => by
        rcases List.mem_cons.mp he with rfl | he
        · exact hk
        · exact Nat.lt_trans hk (rising_head h e he)
    · split
      · rename_i hk; subst hk
        exact rising_cons (rising_tail h) (rising_head h)
      · refine rising_cons (ih (rising_tail h)) fun e he => ?_
        rcases mem_fput he with rfl | he
        · dsimp only; omega
        · exact rising_head h e he

theorem fdel_eq_filter {α : Type} (m : FMap α) (k : Nat) : fdel m k = m.filter fun e => e.1 ≠ k := by
  induction m with
  | nil => rfl
  | cons f r ih =>
    obtain ⟨i, u⟩ := f
    simp only [fdel, List.filter_cons]
    split <;> simp_all

theorem rising_fdel {α : Type} {m : FMap α} (k : Nat) (h : rising m = true) : rising (fdel m k) = true := by
  rw [fdel_eq_filter]; exact rising_filter _ h

theorem rising_fmod {α : Type} {m : FMap α} (k : Nat) (f : α → α) (h : rising m = true) :
    rising (fmod m k f) = true := by
  unfold fmod
  split
  · exact h
  · exact rising_fput _ _ h

theorem rising_ffilter {α : Type} {m : FMap α} (p : Nat → α → Bool) (h : rising m = true) :
    rising (ffilter m p) = true := rising_filter _ h

theorem rising_fmap {α β : Type} {m : FMap α} (f : Nat → α → β) (h : rising m = true) :
    rising (fmap m f) = true := by
  induction m with
  | nil => rfl
  | cons e r ih =>
    obtain ⟨i, u⟩ := e
    refine rising_cons (ih (rising_tail h)) fun e he => ?_
    obtain ⟨x, hx, rfl⟩ := List.mem_map.mp he
    exact rising_head h x hx

end Sys2Proof.Machine
end

