-- ==== Sys2Proof/Laws/Memory.lean ====
section
/-! SUPPORT. Memory: reads after writes, and that every memory operation keeps the canonical form. -/

namespace Sys2Proof.Machine

/-! ## Reads after writes -/

theorem rdByte_wrByte (m : List Host.Cell) (a j : Nat) (b : Byte) :
    rdByte (wrByte m a b) j = if j = a then b else rdByte m j := fgetD_fputD 0 m a j b

theorem rdByte_wrBytes (m : List Host.Cell) (a j : Nat) (l : List Byte) :
    rdByte (wrBytes m a l) j = if a ≤ j ∧ j < a + l.length then l.getD (j - a) 0 else rdByte m j := by
  induction l generalizing m a with
  | nil => simp only [wrBytes, List.length_nil]; split <;> first | omega | rfl
  | cons b r ih =>
    rw [wrBytes, ih, rdByte_wrByte]
    simp only [List.length_cons]
    by_cases h : j = a
    · subst h; rw [if_neg (by omega), if_pos rfl, if_pos (by omega)]; simp
    · rw [if_neg h]
      by_cases hj : a + 1 ≤ j ∧ j < a + 1 + r.length
      · rw [if_pos hj, if_pos (by omega), show j - a = (j - (a + 1)) + 1 by omega, List.getD_cons_succ]
      · rw [if_neg hj, if_neg (by omega)]

/-- A byte outside the written range reads as before. -/
theorem rdByte_wrBytes_out (m : List Host.Cell) {a j : Nat} (l : List Byte) (h : j < a ∨ a + l.length ≤ j) :
    rdByte (wrBytes m a l) j = rdByte m j := by
  rw [rdByte_wrBytes, if_neg (by omega)]

@[simp] theorem length_leBytes (n v : Nat) : (leBytes n v).length = n := by
  induction n generalizing v with
  | zero => rfl
  | succ n ih => simp [leBytes, ih]

theorem leNat_leBytes (n v : Nat) : leNat (leBytes n v) = v % 256 ^ n := by
  induction n generalizing v with
  | zero => simp [leBytes, leNat, Nat.mod_one]
  | succ n ih =>
    rw [leBytes, leNat, ih, BitVec.toNat_ofNat, Nat.pow_succ' (m := 256) (n := n), Nat.mod_mul (a := 256)]

theorem rdBytes_eq_map (m : List Host.Cell) (a n : Nat) :
    rdBytes m a n = (List.range n).map fun i => rdByte m (a + i) := by
  induction n generalizing a with
  | zero => rfl
  | succ n ih =>
    rw [rdBytes, ih, List.range_succ_eq_map, List.map_cons, List.map_map]
    congr 1
    apply List.map_congr_left
    intro i _
    simp only [Function.comp]; congr 1; omega

theorem rdBytes_wrBytes (m : List Host.Cell) (a : Nat) (l : List Byte) : rdBytes (wrBytes m a l) a l.length = l := by
  rw [rdBytes_eq_map]
  apply List.ext_getElem (by simp)
  intro i h1 h2
  simp only [List.getElem_map, List.getElem_range, rdByte_wrBytes]
  rw [if_pos (by omega), show a + i - a = i by omega, List.getD_eq_getElem?_getD, List.getElem?_eq_getElem h2]
  rfl

/-- R8: an n-byte value reads back as written. -/
theorem rdLe_wrLe (m : List Host.Cell) (a n v : Nat) : rdLe (wrLe m a n v) a n = v % 256 ^ n := by
  have h := rdBytes_wrBytes m a (leBytes n v)
  rw [length_leBytes] at h
  rw [rdLe, wrLe, h, leNat_leBytes]

/-! ## The canonical form -/

theorem memWf_iff (m : List Host.Cell) : memWf m = true ↔ rising m = true ∧ ∀ c ∈ m, c.2 ≠ 0 := by
  simp [memWf]

theorem memWf_nil : memWf [] = true := rfl

theorem memWf_filter (p : Host.Cell → Bool) {m : List Host.Cell} (h : memWf m = true) : memWf (m.filter p) = true := by
  rw [memWf_iff] at h ⊢
  exact ⟨rising_filter p h.1, fun c hc => h.2 c (List.mem_filter.mp hc).1⟩

theorem memWf_wrByte {m : List Host.Cell} (a : Nat) (b : Byte) (h : memWf m = true) : memWf (wrByte m a b) = true := by
  unfold wrByte fputD
  split
  · rw [fdel_eq_filter]; exact memWf_filter _ h
  · rename_i hb
    rw [memWf_iff] at h ⊢
    refine ⟨rising_fput a b h.1, fun c hc => ?_⟩
    rcases mem_fput hc with rfl | hc
    · exact hb
    · exact h.2 c hc

theorem memWf_wrBytes {m : List Host.Cell} (a : Nat) (l : List Byte) (h : memWf m = true) :
    memWf (wrBytes m a l) = true := by
  induction l generalizing m a with
  | nil => exact h
  | cons b r ih => exact ih (a + 1) (memWf_wrByte a b h)

theorem memWf_wrLe {m : List Host.Cell} (a n v : Nat) (h : memWf m = true) : memWf (wrLe m a n v) = true :=
  memWf_wrBytes a _ h

theorem memWf_zeroRange {m : List Host.Cell} (a n : Nat) (h : memWf m = true) : memWf (zeroRange m a n) = true :=
  memWf_filter _ h

theorem memWf_overlay {m : List Host.Cell} (l : List Host.Cell) (h : memWf m = true) : memWf (overlay m l) = true := by
  induction l generalizing m with
  | nil => exact h
  | cons c r ih => exact ih (memWf_wrByte c.1 c.2 h)

theorem memWf_copyRange {m : List Host.Cell} (a b n : Nat) (h : memWf m = true) : memWf (copyRange m a b n) = true :=
  memWf_overlay _ (memWf_zeroRange b n h)

/-- Two canonical memories that read alike are equal. -/
theorem memWf_ext {m n : List Host.Cell} (hm : memWf m = true) (hn : memWf n = true)
    (h : ∀ a, rdByte m a = rdByte n a) : m = n := by
  induction m generalizing n with
  | nil =>
    cases n with
    | nil => rfl
    | cons c r =>
      have := h c.1
      rw [memWf_iff] at hn
      simp only [rdByte, fgetD, fget_nil, Option.getD_none] at this
      rw [fget_cons, if_pos rfl] at this
      exact absurd this.symm (hn.2 c (by simp))
  | cons c r ih =>
    obtain ⟨i, u⟩ := c
    cases n with
    | nil =>
      have := h i
      rw [memWf_iff] at hm
      simp only [rdByte, fgetD, fget_nil, Option.getD_none, fget_cons, if_true, Option.getD_some] at this
      exact absurd this (hm.2 (i, u) (by simp))
    | cons d q =>
      obtain ⟨j, v⟩ := d
      rw [memWf_iff] at hm hn
      have miss : ∀ {k : Nat} {x : Byte} {l : List Host.Cell}, rising ((k, x) :: l) = true →
          ∀ a, a ≤ k → rdByte l a = 0 := by
        intro k x l hl a ha
        have : ∀ {l : List Host.Cell}, (∀ e ∈ l, a < e.1) → fget l a = none := by
          intro l; induction l with
          | nil => intro _; rfl
          | cons e l ih =>
            intro hl
            obtain ⟨b, y⟩ := e
            have h0 := hl (b, y) (by simp)
            dsimp only at h0
            rw [fget_cons, if_neg (by omega)]
            exact ih fun e he => hl e (by simp [he])
        simp only [rdByte, fgetD, this fun e he => Nat.lt_of_le_of_lt ha (rising_head hl e he), Option.getD_none]
      have key : ∀ {k : Nat} {x : Byte} {l : List Host.Cell} (a : Nat),
          rdByte ((k, x) :: l) a = if k = a then x else rdByte l a := by
        intro k x l a; simp only [rdByte, fgetD, fget_cons]; split <;> rfl
      have hij : i = j := by
        rcases Nat.lt_trichotomy i j with hlt | heq | hlt
        · have := h i
          rw [key, key, if_pos rfl, if_neg (by omega), miss hn.1 i (by omega)] at this
          exact absurd this (hm.2 (i, u) (by simp))
        · exact heq
        · have := h j
          rw [key, key, if_pos rfl, if_neg (by omega), miss hm.1 j (by omega)] at this
          exact absurd this.symm (hn.2 (j, v) (by simp))
      subst hij
      have huv : u = v := by have := h i; rwa [key, key, if_pos rfl, if_pos rfl] at this
      subst huv
      congr 1
      refine ih ((memWf_iff _).mpr ⟨rising_tail hm.1, fun e he => hm.2 e (by simp [he])⟩)
        ((memWf_iff _).mpr ⟨rising_tail hn.1, fun e he => hn.2 e (by simp [he])⟩) fun a => ?_
      by_cases ha : i = a
      · subst ha; rw [miss hm.1 i (by omega), miss hn.1 i (by omega)]
      · have := h a; rwa [key, key, if_neg ha, if_neg ha] at this

end Sys2Proof.Machine
end

