-- ==== Sys2Proof/Machine/Image.lean ====
section
/-! DEFINITION. The bytes of a saved block's image (R359 to R362), computed from what the block keeps. No access reaches
these bytes (R359), so the state holds the values and not their encoding. -/

namespace Sys2Proof.Machine

/-- Bytes that are 0. -/
def zeroBytes (n : Nat) : List Byte := List.replicate n 0

/-- R360: the image header. -/
def imageHeader (l : Launch) (k : Block) (m : Image) : List Byte :=
  leBytes 8 l.id.toNat ++ leBytes 4 k.index ++ leBytes 1 l.lrec.bwarps ++ leBytes 1 l.lrec.nbar ++ leBytes 1 m.vdie ++
    leBytes 1 m.banks.length ++ leBytes 4 l.lrec.spbytes ++ leBytes 2 l.lrec.tag ++ leBytes 1 m.nheld ++
    leBytes 1 0 ++ leBytes 8 m.size ++ zeroBytes 32

/-- R156, R359: BSTATE of the named barriers, 4 bytes each. -/
def imageBars (k : Block) : List Byte :=
  (List.range 32).flatMap fun n => leBytes 4 (barWord (fgetD Bar.fresh k.bars n))

/-- R177: a tensor record in its 64 bytes. -/
def trecBytes (t : TRec) : List Byte :=
  leBytes 8 t.base ++ leBytes 1 t.space ++ leBytes 1 t.esize ++ leBytes 1 t.rank ++ leBytes 1 0 ++ leBytes 2 t.pod ++
    leBytes 2 0 ++ ((List.range 4).flatMap fun d => leBytes 4 (t.dims.getD d 0)) ++
    (List.range 4).flatMap fun d => leBytes 8 (w64 (t.strides.getD d 0)).toNat

/-- R359: the tensor-record slots; an empty one is all zero. -/
def imageRecs (k : Block) : List Byte :=
  (List.range 16).flatMap fun n => (fget k.recs n).elim (zeroBytes 64) trecBytes

/-- R173, R359: the sequencer records, 80 bytes each; an empty one is all zero. -/
def imageSeqs (k : Block) : List Byte :=
  (List.range 16).flatMap fun n => (fget k.seqs n).elim (zeroBytes 80) fun e => leBytes 80 (seqWord e.2)

/-- R361: the directory entry of a held bank, whose band code gives 2^code bands; all zero for a bank not held. -/
def bankEntry (x : Option Bank) : List Byte :=
  match x with
  | none => zeroBytes 16
  | some b =>
    leBytes 1 (1 + 2 * b.band) ++
      ((List.range 8).flatMap fun i => leBytes 1 (if i < 2 ^ b.band then fgetD 0xFF b.claims i else 0)) ++ zeroBytes 7

/-- R361: the bank directory. -/
def imageDirectory (m : Image) : List Byte := (List.range 64).flatMap fun n => bankEntry (fget m.banks n)

/-- R362: a warp's entry. -/
def warpEntryBytes (e : WEntry) : List Byte :=
  leBytes 4 e.pend.toNat ++ leBytes 4 e.aph.toNat ++ (e.cntA.flatMap (leBytes 1)) ++ (e.cntB.flatMap (leBytes 1)) ++
    leBytes 1 e.status ++ leBytes 1 (b2n e.nidem + 2 * b2n e.held) ++ leBytes 4 e.wdlim ++ leBytes 4 e.hwm ++
    leBytes 4 e.hoff ++ zeroBytes 4

/-- R359: the warp entries, 32 bytes per warp. -/
def imageEntries (m : Image) : List Byte :=
  (List.range 64).flatMap fun n => (fget m.entries n).elim (zeroBytes 32) warpEntryBytes

/-- R359: a held bank, row by row. -/
def bankBytes (b : Bank) : List Byte := (List.range 1024).flatMap fun i => leBytes 4 (fgetD 0 b.vals i).toNat

/-- Bytes filled with 0 up to a length. -/
def padTo (n : Nat) (l : List Byte) : List Byte := l ++ zeroBytes (n - l.length)

/-- R110, R359: a held clause, 592 bytes: its address, captured masks, captured x values and captured privilege. -/
def clauseBytes (c : Clause) : List Byte :=
  leBytes 8 c.addr.toNat ++ ((List.range 16).flatMap fun i => leBytes 4 (fgetD 0 c.k i).toNat) ++
    ((List.range 64).flatMap fun i => leBytes 8 (fgetD 0 c.x i).toNat) ++ leBytes 8 c.priv.toNat

/-- R359: the cause record of a path that holds state: that which has entered xs0 to xs4 where its handler runs, and that of
the trap that enters next. -/
def causeRecord (w : Warp) (pf : Bool) : List W64 :=
  let p := w.path pf
  match p.held with
  | some h => h.record
  | none => p.pend.elim [] (recordWords w pf)

/-- R359: one path's half of a held-state area, 10 KiB: k0, PRIV, L, the cause record, and the held
clauses. The rule names the content; the order and the padding are the model's (DESIGN CHOICE, log entry 100). -/
def heldHalf (w : Warp) (pf : Bool) : List Byte :=
  let p := w.path pf
  let (k0, priv, lbase, q) := match p.held with
    | some h => (h.k0, h.priv, h.lbase, h.queue)
    | none => (p.k0, p.priv, p.lbase, p.queue)
  padTo 10240 (leBytes 4 k0.toNat ++ leBytes 4 priv.toNat ++ leBytes 8 lbase.toNat ++
    padTo 40 ((causeRecord w pf).flatMap fun v => leBytes 8 v.toNat) ++ leBytes 8 q.length ++ (q.take 16).flatMap clauseBytes)

/-- R359: the held-state areas of a saved block, 20 KiB each, in ascending warp order. -/
def imageHeld (s : State) (b : Nat) (m : Image) : List Byte :=
  m.entries.flatMap fun e =>
    if !e.2.held then []
    else match (blockWarps s b).find? fun x => x.2.idx = e.1 with
    | some (_, w) => heldHalf w false ++ heldHalf w true
    | none => zeroBytes 20480

/-- R359: the image of a saved block. -/
def imageBytes (s : State) (b : Nat) : Option (List Byte) :=
  match fget s.blocks b with
  | none => none
  | some k =>
    match k.img, fget s.launches k.launch with
    | some m, some l =>
      some (imageHeader l k m ++ imageBars k ++ imageRecs k ++ imageSeqs k ++ imageDirectory m ++ imageEntries m ++
        zeroBytes 2624 ++ (m.banks.flatMap fun e => bankBytes e.2) ++ rdBytes k.sp 0 l.lrec.spbytes ++ imageHeld s b m)
    | _, _ => none

end Sys2Proof.Machine
end

