-- ==== Sys2Proof/Laws/Image.lean ====
section
/-! SUPPORT. The sizes of the parts of a saved block's image (R359): each part begins where the table puts it. -/

namespace Sys2Proof.Machine

theorem imageHeader_length (l : Launch) (k : Block) (m : Image) : (imageHeader l k m).length = 64 := by
  simp [imageHeader, zeroBytes, length_leBytes]

theorem flatMap_length_const {α : Type} (f : α → List Byte) (c : Nat) (h : ∀ a, (f a).length = c) (l : List α) :
    (l.flatMap f).length = l.length * c := by
  induction l with
  | nil => simp
  | cons a r ih => simp [h, ih, Nat.add_mul, Nat.add_comm]

theorem imageBars_length (k : Block) : (imageBars k).length = 128 := by
  rw [imageBars, flatMap_length_const _ 4 fun n => length_leBytes _ _, List.length_range]

theorem trecBytes_length (t : TRec) : (trecBytes t).length = 64 := by
  simp [trecBytes, length_leBytes, flatMap_length_const _ 4 (fun n => length_leBytes 4 _),
    flatMap_length_const _ 8 (fun n => length_leBytes 8 _)]

theorem imageRecs_length (k : Block) : (imageRecs k).length = 1024 := by
  have h := flatMap_length_const (fun n => (fget k.recs n).elim (zeroBytes 64) trecBytes) 64
    (fun n => by cases fget k.recs n <;> simp [zeroBytes, trecBytes_length]) (List.range 16)
  simpa [imageRecs] using h

theorem imageSeqs_length (k : Block) : (imageSeqs k).length = 1280 := by
  have h := flatMap_length_const (fun n => (fget k.seqs n).elim (zeroBytes 80) fun e => leBytes 80 (seqWord e.2)) 80
    (fun n => by cases fget k.seqs n <;> simp [zeroBytes, length_leBytes]) (List.range 16)
  simpa [imageSeqs] using h

theorem bankEntry_length (x : Option Bank) : (bankEntry x).length = 16 := by
  cases x with
  | none => rfl
  | some b => simp [bankEntry, zeroBytes, length_leBytes, flatMap_length_const _ 1 (fun n => length_leBytes 1 _)]

theorem imageDirectory_length (m : Image) : (imageDirectory m).length = 1024 := by
  simpa [imageDirectory] using flatMap_length_const _ 16 (fun n => bankEntry_length _) (List.range 64)

theorem warpEntryBytes_length (e : WEntry) (ha : e.cntA.length = 3) (hb : e.cntB.length = 3) :
    (warpEntryBytes e).length = 32 := by
  simp [warpEntryBytes, zeroBytes, length_leBytes, flatMap_length_const _ 1 (fun n => length_leBytes 1 _), ha, hb]

theorem bankBytes_length (b : Bank) : (bankBytes b).length = 4096 := by
  rw [bankBytes, flatMap_length_const _ 4 fun n => length_leBytes _ _, List.length_range]
end Sys2Proof.Machine
end

