-- ==== Sys2Proof/Laws/State.lean ====
section
/-! SUPPORT. What each named update of the state does to each field: one lemma per field, true by rfl. -/

namespace Sys2Proof.Machine

@[simp] theorem putWarp_mem (s : State) (u : Nat) (w : Warp) : (putWarp s u w).mem = s.mem := rfl
@[simp] theorem putWarp_pois (s : State) (u : Nat) (w : Warp) : (putWarp s u w).pois = s.pois := rfl
@[simp] theorem putWarp_warps (s : State) (u : Nat) (w : Warp) : (putWarp s u w).warps = fput s.warps u w := rfl
@[simp] theorem putWarp_blocks (s : State) (u : Nat) (w : Warp) : (putWarp s u w).blocks = s.blocks := rfl
@[simp] theorem putWarp_banks (s : State) (u : Nat) (w : Warp) : (putWarp s u w).banks = s.banks := rfl
@[simp] theorem putWarp_ops (s : State) (u : Nat) (w : Warp) : (putWarp s u w).ops = s.ops := rfl
@[simp] theorem putWarp_launches (s : State) (u : Nat) (w : Warp) : (putWarp s u w).launches = s.launches := rfl
@[simp] theorem putWarp_funcs (s : State) (u : Nat) (w : Warp) : (putWarp s u w).funcs = s.funcs := rfl
@[simp] theorem putWarp_cores (s : State) (u : Nat) (w : Warp) : (putWarp s u w).cores = s.cores := rfl
@[simp] theorem putWarp_sites (s : State) (u : Nat) (w : Warp) : (putWarp s u w).sites = s.sites := rfl
@[simp] theorem putWarp_bind (s : State) (u : Nat) (w : Warp) : (putWarp s u w).bind = s.bind := rfl
@[simp] theorem putWarp_power (s : State) (u : Nat) (w : Warp) : (putWarp s u w).power = s.power := rfl
@[simp] theorem putWarp_arrays (s : State) (u : Nat) (w : Warp) : (putWarp s u w).arrays = s.arrays := rfl
@[simp] theorem putWarp_fabric (s : State) (u : Nat) (w : Warp) : (putWarp s u w).fabric = s.fabric := rfl
@[simp] theorem putWarp_parts (s : State) (u : Nat) (w : Warp) : (putWarp s u w).parts = s.parts := rfl
@[simp] theorem putWarp_mgmt (s : State) (u : Nat) (w : Warp) : (putWarp s u w).mgmt = s.mgmt := rfl
@[simp] theorem putWarp_next (s : State) (u : Nat) (w : Warp) : (putWarp s u w).next = s.next := rfl
@[simp] theorem putWarp_free (s : State) (u : Nat) (w : Warp) : (putWarp s u w).free = s.free := rfl
@[simp] theorem putWarp_cur (s : State) (u : Nat) (w : Warp) : (putWarp s u w).cur = s.cur := rfl
@[simp] theorem putWarp_turn (s : State) (u : Nat) (w : Warp) : (putWarp s u w).turn = s.turn := rfl
@[simp] theorem putWarp_agenda (s : State) (u : Nat) (w : Warp) : (putWarp s u w).agenda = s.agenda := rfl

@[simp] theorem modWarp_mem (s : State) (u : Nat) (f : Warp → Warp) : (modWarp s u f).mem = s.mem := rfl
@[simp] theorem modWarp_pois (s : State) (u : Nat) (f : Warp → Warp) : (modWarp s u f).pois = s.pois := rfl
@[simp] theorem modWarp_warps (s : State) (u : Nat) (f : Warp → Warp) : (modWarp s u f).warps = fmod s.warps u f := rfl
@[simp] theorem modWarp_blocks (s : State) (u : Nat) (f : Warp → Warp) : (modWarp s u f).blocks = s.blocks := rfl
@[simp] theorem modWarp_banks (s : State) (u : Nat) (f : Warp → Warp) : (modWarp s u f).banks = s.banks := rfl
@[simp] theorem modWarp_ops (s : State) (u : Nat) (f : Warp → Warp) : (modWarp s u f).ops = s.ops := rfl
@[simp] theorem modWarp_launches (s : State) (u : Nat) (f : Warp → Warp) : (modWarp s u f).launches = s.launches := rfl
@[simp] theorem modWarp_funcs (s : State) (u : Nat) (f : Warp → Warp) : (modWarp s u f).funcs = s.funcs := rfl
@[simp] theorem modWarp_cores (s : State) (u : Nat) (f : Warp → Warp) : (modWarp s u f).cores = s.cores := rfl
@[simp] theorem modWarp_sites (s : State) (u : Nat) (f : Warp → Warp) : (modWarp s u f).sites = s.sites := rfl
@[simp] theorem modWarp_bind (s : State) (u : Nat) (f : Warp → Warp) : (modWarp s u f).bind = s.bind := rfl
@[simp] theorem modWarp_power (s : State) (u : Nat) (f : Warp → Warp) : (modWarp s u f).power = s.power := rfl
@[simp] theorem modWarp_arrays (s : State) (u : Nat) (f : Warp → Warp) : (modWarp s u f).arrays = s.arrays := rfl
@[simp] theorem modWarp_fabric (s : State) (u : Nat) (f : Warp → Warp) : (modWarp s u f).fabric = s.fabric := rfl
@[simp] theorem modWarp_parts (s : State) (u : Nat) (f : Warp → Warp) : (modWarp s u f).parts = s.parts := rfl
@[simp] theorem modWarp_mgmt (s : State) (u : Nat) (f : Warp → Warp) : (modWarp s u f).mgmt = s.mgmt := rfl
@[simp] theorem modWarp_next (s : State) (u : Nat) (f : Warp → Warp) : (modWarp s u f).next = s.next := rfl
@[simp] theorem modWarp_free (s : State) (u : Nat) (f : Warp → Warp) : (modWarp s u f).free = s.free := rfl
@[simp] theorem modWarp_cur (s : State) (u : Nat) (f : Warp → Warp) : (modWarp s u f).cur = s.cur := rfl
@[simp] theorem modWarp_turn (s : State) (u : Nat) (f : Warp → Warp) : (modWarp s u f).turn = s.turn := rfl
@[simp] theorem modWarp_agenda (s : State) (u : Nat) (f : Warp → Warp) : (modWarp s u f).agenda = s.agenda := rfl

@[simp] theorem modFunc_mem (s : State) (n : Nat) (f : Func → Func) : (modFunc s n f).mem = s.mem := rfl
@[simp] theorem modFunc_pois (s : State) (n : Nat) (f : Func → Func) : (modFunc s n f).pois = s.pois := rfl
@[simp] theorem modFunc_warps (s : State) (n : Nat) (f : Func → Func) : (modFunc s n f).warps = s.warps := rfl
@[simp] theorem modFunc_blocks (s : State) (n : Nat) (f : Func → Func) : (modFunc s n f).blocks = s.blocks := rfl
@[simp] theorem modFunc_banks (s : State) (n : Nat) (f : Func → Func) : (modFunc s n f).banks = s.banks := rfl
@[simp] theorem modFunc_ops (s : State) (n : Nat) (f : Func → Func) : (modFunc s n f).ops = s.ops := rfl
@[simp] theorem modFunc_launches (s : State) (n : Nat) (f : Func → Func) : (modFunc s n f).launches = s.launches := rfl
@[simp] theorem modFunc_funcs (s : State) (n : Nat) (f : Func → Func) : (modFunc s n f).funcs = fmod s.funcs n f := rfl
@[simp] theorem modFunc_cores (s : State) (n : Nat) (f : Func → Func) : (modFunc s n f).cores = s.cores := rfl
@[simp] theorem modFunc_sites (s : State) (n : Nat) (f : Func → Func) : (modFunc s n f).sites = s.sites := rfl
@[simp] theorem modFunc_bind (s : State) (n : Nat) (f : Func → Func) : (modFunc s n f).bind = s.bind := rfl
@[simp] theorem modFunc_power (s : State) (n : Nat) (f : Func → Func) : (modFunc s n f).power = s.power := rfl
@[simp] theorem modFunc_arrays (s : State) (n : Nat) (f : Func → Func) : (modFunc s n f).arrays = s.arrays := rfl
@[simp] theorem modFunc_fabric (s : State) (n : Nat) (f : Func → Func) : (modFunc s n f).fabric = s.fabric := rfl
@[simp] theorem modFunc_parts (s : State) (n : Nat) (f : Func → Func) : (modFunc s n f).parts = s.parts := rfl
@[simp] theorem modFunc_mgmt (s : State) (n : Nat) (f : Func → Func) : (modFunc s n f).mgmt = s.mgmt := rfl
@[simp] theorem modFunc_next (s : State) (n : Nat) (f : Func → Func) : (modFunc s n f).next = s.next := rfl
@[simp] theorem modFunc_free (s : State) (n : Nat) (f : Func → Func) : (modFunc s n f).free = s.free := rfl
@[simp] theorem modFunc_cur (s : State) (n : Nat) (f : Func → Func) : (modFunc s n f).cur = s.cur := rfl
@[simp] theorem modFunc_turn (s : State) (n : Nat) (f : Func → Func) : (modFunc s n f).turn = s.turn := rfl
@[simp] theorem modFunc_agenda (s : State) (n : Nat) (f : Func → Func) : (modFunc s n f).agenda = s.agenda := rfl

@[simp] theorem pushRec_mem (s : State) (n : Nat) (r : FRec) : (pushRec s n r).mem = s.mem := rfl
@[simp] theorem pushRec_pois (s : State) (n : Nat) (r : FRec) : (pushRec s n r).pois = s.pois := rfl
@[simp] theorem pushRec_warps (s : State) (n : Nat) (r : FRec) : (pushRec s n r).warps = s.warps := rfl
@[simp] theorem pushRec_blocks (s : State) (n : Nat) (r : FRec) : (pushRec s n r).blocks = s.blocks := rfl
@[simp] theorem pushRec_banks (s : State) (n : Nat) (r : FRec) : (pushRec s n r).banks = s.banks := rfl
@[simp] theorem pushRec_ops (s : State) (n : Nat) (r : FRec) : (pushRec s n r).ops = s.ops := rfl
@[simp] theorem pushRec_launches (s : State) (n : Nat) (r : FRec) : (pushRec s n r).launches = s.launches := rfl
@[simp] theorem pushRec_funcs (s : State) (n : Nat) (r : FRec) : (pushRec s n r).funcs = fmod s.funcs n fun f => { f with fqWait := f.fqWait ++ [r] } := rfl
@[simp] theorem pushRec_cores (s : State) (n : Nat) (r : FRec) : (pushRec s n r).cores = s.cores := rfl
@[simp] theorem pushRec_sites (s : State) (n : Nat) (r : FRec) : (pushRec s n r).sites = s.sites := rfl
@[simp] theorem pushRec_bind (s : State) (n : Nat) (r : FRec) : (pushRec s n r).bind = s.bind := rfl
@[simp] theorem pushRec_power (s : State) (n : Nat) (r : FRec) : (pushRec s n r).power = s.power := rfl
@[simp] theorem pushRec_arrays (s : State) (n : Nat) (r : FRec) : (pushRec s n r).arrays = s.arrays := rfl
@[simp] theorem pushRec_fabric (s : State) (n : Nat) (r : FRec) : (pushRec s n r).fabric = s.fabric := rfl
@[simp] theorem pushRec_parts (s : State) (n : Nat) (r : FRec) : (pushRec s n r).parts = s.parts := rfl
@[simp] theorem pushRec_mgmt (s : State) (n : Nat) (r : FRec) : (pushRec s n r).mgmt = s.mgmt := rfl
@[simp] theorem pushRec_next (s : State) (n : Nat) (r : FRec) : (pushRec s n r).next = s.next := rfl
@[simp] theorem pushRec_free (s : State) (n : Nat) (r : FRec) : (pushRec s n r).free = s.free := rfl
@[simp] theorem pushRec_cur (s : State) (n : Nat) (r : FRec) : (pushRec s n r).cur = s.cur := rfl
@[simp] theorem pushRec_turn (s : State) (n : Nat) (r : FRec) : (pushRec s n r).turn = s.turn := rfl
@[simp] theorem pushRec_agenda (s : State) (n : Nat) (r : FRec) : (pushRec s n r).agenda = s.agenda := rfl

@[simp] theorem park_mem (s : State) (u : Nat) : (park s u).mem = s.mem := rfl
@[simp] theorem park_pois (s : State) (u : Nat) : (park s u).pois = s.pois := rfl
@[simp] theorem park_warps (s : State) (u : Nat) : (park s u).warps = fmod s.warps u fun w => { w with st := .parked } := rfl
@[simp] theorem park_blocks (s : State) (u : Nat) : (park s u).blocks = s.blocks := rfl
@[simp] theorem park_banks (s : State) (u : Nat) : (park s u).banks = s.banks := rfl
@[simp] theorem park_ops (s : State) (u : Nat) : (park s u).ops = s.ops := rfl
@[simp] theorem park_launches (s : State) (u : Nat) : (park s u).launches = s.launches := rfl
@[simp] theorem park_funcs (s : State) (u : Nat) : (park s u).funcs = s.funcs := rfl
@[simp] theorem park_cores (s : State) (u : Nat) : (park s u).cores = s.cores := rfl
@[simp] theorem park_sites (s : State) (u : Nat) : (park s u).sites = s.sites := rfl
@[simp] theorem park_bind (s : State) (u : Nat) : (park s u).bind = s.bind := rfl
@[simp] theorem park_power (s : State) (u : Nat) : (park s u).power = s.power := rfl
@[simp] theorem park_arrays (s : State) (u : Nat) : (park s u).arrays = s.arrays := rfl
@[simp] theorem park_fabric (s : State) (u : Nat) : (park s u).fabric = s.fabric := rfl
@[simp] theorem park_parts (s : State) (u : Nat) : (park s u).parts = s.parts := rfl
@[simp] theorem park_mgmt (s : State) (u : Nat) : (park s u).mgmt = s.mgmt := rfl
@[simp] theorem park_next (s : State) (u : Nat) : (park s u).next = s.next := rfl
@[simp] theorem park_free (s : State) (u : Nat) : (park s u).free = s.free := rfl
@[simp] theorem park_cur (s : State) (u : Nat) : (park s u).cur = s.cur := rfl
@[simp] theorem park_turn (s : State) (u : Nat) : (park s u).turn = s.turn := rfl
@[simp] theorem park_agenda (s : State) (u : Nat) : (park s u).agenda = s.agenda := rfl

@[simp] theorem dropOp_mem (s : State) (i : Nat) : (dropOp s i).mem = s.mem := rfl
@[simp] theorem dropOp_pois (s : State) (i : Nat) : (dropOp s i).pois = s.pois := rfl
@[simp] theorem dropOp_warps (s : State) (i : Nat) : (dropOp s i).warps = s.warps := rfl
@[simp] theorem dropOp_blocks (s : State) (i : Nat) : (dropOp s i).blocks = s.blocks := rfl
@[simp] theorem dropOp_banks (s : State) (i : Nat) : (dropOp s i).banks = s.banks := rfl
@[simp] theorem dropOp_ops (s : State) (i : Nat) : (dropOp s i).ops = s.ops.filter fun o => o.id ≠ i := rfl
@[simp] theorem dropOp_launches (s : State) (i : Nat) : (dropOp s i).launches = s.launches := rfl
@[simp] theorem dropOp_funcs (s : State) (i : Nat) : (dropOp s i).funcs = s.funcs := rfl
@[simp] theorem dropOp_cores (s : State) (i : Nat) : (dropOp s i).cores = s.cores := rfl
@[simp] theorem dropOp_sites (s : State) (i : Nat) : (dropOp s i).sites = s.sites := rfl
@[simp] theorem dropOp_bind (s : State) (i : Nat) : (dropOp s i).bind = s.bind := rfl
@[simp] theorem dropOp_power (s : State) (i : Nat) : (dropOp s i).power = s.power := rfl
@[simp] theorem dropOp_arrays (s : State) (i : Nat) : (dropOp s i).arrays = s.arrays := rfl
@[simp] theorem dropOp_fabric (s : State) (i : Nat) : (dropOp s i).fabric = s.fabric := rfl
@[simp] theorem dropOp_parts (s : State) (i : Nat) : (dropOp s i).parts = s.parts := rfl
@[simp] theorem dropOp_mgmt (s : State) (i : Nat) : (dropOp s i).mgmt = s.mgmt := rfl
@[simp] theorem dropOp_next (s : State) (i : Nat) : (dropOp s i).next = s.next := rfl
@[simp] theorem dropOp_free (s : State) (i : Nat) : (dropOp s i).free = s.free := rfl
@[simp] theorem dropOp_cur (s : State) (i : Nat) : (dropOp s i).cur = s.cur := rfl
@[simp] theorem dropOp_turn (s : State) (i : Nat) : (dropOp s i).turn = s.turn := rfl
@[simp] theorem dropOp_agenda (s : State) (i : Nat) : (dropOp s i).agenda = s.agenda := rfl

@[simp] theorem setOp_mem (s : State) (i : Nat) (b : OpBody) : (setOp s i b).mem = s.mem := rfl
@[simp] theorem setOp_pois (s : State) (i : Nat) (b : OpBody) : (setOp s i b).pois = s.pois := rfl
@[simp] theorem setOp_warps (s : State) (i : Nat) (b : OpBody) : (setOp s i b).warps = s.warps := rfl
@[simp] theorem setOp_blocks (s : State) (i : Nat) (b : OpBody) : (setOp s i b).blocks = s.blocks := rfl
@[simp] theorem setOp_banks (s : State) (i : Nat) (b : OpBody) : (setOp s i b).banks = s.banks := rfl
@[simp] theorem setOp_ops (s : State) (i : Nat) (b : OpBody) : (setOp s i b).ops = s.ops.map fun o => if o.id = i then { o with body := b } else o := rfl
@[simp] theorem setOp_launches (s : State) (i : Nat) (b : OpBody) : (setOp s i b).launches = s.launches := rfl
@[simp] theorem setOp_funcs (s : State) (i : Nat) (b : OpBody) : (setOp s i b).funcs = s.funcs := rfl
@[simp] theorem setOp_cores (s : State) (i : Nat) (b : OpBody) : (setOp s i b).cores = s.cores := rfl
@[simp] theorem setOp_sites (s : State) (i : Nat) (b : OpBody) : (setOp s i b).sites = s.sites := rfl
@[simp] theorem setOp_bind (s : State) (i : Nat) (b : OpBody) : (setOp s i b).bind = s.bind := rfl
@[simp] theorem setOp_power (s : State) (i : Nat) (b : OpBody) : (setOp s i b).power = s.power := rfl
@[simp] theorem setOp_arrays (s : State) (i : Nat) (b : OpBody) : (setOp s i b).arrays = s.arrays := rfl
@[simp] theorem setOp_fabric (s : State) (i : Nat) (b : OpBody) : (setOp s i b).fabric = s.fabric := rfl
@[simp] theorem setOp_parts (s : State) (i : Nat) (b : OpBody) : (setOp s i b).parts = s.parts := rfl
@[simp] theorem setOp_mgmt (s : State) (i : Nat) (b : OpBody) : (setOp s i b).mgmt = s.mgmt := rfl
@[simp] theorem setOp_next (s : State) (i : Nat) (b : OpBody) : (setOp s i b).next = s.next := rfl
@[simp] theorem setOp_free (s : State) (i : Nat) (b : OpBody) : (setOp s i b).free = s.free := rfl
@[simp] theorem setOp_cur (s : State) (i : Nat) (b : OpBody) : (setOp s i b).cur = s.cur := rfl
@[simp] theorem setOp_turn (s : State) (i : Nat) (b : OpBody) : (setOp s i b).turn = s.turn := rfl
@[simp] theorem setOp_agenda (s : State) (i : Nat) (b : OpBody) : (setOp s i b).agenda = s.agenda := rfl

@[simp] theorem splitOps_mem (s : State) (u : Nat) : (splitOps s u).mem = s.mem := rfl
@[simp] theorem splitOps_pois (s : State) (u : Nat) : (splitOps s u).pois = s.pois := rfl
@[simp] theorem splitOps_warps (s : State) (u : Nat) : (splitOps s u).warps = s.warps := rfl
@[simp] theorem splitOps_blocks (s : State) (u : Nat) : (splitOps s u).blocks = s.blocks := rfl
@[simp] theorem splitOps_banks (s : State) (u : Nat) : (splitOps s u).banks = s.banks := rfl
@[simp] theorem splitOps_launches (s : State) (u : Nat) : (splitOps s u).launches = s.launches := rfl
@[simp] theorem splitOps_funcs (s : State) (u : Nat) : (splitOps s u).funcs = s.funcs := rfl
@[simp] theorem splitOps_cores (s : State) (u : Nat) : (splitOps s u).cores = s.cores := rfl
@[simp] theorem splitOps_sites (s : State) (u : Nat) : (splitOps s u).sites = s.sites := rfl
@[simp] theorem splitOps_bind (s : State) (u : Nat) : (splitOps s u).bind = s.bind := rfl
@[simp] theorem splitOps_power (s : State) (u : Nat) : (splitOps s u).power = s.power := rfl
@[simp] theorem splitOps_arrays (s : State) (u : Nat) : (splitOps s u).arrays = s.arrays := rfl
@[simp] theorem splitOps_fabric (s : State) (u : Nat) : (splitOps s u).fabric = s.fabric := rfl
@[simp] theorem splitOps_parts (s : State) (u : Nat) : (splitOps s u).parts = s.parts := rfl
@[simp] theorem splitOps_mgmt (s : State) (u : Nat) : (splitOps s u).mgmt = s.mgmt := rfl
@[simp] theorem splitOps_next (s : State) (u : Nat) : (splitOps s u).next = s.next := rfl
@[simp] theorem splitOps_free (s : State) (u : Nat) : (splitOps s u).free = s.free := rfl
@[simp] theorem splitOps_cur (s : State) (u : Nat) : (splitOps s u).cur = s.cur := rfl
@[simp] theorem splitOps_turn (s : State) (u : Nat) : (splitOps s u).turn = s.turn := rfl
@[simp] theorem splitOps_agenda (s : State) (u : Nat) : (splitOps s u).agenda = s.agenda := rfl

@[simp] theorem mergeOps_mem (s : State) (u : Nat) : (mergeOps s u).mem = s.mem := rfl
@[simp] theorem mergeOps_pois (s : State) (u : Nat) : (mergeOps s u).pois = s.pois := rfl
@[simp] theorem mergeOps_warps (s : State) (u : Nat) : (mergeOps s u).warps = s.warps := rfl
@[simp] theorem mergeOps_blocks (s : State) (u : Nat) : (mergeOps s u).blocks = s.blocks := rfl
@[simp] theorem mergeOps_banks (s : State) (u : Nat) : (mergeOps s u).banks = s.banks := rfl
@[simp] theorem mergeOps_launches (s : State) (u : Nat) : (mergeOps s u).launches = s.launches := rfl
@[simp] theorem mergeOps_funcs (s : State) (u : Nat) : (mergeOps s u).funcs = s.funcs := rfl
@[simp] theorem mergeOps_cores (s : State) (u : Nat) : (mergeOps s u).cores = s.cores := rfl
@[simp] theorem mergeOps_sites (s : State) (u : Nat) : (mergeOps s u).sites = s.sites := rfl
@[simp] theorem mergeOps_bind (s : State) (u : Nat) : (mergeOps s u).bind = s.bind := rfl
@[simp] theorem mergeOps_power (s : State) (u : Nat) : (mergeOps s u).power = s.power := rfl
@[simp] theorem mergeOps_arrays (s : State) (u : Nat) : (mergeOps s u).arrays = s.arrays := rfl
@[simp] theorem mergeOps_fabric (s : State) (u : Nat) : (mergeOps s u).fabric = s.fabric := rfl
@[simp] theorem mergeOps_parts (s : State) (u : Nat) : (mergeOps s u).parts = s.parts := rfl
@[simp] theorem mergeOps_mgmt (s : State) (u : Nat) : (mergeOps s u).mgmt = s.mgmt := rfl
@[simp] theorem mergeOps_next (s : State) (u : Nat) : (mergeOps s u).next = s.next := rfl
@[simp] theorem mergeOps_free (s : State) (u : Nat) : (mergeOps s u).free = s.free := rfl
@[simp] theorem mergeOps_cur (s : State) (u : Nat) : (mergeOps s u).cur = s.cur := rfl
@[simp] theorem mergeOps_turn (s : State) (u : Nat) : (mergeOps s u).turn = s.turn := rfl
@[simp] theorem mergeOps_agenda (s : State) (u : Nat) : (mergeOps s u).agenda = s.agenda := rfl

@[simp] theorem issueOp_mem (s : State) (u : Nat) (p : Bool) (k : Nat) (g : Option Nat) (b : OpBody) : (issueOp s u p k g b).mem = s.mem := rfl
@[simp] theorem issueOp_pois (s : State) (u : Nat) (p : Bool) (k : Nat) (g : Option Nat) (b : OpBody) : (issueOp s u p k g b).pois = s.pois := rfl
@[simp] theorem issueOp_warps (s : State) (u : Nat) (p : Bool) (k : Nat) (g : Option Nat) (b : OpBody) : (issueOp s u p k g b).warps = s.warps := rfl
@[simp] theorem issueOp_blocks (s : State) (u : Nat) (p : Bool) (k : Nat) (g : Option Nat) (b : OpBody) : (issueOp s u p k g b).blocks = s.blocks := rfl
@[simp] theorem issueOp_banks (s : State) (u : Nat) (p : Bool) (k : Nat) (g : Option Nat) (b : OpBody) : (issueOp s u p k g b).banks = s.banks := rfl
@[simp] theorem issueOp_ops (s : State) (u : Nat) (p : Bool) (k : Nat) (g : Option Nat) (b : OpBody) : (issueOp s u p k g b).ops = s.ops ++ [{ id := s.next, warp := u, block := k, ownA := !p, ownB := p, flag := g, body := b }] := rfl
@[simp] theorem issueOp_launches (s : State) (u : Nat) (p : Bool) (k : Nat) (g : Option Nat) (b : OpBody) : (issueOp s u p k g b).launches = s.launches := rfl
@[simp] theorem issueOp_funcs (s : State) (u : Nat) (p : Bool) (k : Nat) (g : Option Nat) (b : OpBody) : (issueOp s u p k g b).funcs = s.funcs := rfl
@[simp] theorem issueOp_cores (s : State) (u : Nat) (p : Bool) (k : Nat) (g : Option Nat) (b : OpBody) : (issueOp s u p k g b).cores = s.cores := rfl
@[simp] theorem issueOp_sites (s : State) (u : Nat) (p : Bool) (k : Nat) (g : Option Nat) (b : OpBody) : (issueOp s u p k g b).sites = s.sites := rfl
@[simp] theorem issueOp_bind (s : State) (u : Nat) (p : Bool) (k : Nat) (g : Option Nat) (b : OpBody) : (issueOp s u p k g b).bind = s.bind := rfl
@[simp] theorem issueOp_power (s : State) (u : Nat) (p : Bool) (k : Nat) (g : Option Nat) (b : OpBody) : (issueOp s u p k g b).power = s.power := rfl
@[simp] theorem issueOp_arrays (s : State) (u : Nat) (p : Bool) (k : Nat) (g : Option Nat) (b : OpBody) : (issueOp s u p k g b).arrays = s.arrays := rfl
@[simp] theorem issueOp_fabric (s : State) (u : Nat) (p : Bool) (k : Nat) (g : Option Nat) (b : OpBody) : (issueOp s u p k g b).fabric = s.fabric := rfl
@[simp] theorem issueOp_parts (s : State) (u : Nat) (p : Bool) (k : Nat) (g : Option Nat) (b : OpBody) : (issueOp s u p k g b).parts = s.parts := rfl
@[simp] theorem issueOp_mgmt (s : State) (u : Nat) (p : Bool) (k : Nat) (g : Option Nat) (b : OpBody) : (issueOp s u p k g b).mgmt = s.mgmt := rfl
@[simp] theorem issueOp_next (s : State) (u : Nat) (p : Bool) (k : Nat) (g : Option Nat) (b : OpBody) : (issueOp s u p k g b).next = s.next + 1 := rfl
@[simp] theorem issueOp_free (s : State) (u : Nat) (p : Bool) (k : Nat) (g : Option Nat) (b : OpBody) : (issueOp s u p k g b).free = s.free := rfl
@[simp] theorem issueOp_cur (s : State) (u : Nat) (p : Bool) (k : Nat) (g : Option Nat) (b : OpBody) : (issueOp s u p k g b).cur = s.cur := rfl
@[simp] theorem issueOp_turn (s : State) (u : Nat) (p : Bool) (k : Nat) (g : Option Nat) (b : OpBody) : (issueOp s u p k g b).turn = s.turn := rfl
@[simp] theorem issueOp_agenda (s : State) (u : Nat) (p : Bool) (k : Nat) (g : Option Nat) (b : OpBody) : (issueOp s u p k g b).agenda = s.agenda := rfl

@[simp] theorem addMeter_mem (s : State) (p i n : Nat) : (addMeter s p i n).mem = s.mem := rfl
@[simp] theorem addMeter_pois (s : State) (p i n : Nat) : (addMeter s p i n).pois = s.pois := rfl
@[simp] theorem addMeter_warps (s : State) (p i n : Nat) : (addMeter s p i n).warps = s.warps := rfl
@[simp] theorem addMeter_blocks (s : State) (p i n : Nat) : (addMeter s p i n).blocks = s.blocks := rfl
@[simp] theorem addMeter_banks (s : State) (p i n : Nat) : (addMeter s p i n).banks = s.banks := rfl
@[simp] theorem addMeter_ops (s : State) (p i n : Nat) : (addMeter s p i n).ops = s.ops := rfl
@[simp] theorem addMeter_launches (s : State) (p i n : Nat) : (addMeter s p i n).launches = s.launches := rfl
@[simp] theorem addMeter_funcs (s : State) (p i n : Nat) : (addMeter s p i n).funcs = s.funcs := rfl
@[simp] theorem addMeter_cores (s : State) (p i n : Nat) : (addMeter s p i n).cores = s.cores := rfl
@[simp] theorem addMeter_sites (s : State) (p i n : Nat) : (addMeter s p i n).sites = s.sites := rfl
@[simp] theorem addMeter_bind (s : State) (p i n : Nat) : (addMeter s p i n).bind = s.bind := rfl
@[simp] theorem addMeter_power (s : State) (p i n : Nat) : (addMeter s p i n).power = s.power := rfl
@[simp] theorem addMeter_arrays (s : State) (p i n : Nat) : (addMeter s p i n).arrays = s.arrays := rfl
@[simp] theorem addMeter_fabric (s : State) (p i n : Nat) : (addMeter s p i n).fabric = s.fabric := rfl
@[simp] theorem addMeter_mgmt (s : State) (p i n : Nat) : (addMeter s p i n).mgmt = s.mgmt := rfl
@[simp] theorem addMeter_next (s : State) (p i n : Nat) : (addMeter s p i n).next = s.next := rfl
@[simp] theorem addMeter_free (s : State) (p i n : Nat) : (addMeter s p i n).free = s.free := rfl
@[simp] theorem addMeter_cur (s : State) (p i n : Nat) : (addMeter s p i n).cur = s.cur := rfl
@[simp] theorem addMeter_turn (s : State) (p i n : Nat) : (addMeter s p i n).turn = s.turn := rfl
@[simp] theorem addMeter_agenda (s : State) (p i n : Nat) : (addMeter s p i n).agenda = s.agenda := rfl

@[simp] theorem raiseVector_mem (s : State) (n v : Nat) : (raiseVector s n v).mem = s.mem := rfl
@[simp] theorem raiseVector_pois (s : State) (n v : Nat) : (raiseVector s n v).pois = s.pois := rfl
@[simp] theorem raiseVector_warps (s : State) (n v : Nat) : (raiseVector s n v).warps = s.warps := rfl
@[simp] theorem raiseVector_blocks (s : State) (n v : Nat) : (raiseVector s n v).blocks = s.blocks := rfl
@[simp] theorem raiseVector_banks (s : State) (n v : Nat) : (raiseVector s n v).banks = s.banks := rfl
@[simp] theorem raiseVector_ops (s : State) (n v : Nat) : (raiseVector s n v).ops = s.ops := rfl
@[simp] theorem raiseVector_launches (s : State) (n v : Nat) : (raiseVector s n v).launches = s.launches := rfl
@[simp] theorem raiseVector_funcs (s : State) (n v : Nat) : (raiseVector s n v).funcs = fmod s.funcs n fun f => { f with vectors := f.vectors ++ [v] } := rfl
@[simp] theorem raiseVector_cores (s : State) (n v : Nat) : (raiseVector s n v).cores = s.cores := rfl
@[simp] theorem raiseVector_sites (s : State) (n v : Nat) : (raiseVector s n v).sites = s.sites := rfl
@[simp] theorem raiseVector_bind (s : State) (n v : Nat) : (raiseVector s n v).bind = s.bind := rfl
@[simp] theorem raiseVector_power (s : State) (n v : Nat) : (raiseVector s n v).power = s.power := rfl
@[simp] theorem raiseVector_arrays (s : State) (n v : Nat) : (raiseVector s n v).arrays = s.arrays := rfl
@[simp] theorem raiseVector_fabric (s : State) (n v : Nat) : (raiseVector s n v).fabric = s.fabric := rfl
@[simp] theorem raiseVector_parts (s : State) (n v : Nat) : (raiseVector s n v).parts = s.parts := rfl
@[simp] theorem raiseVector_mgmt (s : State) (n v : Nat) : (raiseVector s n v).mgmt = s.mgmt := rfl
@[simp] theorem raiseVector_next (s : State) (n v : Nat) : (raiseVector s n v).next = s.next := rfl
@[simp] theorem raiseVector_free (s : State) (n v : Nat) : (raiseVector s n v).free = s.free := rfl
@[simp] theorem raiseVector_cur (s : State) (n v : Nat) : (raiseVector s n v).cur = s.cur := rfl
@[simp] theorem raiseVector_turn (s : State) (n v : Nat) : (raiseVector s n v).turn = s.turn := rfl
@[simp] theorem raiseVector_agenda (s : State) (n v : Nat) : (raiseVector s n v).agenda = s.agenda := rfl

@[simp] theorem l1Drop_mem (s : State) (p : L1Line → Bool) : (l1Drop s p).mem = s.mem := rfl
@[simp] theorem l1Drop_pois (s : State) (p : L1Line → Bool) : (l1Drop s p).pois = s.pois := rfl
@[simp] theorem l1Drop_warps (s : State) (p : L1Line → Bool) : (l1Drop s p).warps = s.warps := rfl
@[simp] theorem l1Drop_blocks (s : State) (p : L1Line → Bool) : (l1Drop s p).blocks = s.blocks := rfl
@[simp] theorem l1Drop_banks (s : State) (p : L1Line → Bool) : (l1Drop s p).banks = s.banks := rfl
@[simp] theorem l1Drop_ops (s : State) (p : L1Line → Bool) : (l1Drop s p).ops = s.ops := rfl
@[simp] theorem l1Drop_launches (s : State) (p : L1Line → Bool) : (l1Drop s p).launches = s.launches := rfl
@[simp] theorem l1Drop_funcs (s : State) (p : L1Line → Bool) : (l1Drop s p).funcs = s.funcs := rfl
@[simp] theorem l1Drop_cores (s : State) (p : L1Line → Bool) : (l1Drop s p).cores = { s.cores with l1 := s.cores.l1.filter fun l => !p l } := rfl
@[simp] theorem l1Drop_sites (s : State) (p : L1Line → Bool) : (l1Drop s p).sites = s.sites := rfl
@[simp] theorem l1Drop_bind (s : State) (p : L1Line → Bool) : (l1Drop s p).bind = s.bind := rfl
@[simp] theorem l1Drop_power (s : State) (p : L1Line → Bool) : (l1Drop s p).power = s.power := rfl
@[simp] theorem l1Drop_arrays (s : State) (p : L1Line → Bool) : (l1Drop s p).arrays = s.arrays := rfl
@[simp] theorem l1Drop_fabric (s : State) (p : L1Line → Bool) : (l1Drop s p).fabric = s.fabric := rfl
@[simp] theorem l1Drop_parts (s : State) (p : L1Line → Bool) : (l1Drop s p).parts = s.parts := rfl
@[simp] theorem l1Drop_mgmt (s : State) (p : L1Line → Bool) : (l1Drop s p).mgmt = s.mgmt := rfl
@[simp] theorem l1Drop_next (s : State) (p : L1Line → Bool) : (l1Drop s p).next = s.next := rfl
@[simp] theorem l1Drop_free (s : State) (p : L1Line → Bool) : (l1Drop s p).free = s.free := rfl
@[simp] theorem l1Drop_cur (s : State) (p : L1Line → Bool) : (l1Drop s p).cur = s.cur := rfl
@[simp] theorem l1Drop_turn (s : State) (p : L1Line → Bool) : (l1Drop s p).turn = s.turn := rfl
@[simp] theorem l1Drop_agenda (s : State) (p : L1Line → Bool) : (l1Drop s p).agenda = s.agenda := rfl

@[simp] theorem l1Unhold_mem (s : State) (k : Nat) (p : Nat → Bool) : (l1Unhold s k p).mem = s.mem := rfl
@[simp] theorem l1Unhold_pois (s : State) (k : Nat) (p : Nat → Bool) : (l1Unhold s k p).pois = s.pois := rfl
@[simp] theorem l1Unhold_warps (s : State) (k : Nat) (p : Nat → Bool) : (l1Unhold s k p).warps = s.warps := rfl
@[simp] theorem l1Unhold_blocks (s : State) (k : Nat) (p : Nat → Bool) : (l1Unhold s k p).blocks = s.blocks := rfl
@[simp] theorem l1Unhold_banks (s : State) (k : Nat) (p : Nat → Bool) : (l1Unhold s k p).banks = s.banks := rfl
@[simp] theorem l1Unhold_launches (s : State) (k : Nat) (p : Nat → Bool) : (l1Unhold s k p).launches = s.launches := rfl
@[simp] theorem l1Unhold_funcs (s : State) (k : Nat) (p : Nat → Bool) : (l1Unhold s k p).funcs = s.funcs := rfl
@[simp] theorem l1Unhold_cores (s : State) (k : Nat) (p : Nat → Bool) : (l1Unhold s k p).cores = s.cores := rfl
@[simp] theorem l1Unhold_sites (s : State) (k : Nat) (p : Nat → Bool) : (l1Unhold s k p).sites = s.sites := rfl
@[simp] theorem l1Unhold_bind (s : State) (k : Nat) (p : Nat → Bool) : (l1Unhold s k p).bind = s.bind := rfl
@[simp] theorem l1Unhold_power (s : State) (k : Nat) (p : Nat → Bool) : (l1Unhold s k p).power = s.power := rfl
@[simp] theorem l1Unhold_arrays (s : State) (k : Nat) (p : Nat → Bool) : (l1Unhold s k p).arrays = s.arrays := rfl
@[simp] theorem l1Unhold_fabric (s : State) (k : Nat) (p : Nat → Bool) : (l1Unhold s k p).fabric = s.fabric := rfl
@[simp] theorem l1Unhold_parts (s : State) (k : Nat) (p : Nat → Bool) : (l1Unhold s k p).parts = s.parts := rfl
@[simp] theorem l1Unhold_mgmt (s : State) (k : Nat) (p : Nat → Bool) : (l1Unhold s k p).mgmt = s.mgmt := rfl
@[simp] theorem l1Unhold_next (s : State) (k : Nat) (p : Nat → Bool) : (l1Unhold s k p).next = s.next := rfl
@[simp] theorem l1Unhold_free (s : State) (k : Nat) (p : Nat → Bool) : (l1Unhold s k p).free = s.free := rfl
@[simp] theorem l1Unhold_cur (s : State) (k : Nat) (p : Nat → Bool) : (l1Unhold s k p).cur = s.cur := rfl
@[simp] theorem l1Unhold_turn (s : State) (k : Nat) (p : Nat → Bool) : (l1Unhold s k p).turn = s.turn := rfl
@[simp] theorem l1Unhold_agenda (s : State) (k : Nat) (p : Nat → Bool) : (l1Unhold s k p).agenda = s.agenda := rfl

@[simp] theorem l1Stale_mem (s : State) (k : Nat) : (l1Stale s k).mem = s.mem := rfl
@[simp] theorem l1Stale_pois (s : State) (k : Nat) : (l1Stale s k).pois = s.pois := rfl
@[simp] theorem l1Stale_warps (s : State) (k : Nat) : (l1Stale s k).warps = s.warps := rfl
@[simp] theorem l1Stale_blocks (s : State) (k : Nat) : (l1Stale s k).blocks = s.blocks := rfl
@[simp] theorem l1Stale_banks (s : State) (k : Nat) : (l1Stale s k).banks = s.banks := rfl
@[simp] theorem l1Stale_launches (s : State) (k : Nat) : (l1Stale s k).launches = s.launches := rfl
@[simp] theorem l1Stale_funcs (s : State) (k : Nat) : (l1Stale s k).funcs = s.funcs := rfl
@[simp] theorem l1Stale_cores (s : State) (k : Nat) : (l1Stale s k).cores = s.cores := rfl
@[simp] theorem l1Stale_sites (s : State) (k : Nat) : (l1Stale s k).sites = s.sites := rfl
@[simp] theorem l1Stale_bind (s : State) (k : Nat) : (l1Stale s k).bind = s.bind := rfl
@[simp] theorem l1Stale_power (s : State) (k : Nat) : (l1Stale s k).power = s.power := rfl
@[simp] theorem l1Stale_arrays (s : State) (k : Nat) : (l1Stale s k).arrays = s.arrays := rfl
@[simp] theorem l1Stale_fabric (s : State) (k : Nat) : (l1Stale s k).fabric = s.fabric := rfl
@[simp] theorem l1Stale_parts (s : State) (k : Nat) : (l1Stale s k).parts = s.parts := rfl
@[simp] theorem l1Stale_mgmt (s : State) (k : Nat) : (l1Stale s k).mgmt = s.mgmt := rfl
@[simp] theorem l1Stale_next (s : State) (k : Nat) : (l1Stale s k).next = s.next := rfl
@[simp] theorem l1Stale_free (s : State) (k : Nat) : (l1Stale s k).free = s.free := rfl
@[simp] theorem l1Stale_cur (s : State) (k : Nat) : (l1Stale s k).cur = s.cur := rfl
@[simp] theorem l1Stale_turn (s : State) (k : Nat) : (l1Stale s k).turn = s.turn := rfl
@[simp] theorem l1Stale_agenda (s : State) (k : Nat) : (l1Stale s k).agenda = s.agenda := rfl

@[simp] theorem l1DropCore_mem (s : State) (k : Nat) : (l1DropCore s k).mem = s.mem := rfl
@[simp] theorem l1DropCore_pois (s : State) (k : Nat) : (l1DropCore s k).pois = s.pois := rfl
@[simp] theorem l1DropCore_warps (s : State) (k : Nat) : (l1DropCore s k).warps = s.warps := rfl
@[simp] theorem l1DropCore_blocks (s : State) (k : Nat) : (l1DropCore s k).blocks = s.blocks := rfl
@[simp] theorem l1DropCore_banks (s : State) (k : Nat) : (l1DropCore s k).banks = s.banks := rfl
@[simp] theorem l1DropCore_launches (s : State) (k : Nat) : (l1DropCore s k).launches = s.launches := rfl
@[simp] theorem l1DropCore_funcs (s : State) (k : Nat) : (l1DropCore s k).funcs = s.funcs := rfl
@[simp] theorem l1DropCore_sites (s : State) (k : Nat) : (l1DropCore s k).sites = s.sites := rfl
@[simp] theorem l1DropCore_bind (s : State) (k : Nat) : (l1DropCore s k).bind = s.bind := rfl
@[simp] theorem l1DropCore_power (s : State) (k : Nat) : (l1DropCore s k).power = s.power := rfl
@[simp] theorem l1DropCore_arrays (s : State) (k : Nat) : (l1DropCore s k).arrays = s.arrays := rfl
@[simp] theorem l1DropCore_fabric (s : State) (k : Nat) : (l1DropCore s k).fabric = s.fabric := rfl
@[simp] theorem l1DropCore_parts (s : State) (k : Nat) : (l1DropCore s k).parts = s.parts := rfl
@[simp] theorem l1DropCore_mgmt (s : State) (k : Nat) : (l1DropCore s k).mgmt = s.mgmt := rfl
@[simp] theorem l1DropCore_next (s : State) (k : Nat) : (l1DropCore s k).next = s.next := rfl
@[simp] theorem l1DropCore_free (s : State) (k : Nat) : (l1DropCore s k).free = s.free := rfl
@[simp] theorem l1DropCore_cur (s : State) (k : Nat) : (l1DropCore s k).cur = s.cur := rfl
@[simp] theorem l1DropCore_turn (s : State) (k : Nat) : (l1DropCore s k).turn = s.turn := rfl
@[simp] theorem l1DropCore_agenda (s : State) (k : Nat) : (l1DropCore s k).agenda = s.agenda := rfl

@[simp] theorem l1Forget_mem (s : State) (k g : Nat) : (l1Forget s k g).mem = s.mem := rfl
@[simp] theorem l1Forget_pois (s : State) (k g : Nat) : (l1Forget s k g).pois = s.pois := rfl
@[simp] theorem l1Forget_warps (s : State) (k g : Nat) : (l1Forget s k g).warps = s.warps := rfl
@[simp] theorem l1Forget_blocks (s : State) (k g : Nat) : (l1Forget s k g).blocks = s.blocks := rfl
@[simp] theorem l1Forget_banks (s : State) (k g : Nat) : (l1Forget s k g).banks = s.banks := rfl
@[simp] theorem l1Forget_launches (s : State) (k g : Nat) : (l1Forget s k g).launches = s.launches := rfl
@[simp] theorem l1Forget_funcs (s : State) (k g : Nat) : (l1Forget s k g).funcs = s.funcs := rfl
@[simp] theorem l1Forget_sites (s : State) (k g : Nat) : (l1Forget s k g).sites = s.sites := rfl
@[simp] theorem l1Forget_bind (s : State) (k g : Nat) : (l1Forget s k g).bind = s.bind := rfl
@[simp] theorem l1Forget_power (s : State) (k g : Nat) : (l1Forget s k g).power = s.power := rfl
@[simp] theorem l1Forget_arrays (s : State) (k g : Nat) : (l1Forget s k g).arrays = s.arrays := rfl
@[simp] theorem l1Forget_fabric (s : State) (k g : Nat) : (l1Forget s k g).fabric = s.fabric := rfl
@[simp] theorem l1Forget_parts (s : State) (k g : Nat) : (l1Forget s k g).parts = s.parts := rfl
@[simp] theorem l1Forget_mgmt (s : State) (k g : Nat) : (l1Forget s k g).mgmt = s.mgmt := rfl
@[simp] theorem l1Forget_next (s : State) (k g : Nat) : (l1Forget s k g).next = s.next := rfl
@[simp] theorem l1Forget_free (s : State) (k g : Nat) : (l1Forget s k g).free = s.free := rfl
@[simp] theorem l1Forget_cur (s : State) (k g : Nat) : (l1Forget s k g).cur = s.cur := rfl
@[simp] theorem l1Forget_turn (s : State) (k g : Nat) : (l1Forget s k g).turn = s.turn := rfl
@[simp] theorem l1Forget_agenda (s : State) (k g : Nat) : (l1Forget s k g).agenda = s.agenda := rfl

@[simp] theorem l1DropWarp_mem (s : State) (u : Nat) : (l1DropWarp s u).mem = s.mem := rfl
@[simp] theorem l1DropWarp_pois (s : State) (u : Nat) : (l1DropWarp s u).pois = s.pois := rfl
@[simp] theorem l1DropWarp_warps (s : State) (u : Nat) : (l1DropWarp s u).warps = s.warps := rfl
@[simp] theorem l1DropWarp_blocks (s : State) (u : Nat) : (l1DropWarp s u).blocks = s.blocks := rfl
@[simp] theorem l1DropWarp_banks (s : State) (u : Nat) : (l1DropWarp s u).banks = s.banks := rfl
@[simp] theorem l1DropWarp_ops (s : State) (u : Nat) : (l1DropWarp s u).ops = s.ops := rfl
@[simp] theorem l1DropWarp_launches (s : State) (u : Nat) : (l1DropWarp s u).launches = s.launches := rfl
@[simp] theorem l1DropWarp_funcs (s : State) (u : Nat) : (l1DropWarp s u).funcs = s.funcs := rfl
@[simp] theorem l1DropWarp_sites (s : State) (u : Nat) : (l1DropWarp s u).sites = s.sites := rfl
@[simp] theorem l1DropWarp_bind (s : State) (u : Nat) : (l1DropWarp s u).bind = s.bind := rfl
@[simp] theorem l1DropWarp_power (s : State) (u : Nat) : (l1DropWarp s u).power = s.power := rfl
@[simp] theorem l1DropWarp_arrays (s : State) (u : Nat) : (l1DropWarp s u).arrays = s.arrays := rfl
@[simp] theorem l1DropWarp_fabric (s : State) (u : Nat) : (l1DropWarp s u).fabric = s.fabric := rfl
@[simp] theorem l1DropWarp_parts (s : State) (u : Nat) : (l1DropWarp s u).parts = s.parts := rfl
@[simp] theorem l1DropWarp_mgmt (s : State) (u : Nat) : (l1DropWarp s u).mgmt = s.mgmt := rfl
@[simp] theorem l1DropWarp_next (s : State) (u : Nat) : (l1DropWarp s u).next = s.next := rfl
@[simp] theorem l1DropWarp_free (s : State) (u : Nat) : (l1DropWarp s u).free = s.free := rfl
@[simp] theorem l1DropWarp_cur (s : State) (u : Nat) : (l1DropWarp s u).cur = s.cur := rfl
@[simp] theorem l1DropWarp_turn (s : State) (u : Nat) : (l1DropWarp s u).turn = s.turn := rfl
@[simp] theorem l1DropWarp_agenda (s : State) (u : Nat) : (l1DropWarp s u).agenda = s.agenda := rfl

@[simp] theorem withCur_mem (s : State) (u : Nat) (p : Bool) : (withCur s u p).mem = s.mem := rfl
@[simp] theorem withCur_pois (s : State) (u : Nat) (p : Bool) : (withCur s u p).pois = s.pois := rfl
@[simp] theorem withCur_warps (s : State) (u : Nat) (p : Bool) : (withCur s u p).warps = s.warps := rfl
@[simp] theorem withCur_blocks (s : State) (u : Nat) (p : Bool) : (withCur s u p).blocks = s.blocks := rfl
@[simp] theorem withCur_banks (s : State) (u : Nat) (p : Bool) : (withCur s u p).banks = s.banks := rfl
@[simp] theorem withCur_ops (s : State) (u : Nat) (p : Bool) : (withCur s u p).ops = s.ops := rfl
@[simp] theorem withCur_launches (s : State) (u : Nat) (p : Bool) : (withCur s u p).launches = s.launches := rfl
@[simp] theorem withCur_funcs (s : State) (u : Nat) (p : Bool) : (withCur s u p).funcs = s.funcs := rfl
@[simp] theorem withCur_cores (s : State) (u : Nat) (p : Bool) : (withCur s u p).cores = s.cores := rfl
@[simp] theorem withCur_sites (s : State) (u : Nat) (p : Bool) : (withCur s u p).sites = s.sites := rfl
@[simp] theorem withCur_bind (s : State) (u : Nat) (p : Bool) : (withCur s u p).bind = s.bind := rfl
@[simp] theorem withCur_power (s : State) (u : Nat) (p : Bool) : (withCur s u p).power = s.power := rfl
@[simp] theorem withCur_arrays (s : State) (u : Nat) (p : Bool) : (withCur s u p).arrays = s.arrays := rfl
@[simp] theorem withCur_fabric (s : State) (u : Nat) (p : Bool) : (withCur s u p).fabric = s.fabric := rfl
@[simp] theorem withCur_parts (s : State) (u : Nat) (p : Bool) : (withCur s u p).parts = s.parts := rfl
@[simp] theorem withCur_mgmt (s : State) (u : Nat) (p : Bool) : (withCur s u p).mgmt = s.mgmt := rfl
@[simp] theorem withCur_next (s : State) (u : Nat) (p : Bool) : (withCur s u p).next = s.next := rfl
@[simp] theorem withCur_free (s : State) (u : Nat) (p : Bool) : (withCur s u p).free = s.free := rfl
@[simp] theorem withCur_cur (s : State) (u : Nat) (p : Bool) : (withCur s u p).cur = { warp := u, path := p } := rfl
@[simp] theorem withCur_turn (s : State) (u : Nat) (p : Bool) : (withCur s u p).turn = s.turn := rfl
@[simp] theorem withCur_agenda (s : State) (u : Nat) (p : Bool) : (withCur s u p).agenda = s.agenda := rfl

@[simp] theorem tick_mem (s : State) (n : Nat) : (tick s n).mem = s.mem := rfl
@[simp] theorem tick_pois (s : State) (n : Nat) : (tick s n).pois = s.pois := rfl
@[simp] theorem tick_warps (s : State) (n : Nat) : (tick s n).warps = s.warps := rfl
@[simp] theorem tick_blocks (s : State) (n : Nat) : (tick s n).blocks = s.blocks := rfl
@[simp] theorem tick_banks (s : State) (n : Nat) : (tick s n).banks = s.banks := rfl
@[simp] theorem tick_ops (s : State) (n : Nat) : (tick s n).ops = s.ops := rfl
@[simp] theorem tick_launches (s : State) (n : Nat) : (tick s n).launches = s.launches := rfl
@[simp] theorem tick_funcs (s : State) (n : Nat) : (tick s n).funcs = s.funcs := rfl
@[simp] theorem tick_cores (s : State) (n : Nat) : (tick s n).cores = s.cores := rfl
@[simp] theorem tick_sites (s : State) (n : Nat) : (tick s n).sites = s.sites := rfl
@[simp] theorem tick_bind (s : State) (n : Nat) : (tick s n).bind = s.bind := rfl
@[simp] theorem tick_power (s : State) (n : Nat) : (tick s n).power = s.power := rfl
@[simp] theorem tick_arrays (s : State) (n : Nat) : (tick s n).arrays = s.arrays := rfl
@[simp] theorem tick_fabric (s : State) (n : Nat) : (tick s n).fabric = s.fabric := rfl
@[simp] theorem tick_parts (s : State) (n : Nat) : (tick s n).parts = s.parts := rfl
@[simp] theorem tick_next (s : State) (n : Nat) : (tick s n).next = s.next := rfl
@[simp] theorem tick_free (s : State) (n : Nat) : (tick s n).free = s.free := rfl
@[simp] theorem tick_cur (s : State) (n : Nat) : (tick s n).cur = s.cur := rfl
@[simp] theorem tick_turn (s : State) (n : Nat) : (tick s n).turn = s.turn := rfl
@[simp] theorem tick_agenda (s : State) (n : Nat) : (tick s n).agenda = s.agenda := rfl

@[simp] theorem spend_mem (s : State) : (spend s).mem = s.mem := rfl
@[simp] theorem spend_pois (s : State) : (spend s).pois = s.pois := rfl
@[simp] theorem spend_warps (s : State) : (spend s).warps = s.warps := rfl
@[simp] theorem spend_blocks (s : State) : (spend s).blocks = s.blocks := rfl
@[simp] theorem spend_banks (s : State) : (spend s).banks = s.banks := rfl
@[simp] theorem spend_ops (s : State) : (spend s).ops = s.ops := rfl
@[simp] theorem spend_launches (s : State) : (spend s).launches = s.launches := rfl
@[simp] theorem spend_funcs (s : State) : (spend s).funcs = s.funcs := rfl
@[simp] theorem spend_cores (s : State) : (spend s).cores = s.cores := rfl
@[simp] theorem spend_sites (s : State) : (spend s).sites = s.sites := rfl
@[simp] theorem spend_bind (s : State) : (spend s).bind = s.bind := rfl
@[simp] theorem spend_power (s : State) : (spend s).power = s.power := rfl
@[simp] theorem spend_arrays (s : State) : (spend s).arrays = s.arrays := rfl
@[simp] theorem spend_fabric (s : State) : (spend s).fabric = s.fabric := rfl
@[simp] theorem spend_parts (s : State) : (spend s).parts = s.parts := rfl
@[simp] theorem spend_mgmt (s : State) : (spend s).mgmt = s.mgmt := rfl
@[simp] theorem spend_next (s : State) : (spend s).next = s.next := rfl
@[simp] theorem spend_free (s : State) : (spend s).free = s.free + 1024 := rfl
@[simp] theorem spend_cur (s : State) : (spend s).cur = s.cur := rfl
@[simp] theorem spend_turn (s : State) : (spend s).turn = s.turn := rfl
@[simp] theorem spend_agenda (s : State) : (spend s).agenda = s.agenda := rfl

@[simp] theorem pushSup_mem (s : State) (k : Nat) (r : FRec) : (pushSup s k r).mem = s.mem := rfl
@[simp] theorem pushSup_pois (s : State) (k : Nat) (r : FRec) : (pushSup s k r).pois = s.pois := rfl
@[simp] theorem pushSup_warps (s : State) (k : Nat) (r : FRec) : (pushSup s k r).warps = s.warps := rfl
@[simp] theorem pushSup_blocks (s : State) (k : Nat) (r : FRec) : (pushSup s k r).blocks = s.blocks := rfl
@[simp] theorem pushSup_banks (s : State) (k : Nat) (r : FRec) : (pushSup s k r).banks = s.banks := rfl
@[simp] theorem pushSup_ops (s : State) (k : Nat) (r : FRec) : (pushSup s k r).ops = s.ops := rfl
@[simp] theorem pushSup_launches (s : State) (k : Nat) (r : FRec) : (pushSup s k r).launches = s.launches := rfl
@[simp] theorem pushSup_funcs (s : State) (k : Nat) (r : FRec) : (pushSup s k r).funcs = s.funcs := rfl
@[simp] theorem pushSup_sites (s : State) (k : Nat) (r : FRec) : (pushSup s k r).sites = s.sites := rfl
@[simp] theorem pushSup_bind (s : State) (k : Nat) (r : FRec) : (pushSup s k r).bind = s.bind := rfl
@[simp] theorem pushSup_power (s : State) (k : Nat) (r : FRec) : (pushSup s k r).power = s.power := rfl
@[simp] theorem pushSup_arrays (s : State) (k : Nat) (r : FRec) : (pushSup s k r).arrays = s.arrays := rfl
@[simp] theorem pushSup_fabric (s : State) (k : Nat) (r : FRec) : (pushSup s k r).fabric = s.fabric := rfl
@[simp] theorem pushSup_parts (s : State) (k : Nat) (r : FRec) : (pushSup s k r).parts = s.parts := rfl
@[simp] theorem pushSup_mgmt (s : State) (k : Nat) (r : FRec) : (pushSup s k r).mgmt = s.mgmt := rfl
@[simp] theorem pushSup_next (s : State) (k : Nat) (r : FRec) : (pushSup s k r).next = s.next := rfl
@[simp] theorem pushSup_free (s : State) (k : Nat) (r : FRec) : (pushSup s k r).free = s.free := rfl
@[simp] theorem pushSup_cur (s : State) (k : Nat) (r : FRec) : (pushSup s k r).cur = s.cur := rfl
@[simp] theorem pushSup_turn (s : State) (k : Nat) (r : FRec) : (pushSup s k r).turn = s.turn := rfl
@[simp] theorem pushSup_agenda (s : State) (k : Nat) (r : FRec) : (pushSup s k r).agenda = s.agenda := rfl

end Sys2Proof.Machine
end

