-- ==== Sys2Proof/Laws/Ops.lean ====
section
/-! SUPPORT. The shared operations of S-stream instructions: what each can do, said once. -/

namespace Sys2Proof.Machine

/-! ## Paths and warps -/

@[simp] theorem fget_putWarp (s : State) (u : Nat) (w : Warp) : fget (putWarp s u w).warps u = some w := by simp

theorem fget_putWarp_other (s : State) {u v : Nat} (w : Warp) (h : v ≠ u) :
    fget (putWarp s u w).warps v = fget s.warps v := by simp [fget_fput, h]

theorem fput_fput {α : Type} (m : FMap α) (k : Nat) (v u : α) : fput (fput m k v) k u = fput m k u := by
  induction m with
  | nil => simp [fput]
  | cons e r ih =>
    obtain ⟨i, x⟩ := e
    simp only [fput]
    split
    · simp [fput]
    · split
      · simp [fput]
      · rename_i h1 h2; simp only [fput]; rw [if_neg h1, if_neg h2, ih]

@[simp] theorem putWarp_putWarp (s : State) (u : Nat) (w x : Warp) : putWarp (putWarp s u w) u x = putWarp s u x := by
  simp [putWarp, fput_fput]

@[simp] theorem path_setPath (w : Warp) (pf : Bool) (p : Path) : (w.setPath pf p).path pf = p := by
  cases pf <;> rfl

@[simp] theorem path_setPath_other (w : Warp) (pf : Bool) (p : Path) :
    (w.setPath pf p).path (!pf) = w.path (!pf) := by cases pf <;> rfl

@[simp] theorem path_modPath (w : Warp) (pf : Bool) (f : Path → Path) : (w.modPath pf f).path pf = f (w.path pf) :=
  path_setPath _ _ _

@[simp] theorem path_modPath_other (w : Warp) (pf : Bool) (f : Path → Path) :
    (w.modPath pf f).path (!pf) = w.path (!pf) := path_setPath_other _ _ _

@[simp] theorem setPath_xs (w : Warp) (pf : Bool) (p : Path) : (w.setPath pf p).xs = w.xs := by cases pf <;> rfl
@[simp] theorem setPath_wdc (w : Warp) (pf : Bool) (p : Path) : (w.setPath pf p).wdc = w.wdc := by cases pf <;> rfl
@[simp] theorem setPath_kind (w : Warp) (pf : Bool) (p : Path) : (w.setPath pf p).kind = w.kind := by cases pf <;> rfl
@[simp] theorem setPath_regs (w : Warp) (pf : Bool) (p : Path) : (w.setPath pf p).regs = w.regs := by cases pf <;> rfl
@[simp] theorem modPath_xs (w : Warp) (pf : Bool) (f : Path → Path) : (w.modPath pf f).xs = w.xs := setPath_xs _ _ _
@[simp] theorem modPath_wdc (w : Warp) (pf : Bool) (f : Path → Path) : (w.modPath pf f).wdc = w.wdc := setPath_wdc _ _ _
@[simp] theorem modPath_kind (w : Warp) (pf : Bool) (f : Path → Path) : (w.modPath pf f).kind = w.kind :=
  setPath_kind _ _ _
@[simp] theorem modPath_regs (w : Warp) (pf : Bool) (f : Path → Path) : (w.modPath pf f).regs = w.regs :=
  setPath_regs _ _ _

/-- A path replaced: everything else of the warp is kept. -/
theorem setPath_kept (w : Warp) (pf : Bool) (p : Path) : warpKept w (w.setPath pf p) := by cases pf <;> rfl

theorem modPath_kept (w : Warp) (pf : Bool) (f : Path → Path) : warpKept w (w.modPath pf f) := setPath_kept _ _ _

theorem warpKept_refl (w : Warp) : warpKept w w := rfl

theorem warpKept_trans {u v w : Warp} (h : warpKept u v) (g : warpKept v w) : warpKept u w := by
  cases u; cases v; cases w
  simp only [warpKept, Warp.mk.injEq] at h g ⊢
  simp_all

theorem countIssue_kept (w : Warp) : warpKept w (countIssue w) := by
  unfold countIssue; split <;> rfl

@[simp] theorem countIssue_path (w : Warp) (pf : Bool) : (countIssue w).path pf = w.path pf := by
  unfold countIssue; split <;> rfl

@[simp] theorem countIssue_xs (w : Warp) : (countIssue w).xs = w.xs := by unfold countIssue; split <;> rfl

theorem countIssue_wdc (w : Warp) : (countIssue w).wdc = w.wdc + (if w.kind = .supervisor then 0 else 1) := by
  unfold countIssue; split <;> simp_all

/-! ## Registers -/

@[simp] theorem rx_zero (w : Warp) (pf : Bool) : rx w pf 0 = 0 := by simp [rx]

@[simp] theorem wx_zero (w : Warp) (pf : Bool) (v : W64) : wx w pf 0 v = w := by simp [wx]

/-- R16, R33: the three places that a write of a scalar register can go to. -/
theorem wx_eq (w : Warp) (pf : Bool) (d : Nat) (v : W64) :
    wx w pf d v = if d = 0 then w
      else if (48 ≤ d && (w.path pf).priv != 0) = true then
        { w.setPath pf ((w.path pf).lift (fgetD 0 w.xs (d - 48) != xsWord (d - 48) v)) with
          xs := fputD 0 w.xs (d - 48) (xsWord (d - 48) v) }
      else w.setPath pf ({ w.path pf with x := fputD 0 (w.path pf).x d v }.lift (fgetD 0 (w.path pf).x d != v)) := rfl

/-- R233: what a changed register does to the record of the spin check. -/
theorem lift_frame (p : Path) (c : Bool) : p.lift c = { p with spin := (p.lift c).spin, demoted := (p.lift c).demoted } := by
  unfold Path.lift; split <;> rfl

@[simp] theorem lift_x (p : Path) (c : Bool) : (p.lift c).x = p.x := by rw [lift_frame]
@[simp] theorem lift_k (p : Path) (c : Bool) : (p.lift c).k = p.k := by rw [lift_frame]
@[simp] theorem lift_pc (p : Path) (c : Bool) : (p.lift c).pc = p.pc := by rw [lift_frame]
@[simp] theorem lift_priv (p : Path) (c : Bool) : (p.lift c).priv = p.priv := by rw [lift_frame]

@[simp] theorem withXs_path (w : Warp) (pf : Bool) (xs : FMap W64) : ({ w with xs := xs } : Warp).path pf = w.path pf := by
  cases pf <;> rfl

/-- R193: what a read of a scalar register gives after a write of v. -/
theorem rx_wx (w : Warp) (pf : Bool) (d r : Nat) (v : W64) :
    rx (wx w pf d v) pf r = if r = d ∧ d ≠ 0
      then (if d = 48 ∧ (w.path pf).priv ≠ 0 then v &&& ~~~((0x7F : W64) <<< 17) else v) else rx w pf r := by
  rw [wx_eq]
  by_cases hd : d = 0
  · simp [hd]
  simp only [hd, if_false]
  by_cases h : (48 ≤ d && (w.path pf).priv != 0) = true
  · rw [if_pos h]
    simp only [Bool.and_eq_true, decide_eq_true_eq, bne_iff_ne, ne_eq] at h
    have hq : (w.path pf).priv ≠ 0#2 := h.2
    simp only [rx, withXs_path, path_setPath, lift_priv, lift_x]
    by_cases hr : r = 0
    · subst hr; simp [Ne.symm hd]
    simp only [hr, if_false]
    by_cases h48 : 48 ≤ r
    · have he : (r - 48 = d - 48) = (r = d) := by simp only [eq_iff_iff]; omega
      have hx : (d - 48 = 0) = (d = 48) := by simp only [eq_iff_iff]; omega
      by_cases hrd : r = d
      · subst hrd; simp [h48, hq, hd, xsWord, hx, n64]
      · simp [h48, hq, fgetD_fputD, he, hrd]
    · simp [h48, show r ≠ d by omega]
  · rw [if_neg h]
    simp only [rx, path_setPath, setPath_xs, lift_priv, lift_x]
    by_cases hr : r = 0
    · subst hr; simp [Ne.symm hd]
    simp only [hr, if_false]
    split
    · rename_i h2
      have : r ≠ d := by rintro rfl; exact h h2
      simp [this]
    · have h3 : ¬(d = 48 ∧ (w.path pf).priv ≠ 0) := by rintro ⟨rfl, hp⟩; exact h (by simpa using hp)
      rw [if_neg h3]
      simp [fgetD_fputD, hd]

theorem wx_path_other (w : Warp) (pf : Bool) (d : Nat) (v : W64) : (wx w pf d v).path (!pf) = w.path (!pf) := by
  rw [wx_eq]
  split
  · rfl
  · split
    · rw [withXs_path]; simp
    · simp

theorem wx_kept (w : Warp) (pf : Bool) (d : Nat) (v : W64) : warpKept w (wx w pf d v) := by
  rw [wx_eq]
  split
  · rfl
  · split <;> cases pf <;> rfl

@[simp] theorem wx_wdc (w : Warp) (pf : Bool) (d : Nat) (v : W64) : (wx w pf d v).wdc = w.wdc := by
  rw [wx_eq]
  split
  · rfl
  · split <;> simp

@[simp] theorem wx_kind (w : Warp) (pf : Bool) (d : Nat) (v : W64) : (wx w pf d v).kind = w.kind := by
  rw [wx_eq]
  split
  · rfl
  · split <;> simp

/-- A write of a scalar register leaves the path's other fields, and the registers that the shadows hide. -/
theorem wx_path (w : Warp) (pf : Bool) (d : Nat) (v : W64) :
    ∃ x sp m, (wx w pf d v).path pf = { w.path pf with x := x, spin := sp, demoted := m } ∧
      ((w.path pf).priv ≠ 0 → ∀ r, 48 ≤ r → (fgetD 0 x r : W64) = fgetD 0 (w.path pf).x r) := by
  rw [wx_eq]
  by_cases hd : d = 0
  · simp only [hd, if_true]; exact ⟨_, _, _, rfl, fun _ _ _ => rfl⟩
  simp only [hd, if_false]
  split
  · exact ⟨(w.path pf).x, _, _, by rw [withXs_path, path_setPath]; exact lift_frame _ _, fun _ _ _ => rfl⟩
  · rename_i h
    refine ⟨fputD 0 (w.path pf).x d v, _, _, by rw [path_setPath]; exact lift_frame _ _, fun hp r hr => ?_⟩
    rw [fgetD_fputD, if_neg]
    rintro rfl
    simp only [hr, decide_true, Bool.true_and, bne_iff_ne, ne_eq, not_not] at h
    exact hp h

theorem wx_xs (w : Warp) (pf : Bool) (d : Nat) (v : W64) (h : (w.path pf).priv = 0) : (wx w pf d v).xs = w.xs := by
  rw [wx_eq]
  split
  · rfl
  · simp [h]

/-! ## Going on -/

/-- R235: a path goes on at an address. -/
theorem wentOn_goto (s : State) (w x : Warp) (pc : W64) (hd : x.wdc = w.wdc) (hk : x.kind = w.kind)
    (hpc : (actPath s x).pc = (actPath s w).pc) (ho : x.path (!s.cur.path) = w.path (!s.cur.path)) :
    wentOn s (putWarp s s.cur.warp (goto x s.cur.path pc)) w (goto x s.cur.path pc) pc := by
  simp only [actPath] at hpc
  refine ⟨rfl, ?_, ?_, ?_, ?_⟩
  · simp [goto, actPath]
  · simp [goto, actPath, hpc]
  · simp [goto, ho]
  · simp [countedOnce, goto, countIssue_wdc, hd, hk]

/-- A scalar register written, then the record of the spin check touched by f, then on to pc. -/
theorem scalarStep_goto (s : State) (w : Warp) (d : Nat) (v pc : W64) (f : Path → Path)
    (hf : ∀ p, f p = { p with spin := (f p).spin, demoted := (f p).demoted }) :
    scalarStep s (putWarp s s.cur.warp (goto ((wx w s.cur.path d v).modPath s.cur.path f) s.cur.path pc)) w d v pc := by
  obtain ⟨x, sp, m, hx, hh⟩ := wx_path w s.cur.path d v
  have hp : ((wx w s.cur.path d v).modPath s.cur.path f).path s.cur.path =
      { w.path s.cur.path with x := x, spin := (f { w.path s.cur.path with x := x, spin := sp, demoted := m }).spin,
                               demoted := (f { w.path s.cur.path with x := x, spin := sp, demoted := m }).demoted } := by
    rw [path_modPath, hx, hf]
  refine ⟨_, wentOn_goto s w _ pc (by simp) (by simp) ?_ ?_, ?_, ?_, ?_, ?_, ?_⟩
  · simp [actPath, hp]
  · rw [path_modPath_other, wx_path_other]
  · exact warpKept_trans (warpKept_trans (warpKept_trans (wx_kept _ _ _ _) (modPath_kept _ _ _))
      (modPath_kept _ _ _)) (countIssue_kept _)
  · simp only [pathKeptButX, goto, actPath, countIssue_path]; rw [path_modPath, hp]
  · intro r
    have : rx (goto ((wx w s.cur.path d v).modPath s.cur.path f) s.cur.path pc) s.cur.path r =
        rx (wx w s.cur.path d v) s.cur.path r := by
      simp only [rx, goto, countIssue_path, path_modPath, countIssue_xs, modPath_xs, hx]
      rw [hf]
    rw [this, rx_wx]; rfl
  · intro h0
    simp only [goto, countIssue_xs, modPath_xs]
    exact wx_xs _ _ _ _ h0
  · intro h0 r hr
    simp only [goto, actPath, countIssue_path]; rw [path_modPath, hp]
    exact hh h0 r hr

theorem modPath_id (w : Warp) (pf : Bool) : w.modPath pf (fun p => p) = w := by cases pf <;> rfl

/-- R99: a retired write of a scalar register. -/
theorem retire_wx (s : State) (w : Warp) (d : Nat) (v : W64) :
    ∃ t, retire s (wx w s.cur.path d v) = .next t ∧ scalarStep s t w d v (nextPc s w) := by
  refine ⟨_, rfl, ?_⟩
  have h := scalarStep_goto s w d v ((w.path s.cur.path).pc + 4) (fun p => p) fun p => rfl
  rw [modPath_id] at h
  obtain ⟨x, sp, m, hx, _⟩ := wx_path w s.cur.path d v
  simpa [advance, nextPc, actPath, hx] using h

/-- R233: what a taken branch does to the record of the spin check. -/
theorem spinTaken_frame (xs : FMap W64) (p : Path) (tgt : W64) :
    spinTaken xs p tgt = { p with spin := (spinTaken xs p tgt).spin, demoted := (spinTaken xs p tgt).demoted } := by
  unfold spinTaken; dsimp only; split <;> rfl

theorem spinFell_frame (p : Path) : spinFell p = { p with spin := (spinFell p).spin, demoted := (spinFell p).demoted } := by
  unfold spinFell; split <;> rfl

/-- R103: a branch taken. -/
theorem taken_wx (s : State) (w : Warp) (d : Nat) (v tgt : W64) :
    ∃ t, taken s (wx w s.cur.path d v) tgt = .next t ∧ scalarStep s t w d v tgt :=
  ⟨_, rfl, scalarStep_goto s w d v tgt _ fun p => spinTaken_frame _ p tgt⟩

/-- R103: a branch not taken. -/
theorem fell_wx (s : State) (w : Warp) (d : Nat) (v : W64) :
    ∃ t, fell s (wx w s.cur.path d v) = .next t ∧ scalarStep s t w d v (nextPc s w) := by
  refine ⟨_, rfl, ?_⟩
  have h := scalarStep_goto s w d v ((w.path s.cur.path).pc + 4) spinFell spinFell_frame
  obtain ⟨x, sp, m, hx, _⟩ := wx_path w s.cur.path d v
  have hpc : (spinFell { w.path s.cur.path with x := x, spin := sp, demoted := m }).pc = (w.path s.cur.path).pc := by
    rw [spinFell_frame]
  simpa [advance, nextPc, actPath, hx, hpc] using h

/-- R111: a retired write of a mask. -/
theorem retire_wk (s : State) (w : Warp) (d : Nat) (m : W32) :
    ∃ t, retire s (wk w s.cur.path d m) = .next t ∧ maskStep s t w d m (nextPc s w) := by
  refine ⟨_, rfl, goto (wk w s.cur.path d m) s.cur.path ((w.path s.cur.path).pc + 4), ?_, ?_, ?_, ?_, ?_⟩
  · have h := wentOn_goto s w (wk w s.cur.path d m) ((w.path s.cur.path).pc + 4) (by simp [wk]) (by simp [wk])
      (by simp [wk, actPath]) (by simp [wk])
    simpa [advance, nextPc, actPath, wk] using h
  · exact warpKept_trans (warpKept_trans (modPath_kept _ _ _) (modPath_kept _ _ _)) (countIssue_kept _)
  · simp [goto, wk]
  · simp only [pathKeptButK, goto, actPath, countIssue_path, path_modPath, wk]
    rw [lift_frame]
  · intro r
    simp [rk, goto, wk, fgetD_fputD]

/-- The instructions that a live path issues. -/
theorem onPath_live (s : State) (w : Warp) (h : actsOn s w) (f : Warp → Path → Out) :
    onPath s f = f w (actPath s w) := by
  simp [onPath, h.1, h.2, actPath]

end Sys2Proof.Machine
end

