-- ==== Sys2Proof/Laws/Lane.lean ====
section
/-! SUPPORT. Lane instructions: lanes, elements, register writes, clauses, and what the shared frame of R119 does. -/

namespace Sys2Proof.Machine

/-! ## Lanes -/

theorem lane_mkLanes (f : Nat → W32) (l : Nat) : lane (mkLanes f) l = if l < 32 then f l else 0 := by
  unfold lane mkLanes
  by_cases h : l < 32 <;> simp [List.getD, h]

theorem lane_mergeLanes (m : W32) (a b : Lanes) {l : Nat} (h : l < 32) :
    lane (mergeLanes m a b) l = if m.getLsbD l then lane a l else lane b l := by
  rw [mergeLanes, lane_mkLanes, if_pos h]

theorem getLsbD_lt {m : W32} {l : Nat} (h : m.getLsbD l = true) : l < 32 := BitVec.lt_of_getLsbD h

theorem mem_lanesOf (m : W32) (l : Nat) : l ∈ lanesOf m ↔ m.getLsbD l = true := by
  simp only [lanesOf, List.mem_filter, List.mem_range]
  exact ⟨fun h => h.2, fun h => ⟨getLsbD_lt h, h⟩⟩

/-! ## Register writes (R39) -/

@[simp] theorem vread_vwrite (w : Warp) (d : Nat) (m : W32) (v : Lanes) (t : Fmt) :
    vread (vwrite w d m v t) d = mergeLanes m v (vread w d) := by simp [vread, vwrite]

@[simp] theorem vtag_vwrite (w : Warp) (d : Nat) (m : W32) (v : Lanes) (t : Fmt) : vtag (vwrite w d m v t) d = t := by
  simp [vtag, vwrite]

theorem fget_vwrite_other (w : Warp) {d n : Nat} (m : W32) (v : Lanes) (t : Fmt) (h : n ≠ d) :
    fget (vwrite w d m v t).regs n = fget w.regs n := by simp [vwrite, fget_fput, h]

theorem vwrite_frame (w : Warp) (d : Nat) (m : W32) (v : Lanes) (t : Fmt) :
    vwrite w d m v t = { w with regs := (vwrite w d m v t).regs } := rfl

@[simp] theorem vwrite_path (w : Warp) (d : Nat) (m : W32) (v : Lanes) (t : Fmt) (pf : Bool) :
    (vwrite w d m v t).path pf = w.path pf := by cases pf <;> rfl

/-! ## The acting clause -/

@[simp] theorem lctx_uid (s : State) (w : Warp) (p : Path) (o : LaneOp) : (lctx s w p o).uid = s.cur.warp := by
  unfold lctx; split <;> rfl
@[simp] theorem lctx_pf (s : State) (w : Warp) (p : Path) (o : LaneOp) : (lctx s w p o).pf = s.cur.path := by
  unfold lctx; split <;> rfl
@[simp] theorem lctx_w (s : State) (w : Warp) (p : Path) (o : LaneOp) : (lctx s w p o).w = w := by
  unfold lctx; split <;> rfl

theorem lctx_clause (s : State) (w : Warp) (p : Path) (o : LaneOp) : (lctx s w p o).clause = headClause p := by
  unfold lctx; split <;> simp_all

theorem lctx_k (s : State) (w : Warp) (p : Path) (o : LaneOp) {d : Clause} (h : headClause p = some d) :
    (lctx s w p o).k = d.k := by simp [lctx, h]

theorem headClause_mem {p : Path} {d : Clause} (h : headClause p = some d) : d ∈ p.queue :=
  List.mem_of_find?_eq_some h

/-- A clause replaced: only the queue changes. -/
theorem setClause_frame (p : Path) (c : Clause) : setClause p c = { p with queue := (setClause p c).queue } := rfl

theorem nextWord_frame (c : LCtx) (p : Path) : nextWord c p = { p with queue := (nextWord c p).queue } := by
  unfold nextWord
  split <;> [rfl; (split <;> rfl)]

theorem writeKd_frame (c : LCtx) (kd : Option (Nat × W32)) (p : Path) :
    writeKd c kd p = { p with queue := (writeKd c kd p).queue } := by
  unfold writeKd
  split <;> rfl

theorem find_seq (l : List Clause) (d : Clause) (hd : d ∈ l) (hn : (l.map (·.seq)).Nodup) :
    l.find? (fun e => e.seq = d.seq) = some d := by
  induction l with
  | nil => cases hd
  | cons e r ih =>
    simp only [List.map_cons, List.nodup_cons] at hn
    rcases List.mem_cons.1 hd with rfl | h
    · simp
    · have : e.seq ≠ d.seq := fun he => hn.1 (he ▸ List.mem_map_of_mem h)
      simp [this, ih h hn.2]

/-- R130, R110: the queue after a lane instruction: the acting clause has its captured masks as written and stands at
its next word. -/
theorem nextWord_queue (c : LCtx) (kd : Option (Nat × W32)) (p : Path) (d : Clause) (hc : c.clause = some d)
    (hd : d ∈ p.queue) (hn : (p.queue.map (·.seq)).Nodup) :
    (nextWord c (writeKd c kd p)).queue = p.queue.map fun e => if e.seq = d.seq then
      { d with k := (match kd with | some (n, m) => fputD 0 d.k n m | none => d.k), idx := d.idx + 1 } else e := by
  have hfind : ∀ l : List Clause, (∃ x ∈ l, x.seq = d.seq) → ∀ g : Clause, g.seq = d.seq →
      (l.map fun e => if e.seq = d.seq then g else e).find? (fun e => e.seq = d.seq) = some g := by
    intro l hx g hg
    induction l with
    | nil => obtain ⟨x, hx, _⟩ := hx; cases hx
    | cons e r ih =>
      by_cases he : e.seq = d.seq
      · simp [he, hg]
      · obtain ⟨x, hx, hs⟩ := hx
        rcases List.mem_cons.1 hx with rfl | hx
        · exact absurd hs he
        · simp [he, ih ⟨x, hx, hs⟩]
  have hmap : ∀ (l : List Clause) (g h : Clause), g.seq = d.seq →
      (l.map fun e => if e.seq = d.seq then g else e).map (fun e => if e.seq = d.seq then h else e) =
        l.map fun e => if e.seq = d.seq then h else e := by
    intro l g h hg
    rw [List.map_map]
    apply List.map_congr_left
    intro e _
    by_cases he : e.seq = d.seq <;> simp [he, hg]
  match kd with
  | none => simp [nextWord, writeKd, hc, find_seq _ d hd hn, setClause]
  | some (n, m) =>
    simp only [nextWord, writeKd, hc, setClause]
    rw [hfind p.queue ⟨d, hd, rfl⟩ { d with k := fputD 0 d.k n m } rfl]
    exact hmap _ _ _ rfl

/-- A lane instruction that no clause holds changes no clause. -/
theorem nextWord_none (c : LCtx) (kd : Option (Nat × W32)) (p : Path) (hc : c.clause = none) :
    nextWord c (writeKd c kd p) = p := by
  cases kd <;> simp [nextWord, writeKd, hc]

/-! ## The end of a lane instruction (R22, R119) -/

@[simp] theorem meterWarp_warps (s : State) (w : Warp) (i n : Nat) : (meterWarp s w i n).warps = s.warps := by
  unfold meterWarp; split <;> rfl

theorem meterWarp_frame (s : State) (w : Warp) (i n : Nat) :
    meterWarp s w i n = { s with parts := (meterWarp s w i n).parts } := by
  unfold meterWarp; split <;> rfl

theorem pushReplay_frame (s : State) (c : LCtx) :
    pushReplay s c = { s with cores := { s.cores with replay := (pushReplay s c).cores.replay } } := rfl

/-- A path after the shift of its age queue, with the instruction noted for the checkers (R410). -/
def laneAged (c : LCtx) (p : Path) (res : Lanes) (tag : Fmt) (pend : Option Nat) : Path :=
  { p with age := shiftAge p.age c.act res tag pend,
           last := some { addr := c.clause.elim 0 (·.addr), widx := c.clause.elim 1 (·.idx), act := c.act } }

theorem laneAged_writeKd (c : LCtx) (kd : Option (Nat × W32)) (p : Path) (res : Lanes) (tag : Fmt) (pend : Option Nat) :
    laneAged c (writeKd c kd p) res tag pend = writeKd c kd (laneAged c p res tag pend) := by
  unfold writeKd
  split <;> rfl

/-- The warp after the end of a lane instruction. -/
def laneEndWarp (c : LCtx) (w : Warp) (res : Lanes) (tag : Fmt) (pend : Option Nat) (fl : Nat) : Warp :=
  Warp.modPath { w.modPath c.pf (fun p => laneAged c p res tag pend) with wmode := raiseFlags w.wmode fl } c.pf
    (nextWord c)

theorem laneEnd_next (s : State) (c : LCtx) (w : Warp) (res : Lanes) (tag : Fmt) (pend : Option Nat) (fl : Nat)
    (h : (w.path c.pf).residue = false) :
    laneEnd s c w res tag pend fl = .next (pushReplay (putWarp s c.uid (laneEndWarp c w res tag pend fl)) c) := by
  obtain ⟨u, pf, _⟩ := c
  cases pf <;> exact if_neg (by simpa [Warp.modPath, Warp.setPath, Warp.path] using h)

theorem laneEndWarp_path (c : LCtx) (w : Warp) (res : Lanes) (tag : Fmt) (pend : Option Nat) (fl : Nat) :
    (laneEndWarp c w res tag pend fl).path c.pf = nextWord c (laneAged c (w.path c.pf) res tag pend) := by
  obtain ⟨u, pf, _⟩ := c
  cases pf <;> rfl

theorem laneEndWarp_other (c : LCtx) (w : Warp) (res : Lanes) (tag : Fmt) (pend : Option Nat) (fl : Nat) :
    (laneEndWarp c w res tag pend fl).path (!c.pf) = w.path (!c.pf) := by
  obtain ⟨u, pf, _⟩ := c
  cases pf <;> rfl

@[simp] theorem laneEndWarp_wmode (c : LCtx) (w : Warp) (res : Lanes) (tag : Fmt) (pend : Option Nat) (fl : Nat) :
    (laneEndWarp c w res tag pend fl).wmode = raiseFlags w.wmode fl := by
  unfold laneEndWarp Warp.modPath Warp.setPath; cases c.pf <;> rfl

theorem laneEndWarp_frame (c : LCtx) (w : Warp) (res : Lanes) (tag : Fmt) (pend : Option Nat) (fl : Nat) :
    { laneEndWarp c w res tag pend fl with a := w.a, b := w.b, wmode := w.wmode } = w := by
  unfold laneEndWarp Warp.modPath Warp.setPath; cases c.pf <;> rfl

@[simp] theorem laneEndWarp_regs (c : LCtx) (w : Warp) (res : Lanes) (tag : Fmt) (pend : Option Nat) (fl : Nat) :
    (laneEndWarp c w res tag pend fl).regs = w.regs := by
  unfold laneEndWarp Warp.modPath Warp.setPath; cases c.pf <;> rfl

theorem laneEndWarp_keep (c : LCtx) (x : Warp) (f : Path → Path) (r : FMap VReg) (res : Lanes) (tag : Fmt)
    (pend : Option Nat) (fl : Nat) :
    { laneEndWarp c (x.modPath c.pf f) res tag pend fl with a := x.a, b := x.b, regs := r, wmode := x.wmode } =
      { x with regs := r } := by
  obtain ⟨u, pf, _⟩ := c
  cases pf <;> rfl

/-- R22, R23: the youngest entry after a shift. -/
theorem shiftAge_pushed (l : List AgeEntry) (act : W32) (res : Lanes) (tag : Fmt) (pend : Option Nat) :
    ∃ q, shiftAge l act res tag pend = q :: l.take 15 ∧
      (∀ old rest, l = old :: rest → q.valid = act ||| old.valid ∧
        ∀ i, i < 32 → lane q.data i = if act.getLsbD i then lane res i else lane old.data i) ∧
      (act ≠ 0 → q.tag = tag ∧ q.pend = pend) ∧
      (act = 0 → ∀ old rest, l = old :: rest → q.valid = old.valid ∧ q.tag = old.tag ∧ q.pend = old.pend) := by
  refine ⟨_, rfl, ?_, ?_, ?_⟩
  · rintro old rest rfl
    exact ⟨rfl, fun i hi => lane_mergeLanes _ _ _ hi⟩
  · intro h; exact ⟨if_neg h, if_neg h⟩
  · rintro h old rest rfl; simp [h]

/-- R130: the captured masks after an instruction. -/
def kdMasks (k : FMap W32) (kd : Option (Nat × W32)) : FMap W32 :=
  match kd with | some (n, m) => fputD 0 k n m | none => k

/-- R110: nextWordOf for the queue that the end of a lane instruction leaves. -/
theorem nextWordOf_lctx (s : State) (w w' : Warp) (o : LaneOp) (kd : Option (Nat × W32)) (p : Path)
    (hp : actPath s w' = nextWord (lctx s w (actPath s w) o) (writeKd (lctx s w (actPath s w) o) kd p))
    (hq : p.queue = (actPath s w).queue) :
    nextWordOf s w w' (lctx s w (actPath s w) o) (kdMasks (lctx s w (actPath s w) o).k kd) := by
  refine ⟨fun hc => ?_, fun d hc hn => ?_⟩
  · rw [hp, nextWord_none _ _ _ hc, hq]
  · have hh : headClause (actPath s w) = some d := by rw [← lctx_clause s w _ o]; exact hc
    rw [hp, nextWord_queue _ _ _ d hc (hq ▸ headClause_mem hh) (hq ▸ hn), hq, lctx_k s w _ o hh]
    rfl

/-- The acting path after the end of a lane instruction that began in warp w and wrote registers only. -/
theorem laneEndWarp_actPath (s : State) (w x : Warp) (o : LaneOp) (v : List Lanes) (kd : Option (Nat × W32)) (res : Lanes) (tag : Fmt)
    (pend : Option Nat) (fl : Nat) (hx : x.path s.cur.path = w.path s.cur.path) :
    let c : LCtx := { lctx s w (actPath s w) o with srcs := v }
    actPath s (laneEndWarp c (x.modPath c.pf (writeKd c kd)) res tag pend fl) =
      nextWord c (writeKd c kd (laneAged c (actPath s w) res tag pend)) := by
  intro c
  have hf : c.pf = s.cur.path := lctx_pf _ _ _ _
  rw [actPath, ← hf, laneEndWarp_path, path_modPath, laneAged_writeKd, hf, hx]; rfl

theorem laneEnded_next (s u : State) (w x : Warp) (o : LaneOp) (v : List Lanes) (res : Lanes) (tag : Fmt) (pend : Option Nat) (fl : Nat)
    (kd : Option (Nat × W32))
    (hu : u = { s with free := u.free, parts := u.parts, ops := u.ops, next := u.next })
    (hx : ∀ pf, x.path pf = w.path pf) :
    let c : LCtx := { lctx s w (actPath s w) o with srcs := v }
    laneEnded s (pushReplay (putWarp u c.uid (laneEndWarp c (x.modPath c.pf (writeKd c kd)) res tag pend fl)) c) w
      (laneEndWarp c (x.modPath c.pf (writeKd c kd)) res tag pend fl) := by
  intro c
  have hc : c.uid = s.cur.warp := lctx_uid _ _ _ _
  have hf : c.pf = s.cur.path := lctx_pf _ _ _ _
  refine ⟨?_, ?_, ?_, ?_, ?_, ?_⟩
  · rw [hu, hc]; rfl
  · rw [hu]; rfl
  · rw [hu]; rfl
  · rw [hu]; rfl
  · rw [← hf, laneEndWarp_other, path_modPath_other, hx]
  · rw [laneEndWarp_actPath s w x o v kd res tag pend fl (hx _), nextWord_frame, writeKd_frame]; rfl

/-- R119: a lane instruction that comes to its end completes with its result. -/
theorem laneEnd_step (s : State) (w : Warp) (o : LaneOp) (v : List Lanes) (r : LRes) (fl : Nat)
    (hr : (actPath s w).residue = false) :
    let c : LCtx := { lctx s w (actPath s w) o with srcs := v }
    let w1 := match o.dst with
      | some d => vwrite w d c.act r.res r.tag
      | none => w
    ∃ t, laneEnd (meterWarp (spend s) c.w 0 (popMask c.act)) c (w1.modPath c.pf (writeKd c r.kd)) r.res r.tag none fl =
      .next t ∧ Sys2Proof.laneStep s t w c o { r with fl := fl } := by
  intro c w1
  have hf : c.pf = s.cur.path := lctx_pf _ _ _ _
  have hw1p : ∀ pf, w1.path pf = w.path pf := by
    intro pf; simp only [w1]; split <;> simp
  have hres : ((w1.modPath c.pf (writeKd c r.kd)).path c.pf).residue = false := by
    rw [path_modPath, writeKd_frame, hw1p, hf]; exact hr
  refine ⟨_, laneEnd_next _ c _ r.res r.tag none fl hres,
    laneEndWarp c (w1.modPath c.pf (writeKd c r.kd)) r.res r.tag none fl,
    laneEnded_next s _ w w1 o v r.res r.tag none fl r.kd ?_ hw1p, ?_, ?_, ?_, ?_, ?_, ?_, ?_, ?_⟩
  · rw [meterWarp_frame]; rfl
  · rw [meterWarp_frame]; rfl
  · rw [meterWarp_frame]; rfl
  · have h := laneEndWarp_keep c w1 (writeKd c r.kd) w.regs r.res r.tag none fl
    generalize laneEndWarp c (w1.modPath c.pf (writeKd c r.kd)) r.res r.tag none fl = v at h ⊢
    simp only [w1] at h
    split at h <;> exact h
  · rw [laneEndWarp_wmode]
    have h : (w1.modPath c.pf (writeKd c r.kd)).wmode = w1.wmode := by
      unfold Warp.modPath Warp.setPath; cases c.pf <;> rfl
    rw [h]
    simp only [w1]
    split <;> rfl
  · intro d hd
    have h1 : w1 = vwrite w d c.act r.res r.tag := by simp only [w1, hd]
    have h2 : (laneEndWarp c (w1.modPath c.pf (writeKd c r.kd)) r.res r.tag none fl).regs =
        (vwrite w d c.act r.res r.tag).regs := by rw [laneEndWarp_regs, modPath_regs, h1]
    have h3 : ∀ x y : Warp, x.regs = y.regs → ∀ n, vtag x n = vtag y n ∧ vread x n = vread y n := by
      intro x y h n; simp [vtag, vread, h]
    refine ⟨by rw [(h3 _ _ h2 d).1, vtag_vwrite], fun l hl => ?_⟩
    rw [(h3 _ _ h2 d).2, vread_vwrite, lane_mergeLanes _ _ _ hl]
  · intro n hn
    rw [laneEndWarp_regs, modPath_regs]
    simp only [w1]
    split
    · rename_i d hd
      exact fget_vwrite_other _ _ _ _ (by rintro rfl; exact hn hd)
    · rfl
  · obtain ⟨q, h1, h2, h3, _⟩ := shiftAge_pushed (actPath s w).age c.act r.res r.tag none
    refine ⟨q, ?_, h2, h3⟩
    rw [laneEndWarp_actPath s w w1 o v r.kd r.res r.tag none fl (hw1p _), nextWord_frame, writeKd_frame]
    exact h1
  · exact nextWordOf_lctx s w _ o r.kd _ (laneEndWarp_actPath s w w1 o v r.kd r.res r.tag none fl (hw1p _)) rfl

/-- R13: a lane instruction whose act is empty. -/
theorem laneEnd_empty (s : State) (w : Warp) (o : LaneOp) (v : List Lanes) (res : Lanes) (tag : Fmt) (pend : Option Nat)
    (hr : (actPath s w).residue = false) (ha : (lctx s w (actPath s w) o).act = 0) :
    let c : LCtx := { lctx s w (actPath s w) o with srcs := v }
    ∃ t, laneEnd s c w res tag pend 0 = .next t ∧ laneEmpty s t w c false := by
  intro c
  have hf : c.pf = s.cur.path := lctx_pf _ _ _ _
  have hk : w.modPath c.pf (writeKd c none) = w := modPath_id w c.pf
  refine ⟨_, laneEnd_next _ c _ res tag pend 0 (by rw [hf]; exact hr), laneEndWarp c w res tag pend 0, ?_, rfl, rfl, ?_, ?_,
    ?_, ?_⟩
  · have := laneEnded_next s s w w o v res tag pend 0 none rfl fun _ => rfl
    simp only at this
    rwa [hk] at this
  · have h := laneEndWarp_frame c w res tag pend 0
    have hm : (laneEndWarp c w res tag pend 0).wmode = w.wmode := by
      rw [laneEndWarp_wmode, raiseFlags]; exact BitVec.or_zero
    generalize laneEndWarp c w res tag pend 0 = v at h hm ⊢
    rw [← hm] at h
    rw [show w.nidem = v.nidem from by rw [← h]]
    exact h
  · have h := laneEndWarp_frame c w res tag pend 0
    generalize laneEndWarp c w res tag pend 0 = v at h ⊢
    rw [← h]; rfl
  · obtain ⟨q, h1, h2, _, h4⟩ := shiftAge_pushed (actPath s w).age c.act res tag pend
    refine ⟨q, ?_, fun old rest h => ⟨(h4 ha old rest h).1, (h4 ha old rest h).2.1, (h4 ha old rest h).2.2, fun l hl => ?_⟩⟩
    · have := laneEndWarp_actPath s w w o v none res tag pend 0 rfl
      simp only at this
      rw [hk] at this
      rw [this, nextWord_frame]
      exact h1
    · rw [(h2 old rest h).2 l hl, show c.act = 0 from ha]; simp
  · have := laneEndWarp_actPath s w w o v none res tag pend 0 rfl
    simp only at this
    rw [hk] at this
    exact nextWordOf_lctx s w _ o none _ this rfl

/-! ## The shared frame of the arithmetic forms (R119) -/

/-- R83: what the raising of a cause by a lane instruction does. -/
theorem trapsLaneAt_trapL (i : Instr) (s : State) (c : LCtx) (cause : Nat) (m : W32) (va : W64)
    (h : exec i s = trapL s c cause m va) : trapsLaneAt i s c cause m va := by
  refine ⟨fun hl => ?_, fun hl => ?_⟩ <;> simp [h, trapL, hl, stall]

/-- R82: what laneRead does on a live path whose act is not empty. -/
theorem laneRead_reads (s : State) (w : Warp) (o : LaneOp) (i : Instr) (rok : Bool) (srcs : List (Src × Fmt))
    (k : LIn → Out) (P : LCtx → LIn → Prop) (ha : actsOn s w) (hi : exec i s = laneRead s o rok srcs k)
    (hk : ∀ x : LIn, x.c = { lctx s w (actPath s w) o with srcs := x.vals } → x.s = s → x.o = o → x.rok = rok → x.c.act ≠ 0 →
      exec i s = k x → P (lctx s w (actPath s w) o) x) :
    laneReads s w o i rok srcs P := by
  have hu := lctx_uid s w (actPath s w) o
  have hp := lctx_pf s w (actPath s w) o
  simp only [laneRead, onPath_live s w ha] at hi
  refine ⟨fun h0 hb => ?_, fun h0 hb hw => ?_, fun h0 hb hw => ⟨fun e he => ?_, fun vals tags fl he => ?_⟩⟩
  · refine trapsLaneAt_trapL _ _ _ _ _ _ ?_
    rw [hi, if_neg h0, if_pos]
    · rcases hb with ⟨x, hx, hb⟩ | ⟨d, hd, hb⟩
      · simp only [Bool.or_eq_true, List.any_eq_true]
        exact .inl ⟨x, hx, hb⟩
      · rw [lctx_w] at hb; simp [hd, hb]
  all_goals
    have h1 : ¬((srcs.any (fun x => srcBeyond (lctx s w (actPath s w) o) x.1) ||
        o.dst.any (fun d => decide ((lctx s w (actPath s w) o).w.vregs ≤ d))) = true) := by
      intro h
      apply hb
      simp only [Bool.or_eq_true, List.any_eq_true] at h
      rcases h with ⟨x, hx, h⟩ | h
      · exact .inl ⟨x, hx, h⟩
      · right
        cases hd : o.dst with
        | none => rw [hd] at h; cases h
        | some d => rw [hd] at h; exact ⟨d, rfl, by simpa using h⟩
    rw [if_neg h0, if_neg h1] at hi
  · rw [waits, hi, if_pos]
    · rfl
    · rcases hw with ⟨x, hx, h⟩ | h | ⟨h, h'⟩
      · simp only [Bool.or_eq_true, List.any_eq_true]
        exact .inl (.inl ⟨x, hx, h⟩)
      · simp [h]
      · simp only [Bool.or_eq_true, Bool.and_eq_true, decide_eq_true_eq]
        exact .inr ⟨h, h'⟩
  all_goals
    have h2 : ¬((srcs.any (fun x => srcWaits s (lctx s w (actPath s w) o) x.1) ||
        dstWaits s (lctx s w (actPath s w) o) o.dst ||
        ((ageEntry (lctx s w (actPath s w) o) 0).pend.isSome &&
          decide ((lctx s w (actPath s w) o).act ≠ BitVec.allOnes 32))) = true) := by
      intro h
      apply hw
      simp only [Bool.or_eq_true, Bool.and_eq_true, List.any_eq_true, decide_eq_true_eq] at h
      rcases h with (⟨x, hx, h⟩ | h) | h
      · exact .inl ⟨x, hx, h⟩
      · exact .inr (.inl h)
      · exact .inr (.inr h)
    rw [if_neg h2] at hi
  · exact trapsLaneAt_trapL _ _ _ _ _ _ (by rw [hi, he])
  · rw [he] at hi
    exact hk _ rfl rfl rfl rfl h0 hi

/-- R26, R23, R413: what laneGuard does. -/
theorem laneGuard_guarded (i : Instr) (s : State) (x : LIn) (tag : Fmt) (k : Out) (P : Prop) (hs : x.s = s)
    (h0 : x.c.act ≠ 0) (hi : exec i s = laneGuard x tag k) (hk : exec i s = k → P) :
    laneGuarded i s x.c x.o x tag P := by
  have hb : (x.c.act ≠ 0 && x.c.w.div && x.o.dst.any (fun d => vtag x.c.w d ≠ tag)) = true ↔
      x.c.w.div = true ∧ ∃ d, x.o.dst = some d ∧ vtag x.c.w d ≠ tag := by
    have h0' : ¬x.c.act = 0#32 := h0
    cases x.o.dst <;> simp [h0', and_comm]
  unfold laneGuard at hi
  refine ⟨fun h => ?_, fun h hq => ?_, fun h hq hr => ?_, fun h hq hr => ?_⟩
  · exact trapsLaneAt_trapL _ _ _ _ _ _ (by rw [hi, if_pos (hb.2 h), hs])
  · exact trapsLaneAt_trapL _ _ _ _ _ _ (by rw [hi, if_neg (fun c => h (hb.1 c)), if_pos hq, hs])
  · exact trapsLaneAt_trapL _ _ _ _ _ _ (by rw [hi, if_neg (fun c => h (hb.1 c)), if_neg (by simp [hq]), if_pos hr, hs])
  · apply hk
    rw [hi, if_neg (fun c => h (hb.1 c)), if_neg (by simp [hq]), if_neg (by simp [hr])]

/-- R119: an arithmetic form does what the shared frame says, with the result that its function gives. -/
theorem laneRun_does (s : State) (w : Warp) (o : LaneOp) (i : Instr) (rok : Bool) (srcs : List (Src × Fmt))
    (f : LIn → LRes) (post : LIn → LRes → Prop) (ha : actsOn s w) (hi : exec i s = laneRun s o rok srcs f)
    (hp : ∀ x : LIn, x.s = s → x.o = o → x.rok = rok → x.c.act ≠ 0 → post x (f x)) : laneDoes s w o i rok srcs post := by
  refine ⟨fun h0 hr => ?_, ?_⟩
  · obtain ⟨t, h1, h2⟩ := laneEnd_empty s w o (lctx s w (actPath s w) o).srcs zeroLanes (f { s := s, c := lctx s w (actPath s w) o, o := o, rok := rok, vals := [], tags := [], fl := 0, qbad := false, rbad := false }).tag none hr h0
    refine ⟨t, ?_, h2⟩
    rw [hi, laneRun, laneRead, onPath_live s w ha]
    simp only [h0, if_true]
    simp only [laneGuard, Bool.false_eq_true, if_false, h0, lctx_w]
    exact h1
  · refine laneRead_reads s w o i rok srcs _ _ ha hi fun x hc hs ho hk h0 hx => ⟨f x, hp x hs ho hk h0, ?_⟩
    have hg := laneGuard_guarded i s x (f x).tag _ ((actPath s w).residue = false → runs i s fun t =>
      Sys2Proof.laneStep s t w (lctx s w (actPath s w) o) o { f x with fl := flOr x.fl (f x).fl }) hs h0 hx fun hx hr => ?_
    · rw [ho, hc] at hg; exact hg
    · rw [if_neg h0, hc, lctx_w] at hx
      obtain ⟨t, h1, h2⟩ := laneEnd_step s w o x.vals (f x) (flOr x.fl (f x).fl) hr
      rw [lctx_w] at h1
      exact ⟨t, hx.trans h1, h2⟩

/-! ## Elements and results -/

theorem packDigits (B : Nat) (hB : 0 < B) (g : Nat → Nat) (n : Nat) :
    let t := (List.range n).foldl (fun a i => a + g i % B * B ^ i) 0
    t < B ^ n ∧ ∀ e, e < n → t / B ^ e % B = g e % B := by
  induction n with
  | zero => simp
  | succ n ih =>
    obtain ⟨h1, h2⟩ := ih
    simp only [List.range_succ, List.foldl_append, List.foldl_cons, List.foldl_nil]
    generalize (List.range n).foldl (fun a i => a + g i % B * B ^ i) 0 = t at h1 h2
    have hg : g n % B < B := Nat.mod_lt _ hB
    refine ⟨?_, fun e he => ?_⟩
    · calc t + g n % B * B ^ n < B ^ n + g n % B * B ^ n := by omega
        _ = (g n % B + 1) * B ^ n := by ring
        _ ≤ B * B ^ n := Nat.mul_le_mul_right _ hg
        _ = B ^ (n + 1) := by ring
    · rcases Nat.lt_succ_iff_lt_or_eq.1 he with he | rfl
      · have : g n % B * B ^ n = B ^ e * (B * (g n % B * B ^ (n - e - 1))) := by
          have : B ^ n = B ^ e * (B * B ^ (n - e - 1)) := by
            rw [← Nat.pow_succ', ← Nat.pow_add]; congr 1; omega
          rw [this]; ring
        rw [this, Nat.add_mul_div_left _ _ (Nat.pow_pos hB), Nat.add_mul_mod_self_left]
        exact h2 e he
      · rw [Nat.add_mul_div_right _ _ (Nat.pow_pos hB), Nat.div_eq_of_lt h1, Nat.zero_add, Nat.mod_mod]

/-- R24: an element of a lane word made from elements. -/
theorem elem_packElems (f : Fmt) (g : Nat → Nat) {e : Nat} (he : e < fmtCount f) :
    elem f (packElems f g) e = g e % 2 ^ fmtWidth f := by
  have hd := packDigits (2 ^ fmtWidth f) (by positivity) g (fmtCount f)
  simp only [← Nat.pow_mul] at hd
  have hw : fmtWidth f * fmtCount f = 32 := by cases f <;> rfl
  rw [hw] at hd
  rw [elem, packElems, n32, BitVec.toNat_ofNat, Nat.mod_eq_of_lt hd.1]
  exact hd.2 e he

theorem elem_lt (f : Fmt) (w : W32) (e : Nat) : elem f w e < 2 ^ fmtWidth f := Nat.mod_lt _ (by positivity)

/-- R119: an element of a result made element by element. -/
theorem perElem_elem (x : LIn) (f : Fmt) (g : Nat → Nat → Coded) {l e : Nat} (hl : x.c.act.getLsbD l = true)
    (he : e < fmtCount f) : elem f (lane (perElem x f g).res l) e = (g l e).code % 2 ^ fmtWidth f := by
  rw [perElem, lane_mkLanes, if_pos (getLsbD_lt hl), if_pos hl, elem_packElems f _ he]

theorem perLane_lane (x : LIn) (tag : Fmt) (g : Nat → W32) {l : Nat} (hl : x.c.act.getLsbD l = true) :
    lane (perLane x tag g).res l = g l := by
  rw [perLane, lane_mkLanes, if_pos (getLsbD_lt hl), if_pos hl]

theorem testBit_flAll (l : List Nat) (b : Nat) : (flAll l).testBit b = true ↔ ∃ v ∈ l, v.testBit b = true := by
  have h : ∀ (l : List Nat) (a : Nat), (l.foldl flOr a).testBit b = true ↔ a.testBit b = true ∨ ∃ v ∈ l, v.testBit b = true := by
    intro l
    induction l with
    | nil => simp
    | cons v r ih => intro a; simp [ih, flOr, Nat.testBit_or, or_assoc]
  simpa [flAll] using h l 0

/-- R56, R119: a flag of a result made element by element is raised by some element of a lane of act. -/
theorem perElem_flag (x : LIn) (f : Fmt) (g : Nat → Nat → Coded) (b : Nat) : (perElem x f g).fl.testBit b = true ↔
    ∃ l e, x.c.act.getLsbD l = true ∧ e < fmtCount f ∧ (g l e).fl.testBit b = true := by
  simp only [perElem, testBit_flAll, List.mem_flatMap, List.mem_map, mem_lanesOf, List.mem_range]
  constructor
  · rintro ⟨v, ⟨l, hl, e, he, rfl⟩, hv⟩; exact ⟨l, e, hl, he, hv⟩
  · rintro ⟨l, e, hl, he, hv⟩; exact ⟨_, ⟨l, hl, e, he, rfl⟩, hv⟩

/-- A result made element by element with no flag raises none. -/
theorem perElem_noFlag (x : LIn) (f : Fmt) (g : Nat → Nat → Nat) :
    (perElem x f fun l e => { code := g l e, fl := 0 }).fl = 0 := by
  apply Nat.eq_of_testBit_eq
  intro b
  rw [Nat.zero_testBit, Bool.eq_false_iff]
  intro h
  obtain ⟨l, e, _, _, hv⟩ := (perElem_flag _ _ _ b).1 h
  simp at hv

end Sys2Proof.Machine
end

