-- ==== Sys2Proof/Laws/PerInstr.lean ====
section
/-! SUPPORT. The family Coded: a well-formed instruction that has an encoding fills a word of its stream, 32 or 96
bits, and no bit beyond it (R66, R67, R73). One lemma per constructor. -/

namespace Sys2Proof.Laws

-- Each lemma is short; elaborated one after another they need no thread each.
set_option Elab.async false

open Sys2Proof.Machine

/-- R66: the word of a well-formed instruction has 32 bits in the S stream and 96 in a clause. -/
def Coded.Statement (i : Instr) : Prop :=
  wellFormed i = true → ∀ n w, encode i = some (n, w) → (n = 32 ∨ n = 96) ∧ w < 2 ^ n

/-- A scalar form: its word is in range whenever it is well-formed. -/
theorem Coded.of_scalar {i : Instr} {k : Nat} (hs : encodeS i = some k)
    (hk : wellFormed i = true → k < 2 ^ 32) : Coded.Statement i := by
  intro h n w e
  simp only [encode, hs, Option.some.injEq, Prod.mk.injEq] at e
  obtain ⟨rfl, rfl⟩ := e
  exact ⟨.inl rfl, hk h⟩

/-- R17: the code of a source that exists has 11 bits. -/
theorem srcCode_lt {x : Src} (h : srcWf x = true) : srcCode x < 2 ^ 11 := by
  cases x <;> simp only [srcWf, decide_eq_true_eq] at h <;> simp only [srcCode] <;> omega

/-- R44: the code of a format has 5 bits. -/
theorem fmtCode_lt (f : Fmt) : fmtCode f < 2 ^ 5 := by cases f <;> decide

/-- R73: the fields of a lane instruction fill 96 bits. -/
theorem laneWord_lt {op : Nat} {o : LaneOp} (hop : op < 2 ^ 10) (h : laneOperandsWf o = true) :
    laneWord (rawOf op o) < 2 ^ 96 := by
  simp only [laneOperandsWf, Bool.and_eq_true, decide_eq_true_eq] at h
  obtain ⟨⟨⟨⟨⟨⟨⟨hd, ha⟩, hb⟩, hc⟩, hr⟩, hk⟩, hf⟩, hm⟩ := h
  have ha := srcCode_lt ha
  have hb := srcCode_lt hb
  have hc := srcCode_lt hc
  have hfm := fmtCode_lt o.fmt
  have hd' : o.dst.getD 0 < 2 ^ 11 := by
    revert hd; cases o.dst <;> simp <;> omega
  have hf' : o.flag.getD 15 < 2 ^ 4 := by
    revert hf; cases o.flag <;> simp <;> omega
  have hw : b2n o.dst.isSome ≤ 1 := by cases o.dst.isSome <;> decide
  have hs : b2n o.sat ≤ 1 := by cases o.sat <;> decide
  simp only [laneWord, rawOf]
  omega

/-- A lane form: its word is in range whenever its operands are. -/
theorem Coded.of_lane {i : Instr} {op : Nat} {o : LaneOp} (hs : encodeS i = none) (hl : laneParts i = some (op, o))
    (hop : op < 2 ^ 10) (hw : wellFormed i = laneWf op o) : Coded.Statement i := by
  intro h n w e
  rw [hw] at h
  simp only [laneWf, Bool.and_eq_true] at h
  simp only [encode, encodeLane, hs, hl, Option.some.injEq, Prod.mk.injEq] at e
  obtain ⟨rfl, rfl⟩ := e
  exact ⟨.inr rfl, laneWord_lt hop h.1⟩

/-- A device event has no encoding. -/
theorem Coded.of_event {i : Instr} (hs : encodeS i = none) (hl : laneParts i = none) : Coded.Statement i := by
  intro _ n w e
  simp [encode, encodeLane, hs, hl] at e

theorem Coded.add (d a b : Nat) : Coded.Statement (.add d a b) :=
  Coded.of_scalar rfl fun h => by
    simp only [wellFormed, Bool.and_eq_true, decide_eq_true_eq] at h; simp only [place]; omega
theorem Coded.sub (d a b : Nat) : Coded.Statement (.sub d a b) :=
  Coded.of_scalar rfl fun h => by
    simp only [wellFormed, Bool.and_eq_true, decide_eq_true_eq] at h; simp only [place]; omega
theorem Coded.mul (d a b : Nat) : Coded.Statement (.mul d a b) :=
  Coded.of_scalar rfl fun h => by
    simp only [wellFormed, Bool.and_eq_true, decide_eq_true_eq] at h; simp only [place]; omega
theorem Coded.mulhI64 (d a b : Nat) : Coded.Statement (.mulhI64 d a b) :=
  Coded.of_scalar rfl fun h => by
    simp only [wellFormed, Bool.and_eq_true, decide_eq_true_eq] at h; simp only [place]; omega
theorem Coded.mulhN64 (d a b : Nat) : Coded.Statement (.mulhN64 d a b) :=
  Coded.of_scalar rfl fun h => by
    simp only [wellFormed, Bool.and_eq_true, decide_eq_true_eq] at h; simp only [place]; omega
theorem Coded.divI64 (d a b : Nat) : Coded.Statement (.divI64 d a b) :=
  Coded.of_scalar rfl fun h => by
    simp only [wellFormed, Bool.and_eq_true, decide_eq_true_eq] at h; simp only [place]; omega
theorem Coded.divN64 (d a b : Nat) : Coded.Statement (.divN64 d a b) :=
  Coded.of_scalar rfl fun h => by
    simp only [wellFormed, Bool.and_eq_true, decide_eq_true_eq] at h; simp only [place]; omega
theorem Coded.remI64 (d a b : Nat) : Coded.Statement (.remI64 d a b) :=
  Coded.of_scalar rfl fun h => by
    simp only [wellFormed, Bool.and_eq_true, decide_eq_true_eq] at h; simp only [place]; omega
theorem Coded.remN64 (d a b : Nat) : Coded.Statement (.remN64 d a b) :=
  Coded.of_scalar rfl fun h => by
    simp only [wellFormed, Bool.and_eq_true, decide_eq_true_eq] at h; simp only [place]; omega
theorem Coded.and (d a b : Nat) : Coded.Statement (.and d a b) :=
  Coded.of_scalar rfl fun h => by
    simp only [wellFormed, Bool.and_eq_true, decide_eq_true_eq] at h; simp only [place]; omega
theorem Coded.or (d a b : Nat) : Coded.Statement (.or d a b) :=
  Coded.of_scalar rfl fun h => by
    simp only [wellFormed, Bool.and_eq_true, decide_eq_true_eq] at h; simp only [place]; omega
theorem Coded.xor (d a b : Nat) : Coded.Statement (.xor d a b) :=
  Coded.of_scalar rfl fun h => by
    simp only [wellFormed, Bool.and_eq_true, decide_eq_true_eq] at h; simp only [place]; omega
theorem Coded.andn (d a b : Nat) : Coded.Statement (.andn d a b) :=
  Coded.of_scalar rfl fun h => by
    simp only [wellFormed, Bool.and_eq_true, decide_eq_true_eq] at h; simp only [place]; omega
theorem Coded.shl (d a b : Nat) : Coded.Statement (.shl d a b) :=
  Coded.of_scalar rfl fun h => by
    simp only [wellFormed, Bool.and_eq_true, decide_eq_true_eq] at h; simp only [place]; omega
theorem Coded.shr (d a b : Nat) : Coded.Statement (.shr d a b) :=
  Coded.of_scalar rfl fun h => by
    simp only [wellFormed, Bool.and_eq_true, decide_eq_true_eq] at h; simp only [place]; omega
theorem Coded.sra (d a b : Nat) : Coded.Statement (.sra d a b) :=
  Coded.of_scalar rfl fun h => by
    simp only [wellFormed, Bool.and_eq_true, decide_eq_true_eq] at h; simp only [place]; omega
theorem Coded.ror (d a b : Nat) : Coded.Statement (.ror d a b) :=
  Coded.of_scalar rfl fun h => by
    simp only [wellFormed, Bool.and_eq_true, decide_eq_true_eq] at h; simp only [place]; omega
theorem Coded.minI64 (d a b : Nat) : Coded.Statement (.minI64 d a b) :=
  Coded.of_scalar rfl fun h => by
    simp only [wellFormed, Bool.and_eq_true, decide_eq_true_eq] at h; simp only [place]; omega
theorem Coded.minN64 (d a b : Nat) : Coded.Statement (.minN64 d a b) :=
  Coded.of_scalar rfl fun h => by
    simp only [wellFormed, Bool.and_eq_true, decide_eq_true_eq] at h; simp only [place]; omega
theorem Coded.maxI64 (d a b : Nat) : Coded.Statement (.maxI64 d a b) :=
  Coded.of_scalar rfl fun h => by
    simp only [wellFormed, Bool.and_eq_true, decide_eq_true_eq] at h; simp only [place]; omega
theorem Coded.maxN64 (d a b : Nat) : Coded.Statement (.maxN64 d a b) :=
  Coded.of_scalar rfl fun h => by
    simp only [wellFormed, Bool.and_eq_true, decide_eq_true_eq] at h; simp only [place]; omega
theorem Coded.sltI64 (d a b : Nat) : Coded.Statement (.sltI64 d a b) :=
  Coded.of_scalar rfl fun h => by
    simp only [wellFormed, Bool.and_eq_true, decide_eq_true_eq] at h; simp only [place]; omega
theorem Coded.sltN64 (d a b : Nat) : Coded.Statement (.sltN64 d a b) :=
  Coded.of_scalar rfl fun h => by
    simp only [wellFormed, Bool.and_eq_true, decide_eq_true_eq] at h; simp only [place]; omega
theorem Coded.clz (d a : Nat) : Coded.Statement (.clz d a) :=
  Coded.of_scalar rfl fun h => by
    simp only [wellFormed, Bool.and_eq_true, decide_eq_true_eq] at h; simp only [place]; omega
theorem Coded.popc (d a : Nat) : Coded.Statement (.popc d a) :=
  Coded.of_scalar rfl fun h => by
    simp only [wellFormed, Bool.and_eq_true, decide_eq_true_eq] at h; simp only [place]; omega
theorem Coded.sextI8 (d a : Nat) : Coded.Statement (.sextI8 d a) :=
  Coded.of_scalar rfl fun h => by
    simp only [wellFormed, Bool.and_eq_true, decide_eq_true_eq] at h; simp only [place]; omega
theorem Coded.sextI16 (d a : Nat) : Coded.Statement (.sextI16 d a) :=
  Coded.of_scalar rfl fun h => by
    simp only [wellFormed, Bool.and_eq_true, decide_eq_true_eq] at h; simp only [place]; omega
theorem Coded.sextI32 (d a : Nat) : Coded.Statement (.sextI32 d a) :=
  Coded.of_scalar rfl fun h => by
    simp only [wellFormed, Bool.and_eq_true, decide_eq_true_eq] at h; simp only [place]; omega
theorem Coded.zextN8 (d a : Nat) : Coded.Statement (.zextN8 d a) :=
  Coded.of_scalar rfl fun h => by
    simp only [wellFormed, Bool.and_eq_true, decide_eq_true_eq] at h; simp only [place]; omega
theorem Coded.zextN16 (d a : Nat) : Coded.Statement (.zextN16 d a) :=
  Coded.of_scalar rfl fun h => by
    simp only [wellFormed, Bool.and_eq_true, decide_eq_true_eq] at h; simp only [place]; omega
theorem Coded.zextN32 (d a : Nat) : Coded.Statement (.zextN32 d a) :=
  Coded.of_scalar rfl fun h => by
    simp only [wellFormed, Bool.and_eq_true, decide_eq_true_eq] at h; simp only [place]; omega
theorem Coded.brev (d a : Nat) : Coded.Statement (.brev d a) :=
  Coded.of_scalar rfl fun h => by
    simp only [wellFormed, Bool.and_eq_true, decide_eq_true_eq] at h; simp only [place]; omega
theorem Coded.nop : Coded.Statement (.nop) :=
  Coded.of_scalar rfl fun _ => by decide
theorem Coded.addi (d a imm : Nat) : Coded.Statement (.addi d a imm) :=
  Coded.of_scalar rfl fun h => by
    simp only [wellFormed, Bool.and_eq_true, decide_eq_true_eq] at h; simp only [place]; omega
theorem Coded.andi (d a imm : Nat) : Coded.Statement (.andi d a imm) :=
  Coded.of_scalar rfl fun h => by
    simp only [wellFormed, Bool.and_eq_true, decide_eq_true_eq] at h; simp only [place]; omega
theorem Coded.ori (d a imm : Nat) : Coded.Statement (.ori d a imm) :=
  Coded.of_scalar rfl fun h => by
    simp only [wellFormed, Bool.and_eq_true, decide_eq_true_eq] at h; simp only [place]; omega
theorem Coded.xori (d a imm : Nat) : Coded.Statement (.xori d a imm) :=
  Coded.of_scalar rfl fun h => by
    simp only [wellFormed, Bool.and_eq_true, decide_eq_true_eq] at h; simp only [place]; omega
theorem Coded.shli (d a sh : Nat) : Coded.Statement (.shli d a sh) :=
  Coded.of_scalar rfl fun h => by
    simp only [wellFormed, Bool.and_eq_true, decide_eq_true_eq] at h; simp only [place]; omega
theorem Coded.shri (d a sh : Nat) : Coded.Statement (.shri d a sh) :=
  Coded.of_scalar rfl fun h => by
    simp only [wellFormed, Bool.and_eq_true, decide_eq_true_eq] at h; simp only [place]; omega
theorem Coded.srai (d a sh : Nat) : Coded.Statement (.srai d a sh) :=
  Coded.of_scalar rfl fun h => by
    simp only [wellFormed, Bool.and_eq_true, decide_eq_true_eq] at h; simp only [place]; omega
theorem Coded.sltiI64 (d a imm : Nat) : Coded.Statement (.sltiI64 d a imm) :=
  Coded.of_scalar rfl fun h => by
    simp only [wellFormed, Bool.and_eq_true, decide_eq_true_eq] at h; simp only [place]; omega
theorem Coded.sltiN64 (d a imm : Nat) : Coded.Statement (.sltiN64 d a imm) :=
  Coded.of_scalar rfl fun h => by
    simp only [wellFormed, Bool.and_eq_true, decide_eq_true_eq] at h; simp only [place]; omega
theorem Coded.ldi (d pos imm : Nat) : Coded.Statement (.ldi d pos imm) :=
  Coded.of_scalar rfl fun h => by
    simp only [wellFormed, Bool.and_eq_true, decide_eq_true_eq] at h; simp only [place]; omega
theorem Coded.ldiK (d pos imm : Nat) : Coded.Statement (.ldiK d pos imm) :=
  Coded.of_scalar rfl fun h => by
    simp only [wellFormed, Bool.and_eq_true, decide_eq_true_eq] at h; simp only [place]; omega
theorem Coded.b (off : Nat) : Coded.Statement (.b off) :=
  Coded.of_scalar rfl fun h => by
    simp only [wellFormed, decide_eq_true_eq] at h; omega
theorem Coded.call (n off : Nat) : Coded.Statement (.call n off) :=
  Coded.of_scalar rfl fun h => by
    simp only [wellFormed, Bool.and_eq_true, decide_eq_true_eq] at h; simp only [place]; omega
theorem Coded.ret (a : Nat) : Coded.Statement (.ret a) :=
  Coded.of_scalar rfl fun h => by
    simp only [wellFormed, decide_eq_true_eq] at h; simp only [place]; omega
theorem Coded.brd (kn toff joff : Nat) : Coded.Statement (.brd kn toff joff) :=
  Coded.of_scalar rfl fun h => by
    simp only [wellFormed, Bool.and_eq_true, decide_eq_true_eq] at h; simp only [place]; omega
theorem Coded.join : Coded.Statement (.join) :=
  Coded.of_scalar rfl fun _ => by decide
theorem Coded.loop (a off : Nat) : Coded.Statement (.loop a off) :=
  Coded.of_scalar rfl fun h => by
    simp only [wellFormed, Bool.and_eq_true, decide_eq_true_eq] at h; simp only [place]; omega
theorem Coded.exit : Coded.Statement (.exit) :=
  Coded.of_scalar rfl fun _ => by decide
theorem Coded.beq (a b off : Nat) : Coded.Statement (.beq a b off) :=
  Coded.of_scalar rfl fun h => by
    simp only [wellFormed, Bool.and_eq_true, decide_eq_true_eq] at h; simp only [place]; omega
theorem Coded.bne (a b off : Nat) : Coded.Statement (.bne a b off) :=
  Coded.of_scalar rfl fun h => by
    simp only [wellFormed, Bool.and_eq_true, decide_eq_true_eq] at h; simp only [place]; omega
theorem Coded.blt (a b off : Nat) : Coded.Statement (.blt a b off) :=
  Coded.of_scalar rfl fun h => by
    simp only [wellFormed, Bool.and_eq_true, decide_eq_true_eq] at h; simp only [place]; omega
theorem Coded.bge (a b off : Nat) : Coded.Statement (.bge a b off) :=
  Coded.of_scalar rfl fun h => by
    simp only [wellFormed, Bool.and_eq_true, decide_eq_true_eq] at h; simp only [place]; omega
theorem Coded.bltu (a b off : Nat) : Coded.Statement (.bltu a b off) :=
  Coded.of_scalar rfl fun h => by
    simp only [wellFormed, Bool.and_eq_true, decide_eq_true_eq] at h; simp only [place]; omega
theorem Coded.bgeu (a b off : Nat) : Coded.Statement (.bgeu a b off) :=
  Coded.of_scalar rfl fun h => by
    simp only [wellFormed, Bool.and_eq_true, decide_eq_true_eq] at h; simp only [place]; omega
theorem Coded.kand (d a b : Nat) : Coded.Statement (.kand d a b) :=
  Coded.of_scalar rfl fun h => by
    simp only [wellFormed, Bool.and_eq_true, decide_eq_true_eq] at h; simp only [place]; omega
theorem Coded.kor (d a b : Nat) : Coded.Statement (.kor d a b) :=
  Coded.of_scalar rfl fun h => by
    simp only [wellFormed, Bool.and_eq_true, decide_eq_true_eq] at h; simp only [place]; omega
theorem Coded.kxor (d a b : Nat) : Coded.Statement (.kxor d a b) :=
  Coded.of_scalar rfl fun h => by
    simp only [wellFormed, Bool.and_eq_true, decide_eq_true_eq] at h; simp only [place]; omega
theorem Coded.kandn (d a b : Nat) : Coded.Statement (.kandn d a b) :=
  Coded.of_scalar rfl fun h => by
    simp only [wellFormed, Bool.and_eq_true, decide_eq_true_eq] at h; simp only [place]; omega
theorem Coded.knot (d a : Nat) : Coded.Statement (.knot d a) :=
  Coded.of_scalar rfl fun h => by
    simp only [wellFormed, Bool.and_eq_true, decide_eq_true_eq] at h; simp only [place]; omega
theorem Coded.kmov (d a : Nat) : Coded.Statement (.kmov d a) :=
  Coded.of_scalar rfl fun h => by
    simp only [wellFormed, Bool.and_eq_true, decide_eq_true_eq] at h; simp only [place]; omega
theorem Coded.ksetx (d n : Nat) : Coded.Statement (.ksetx d n) :=
  Coded.of_scalar rfl fun h => by
    simp only [wellFormed, Bool.and_eq_true, decide_eq_true_eq] at h; simp only [place]; omega
theorem Coded.kgetx (n a : Nat) : Coded.Statement (.kgetx n a) :=
  Coded.of_scalar rfl fun h => by
    simp only [wellFormed, Bool.and_eq_true, decide_eq_true_eq] at h; simp only [place]; omega
theorem Coded.vget (n vn lane : Nat) : Coded.Statement (.vget n vn lane) :=
  Coded.of_scalar rfl fun h => by
    simp only [wellFormed, Bool.and_eq_true, decide_eq_true_eq] at h; simp only [place]; omega
theorem Coded.vput (n vn lane : Nat) : Coded.Statement (.vput n vn lane) :=
  Coded.of_scalar rfl fun h => by
    simp only [wellFormed, Bool.and_eq_true, decide_eq_true_eq] at h; simp only [place]; omega
theorem Coded.runc (n off : Nat) : Coded.Statement (.runc n off) :=
  Coded.of_scalar rfl fun h => by
    simp only [wellFormed, Bool.and_eq_true, decide_eq_true_eq] at h; simp only [place]; omega
theorem Coded.waitf (mask : Nat) : Coded.Statement (.waitf mask) :=
  Coded.of_scalar rfl fun h => by
    simp only [wellFormed, decide_eq_true_eq] at h; omega
theorem Coded.waitc (a ctr : Nat) : Coded.Statement (.waitc a ctr) :=
  Coded.of_scalar rfl fun h => by
    simp only [wellFormed, Bool.and_eq_true, decide_eq_true_eq] at h; simp only [place]; omega
theorem Coded.barArrive (bn a : Nat) : Coded.Statement (.barArrive bn a) :=
  Coded.of_scalar rfl fun h => by
    simp only [wellFormed, Bool.and_eq_true, decide_eq_true_eq] at h; simp only [place]; omega
theorem Coded.barWait (bn : Nat) : Coded.Statement (.barWait bn) :=
  Coded.of_scalar rfl fun h => by
    simp only [wellFormed, decide_eq_true_eq] at h; simp only [place]; omega
theorem Coded.barSync (bn a : Nat) : Coded.Statement (.barSync bn a) :=
  Coded.of_scalar rfl fun h => by
    simp only [wellFormed, Bool.and_eq_true, decide_eq_true_eq] at h; simp only [place]; omega
theorem Coded.lbarArrive (scope : Nat) : Coded.Statement (.lbarArrive scope) :=
  Coded.of_scalar rfl fun h => by
    simp only [wellFormed, Bool.and_eq_true, decide_eq_true_eq] at h; simp only [place]; omega
theorem Coded.lbarWait (scope : Nat) : Coded.Statement (.lbarWait scope) :=
  Coded.of_scalar rfl fun h => by
    simp only [wellFormed, Bool.and_eq_true, decide_eq_true_eq] at h; simp only [place]; omega
theorem Coded.lbarSync (scope : Nat) : Coded.Statement (.lbarSync scope) :=
  Coded.of_scalar rfl fun h => by
    simp only [wellFormed, Bool.and_eq_true, decide_eq_true_eq] at h; simp only [place]; omega
theorem Coded.fence (scope : Nat) : Coded.Statement (.fence scope) :=
  Coded.of_scalar rfl fun h => by
    simp only [wellFormed, decide_eq_true_eq] at h; simp only [place]; omega
theorem Coded.claim (d a b : Nat) : Coded.Statement (.claim d a b) :=
  Coded.of_scalar rfl fun h => by
    simp only [wellFormed, Bool.and_eq_true, decide_eq_true_eq] at h; simp only [place]; omega
theorem Coded.liveDead (vn cnt : Nat) : Coded.Statement (.liveDead vn cnt) :=
  Coded.of_scalar rfl fun h => by
    simp only [wellFormed, Bool.and_eq_true, decide_eq_true_eq] at h; simp only [place]; omega
theorem Coded.liveHot (vn cnt : Nat) : Coded.Statement (.liveHot vn cnt) :=
  Coded.of_scalar rfl fun h => by
    simp only [wellFormed, Bool.and_eq_true, decide_eq_true_eq] at h; simp only [place]; omega
theorem Coded.mark : Coded.Statement (.mark) :=
  Coded.of_scalar rfl fun _ => by decide
theorem Coded.poison (a b : Nat) : Coded.Statement (.poison a b) :=
  Coded.of_scalar rfl fun h => by
    simp only [wellFormed, Bool.and_eq_true, decide_eq_true_eq] at h; simp only [place]; omega
theorem Coded.launch (d a : Nat) : Coded.Statement (.launch d a) :=
  Coded.of_scalar rfl fun h => by
    simp only [wellFormed, Bool.and_eq_true, decide_eq_true_eq] at h; simp only [place]; omega
theorem Coded.mma (d a b : Nat) : Coded.Statement (.mma d a b) :=
  Coded.of_scalar rfl fun h => by
    simp only [wellFormed, Bool.and_eq_true, decide_eq_true_eq] at h; simp only [place]; omega
theorem Coded.mmaZ (d a b : Nat) : Coded.Statement (.mmaZ d a b) :=
  Coded.of_scalar rfl fun h => by
    simp only [wellFormed, Bool.and_eq_true, decide_eq_true_eq] at h; simp only [place]; omega
theorem Coded.accAlloc (d a : Nat) : Coded.Statement (.accAlloc d a) :=
  Coded.of_scalar rfl fun h => by
    simp only [wellFormed, Bool.and_eq_true, decide_eq_true_eq] at h; simp only [place]; omega
theorem Coded.accFree (a : Nat) : Coded.Statement (.accFree a) :=
  Coded.of_scalar rfl fun h => by
    simp only [wellFormed, decide_eq_true_eq] at h; simp only [place]; omega
theorem Coded.accZero (a : Nat) : Coded.Statement (.accZero a) :=
  Coded.of_scalar rfl fun h => by
    simp only [wellFormed, decide_eq_true_eq] at h; simp only [place]; omega
theorem Coded.accDrain (a b : Nat) : Coded.Statement (.accDrain a b) :=
  Coded.of_scalar rfl fun h => by
    simp only [wellFormed, Bool.and_eq_true, decide_eq_true_eq] at h; simp only [place]; omega
theorem Coded.amv (d a b : Nat) : Coded.Statement (.amv d a b) :=
  Coded.of_scalar rfl fun h => by
    simp only [wellFormed, Bool.and_eq_true, decide_eq_true_eq] at h; simp only [place]; omega
theorem Coded.amvT (d a b : Nat) : Coded.Statement (.amvT d a b) :=
  Coded.of_scalar rfl fun h => by
    simp only [wellFormed, Bool.and_eq_true, decide_eq_true_eq] at h; simp only [place]; omega
theorem Coded.trec (slot a : Nat) : Coded.Statement (.trec slot a) :=
  Coded.of_scalar rfl fun h => by
    simp only [wellFormed, Bool.and_eq_true, decide_eq_true_eq] at h; simp only [place]; omega
theorem Coded.shCopy (d s b : Nat) : Coded.Statement (.shCopy d s b) :=
  Coded.of_scalar rfl fun h => by
    simp only [wellFormed, Bool.and_eq_true, decide_eq_true_eq] at h; simp only [place]; omega
theorem Coded.shFill (d a b : Nat) : Coded.Statement (.shFill d a b) :=
  Coded.of_scalar rfl fun h => by
    simp only [wellFormed, Bool.and_eq_true, decide_eq_true_eq] at h; simp only [place]; omega
theorem Coded.shGather (d s b : Nat) : Coded.Statement (.shGather d s b) :=
  Coded.of_scalar rfl fun h => by
    simp only [wellFormed, Bool.and_eq_true, decide_eq_true_eq] at h; simp only [place]; omega
theorem Coded.shClose : Coded.Statement (.shClose) :=
  Coded.of_scalar rfl fun _ => by decide
theorem Coded.collAllreduce (d s b : Nat) : Coded.Statement (.collAllreduce d s b) :=
  Coded.of_scalar rfl fun h => by
    simp only [wellFormed, Bool.and_eq_true, decide_eq_true_eq] at h; simp only [place]; omega
theorem Coded.collAllgather (d s b : Nat) : Coded.Statement (.collAllgather d s b) :=
  Coded.of_scalar rfl fun h => by
    simp only [wellFormed, Bool.and_eq_true, decide_eq_true_eq] at h; simp only [place]; omega
theorem Coded.collReducescatter (d s b : Nat) : Coded.Statement (.collReducescatter d s b) :=
  Coded.of_scalar rfl fun h => by
    simp only [wellFormed, Bool.and_eq_true, decide_eq_true_eq] at h; simp only [place]; omega
theorem Coded.collAlltoall (d s b : Nat) : Coded.Statement (.collAlltoall d s b) :=
  Coded.of_scalar rfl fun h => by
    simp only [wellFormed, Bool.and_eq_true, decide_eq_true_eq] at h; simp only [place]; omega
theorem Coded.trap (code : Nat) : Coded.Statement (.trap code) :=
  Coded.of_scalar rfl fun h => by
    simp only [wellFormed, decide_eq_true_eq] at h; simp only [place]; omega
theorem Coded.rets : Coded.Statement (.rets) :=
  Coded.of_scalar rfl fun _ => by decide
theorem Coded.retsSkip : Coded.Statement (.retsSkip) :=
  Coded.of_scalar rfl fun _ => by decide
theorem Coded.retsDecline : Coded.Statement (.retsDecline) :=
  Coded.of_scalar rfl fun _ => by decide
theorem Coded.sysrd (d a reg : Nat) : Coded.Statement (.sysrd d a reg) :=
  Coded.of_scalar rfl fun h => by
    simp only [wellFormed, Bool.and_eq_true, decide_eq_true_eq] at h; simp only [place]; omega
theorem Coded.syswr (v a reg : Nat) : Coded.Statement (.syswr v a reg) :=
  Coded.of_scalar rfl fun h => by
    simp only [wellFormed, Bool.and_eq_true, decide_eq_true_eq] at h; simp only [place]; omega
theorem Coded.tlbiAll (scope : Nat) : Coded.Statement (.tlbiAll scope) :=
  Coded.of_scalar rfl fun h => by
    simp only [wellFormed, decide_eq_true_eq] at h; simp only [place]; omega
theorem Coded.tlbiVa (d a scope : Nat) : Coded.Statement (.tlbiVa d a scope) :=
  Coded.of_scalar rfl fun h => by
    simp only [wellFormed, Bool.and_eq_true, decide_eq_true_eq] at h; simp only [place]; omega
theorem Coded.tlbiAsid (a scope : Nat) : Coded.Statement (.tlbiAsid a scope) :=
  Coded.of_scalar rfl fun h => by
    simp only [wellFormed, Bool.and_eq_true, decide_eq_true_eq] at h; simp only [place]; omega
theorem Coded.tlbiVmid (a scope : Nat) : Coded.Statement (.tlbiVmid a scope) :=
  Coded.of_scalar rfl fun h => by
    simp only [wellFormed, Bool.and_eq_true, decide_eq_true_eq] at h; simp only [place]; omega
theorem Coded.ctxfl (d a : Nat) : Coded.Statement (.ctxfl d a) :=
  Coded.of_scalar rfl fun h => by
    simp only [wellFormed, Bool.and_eq_true, decide_eq_true_eq] at h; simp only [place]; omega
theorem Coded.ctxld (a : Nat) : Coded.Statement (.ctxld a) :=
  Coded.of_scalar rfl fun h => by
    simp only [wellFormed, decide_eq_true_eq] at h; simp only [place]; omega
theorem Coded.quiesce (d a : Nat) : Coded.Statement (.quiesce d a) :=
  Coded.of_scalar rfl fun h => by
    simp only [wellFormed, Bool.and_eq_true, decide_eq_true_eq] at h; simp only [place]; omega
theorem Coded.retsave (d a : Nat) : Coded.Statement (.retsave d a) :=
  Coded.of_scalar rfl fun h => by
    simp only [wellFormed, Bool.and_eq_true, decide_eq_true_eq] at h; simp only [place]; omega
theorem Coded.retload (d a : Nat) : Coded.Statement (.retload d a) :=
  Coded.of_scalar rfl fun h => by
    simp only [wellFormed, Bool.and_eq_true, decide_eq_true_eq] at h; simp only [place]; omega
theorem Coded.wdogSet (a : Nat) : Coded.Statement (.wdogSet a) :=
  Coded.of_scalar rfl fun h => by
    simp only [wellFormed, decide_eq_true_eq] at h; simp only [place]; omega
theorem Coded.wdogKick : Coded.Statement (.wdogKick) :=
  Coded.of_scalar rfl fun _ => by decide
theorem Coded.brk (code : Nat) : Coded.Statement (.brk code) :=
  Coded.of_scalar rfl fun h => by
    simp only [wellFormed, decide_eq_true_eq] at h; simp only [place]; omega
theorem Coded.inject (d a : Nat) : Coded.Statement (.inject d a) :=
  Coded.of_scalar rfl fun h => by
    simp only [wellFormed, Bool.and_eq_true, decide_eq_true_eq] at h; simp only [place]; omega
theorem Coded.gtime (d : Nat) : Coded.Statement (.gtime d) :=
  Coded.of_scalar rfl fun h => by
    simp only [wellFormed, decide_eq_true_eq] at h; simp only [place]; omega
theorem Coded.halt : Coded.Statement (.halt) :=
  Coded.of_scalar rfl fun _ => by decide
theorem Coded.fadd (o : LaneOp) : Coded.Statement (.fadd o) := Coded.of_lane rfl rfl (by decide) rfl
theorem Coded.fsub (o : LaneOp) : Coded.Statement (.fsub o) := Coded.of_lane rfl rfl (by decide) rfl
theorem Coded.fmul (o : LaneOp) : Coded.Statement (.fmul o) := Coded.of_lane rfl rfl (by decide) rfl
theorem Coded.ffma (o : LaneOp) : Coded.Statement (.ffma o) := Coded.of_lane rfl rfl (by decide) rfl
theorem Coded.fmin (o : LaneOp) : Coded.Statement (.fmin o) := Coded.of_lane rfl rfl (by decide) rfl
theorem Coded.fmax (o : LaneOp) : Coded.Statement (.fmax o) := Coded.of_lane rfl rfl (by decide) rfl
theorem Coded.fcmp (o : LaneOp) : Coded.Statement (.fcmp o) := Coded.of_lane rfl rfl (by decide) rfl
theorem Coded.fabs (o : LaneOp) : Coded.Statement (.fabs o) := Coded.of_lane rfl rfl (by decide) rfl
theorem Coded.fneg (o : LaneOp) : Coded.Statement (.fneg o) := Coded.of_lane rfl rfl (by decide) rfl
theorem Coded.fcpys (o : LaneOp) : Coded.Statement (.fcpys o) := Coded.of_lane rfl rfl (by decide) rfl
theorem Coded.frcp (o : LaneOp) : Coded.Statement (.frcp o) := Coded.of_lane rfl rfl (by decide) rfl
theorem Coded.frsq (o : LaneOp) : Coded.Statement (.frsq o) := Coded.of_lane rfl rfl (by decide) rfl
theorem Coded.fsqrt (o : LaneOp) : Coded.Statement (.fsqrt o) := Coded.of_lane rfl rfl (by decide) rfl
theorem Coded.flog2 (o : LaneOp) : Coded.Statement (.flog2 o) := Coded.of_lane rfl rfl (by decide) rfl
theorem Coded.ftanh (o : LaneOp) : Coded.Statement (.ftanh o) := Coded.of_lane rfl rfl (by decide) rfl
theorem Coded.fexpf (o : LaneOp) : Coded.Statement (.fexpf o) := Coded.of_lane rfl rfl (by decide) rfl
theorem Coded.fscale (o : LaneOp) : Coded.Statement (.fscale o) := Coded.of_lane rfl rfl (by decide) rfl
theorem Coded.frint (o : LaneOp) : Coded.Statement (.frint o) := Coded.of_lane rfl rfl (by decide) rfl
theorem Coded.fclass (o : LaneOp) : Coded.Statement (.fclass o) := Coded.of_lane rfl rfl (by decide) rfl
theorem Coded.cvt (o : LaneOp) : Coded.Statement (.cvt o) := Coded.of_lane rfl rfl (by decide) rfl
theorem Coded.pack (o : LaneOp) : Coded.Statement (.pack o) := Coded.of_lane rfl rfl (by decide) rfl
theorem Coded.unpack (o : LaneOp) : Coded.Statement (.unpack o) := Coded.of_lane rfl rfl (by decide) rfl
theorem Coded.qnt (o : LaneOp) : Coded.Statement (.qnt o) := Coded.of_lane rfl rfl (by decide) rfl
theorem Coded.dqnt (o : LaneOp) : Coded.Statement (.dqnt o) := Coded.of_lane rfl rfl (by decide) rfl
theorem Coded.iadd (o : LaneOp) : Coded.Statement (.iadd o) := Coded.of_lane rfl rfl (by decide) rfl
theorem Coded.isub (o : LaneOp) : Coded.Statement (.isub o) := Coded.of_lane rfl rfl (by decide) rfl
theorem Coded.imul (o : LaneOp) : Coded.Statement (.imul o) := Coded.of_lane rfl rfl (by decide) rfl
theorem Coded.imad (o : LaneOp) : Coded.Statement (.imad o) := Coded.of_lane rfl rfl (by decide) rfl
theorem Coded.imulh (o : LaneOp) : Coded.Statement (.imulh o) := Coded.of_lane rfl rfl (by decide) rfl
theorem Coded.imin (o : LaneOp) : Coded.Statement (.imin o) := Coded.of_lane rfl rfl (by decide) rfl
theorem Coded.imax (o : LaneOp) : Coded.Statement (.imax o) := Coded.of_lane rfl rfl (by decide) rfl
theorem Coded.icmp (o : LaneOp) : Coded.Statement (.icmp o) := Coded.of_lane rfl rfl (by decide) rfl
theorem Coded.iabs (o : LaneOp) : Coded.Statement (.iabs o) := Coded.of_lane rfl rfl (by decide) rfl
theorem Coded.isad (o : LaneOp) : Coded.Statement (.isad o) := Coded.of_lane rfl rfl (by decide) rfl
theorem Coded.andB32 (o : LaneOp) : Coded.Statement (.andB32 o) := Coded.of_lane rfl rfl (by decide) rfl
theorem Coded.orB32 (o : LaneOp) : Coded.Statement (.orB32 o) := Coded.of_lane rfl rfl (by decide) rfl
theorem Coded.xorB32 (o : LaneOp) : Coded.Statement (.xorB32 o) := Coded.of_lane rfl rfl (by decide) rfl
theorem Coded.notB32 (o : LaneOp) : Coded.Statement (.notB32 o) := Coded.of_lane rfl rfl (by decide) rfl
theorem Coded.bool3 (o : LaneOp) : Coded.Statement (.bool3 o) := Coded.of_lane rfl rfl (by decide) rfl
theorem Coded.shlB32 (o : LaneOp) : Coded.Statement (.shlB32 o) := Coded.of_lane rfl rfl (by decide) rfl
theorem Coded.shrN32 (o : LaneOp) : Coded.Statement (.shrN32 o) := Coded.of_lane rfl rfl (by decide) rfl
theorem Coded.sraI32 (o : LaneOp) : Coded.Statement (.sraI32 o) := Coded.of_lane rfl rfl (by decide) rfl
theorem Coded.popcB32 (o : LaneOp) : Coded.Statement (.popcB32 o) := Coded.of_lane rfl rfl (by decide) rfl
theorem Coded.clzB32 (o : LaneOp) : Coded.Statement (.clzB32 o) := Coded.of_lane rfl rfl (by decide) rfl
theorem Coded.brevB32 (o : LaneOp) : Coded.Statement (.brevB32 o) := Coded.of_lane rfl rfl (by decide) rfl
theorem Coded.bfe (o : LaneOp) : Coded.Statement (.bfe o) := Coded.of_lane rfl rfl (by decide) rfl
theorem Coded.bfi (o : LaneOp) : Coded.Statement (.bfi o) := Coded.of_lane rfl rfl (by decide) rfl
theorem Coded.sel (o : LaneOp) : Coded.Statement (.sel o) := Coded.of_lane rfl rfl (by decide) rfl
theorem Coded.perm (o : LaneOp) : Coded.Statement (.perm o) := Coded.of_lane rfl rfl (by decide) rfl
theorem Coded.dp4 (o : LaneOp) : Coded.Statement (.dp4 o) := Coded.of_lane rfl rfl (by decide) rfl
theorem Coded.dp8 (o : LaneOp) : Coded.Statement (.dp8 o) := Coded.of_lane rfl rfl (by decide) rfl
theorem Coded.mov (o : LaneOp) : Coded.Statement (.mov o) := Coded.of_lane rfl rfl (by decide) rfl
theorem Coded.shfl (o : LaneOp) : Coded.Statement (.shfl o) := Coded.of_lane rfl rfl (by decide) rfl
theorem Coded.shflx (o : LaneOp) : Coded.Statement (.shflx o) := Coded.of_lane rfl rfl (by decide) rfl
theorem Coded.bcst (o : LaneOp) : Coded.Statement (.bcst o) := Coded.of_lane rfl rfl (by decide) rfl
theorem Coded.scan (o : LaneOp) : Coded.Statement (.scan o) := Coded.of_lane rfl rfl (by decide) rfl
theorem Coded.red (o : LaneOp) : Coded.Statement (.red o) := Coded.of_lane rfl rfl (by decide) rfl
theorem Coded.rng (o : LaneOp) : Coded.Statement (.rng o) := Coded.of_lane rfl rfl (by decide) rfl
theorem Coded.ldSp (o : LaneOp) : Coded.Statement (.ldSp o) := Coded.of_lane rfl rfl (by decide) rfl
theorem Coded.ldGs (o : LaneOp) : Coded.Statement (.ldGs o) := Coded.of_lane rfl rfl (by decide) rfl
theorem Coded.ldDm (o : LaneOp) : Coded.Statement (.ldDm o) := Coded.of_lane rfl rfl (by decide) rfl
theorem Coded.ldPv (o : LaneOp) : Coded.Statement (.ldPv o) := Coded.of_lane rfl rfl (by decide) rfl
theorem Coded.stSp (o : LaneOp) : Coded.Statement (.stSp o) := Coded.of_lane rfl rfl (by decide) rfl
theorem Coded.stGs (o : LaneOp) : Coded.Statement (.stGs o) := Coded.of_lane rfl rfl (by decide) rfl
theorem Coded.stDm (o : LaneOp) : Coded.Statement (.stDm o) := Coded.of_lane rfl rfl (by decide) rfl
theorem Coded.stPv (o : LaneOp) : Coded.Statement (.stPv o) := Coded.of_lane rfl rfl (by decide) rfl
theorem Coded.ldt (o : LaneOp) : Coded.Statement (.ldt o) := Coded.of_lane rfl rfl (by decide) rfl
theorem Coded.atomAdd (o : LaneOp) : Coded.Statement (.atomAdd o) := Coded.of_lane rfl rfl (by decide) rfl
theorem Coded.atomMin (o : LaneOp) : Coded.Statement (.atomMin o) := Coded.of_lane rfl rfl (by decide) rfl
theorem Coded.atomMax (o : LaneOp) : Coded.Statement (.atomMax o) := Coded.of_lane rfl rfl (by decide) rfl
theorem Coded.atomAnd (o : LaneOp) : Coded.Statement (.atomAnd o) := Coded.of_lane rfl rfl (by decide) rfl
theorem Coded.atomOr (o : LaneOp) : Coded.Statement (.atomOr o) := Coded.of_lane rfl rfl (by decide) rfl
theorem Coded.atomXor (o : LaneOp) : Coded.Statement (.atomXor o) := Coded.of_lane rfl rfl (by decide) rfl
theorem Coded.atomExch (o : LaneOp) : Coded.Statement (.atomExch o) := Coded.of_lane rfl rfl (by decide) rfl
theorem Coded.atomCas (o : LaneOp) : Coded.Statement (.atomCas o) := Coded.of_lane rfl rfl (by decide) rfl
theorem Coded.atomIncb (o : LaneOp) : Coded.Statement (.atomIncb o) := Coded.of_lane rfl rfl (by decide) rfl
theorem Coded.atomFadd (o : LaneOp) : Coded.Statement (.atomFadd o) := Coded.of_lane rfl rfl (by decide) rfl
theorem Coded.malformedEncoding (detail : Nat) : Coded.Statement (.malformedEncoding detail) := Coded.of_event rfl rfl
theorem Coded.laneOpcodeUnassigned (opcode : Nat) : Coded.Statement (.laneOpcodeUnassigned opcode) := Coded.of_event rfl rfl
theorem Coded.instructionFetchFault (cause : Nat) : Coded.Statement (.instructionFetchFault cause) := Coded.of_event rfl rfl
theorem Coded.clauseFetch : Coded.Statement (.clauseFetch) := Coded.of_event rfl rfl
theorem Coded.clauseStart : Coded.Statement (.clauseStart) := Coded.of_event rfl rfl
theorem Coded.loadComplete (op lanes : Nat) : Coded.Statement (.loadComplete op lanes) := Coded.of_event rfl rfl
theorem Coded.storeComplete (op lanes : Nat) : Coded.Statement (.storeComplete op lanes) := Coded.of_event rfl rfl
theorem Coded.atomComplete (op : Nat) : Coded.Statement (.atomComplete op) := Coded.of_event rfl rfl
theorem Coded.mmaStep (op : Nat) : Coded.Statement (.mmaStep op) := Coded.of_event rfl rfl
theorem Coded.accZeroRetire (op : Nat) : Coded.Statement (.accZeroRetire op) := Coded.of_event rfl rfl
theorem Coded.accDrainRetire (op : Nat) : Coded.Statement (.accDrainRetire op) := Coded.of_event rfl rfl
theorem Coded.amvRetire (op : Nat) : Coded.Statement (.amvRetire op) := Coded.of_event rfl rfl
theorem Coded.shuttleTransfer (op item n : Nat) : Coded.Statement (.shuttleTransfer op item n) := Coded.of_event rfl rfl
theorem Coded.shBatchComplete (op : Nat) : Coded.Statement (.shBatchComplete op) := Coded.of_event rfl rfl
theorem Coded.collComplete (op : Nat) (others : List CollPart) : Coded.Statement (.collComplete op others) := Coded.of_event rfl rfl
theorem Coded.registerFill (warp reg : Nat) : Coded.Statement (.registerFill warp reg) := Coded.of_event rfl rfl
theorem Coded.trapEntry (warp : Nat) (path : Bool) : Coded.Statement (.trapEntry warp path) := Coded.of_event rfl rfl
theorem Coded.supervisorRecordEntry (core : Nat) : Coded.Statement (.supervisorRecordEntry core) := Coded.of_event rfl rfl
theorem Coded.watchdogExpiry (warp : Nat) : Coded.Statement (.watchdogExpiry warp) := Coded.of_event rfl rfl
theorem Coded.warpEnd (warp : Nat) : Coded.Statement (.warpEnd warp) := Coded.of_event rfl rfl
theorem Coded.spinDemotion (warp : Nat) (path : Bool) : Coded.Statement (.spinDemotion warp path) := Coded.of_event rfl rfl
theorem Coded.ringEntryConsume (fn : Nat) : Coded.Statement (.ringEntryConsume fn) := Coded.of_event rfl rfl
theorem Coded.launchAdmission (launch : Nat) : Coded.Statement (.launchAdmission launch) := Coded.of_event rfl rfl
theorem Coded.blockPlacement (die : Nat) : Coded.Statement (.blockPlacement die) := Coded.of_event rfl rfl
theorem Coded.blockSaveComplete (block : Nat) : Coded.Statement (.blockSaveComplete block) := Coded.of_event rfl rfl
theorem Coded.launchCompletionRecord (launch : Nat) : Coded.Statement (.launchCompletionRecord launch) := Coded.of_event rfl rfl
theorem Coded.faultRecordWrite (fn : Nat) : Coded.Statement (.faultRecordWrite fn) := Coded.of_event rfl rfl
theorem Coded.lodgePrime (core : Nat) : Coded.Statement (.lodgePrime core) := Coded.of_event rfl rfl
theorem Coded.rinkExchange (core : Nat) : Coded.Statement (.rinkExchange core) := Coded.of_event rfl rfl
theorem Coded.regionLeaveService (region : Nat) : Coded.Statement (.regionLeaveService region) := Coded.of_event rfl rfl
theorem Coded.clusterQuiesced (die cluster : Nat) : Coded.Statement (.clusterQuiesced die cluster) := Coded.of_event rfl rfl
theorem Coded.clkackChange (die cluster : Nat) : Coded.Statement (.clkackChange die cluster) := Coded.of_event rfl rfl
theorem Coded.railgoodChange (die cluster : Nat) : Coded.Statement (.railgoodChange die cluster) := Coded.of_event rfl rfl
theorem Coded.patrolWake (die : Nat) : Coded.Statement (.patrolWake die) := Coded.of_event rfl rfl
theorem Coded.vfClearComplete (fn : Nat) : Coded.Statement (.vfClearComplete fn) := Coded.of_event rfl rfl
theorem Coded.freedPageZeroed : Coded.Statement (.freedPageZeroed) := Coded.of_event rfl rfl
theorem Coded.rejectResend (entry : Nat) : Coded.Statement (.rejectResend entry) := Coded.of_event rfl rfl
theorem Coded.preemptMarkTimeout (warp : Nat) : Coded.Statement (.preemptMarkTimeout warp) := Coded.of_event rfl rfl
theorem Coded.tilesWritten (region : Nat) : Coded.Statement (.tilesWritten region) := Coded.of_event rfl rfl
theorem Coded.ownerLapse : Coded.Statement (.ownerLapse) := Coded.of_event rfl rfl
theorem Coded.offerTimeout : Coded.Statement (.offerTimeout) := Coded.of_event rfl rfl
theorem Coded.lodgeAgeExchange (core : Nat) : Coded.Statement (.lodgeAgeExchange core) := Coded.of_event rfl rfl
theorem Coded.checkerMismatch (warp : Nat) (path lane : Bool) : Coded.Statement (.checkerMismatch warp path lane) := Coded.of_event rfl rfl
theorem Coded.replayQueueCheck (core entry : Nat) (mismatch : Bool) : Coded.Statement (.replayQueueCheck core entry mismatch) := Coded.of_event rfl rfl
theorem Coded.patrolScrub (addr : Nat) (uncorrectable : Bool) : Coded.Statement (.patrolScrub addr uncorrectable) := Coded.of_event rfl rfl
theorem Coded.predictiveEvacuation (die pair : Nat) : Coded.Statement (.predictiveEvacuation die pair) := Coded.of_event rfl rfl
theorem Coded.l1LineExpiry (core line : Nat) : Coded.Statement (.l1LineExpiry core line) := Coded.of_event rfl rfl
theorem Coded.launchDoorbell (fn value : Nat) : Coded.Statement (.launchDoorbell fn value) := Coded.of_event rfl rfl
theorem Coded.purge (fn tag cause : Nat) : Coded.Statement (.purge fn tag cause) := Coded.of_event rfl rfl
theorem Coded.faultResponse (fn entry : Nat) : Coded.Statement (.faultResponse fn entry) := Coded.of_event rfl rfl
theorem Coded.fqerrClear (fn : Nat) : Coded.Statement (.fqerrClear fn) := Coded.of_event rfl rfl
theorem Coded.hotnessProposal (port part page src : Nat) : Coded.Statement (.hotnessProposal port part page src) := Coded.of_event rfl rfl
theorem Coded.hotnessEpoch (port : Nat) : Coded.Statement (.hotnessEpoch port) := Coded.of_event rfl rfl
theorem Coded.move (fn entry : Nat) : Coded.Statement (.move fn entry) := Coded.of_event rfl rfl
theorem Coded.dup (fn entry : Nat) : Coded.Statement (.dup fn entry) := Coded.of_event rfl rfl
theorem Coded.evict (fn entry : Nat) : Coded.Statement (.evict fn entry) := Coded.of_event rfl rfl
theorem Coded.setxd (requester target : Nat) (d : XlateDesc) : Coded.Statement (.setxd requester target d) := Coded.of_event rfl rfl
theorem Coded.shoot (src home : Nat) : Coded.Statement (.shoot src home) := Coded.of_event rfl rfl
theorem Coded.ownerClaim (m : Nat) : Coded.Statement (.ownerClaim m) := Coded.of_event rfl rfl
theorem Coded.ownerRelease (m : Nat) : Coded.Statement (.ownerRelease m) := Coded.of_event rfl rfl
theorem Coded.ownerOffer (m target : Nat) : Coded.Statement (.ownerOffer m target) := Coded.of_event rfl rfl
theorem Coded.ownerAccept (m : Nat) : Coded.Statement (.ownerAccept m) := Coded.of_event rfl rfl
theorem Coded.ownerWithdraw (m : Nat) : Coded.Statement (.ownerWithdraw m) := Coded.of_event rfl rfl
theorem Coded.ownerBeat (m : Nat) : Coded.Statement (.ownerBeat m) := Coded.of_event rfl rfl
theorem Coded.ownerInvalidCmd (m cmd : Nat) : Coded.Statement (.ownerInvalidCmd m cmd) := Coded.of_event rfl rfl
theorem Coded.coldStart : Coded.Statement (.coldStart) := Coded.of_event rfl rfl
theorem Coded.warmStart : Coded.Statement (.warmStart) := Coded.of_event rfl rfl
theorem Coded.vfEnableClear : Coded.Statement (.vfEnableClear) := Coded.of_event rfl rfl
theorem Coded.flr (fn : Nat) : Coded.Statement (.flr fn) := Coded.of_event rfl rfl
theorem Coded.gtctlApply (fn : Nat) : Coded.Statement (.gtctlApply fn) := Coded.of_event rfl rfl
theorem Coded.gtctlStop (fn : Nat) (stop : Bool) : Coded.Statement (.gtctlStop fn stop) := Coded.of_event rfl rfl
theorem Coded.registerWrite (fn offset value : Nat) : Coded.Statement (.registerWrite fn offset value) := Coded.of_event rfl rfl
theorem Coded.program (m region : Nat) (r : ProgramReq) : Coded.Statement (.program m region r) := Coded.of_event rfl rfl
theorem Coded.offline (m region : Nat) : Coded.Statement (.offline m region) := Coded.of_event rfl rfl
theorem Coded.online (m region : Nat) : Coded.Statement (.online m region) := Coded.of_event rfl rfl
theorem Coded.grant (m region fn dest handle : Nat) : Coded.Statement (.grant m region fn dest handle) := Coded.of_event rfl rfl
theorem Coded.revoke (m region fn : Nat) : Coded.Statement (.revoke m region fn) := Coded.of_event rfl rfl
theorem Coded.freeRegion (m region : Nat) : Coded.Statement (.freeRegion m region) := Coded.of_event rfl rfl
theorem Coded.tileVerify (region : Nat) (verified : Bool) : Coded.Statement (.tileVerify region verified) := Coded.of_event rfl rfl
theorem Coded.tailorProbe (region tile : Nat) (withinLimit : Bool) : Coded.Statement (.tailorProbe region tile withinLimit) := Coded.of_event rfl rfl
theorem Coded.probeDeadline (region tile : Nat) : Coded.Statement (.probeDeadline region tile) := Coded.of_event rfl rfl
theorem Coded.tailorPublish (region tile : Nat) (fit : CompCopy) : Coded.Statement (.tailorPublish region tile fit) := Coded.of_event rfl rfl
theorem Coded.create (m part : Nat) : Coded.Statement (.create m part) := Coded.of_event rfl rfl
theorem Coded.destroy (m part : Nat) : Coded.Statement (.destroy m part) := Coded.of_event rfl rfl
theorem Coded.cluster (m part die cluster : Nat) : Coded.Statement (.cluster m part die cluster) := Coded.of_event rfl rfl
theorem Coded.funcJoin (m part fn : Nat) : Coded.Statement (.funcJoin m part fn) := Coded.of_event rfl rfl
theorem Coded.pages (m part first count : Nat) : Coded.Statement (.pages m part first count) := Coded.of_event rfl rfl
theorem Coded.port (m part port weight : Nat) : Coded.Statement (.port m part port weight) := Coded.of_event rfl rfl
theorem Coded.qos (m part wdm wsh wan : Nat) : Coded.Statement (.qos m part wdm wsh wan) := Coded.of_event rfl rfl
theorem Coded.group (m part group : Nat) (members : List (Nat × Nat)) : Coded.Statement (.group m part group members) := Coded.of_event rfl rfl
theorem Coded.bind (m part pod remote : Nat) : Coded.Statement (.bind m part pod remote) := Coded.of_event rfl rfl
theorem Coded.getMeasurements (requester part : Nat) (viaOwner : Bool) : Coded.Statement (.getMeasurements requester part viaOwner) := Coded.of_event rfl rfl
theorem Coded.remapMove (m die site : Nat) : Coded.Statement (.remapMove m die site) := Coded.of_event rfl rfl
theorem Coded.remapSwap (m d1 d2 : Nat) : Coded.Statement (.remapSwap m d1 d2) := Coded.of_event rfl rfl
theorem Coded.wake (m die mask : Nat) : Coded.Statement (.wake m die mask) := Coded.of_event rfl rfl
theorem Coded.clctlClkreq (die cluster : Nat) (on : Bool) : Coded.Statement (.clctlClkreq die cluster on) := Coded.of_event rfl rfl
theorem Coded.clctlRailreq (die cluster : Nat) (on : Bool) : Coded.Statement (.clctlRailreq die cluster on) := Coded.of_event rfl rfl
theorem Coded.clctlResume (die cluster : Nat) : Coded.Statement (.clctlResume die cluster) := Coded.of_event rfl rfl
theorem Coded.route (m dest entry : Nat) : Coded.Statement (.route m dest entry) := Coded.of_event rfl rfl
theorem Coded.read (p : Packet) : Coded.Statement (.read p) := Coded.of_event rfl rfl
theorem Coded.write (p : Packet) : Coded.Statement (.write p) := Coded.of_event rfl rfl
theorem Coded.atomic (p : Packet) : Coded.Statement (.atomic p) := Coded.of_event rfl rfl
theorem Coded.ewrite (p : Packet) : Coded.Statement (.ewrite p) := Coded.of_event rfl rfl
theorem Coded.rdata (p : Packet) : Coded.Statement (.rdata p) := Coded.of_event rfl rfl
theorem Coded.ack (p : Packet) : Coded.Statement (.ack p) := Coded.of_event rfl rfl
theorem Coded.aresult (p : Packet) : Coded.Statement (.aresult p) := Coded.of_event rfl rfl
theorem Coded.reject (p : Packet) : Coded.Statement (.reject p) := Coded.of_event rfl rfl
theorem Coded.invalidPacket (port : Nat) (p : Packet) : Coded.Statement (.invalidPacket port p) := Coded.of_event rfl rfl
theorem Coded.linkDown (port : Nat) : Coded.Statement (.linkDown port) := Coded.of_event rfl rfl
theorem Coded.ackTimeout (dest : Nat) : Coded.Statement (.ackTimeout dest) := Coded.of_event rfl rfl
theorem Coded.linkUp (port : Nat) : Coded.Statement (.linkUp port) := Coded.of_event rfl rfl
theorem Coded.shootAnswer (module home : Nat) : Coded.Statement (.shootAnswer module home) := Coded.of_event rfl rfl
theorem Coded.powerLoss : Coded.Statement (.powerLoss) := Coded.of_event rfl rfl

end Sys2Proof.Laws
end

