-- ==== Sys2Proof/Laws/Traps.lean ====
section
/-! SUPPORT. Traps: the trap of an S-stream instruction, the entry of a handler, and parking. -/

namespace Sys2Proof.Machine

/-- R83: what trapS does on a live path is what trapsAt says. -/
theorem trapS_live (i : Instr) (s : State) (w : Warp) (cause : Nat) (h : actsOn s w) (hi : exec i s = trapS s cause) :
    trapsAt i s w cause := by
  rw [trapsAt, hi, trapS, h.1]; rfl

/-- R33: a privileged form at user level. -/
theorem privileged_user (s : State) (w : Warp) (f : Warp → Path → Out) (h : actsOn s w) (hp : (actPath s w).priv = 0) :
    privileged s f = trapS s 0x130 := by
  rw [privileged, onPath_live s w h, if_pos hp]

theorem privileged_super (s : State) (w : Warp) (f : Warp → Path → Out) (h : actsOn s w) (hp : (actPath s w).priv ≠ 0) :
    privileged s f = f w (actPath s w) := by
  rw [privileged, onPath_live s w h, if_neg hp]

/-- R192, R193: the entry of a handler for a cause that stops no other path. -/
theorem enterHandler_took (w : Warp) (pf : Bool) (t : Trap) (pc lbase : W64) (h : t.cause / 16 ≠ 11) :
    tookTrap w (enterHandler w pf t pc lbase) pf t pc lbase := by
  have hb : t.cause ≠ 0xB0 := by rintro hc; rw [hc] at h; exact h rfl
  have hp : bothPaths w pf t = false := by simp [bothPaths, h]
  have hx : ∀ (m : FMap W64) (v0 v1 v2 v3 v4 : W64) (n : Nat),
      fgetD 0 (fputD 0 (fputD 0 (fputD 0 (fputD 0 (fputD 0 m 0 v0) 1 v1) 2 v2) 3 v3) 4 v4) n =
        if n = 4 then v4 else if n = 3 then v3 else if n = 2 then v2 else if n = 1 then v1 else
          if n = 0 then v0 else fgetD 0 m n := by
    intro m v0 v1 v2 v3 v4 n; simp only [fgetD_fputD]
  have h4 : n64 (fgetD 0 (w.path pf).k 0 : W32).toNat = (fgetD 0 (w.path pf).k 0 : W32).setWidth 64 := by
    apply BitVec.eq_of_toNat_eq; simp [n64]
  cases pf <;>
    simp only [tookTrap, enterHandler, Warp.path, Warp.setPath, Path.withK0, Path.k0, hp,
      Bool.false_eq_true, if_false, if_true, hb, hx, Bool.not_true, Bool.not_false, trapWord] at h4 ⊢ <;>
    refine ⟨?_, ?_, ?_, ?_, ?_, ?_, ?_, ?_, ?_, ⟨_, rfl, ?_, ?_, ?_, ?_⟩, ?_, ?_, ?_, ?_, ?_, ?_, ?_, ?_⟩
  all_goals first
    | trivial
    | rfl
    | exact h4
    | (intro r; simp [rk, Warp.path, fgetD_fputD]; done)
    | (intro n hn; rw [if_neg (by omega), if_neg (by omega), if_neg (by omega), if_neg (by omega), if_neg (by omega)])

/-- R194, R344: a record of a warp queued, and the warp parked. -/
theorem park_pushRec (s : State) (u : Nat) (w : Warp) (f : Func) (r : FRec) (hw : fget s.warps u = some w)
    (hf : fget s.funcs w.fn = some f) : parkedWith s (park (pushRec s w.fn r) u) u w r := by
  refine ⟨?_, f, _, hf, ?_, rfl⟩
  · simp [park, modWarp, pushRec, modFunc, hw, fget_fmod]
  · simp [park, modWarp, pushRec, modFunc, hf, fget_fmod]

end Sys2Proof.Machine
end

