-- ==== Sys2Proof/Tests/Slice0.lean ====
section
/-! SUPPORT. Small tests, each with its expected result from the spec: the decoding of words written out from the encodings,
ill-formed terms that the check refuses, single steps on a small machine, and a witness for the hypotheses of each
obligation. -/

namespace Sys2Proof.Tests

open Sys2Proof.Machine

set_option maxRecDepth 100000
set_option Elab.async false

/-! ## Words of every form, written out from the encoding tables -/

theorem test_words_alu : ∀ e ∈ ([
    (0x055ABB00, .add 0x2B 0x15 0x36), (0x055ABB01, .sub 0x2B 0x15 0x36), (0x055ABB02, .mul 0x2B 0x15 0x36),
    (0x055ABB03, .mulhI64 0x2B 0x15 0x36), (0x055ABB04, .mulhN64 0x2B 0x15 0x36),
    (0x055ABB05, .divI64 0x2B 0x15 0x36), (0x055ABB06, .divN64 0x2B 0x15 0x36), (0x055ABB07, .remI64 0x2B 0x15 0x36),
    (0x055ABB08, .remN64 0x2B 0x15 0x36), (0x055ABB09, .and 0x2B 0x15 0x36), (0x055ABB0A, .or 0x2B 0x15 0x36),
    (0x055ABB0B, .xor 0x2B 0x15 0x36), (0x055ABB0C, .andn 0x2B 0x15 0x36), (0x055ABB0D, .shl 0x2B 0x15 0x36),
    (0x055ABB0E, .shr 0x2B 0x15 0x36), (0x055ABB0F, .sra 0x2B 0x15 0x36), (0x055ABB10, .ror 0x2B 0x15 0x36),
    (0x055ABB11, .minI64 0x2B 0x15 0x36), (0x055ABB12, .minN64 0x2B 0x15 0x36), (0x055ABB13, .maxI64 0x2B 0x15 0x36),
    (0x055ABB14, .maxN64 0x2B 0x15 0x36), (0x055ABB15, .sltI64 0x2B 0x15 0x36), (0x055ABB16, .sltN64 0x2B 0x15 0x36),
    (0x055AA017, .clz 0x2B 0x15), (0x055AA018, .popc 0x2B 0x15), (0x055AA019, .sextI8 0x2B 0x15),
    (0x055AA01A, .sextI16 0x2B 0x15), (0x055AA01B, .sextI32 0x2B 0x15), (0x055AA01C, .zextN8 0x2B 0x15),
    (0x055AA01D, .zextN16 0x2B 0x15), (0x055AA01E, .zextN32 0x2B 0x15), (0x055AA01F, .brev 0x2B 0x15),
    (0x02000000, .nop)] : List (Nat × Instr)), decodeTableWord 32 e.1 = some e.2 := by decide

theorem test_words_immediates : ∀ e ∈ ([
    (0x075AAA5C, .addi 0x2B 0x15 0xA5C), (0x095AAA5C, .andi 0x2B 0x15 0xA5C), (0x0B5AAA5C, .ori 0x2B 0x15 0xA5C),
    (0x0D5AAA5C, .xori 0x2B 0x15 0xA5C), (0x0F5AA02D, .shli 0x2B 0x15 0x2D), (0x115AA02D, .shri 0x2B 0x15 0x2D),
    (0x135AA02D, .srai 0x2B 0x15 0x2D), (0x155AAA5C, .sltiI64 0x2B 0x15 0xA5C),
    (0x155ABA5C, .sltiN64 0x2B 0x15 0xA5C), (0x175BBEA5, .ldi 0x2B 0x3 0xBEA5), (0x175FBEA5, .ldiK 0x2B 0x3 0xBEA5)] : List (Nat × Instr)), decodeTableWord 32 e.1 = some e.2 := by decide

theorem test_words_control : ∀ e ∈ ([
    (0x2005A3C7, .b 0x5A3C7), (0x239DA3C7, .call 0x33 0x5A3C7), (0x2402A000, .ret 0x15),
    (0x27762DA3, .brd 0xB 0x2C5 0x5A3), (0x28000000, .join), (0x2AA803C7, .loop 0x15 0x3C7), (0x2C000000, .exit),
    (0x30AEC3C7, .beq 0x15 0x36 0x3C7), (0x32AEC3C7, .bne 0x15 0x36 0x3C7), (0x34AEC3C7, .blt 0x15 0x36 0x3C7),
    (0x36AEC3C7, .bge 0x15 0x36 0x3C7), (0x38AEC3C7, .bltu 0x15 0x36 0x3C7), (0x3AAEC3C7, .bgeu 0x15 0x36 0x3C7)] : List (Nat × Instr)), decodeTableWord 32 e.1 = some e.2 := by decide

theorem test_words_masks_and_waits : ∀ e ∈ ([
    (0x412DA000, .kand 0x9 0x6 0xD), (0x412DA001, .kor 0x9 0x6 0xD), (0x412DA002, .kxor 0x9 0x6 0xD),
    (0x412DA003, .kandn 0x9 0x6 0xD), (0x412C0004, .knot 0x9 0x6), (0x412C0005, .kmov 0x9 0x6),
    (0x41201706, .ksetx 0x9 0x2E), (0x40161707, .kgetx 0x2E 0xB), (0x435CD2D0, .vget 0x2B 0x4D2 0x1A),
    (0x435CD2D1, .vput 0x2B 0x4D2 0x1A), (0x459DA3C7, .runc 0x33 0x5A3C7), (0x46000A5C, .waitf 0xA5C),
    (0x48AD0000, .waitc 0x15 0x5)] : List (Nat × Instr)), decodeTableWord 32 e.1 = some e.2 := by decide

theorem test_words_synchronisation : ∀ e ∈ ([
    (0x51D02A00, .barArrive 0x1D 0x15), (0x51D08000, .barWait 0x1D), (0x51D12A00, .barSync 0x1D 0x15),
    (0x52080000, .lbarArrive 0x4), (0x52088000, .lbarWait 0x4), (0x52090000, .lbarSync 0x4),
    (0x540C0000, .fence 0x6), (0x595ABB00, .claim 0x2B 0x15 0x36), (0x5AE94918, .liveDead 0x3A5 0x123),
    (0x5B294169, .liveHot 0x4A5 0x2D), (0x5C000000, .mark), (0x5E02BB00, .poison 0x15 0x36),
    (0x615AA000, .launch 0x2B 0x15)] : List (Nat × Instr)), decodeTableWord 32 e.1 = some e.2 := by decide

theorem test_words_engines : ∀ e ∈ ([
    (0x715ABB00, .mma 0x2B 0x15 0x36), (0x715ABB01, .mmaZ 0x2B 0x15 0x36), (0x735AA000, .accAlloc 0x2B 0x15),
    (0x7202A001, .accFree 0x15), (0x7202A002, .accZero 0x15), (0x7202BB03, .accDrain 0x15 0x36),
    (0x755ABB00, .amv 0x2B 0x15 0x36), (0x755ABB01, .amvT 0x2B 0x15 0x36), (0x786AA000, .trec 0xD 0x15),
    (0x7A695B00, .shCopy 0xD 0xA 0x36), (0x7A6ABB01, .shFill 0xD 0x15 0x36), (0x7A695B02, .shGather 0xD 0xA 0x36),
    (0x7A000003, .shClose), (0x7C695B00, .collAllreduce 0xD 0xA 0x36), (0x7C695B01, .collAllgather 0xD 0xA 0x36),
    (0x7C695B02, .collReducescatter 0xD 0xA 0x36), (0x7C695B03, .collAlltoall 0xD 0xA 0x36)] : List (Nat × Instr)), decodeTableWord 32 e.1 = some e.2 := by decide

theorem test_words_system : ∀ e ∈ ([
    (0xC00014C0, .trap 0xA6), (0xC0000001, .rets), (0xC0000021, .retsSkip), (0xC0000041, .retsDecline),
    (0xC15AB862, .sysrd 0x2B 0x15 0xC3), (0xC092B863, .syswr 0x12 0x15 0xC3), (0xC0000024, .tlbiAll 0x1),
    (0xC15AA025, .tlbiVa 0x2B 0x15 0x1), (0xC002A026, .tlbiAsid 0x15 0x1), (0xC002A027, .tlbiVmid 0x15 0x1),
    (0xC15AA008, .ctxfl 0x2B 0x15), (0xC002A009, .ctxld 0x15), (0xC15AA00A, .quiesce 0x2B 0x15),
    (0xC15AA00B, .retsave 0x2B 0x15), (0xC15AA00C, .retload 0x2B 0x15), (0xC002A00D, .wdogSet 0x15),
    (0xC000000E, .wdogKick), (0xC00014CF, .brk 0xA6), (0xC15AA010, .inject 0x2B 0x15), (0xC1580011, .gtime 0x2B),
    (0xC0000012, .halt)] : List (Nat × Instr)), decodeTableWord 32 e.1 = some e.2 := by decide

theorem test_words_lane_float : ∀ e ∈ ([
    (0x040AA803C0B8E8883F000000, .fadd ⟨some 0x155, .v 3, .q 5, .x 0x2A, 1, .f32, 0, none, true, 0x0⟩),
    (0x044AB004C0B8E9107E000000, .fsub ⟨some 0x156, .v 4, .q 5, .x 0x2A, 2, .f16, 1, none, false, 0x0⟩),
    (0x048AB805C0B8E98CBF000000, .fmul ⟨some 0x157, .v 5, .q 5, .x 0x2A, 3, .bf16, 2, none, true, 0x0⟩),
    (0x04CAC006C0B8EA08FE000000, .ffma ⟨some 0x158, .v 6, .q 5, .x 0x2A, 4, .f32, 3, none, false, 0x0⟩),
    (0x050AC807C0B8E8113E000000, .fmin ⟨some 0x159, .v 7, .q 5, .x 0x2A, 0, .f16, 4, none, false, 0x0⟩),
    (0x054AD008C0B8E80D7E000000, .fmax ⟨some 0x15A, .v 8, .q 5, .x 0x2A, 0, .bf16, 5, none, false, 0x0⟩),
    (0x058AD809C0B8E809BE000452, .fcmp ⟨some 0x15B, .v 9, .q 5, .x 0x2A, 0, .f32, 6, none, false, 0x452⟩),
    (0x05CAE00AC0B8E811FE000000, .fabs ⟨some 0x15C, .v 10, .q 5, .x 0x2A, 0, .f16, 7, none, false, 0x0⟩),
    (0x060AE80BC0B8E80E3E000000, .fneg ⟨some 0x15D, .v 11, .q 5, .x 0x2A, 0, .bf16, 8, none, false, 0x0⟩),
    (0x064AF00CC0B8E80A7E000000, .fcpys ⟨some 0x15E, .v 12, .q 5, .x 0x2A, 0, .f32, 9, none, false, 0x0⟩),
    (0x080AF80DC0B8E812BF000000, .frcp ⟨some 0x15F, .v 13, .q 5, .x 0x2A, 0, .f16, 10, none, true, 0x0⟩),
    (0x084B000EC0B8E80EFE000000, .frsq ⟨some 0x160, .v 14, .q 5, .x 0x2A, 0, .bf16, 11, none, false, 0x0⟩),
    (0x088B080FC0B8E80B3F000000, .fsqrt ⟨some 0x161, .v 15, .q 5, .x 0x2A, 0, .f32, 12, none, true, 0x0⟩),
    (0x08CB1010C0B8E8137E000000, .flog2 ⟨some 0x162, .v 16, .q 5, .x 0x2A, 0, .f16, 13, none, false, 0x0⟩),
    (0x090B1811C0B8E80FBF000000, .ftanh ⟨some 0x163, .v 17, .q 5, .x 0x2A, 0, .bf16, 14, none, true, 0x0⟩),
    (0x094B2012C0B8E80BFE000000, .fexpf ⟨some 0x164, .v 18, .q 5, .x 0x2A, 0, .f32, 15, none, false, 0x0⟩),
    (0x098B2813C0B8E9903F000000, .fscale ⟨some 0x165, .v 19, .q 5, .x 0x2A, 3, .f16, 0, none, true, 0x0⟩),
    (0x09CB3014C0B8EA0C7E000000, .frint ⟨some 0x166, .v 20, .q 5, .x 0x2A, 4, .bf16, 1, none, false, 0x0⟩),
    (0x0A0B3815C0B8E808BE000000, .fclass ⟨some 0x167, .v 21, .q 5, .x 0x2A, 0, .f32, 2, none, false, 0x0⟩)] : List (Nat × Instr)), decodeTableWord 96 e.1 = some e.2 := by decide

theorem test_words_lane_convert : ∀ e ∈ ([
    (0x100B4016C0B8EB08FE000001, .cvt ⟨some 0x168, .v 22, .q 5, .x 0x2A, 6, .f32, 3, none, false, 0x1⟩),
    (0x104B4817C0B8E8213F00000A, .pack ⟨some 0x169, .v 23, .q 5, .x 0x2A, 0, .n8, 4, none, true, 0xA⟩),
    (0x108B5018C0B8E8397E00000D, .unpack ⟨some 0x16A, .v 24, .q 5, .x 0x2A, 0, .n4, 5, none, false, 0xD⟩),
    (0x10CB5819C0B8E925BE000002, .qnt ⟨some 0x16B, .v 25, .q 5, .x 0x2A, 2, .e4m3, 6, none, false, 0x2⟩),
    (0x110B601AC0B8E825FE00000B, .dqnt ⟨some 0x16C, .v 26, .q 5, .x 0x2A, 0, .e4m3, 7, none, false, 0xB⟩)] : List (Nat × Instr)), decodeTableWord 96 e.1 = some e.2 := by decide

theorem test_words_lane_integer : ∀ e ∈ ([
    (0x180B681BC0B8E8063F000000, .iadd ⟨some 0x16D, .v 27, .q 5, .x 0x2A, 0, .i32, 8, none, true, 0x0⟩),
    (0x184B701CC0B8E8227E000000, .isub ⟨some 0x16E, .v 28, .q 5, .x 0x2A, 0, .n8, 9, none, false, 0x0⟩),
    (0x188B781DC0B8E806BF000000, .imul ⟨some 0x16F, .v 29, .q 5, .x 0x2A, 0, .i32, 10, none, true, 0x0⟩),
    (0x18CB801EC0B8E802FE000000, .imad ⟨some 0x170, .v 30, .q 5, .x 0x2A, 0, .n32, 11, none, false, 0x0⟩),
    (0x190B881FC0B8E8073E000000, .imulh ⟨some 0x171, .v 31, .q 5, .x 0x2A, 0, .i32, 12, none, false, 0x0⟩),
    (0x194B9020C0B8E8037E000000, .imin ⟨some 0x172, .v 32, .q 5, .x 0x2A, 0, .n32, 13, none, false, 0x0⟩),
    (0x198B9821C0B8E807BE000000, .imax ⟨some 0x173, .v 33, .q 5, .x 0x2A, 0, .i32, 14, none, false, 0x0⟩),
    (0x19CBA022C0B8E823FE000024, .icmp ⟨some 0x174, .v 34, .q 5, .x 0x2A, 0, .n8, 15, none, false, 0x24⟩),
    (0x1A0BA823C0B8E8143F000000, .iabs ⟨some 0x175, .v 35, .q 5, .x 0x2A, 0, .i16, 0, none, true, 0x0⟩),
    (0x1A4BB024C0B8E8187E000000, .isad ⟨some 0x176, .v 36, .q 5, .x 0x2A, 0, .n16, 1, none, false, 0x0⟩)] : List (Nat × Instr)), decodeTableWord 96 e.1 = some e.2 := by decide

theorem test_words_lane_bits : ∀ e ∈ ([
    (0x200BB825C0B8E83CBE000000, .andB32 ⟨some 0x177, .v 37, .q 5, .x 0x2A, 0, .b32, 2, none, false, 0x0⟩),
    (0x204BC026C0B8E83CFE000000, .orB32 ⟨some 0x178, .v 38, .q 5, .x 0x2A, 0, .b32, 3, none, false, 0x0⟩),
    (0x208BC827C0B8E83D3E000000, .xorB32 ⟨some 0x179, .v 39, .q 5, .x 0x2A, 0, .b32, 4, none, false, 0x0⟩),
    (0x20CBD028C0B8E83D7E000000, .notB32 ⟨some 0x17A, .v 40, .q 5, .x 0x2A, 0, .b32, 5, none, false, 0x0⟩),
    (0x210BD829C0B8E83DBE000096, .bool3 ⟨some 0x17B, .v 41, .q 5, .x 0x2A, 0, .b32, 6, none, false, 0x96⟩),
    (0x214BE02AC0B8E83DFE000000, .shlB32 ⟨some 0x17C, .v 42, .q 5, .x 0x2A, 0, .b32, 7, none, false, 0x0⟩),
    (0x218BE82BC0B8E8023E000000, .shrN32 ⟨some 0x17D, .v 43, .q 5, .x 0x2A, 0, .n32, 8, none, false, 0x0⟩),
    (0x21CBF02CC0B8E8067E000000, .sraI32 ⟨some 0x17E, .v 44, .q 5, .x 0x2A, 0, .i32, 9, none, false, 0x0⟩),
    (0x220BF82DC0B8E83EBE000000, .popcB32 ⟨some 0x17F, .v 45, .q 5, .x 0x2A, 0, .b32, 10, none, false, 0x0⟩),
    (0x224C002EC0B8E83EFE000000, .clzB32 ⟨some 0x180, .v 46, .q 5, .x 0x2A, 0, .b32, 11, none, false, 0x0⟩),
    (0x228C082FC0B8E83F3E000000, .brevB32 ⟨some 0x181, .v 47, .q 5, .x 0x2A, 0, .b32, 12, none, false, 0x0⟩),
    (0x22CC1030C0B8E8037E000000, .bfe ⟨some 0x182, .v 48, .q 5, .x 0x2A, 0, .n32, 13, none, false, 0x0⟩),
    (0x230C1831C0B8E83FBE000000, .bfi ⟨some 0x183, .v 49, .q 5, .x 0x2A, 0, .b32, 14, none, false, 0x0⟩),
    (0x234C2032C0B8E83FFE000000, .sel ⟨some 0x184, .v 50, .q 5, .x 0x2A, 0, .b32, 15, none, false, 0x0⟩),
    (0x238C2833C0B8E83C3E000000, .perm ⟨some 0x185, .v 51, .q 5, .x 0x2A, 0, .b32, 0, none, false, 0x0⟩)] : List (Nat × Instr)), decodeTableWord 96 e.1 = some e.2 := by decide

theorem test_words_lane_move : ∀ e ∈ ([
    (0x280C3034C0B8E8207E000000, .dp4 ⟨some 0x186, .v 52, .q 5, .x 0x2A, 0, .n8, 1, none, false, 0x0⟩),
    (0x284C3835C0B8E838BF000000, .dp8 ⟨some 0x187, .v 53, .q 5, .x 0x2A, 0, .n4, 2, none, true, 0x0⟩),
    (0x300C4036C0B8E83CFE000000, .mov ⟨some 0x188, .v 54, .q 5, .x 0x2A, 0, .b32, 3, none, false, 0x0⟩),
    (0x304C4837C0B8E83D3E000000, .shfl ⟨some 0x189, .v 55, .q 5, .x 0x2A, 0, .b32, 4, none, false, 0x0⟩),
    (0x308C5038C0B8E83D7E000000, .shflx ⟨some 0x18A, .v 56, .q 5, .x 0x2A, 0, .b32, 5, none, false, 0x0⟩),
    (0x30CC5839C0B8E83DBE000000, .bcst ⟨some 0x18B, .v 57, .q 5, .x 0x2A, 0, .b32, 6, none, false, 0x0⟩),
    (0x310C603AC0B8EB85FE000009, .scan ⟨some 0x18C, .v 58, .q 5, .x 0x2A, 7, .i32, 7, none, false, 0x9⟩),
    (0x314C683BC0B8E88A3E000002, .red ⟨some 0x18D, .v 59, .q 5, .x 0x2A, 1, .f32, 8, none, false, 0x2⟩),
    (0x318C703CC0B8E8027E000000, .rng ⟨some 0x18E, .v 60, .q 5, .x 0x2A, 0, .n32, 9, none, false, 0x0⟩)] : List (Nat × Instr)), decodeTableWord 96 e.1 = some e.2 := by decide

theorem test_words_lane_memory : ∀ e ∈ ([
    (0x400C783DC0B8E80AB4B200F4, .ldSp ⟨some 0x18F, .v 61, .q 5, .x 0x2A, 0, .f32, 10, some 10, false, 0xB200F4⟩),
    (0x404C803EC0B8E81EF6B200F4, .ldGs ⟨some 0x190, .v 62, .q 5, .x 0x2A, 0, .i8, 11, some 11, false, 0xB200F4⟩),
    (0x408C883FC0B8E83320B200F4, .ldDm ⟨some 0x191, .v 63, .q 5, .x 0x2A, 0, .e2m1, 12, some 0, false, 0xB200F4⟩),
    (0x40CC9040C0B8E80762B200F4, .ldPv ⟨some 0x192, .v 64, .q 5, .x 0x2A, 0, .i32, 13, some 1, false, 0xB200F4⟩),
    (0x41000041C0B8E8038444080C, .stSp ⟨none, .v 65, .q 5, .x 0x2A, 0, .n32, 14, some 2, false, 0x44080C⟩),
    (0x41400042C0B8E803C644080C, .stGs ⟨none, .v 66, .q 5, .x 0x2A, 0, .n32, 15, some 3, false, 0x44080C⟩),
    (0x41800043C0B8E8000844080C, .stDm ⟨none, .v 67, .q 5, .x 0x2A, 0, .n32, 0, some 4, false, 0x44080C⟩),
    (0x41C00044C0B8E8004A44080C, .stPv ⟨none, .v 68, .q 5, .x 0x2A, 0, .n32, 1, some 5, false, 0x44080C⟩),
    (0x420CB845C0B8E808AC1C0110, .ldt ⟨some 0x197, .v 69, .q 5, .x 0x2A, 0, .f32, 2, some 6, false, 0x1C0110⟩),
    (0x440CC046C0B8E800EEFC0121, .atomAdd ⟨some 0x198, .v 70, .q 5, .x 0x2A, 0, .n32, 3, some 7, false, 0xFC0121⟩),
    (0x444CC847C0B8E80530FC0121, .atomMin ⟨some 0x199, .v 71, .q 5, .x 0x2A, 0, .i32, 4, some 8, false, 0xFC0121⟩),
    (0x448CD048C0B8E80172FC0121, .atomMax ⟨some 0x19A, .v 72, .q 5, .x 0x2A, 0, .n32, 5, some 9, false, 0xFC0121⟩),
    (0x44CCD849C0B8E83DB4FC0121, .atomAnd ⟨some 0x19B, .v 73, .q 5, .x 0x2A, 0, .b32, 6, some 10, false, 0xFC0121⟩),
    (0x450CE04AC0B8E83DF6FC0121, .atomOr ⟨some 0x19C, .v 74, .q 5, .x 0x2A, 0, .b32, 7, some 11, false, 0xFC0121⟩),
    (0x454CE84BC0B8E83E20FC0121, .atomXor ⟨some 0x19D, .v 75, .q 5, .x 0x2A, 0, .b32, 8, some 0, false, 0xFC0121⟩),
    (0x458CF04CC0B8E83E62FC0121, .atomExch ⟨some 0x19E, .v 76, .q 5, .x 0x2A, 0, .b32, 9, some 1, false, 0xFC0121⟩),
    (0x45CCF84DC0B8E83EA4FC0121, .atomCas ⟨some 0x19F, .v 77, .q 5, .x 0x2A, 0, .b32, 10, some 2, false, 0xFC0121⟩),
    (0x460D004EC0B8E802E6FC0121, .atomIncb ⟨some 0x1A0, .v 78, .q 5, .x 0x2A, 0, .n32, 11, some 3, false, 0xFC0121⟩),
    (0x464D084FC0B8E80B28FC0121, .atomFadd ⟨some 0x1A1, .v 79, .q 5, .x 0x2A, 0, .f32, 12, some 4, false, 0xFC0121⟩)] : List (Nat × Instr)), decodeTableWord 96 e.1 = some e.2 := by decide


/-! ## Words that the spec writes out -/

/-- R67, R100 to R117, R149, R153, R158, R160, R171, R175, R178, R183, R187: worked S-stream words. -/
theorem test_spec_words : ∀ e ∈ ([
    (0x0428C380, .add 5 6 7), (0x06208FF0, .addi 4 4 0xFF0), (0x02000000, .nop), (0x32181FF8, .bne 3 0 0x1FF8),
    (0x2A381FFD, .loop 7 0x1FFD), (0x44000010, .runc 0 0x10), (0x40624000, .kand 3 1 2), (0x42481128, .vget 9 17 5),
    (0x46000024, .waitf 0x24), (0x484D0000, .waitc 9 5), (0x5A1900F9, .liveHot 100 31), (0x5C000000, .mark),
    (0x5E014580, .poison 10 11), (0x50311200, .barSync 3 9), (0x52070000, .lbarSync 3), (0x58194580, .claim 3 10 11),
    (0x70A2CC01, .mmaZ 20 22 24), (0x70A2CC00, .mma 20 22 24), (0x7420A300, .amv 4 5 6), (0x7420A301, .amvT 4 5 6),
    (0x78188000, .trec 3 4), (0x7C104600, .collAllreduce 2 2 12), (0xC00000A0, .trap 5), (0xC0000001, .rets),
    (0xC0000021, .retsSkip), (0xC0000041, .retsDecline), (0xC0280002, .sysrd 5 0 0), (0xC0188025, .tlbiVa 3 4 1),
    (0xC0480011, .gtime 9), (0xC0000012, .halt)] : List (Nat × Instr)), decodeTableWord 32 e.1 = some e.2 := by decide

/-- R78, R130, R141, R148: worked lane words. -/
theorem test_spec_lane_words : ∀ e ∈ ([
    (0x04C0500100400C083E000000, .ffma ⟨some 10, .v 1, .v 2, .v 3, 0, .f32, 0, none, false, 0⟩),
    (0x19C00650C2D948001E000024, .icmp ⟨none, .const 0, .x 6, .const 2, 0, .n32, 0, none, false, 0x24⟩),
    (0x31802617CA1948003E000000, .rng ⟨some 4, .x 7, .const 0, .const 2, 0, .n32, 0, none, false, 0⟩),
    (0x40402802CA59480822105004, .ldGs ⟨some 5, .v 2, .const 2, .const 2, 0, .f32, 0, some 1, false, 0x105004⟩)]
    : List (Nat × Instr)), decodeTableWord 96 e.1 = some e.2 := by decide

/-! ## Words and terms that are no instruction -/

/-- The detail of a refusal. -/
def errOf : Except Nat Instr → Option Nat
  | .error d => some d
  | .ok _ => none

/-- R69, R70, R71, R72, R81: unassigned majors, functions and values, and reserved fields. -/
theorem test_words_refused : ∀ e ∈ ([
    (0x00000000, 0), (0xFE000000, 0), (0x62000000, 0), (0x04000020, 1), (0x04000097, 5), (0x02000001, 5),
    (0x06209FF0, 5), (0x0E000040, 5), (0x24000001, 5), (0x26200000, 1), (0x40024000, 1), (0x42060000, 1),
    (0x48070000, 1), (0x50020000, 5), (0x50018000, 1), (0x52010000, 1), (0x540E0000, 1), (0x5B7FC008, 1),
    (0x5A000201, 1), (0x72000004, 1), (0x78800000, 1), (0xC0000061, 5), (0xC0000064, 5), (0xC0000013, 1)]
    : List (Nat × Nat)), errOf (decodeS e.1) = some e.2 := by decide

/-- R74 to R76, R80, R81: an unassigned opcode, a clause header in a body, a format outside the opcode's set, rnd and sat
where they are not accepted, a flag on a form that takes none, and a source code that does not exist. -/
theorem test_lane_words_refused : ∀ e ∈ ([
    (0x000050010040 * 2 ^ 48 + 0x0C083E000000, 4), (0xFFC050010040 * 2 ^ 48 + 0x0C083E000000, 7),
    (0x04C050010040 * 2 ^ 48 + 0x0C043E000000, 2), (0x050050010040 * 2 ^ 48 + 0x0C883E000000, 8),
    (0x050050010040 * 2 ^ 48 + 0x0C083F000000, 8), (0x04C050010040 * 2 ^ 48 + 0x0C0822000000, 9),
    (0x04C057FF0040 * 2 ^ 48 + 0x0C083E000000, 3), (0x04C050010040 * 2 ^ 48 + 0x0C083E000001, 5)]
    : List (Nat × Nat)), errOf (decodeLane none e.1) = some e.2 := by decide

/-- One ill-formed term for each check on an S-stream form. -/
theorem test_illformed : ∀ i ∈ ([
    .add 64 0 0, .add 0 64 0, .add 0 0 64, .addi 0 0 4096, .shli 0 0 64, .ldi 0 4 0, .ldi 0 0 65536, .b 524288,
    .brd 16 0 1, .brd 1 1024 1, .brd 1 0 2048, .brd 1 0 0, .beq 0 0 8192, .kand 0 1 2, .kand 16 1 2, .kgetx 64 0,
    .vget 0 1536 0, .vget 0 0 32, .waitf 4096, .waitc 0 7, .barArrive 32 0, .lbarArrive 1, .lbarArrive 6, .fence 7,
    .liveDead 1000 536, .liveHot 0 64, .trec 16 0, .shCopy 16 0 0, .shCopy 0 16 0, .shFill 16 0 0, .trap 256,
    .sysrd 0 0 256, .tlbiAll 3] : List Instr), wellFormed i = false := by decide

/-- One ill-formed term for each check on a lane form. -/
theorem test_illformed_lane : ∀ o ∈ ([
    ⟨some 1536, .v 0, .v 0, .v 0, 0, .f32, 0, none, false, 0⟩, ⟨none, .v 1536, .v 0, .v 0, 0, .f32, 0, none, false, 0⟩,
    ⟨none, .v 0, .q 16, .v 0, 0, .f32, 0, none, false, 0⟩, ⟨none, .v 0, .v 0, .x 64, 0, .f32, 0, none, false, 0⟩,
    ⟨none, .v 0, .v 0, .v 0, 8, .f32, 0, none, false, 0⟩, ⟨none, .v 0, .v 0, .v 0, 0, .i32, 0, none, false, 0⟩,
    ⟨none, .v 0, .v 0, .v 0, 0, .f32, 16, none, false, 0⟩, ⟨none, .v 0, .v 0, .v 0, 0, .f32, 0, some 12, false, 0⟩,
    ⟨none, .v 0, .v 0, .v 0, 0, .f32, 0, some 1, false, 0⟩, ⟨none, .v 0, .v 0, .v 0, 0, .f32, 0, none, false, 1⟩]
    : List LaneOp), wellFormed (.fadd o) = false := by decide

/-- R80, R133: sat where a form does not accept it, and a position past the elements of the format. -/
theorem test_illformed_lane_fields :
    wellFormed (.fmin ⟨none, .v 0, .v 0, .v 0, 0, .f32, 0, none, true, 0⟩) = false ∧
    wellFormed (.qnt ⟨none, .v 0, .v 0, .v 0, 0, .e4m3, 0, none, false, 4⟩) = false := by decide

/-! ## A small machine -/

/-- One warp of one block in the rink of core 0, about to act on path A. -/
def probe : State := withCur (State.reset.withFetchWord 32 0x02000000) 3 false

/-- The same with its warp changed. -/
def probeWith (f : Warp → Warp) : State := { probe with warps := fmap probe.warps fun _ w => f w }

/-- The same with its path A changed. -/
def probePath (f : Path → Path) : State := probeWith fun w => { w with a := f w.a }

/-- The same with scalar registers. -/
def probeX (x : FMap W64) : State := probePath fun p => { p with x := x }

/-- A register that holds one word in every lane. -/
def reg (tag : Fmt) (v : W32) : VReg := { tag := tag, line := some { data := List.replicate 32 v, dirty := true }, pois := 0, slot := 0 }

/-- The same with vector registers, the lanes 0 and 1 active. -/
def probeV (regs : FMap VReg) : State := probeWith fun w => { w with regs := regs, a := w.a.withK0 3 }

/-- The state after an instruction. -/
def after (i : Instr) (s : State) : State := match exec i s with
  | .next t => t
  | _ => s

/-- What is read of the warp after an instruction, 0 where there is none. -/
def seen (s : State) (f : Warp → Nat) : Nat := (fget s.warps 3).elim 0 f

/-- A scalar register of path A after an instruction. -/
def xOf (i : Instr) (s : State) (r : Nat) : Nat := seen (after i s) fun w => (rx w false r).toNat

/-- The S-PC of path A after an instruction. -/
def pcOf (i : Instr) (s : State) : Nat := seen (after i s) fun w => w.a.pc.toNat

/-- The word that an instruction leaves in a lane of q0. -/
def q0Of (i : Instr) (s : State) (l : Nat) : Nat :=
  seen (after i s) fun w => (w.a.age.head?).elim 0 fun e => (lane e.data l).toNat

/-- The sticky flags NV, DZ, OF, UF and NX of WMODE after an instruction. -/
def flagsOf (i : Instr) (s : State) : Nat := seen (after i s) fun w => fld w.wmode.toNat 12 8

/-- The cause in xs0 after an instruction that entered a handler, or the cause of the purged launch. -/
def purgedCause (i : Instr) (s : State) : Option Nat := ((after i s).launches.head?).map fun e => e.2.cause

/-- −7. -/
def m7 : W64 := -7

/-! ## Scalar instructions (05) -/

/-- R100: −7 / 2 = −3, remainder −1. -/
theorem test_div_truncates : xOf (.divI64 3 1 2) (probeX [(1, m7), (2, 2)]) 3 = 2 ^ 64 - 3 ∧
    xOf (.remI64 3 1 2) (probeX [(1, m7), (2, 2)]) 3 = 2 ^ 64 - 1 := by decide

/-- R100: division by zero, and the most negative number by −1. -/
theorem test_div_corners : xOf (.divI64 3 1 2) (probeX [(1, m7)]) 3 = 2 ^ 64 - 1 ∧
    xOf (.remN64 3 1 2) (probeX [(1, m7)]) 3 = 2 ^ 64 - 7 ∧
    xOf (.divI64 3 1 2) (probeX [(1, 2 ^ 63), (2, -1)]) 3 = 2 ^ 63 := by decide

/-- R99: sums wrap; a shift amount is the low six bits; x0 stays 0. -/
theorem test_alu_wraps : xOf (.add 3 1 1) (probeX [(1, 2 ^ 63)]) 3 = 0 ∧
    xOf (.shl 3 1 2) (probeX [(1, 1), (2, 65)]) 3 = 2 ∧ xOf (.addi 0 0 5) probe 0 = 0 := by decide

/-- R99: the high half of a product, signed and unsigned. -/
theorem test_mulh : xOf (.mulhI64 3 1 1) (probeX [(1, -1)]) 3 = 0 ∧
    xOf (.mulhN64 3 1 1) (probeX [(1, -1)]) 3 = 2 ^ 64 - 2 := by decide

/-- R99: CLZ of 0 and of 1, SRA of a negative number, ROR. -/
theorem test_bits : xOf (.clz 3 1) probe 3 = 64 ∧ xOf (.clz 3 1) (probeX [(1, 1)]) 3 = 63 ∧
    xOf (.sra 3 1 2) (probeX [(1, m7), (2, 1)]) 3 = 2 ^ 64 - 4 ∧
    xOf (.ror 3 1 2) (probeX [(1, 1), (2, 1)]) 3 = 2 ^ 63 := by decide

/-- R99: the smallest change of a swapped operand shows in SUB, SLT and ANDN. -/
theorem test_operand_order : xOf (.sub 3 1 2) (probeX [(1, 5), (2, 3)]) 3 = 2 ∧
    xOf (.sltI64 3 1 2) (probeX [(1, m7), (2, 3)]) 3 = 1 ∧ xOf (.sltN64 3 1 2) (probeX [(1, m7), (2, 3)]) 3 = 0 ∧
    xOf (.andn 3 1 2) (probeX [(1, 7), (2, 5)]) 3 = 2 := by decide

/-- R101: SLTI.n64 with imm = −1 compares against 2^64 − 1; ADDI takes −2,048. -/
theorem test_immediates : xOf (.sltiN64 3 1 0xFFF) (probeX [(1, 5)]) 3 = 1 ∧
    xOf (.addi 3 1 0x800) (probeX [(1, 2048)]) 3 = 0 ∧ xOf (.srai 3 1 4) (probeX [(1, -16)]) 3 = 2 ^ 64 - 1 := by decide

/-- R68: LDI clears the other bits, LDI.K keeps them. -/
theorem test_ldi : xOf (.ldi 3 2 0xBEEF) (probeX [(3, 0x1111)]) 3 = 0xBEEF00000000 ∧
    xOf (.ldiK 3 2 0xBEEF) (probeX [(3, 0x1111)]) 3 = 0xBEEF00001111 := by decide

/-- R68, R103: a branch eight words back, taken and not taken, and LOOP. -/
theorem test_branches : pcOf (.bne 3 0 0x1FF8) (probeX [(3, 1)]) = 0x200000 - 32 ∧ pcOf (.bne 3 0 0x1FF8) probe = 0x200004 ∧
    pcOf (.loop 7 0x1FFD) (probeX [(7, 2)]) = 0x200000 - 12 ∧ pcOf (.loop 7 0x1FFD) (probeX [(7, 1)]) = 0x200004 ∧
    pcOf (.b 0x40000) probe = 0x200000 - 0x100000 := by decide

/-- R103: CALL writes the link, RET goes to it, and a target that is not a multiple of 4 purges with 0.10. -/
theorem test_call_ret : xOf (.call 5 0x10) probe 5 = 0x200004 ∧ pcOf (.call 5 0x10) probe = 0x200040 ∧
    pcOf (.ret 5) (probeX [(5, 0x300)]) = 0x300 ∧ purgedCause (.ret 5) (probeX [(5, 0x302)]) = some 0x0A := by decide

/-- R104: BRD splits: path A keeps the lanes that fall through, path B takes the others. -/
theorem test_brd_splits :
    let s := probePath fun p => { p with k := [(0, 0xFFFFFFFF), (1, 0xFFFF)] }
    seen (after (.brd 1 7 8) s) (fun w => w.a.k0.toNat) = 0xFFFF0000 ∧
    seen (after (.brd 1 7 8) s) (fun w => w.b.k0.toNat) = 0xFFFF ∧
    seen (after (.brd 1 7 8) s) (fun w => w.b.pc.toNat) = 0x20001C ∧
    seen (after (.brd 1 7 8) s) (fun w => w.recon.toNat) = 0x200020 := by decide

/-- R104: no lane and every lane. -/
theorem test_brd_whole :
    pcOf (.brd 1 7 8) (probePath fun p => { p with k := [(0, 3), (1, 4)] }) = 0x200004 ∧
    pcOf (.brd 1 7 8) (probePath fun p => { p with k := [(0, 3), (1, 7)] }) = 0x20001C := by decide

/-- R111: KANDN, and KSETX of the low 32 bits. -/
theorem test_masks :
    let k := fun (i : Instr) => seen (after i (probePath fun p => { p with k := [(0, 3), (1, 6), (2, 3)], x := [(4, 0x1FFFFFFFF)] }))
    k (.kandn 5 1 2) (fun w => (rk w false 5).toNat) = 4 ∧ k (.ksetx 5 4) (fun w => (rk w false 5).toNat) = 0xFFFFFFFF := by
  decide

/-- R112: VGET reads a lane; VPUT of a lane outside k0 is 2.5. -/
theorem test_vget_vput : xOf (.vget 3 1 1) (probeV [(1, reg .f32 0x80000001)]) 3 = 0x80000001 ∧
    purgedCause (.vput 3 1 2) (probeV [(1, reg .f32 7)]) = some 0x25 := by decide

/-- R110: RUNC enqueues, and an address that is not a multiple of 4 is 0.10. -/
theorem test_runc : seen (after (.runc 0 0x10) probe) (fun w => w.a.queue.length) = 1 ∧
    seen (after (.runc 0 0x10) probe) (fun w => (w.a.queue.head?).elim 0 (·.addr.toNat)) = 0x40 ∧
    purgedCause (.runc 3 0) (probeX [(3, 2)]) = some 0x0A := by decide

/-- R116: MARK records its address in a warp that is whole. -/
theorem test_mark : seen (after .mark probe) (fun w => w.markAddr.toNat) = 0x200000 ∧
    seen (after .mark (probeWith fun w => { w with nidem := true })) (fun w => b2n w.nidem) = 0 := by decide

/-- R156: the second of two arrivals completes the phase; a count of 0 is 10.4. -/
theorem test_barrier : ((after (.barArrive 3 5) (probeX [(5, 1)])).blocks.head?).map
      (fun e => (fgetD Bar.fresh e.2.bars 3).phase) = some true ∧
    ((after (.barArrive 3 5) (probeX [(5, 2)])).blocks.head?).map
      (fun e => (fgetD Bar.fresh e.2.bars 3).arrived) = some 1 ∧
    purgedCause (.barArrive 3 5) probe = some 0xA4 := by decide

/-- R167: ACC.ALLOC of two banks, and again, which is refused as a whole. -/
theorem test_acc_alloc : xOf (.accAlloc 3 4) (probeX [(4, 4 + 2 * 64)]) 3 = 1 ∧
    (after (.accAlloc 3 4) (probeX [(4, 4 + 2 * 64)])).banks.length = 2 ∧
    purgedCause (.accAlloc 3 4) probe = some 0x51 := by decide

/-- R189, R196: TRAP 5 without a handler purges the launch with 19.4. -/
theorem test_trap : purgedCause (.trap 5) probe = some 0x134 ∧ (after (.trap 5) probe).warps = [] := by decide

/-- R188: a supervisor form at user level is 19.0; R198: SYSRD of WMODE, and of a number that does not exist. -/
theorem test_system : purgedCause (.wdogKick) probe = some 0x130 ∧ purgedCause (.sysrd 3 0 0x7F) probe = some 0x133 ∧
    xOf (.sysrd 3 0 0x00) probe 3 = 1 := by decide

/-! ## Lane instructions (06, 07) -/

/-- R138: DP4.i8 of the worked operands gives 872. -/
theorem test_dp4 : q0Of (.dp4 ⟨none, .v 1, .v 2, .v 3, 0, .i8, 0, none, false, 0⟩)
    (probeV [(1, reg .i8 0x7F80FF01), (2, reg .i8 0x01020304), (3, reg .i32 1000)]) 1 = 872 := by decide

/-- R131: the two worked conversions to BF16, with NX. -/
theorem test_cvt_bf16 :
    let i := fun (b : Src) g => Instr.cvt ⟨none, .v 1, b, .const 2, 0, .bf16, 0, none, false, 2 + g * 32⟩
    q0Of (i (.const 2) 0) (probeV [(1, reg .f32 0x3F808000)]) 0 = 0x3F80 ∧
    flagsOf (i (.const 2) 0) (probeV [(1, reg .f32 0x3F808000)]) = 16 := by decide

/-- R130: the worked ballot of lanes above 27. -/
theorem test_icmp_ballot : q0Of (.icmp ⟨none, .const 0, .x 6, .const 2, 0, .n32, 0, none, false, 0x24⟩) (probeX [(6, 27)]) 5 =
    0xF0000000 := by decide

/-- R141: the worked hash, in lanes 0 and 1. -/
theorem test_rng : let i := Instr.rng ⟨some 4, .x 7, .const 0, .const 2, 0, .n32, 0, none, false, 0⟩
    q0Of i (probeV []) 0 = 0 ∧ q0Of i (probeV []) 1 = 0xED345605 := by decide

/-- R136: BOOL3 with table 0xD8 chooses b or c under a. -/
theorem test_bool3 : q0Of (.bool3 ⟨none, .v 1, .v 2, .v 3, 0, .b32, 0, none, false, 0xD8⟩)
    (probeV [(1, reg .b32 0x0000FFFF), (2, reg .b32 0x12345678), (3, reg .b32 0x9ABCDEF0)]) 0 = 0x9ABC5678 := by decide

/-- R123, R58: 1.5 + 2.25 in FP32; an i32 source of an f32 form is converted, and an i16 one is 1.1. -/
theorem test_fadd :
    let i := Instr.fadd ⟨none, .v 1, .v 2, .const 2, 0, .f32, 0, none, false, 0⟩
    q0Of i (probeV [(1, reg .f32 0x3FC00000), (2, reg .f32 0x40100000)]) 0 = 0x40700000 ∧
    q0Of i (probeV [(1, reg .i32 3), (2, reg .f32 0x3F800000)]) 0 = 0x40800000 ∧
    purgedCause i (probeV [(1, reg .i16 0), (2, reg .f32 0)]) = some 0x11 := by decide

/-- R55, R135: IADD wraps, and saturates with sat = 1. -/
theorem test_iadd : q0Of (.iadd ⟨none, .v 1, .v 1, .const 2, 0, .i32, 0, none, false, 0⟩)
      (probeV [(1, reg .i32 0x7FFFFFFF)]) 0 = 0xFFFFFFFE ∧
    q0Of (.iadd ⟨none, .v 1, .v 1, .const 2, 0, .i32, 0, none, true, 0⟩)
      (probeV [(1, reg .i32 0x7FFFFFFF)]) 0 = 0x7FFFFFFF := by decide

/-- R139: in a path without lane 0, SHFL from lane 0 gives the substitute. -/
theorem test_shfl : q0Of (.shfl ⟨none, .v 3, .const 2, .const 5, 0, .b32, 0, none, false, 0⟩)
    (probeWith fun w => { w with regs := [(3, reg .b32 5)], a := w.a.withK0 0xFFFF0000 }) 20 = 0xFFFFFFFF := by decide

/-- R17: a register beyond the declared ones is 8.1. -/
theorem test_undeclared : purgedCause (.mov ⟨none, .v 9, .const 2, .const 2, 0, .b32, 0, none, false, 0⟩)
    (probeWith fun w => { w with vregs := 9 }) = some 0x81 := by decide

/-- R143 to R145: a misaligned lane is 3.0, and one beyond the scratchpad 4.0. -/
theorem test_ld_checks : purgedCause (.ldSp ⟨some 5, .v 1, .const 2, .const 2, 0, .n32, 0, none, false, 0⟩)
      (probeV [(1, reg .b32 2)]) = some 0x30 ∧
    purgedCause (.ldSp ⟨some 5, .v 1, .const 2, .const 2, 0, .n32, 0, none, false, 0⟩)
      (probeV [(1, reg .b32 0x100000)]) = some 0x40 := by decide

/-- R146: a store to the scratchpad is issued, and its event writes the bytes of the lane. -/
theorem test_st_sp :
    let i := Instr.stSp ⟨none, .v 1, .v 2, .const 2, 0, .n32, 0, none, false, 0⟩
    let s := after i (probeWith fun w => { w with regs := [(1, reg .b32 0x40), (2, reg .n32 0xA1B2C3D4)], a := w.a.withK0 1 })
    let t := after (.storeComplete 4 (2 ^ 32 - 1)) s
    s.ops.length = 1 ∧ t.ops = [] ∧ (t.blocks.head?).map (fun e => rdLe e.2.sp 0x40 4) = some 0xA1B2C3D4 := by decide

/-! ## Steps and events -/

/-- R78, R340: a step fetches the word at the S-PC and runs it. -/
theorem test_step_fetches : (match step (State.reset.withFetchWord 32 101187589) with
    | .next t => seen t fun w => (rx w false 1).toNat
    | _ => 0) = 5 := by decide

/-- R324, R326: of two claims, the first makes its master the owner, and the second reads LAST = 1. -/
theorem test_owner :
    let t := after (.ownerClaim 2) (after (.ownerClaim 1) State.reset)
    t.mgmt.own.owner = 1 ∧ (fgetD Master.reset t.mgmt.own.masters 2).last = 1 := by decide

/-- R406: a link that goes down is down, and vector 3 is raised for the PF. -/
theorem test_link_down : (after (.linkDown 2) State.reset).fabric.down = [2] ∧
    ((fget (after (.linkDown 2) State.reset).funcs 0).map (·.vectors)) = some [3] := by decide

/-- R378: CLCTL.RESUME of a running cluster sets ERR. -/
theorem test_resume_err : (clusterAt (after (.clctlResume 0 1) State.reset) 0 1).err = true := by decide

/-! ## Witnesses: concrete states and operands that meet the hypotheses of each obligation -/

/-- A live acting path whose warp has a property. -/
theorem acting {s : State} {P : Warp → Prop} [DecidablePred P]
    (h : (fget s.warps s.cur.warp).elim false (fun w => (w.path s.cur.path).live && decide (P w)) = true) :
    ∃ w, actsOn s w ∧ P w := by
  cases hw : fget s.warps s.cur.warp with
  | none => simp [hw] at h
  | some w => exact ⟨w, ⟨hw, by simp_all⟩, by simp_all⟩

/-- The same without a property. -/
theorem acts {s : State} (h : (fget s.warps s.cur.warp).elim false (fun w => (w.path s.cur.path).live) = true) :
    ∃ w, actsOn s w := by
  cases hw : fget s.warps s.cur.warp with
  | none => simp [hw] at h
  | some w => exact ⟨w, hw, by simpa [hw] using h⟩

/-- The machine with its warp diverged and path B acting. -/
def probeB : State := { probeWith (fun w => { w with div := true, recon := 0x200040, b := { w.a with k := [(0, 0xFFFF)] } })
  with cur := ⟨3, true⟩ }

/-- The machine at supervisor level. -/
def probeSup (f : Warp → Warp) : State := probeWith fun w => f { w with a := { w.a with priv := 1 } }

/-- An entry of the divergence stack of path A at the S-PC. -/
def entry (state : Bool) : DEntry := { jaddr := 0x200000, mask := 0xFF, state := state, path := false, toff := 1 }

theorem witness_DecodeOfEncode : ∃ i n w, wellFormed i = true ∧ encode i = some (n, w) :=
  ⟨.nop, 32, 0x02000000, by decide +kernel, by decide +kernel⟩

theorem witness_EncodeOfDecode : ∃ w i, w < 2 ^ 32 ∧ decodeS w = .ok i := ⟨0x02000000, .nop, by decide +kernel, rfl⟩

/-- Path A and path B of a warp, for every statement whose one hypothesis is the acting path. -/
theorem witness_actsOn : (∃ w, actsOn probe w) ∧ ∃ w, actsOn probeB w := ⟨acts (by decide +kernel), acts (by decide +kernel)⟩

theorem witness_DivisionResults :
    (∃ w, actsOn probe w ∧ rx w false 2 = 0) ∧
    (∃ w, actsOn (probeX [(1, 2 ^ 63), (2, -1)]) w ∧ rx w false 1 = BitVec.intMin 64 ∧ rx w false 2 = BitVec.allOnes 64) ∧
    (∃ w, actsOn (probeX [(1, m7), (2, 2)]) w ∧ rx w false 2 ≠ 0 ∧ ¬(rx w false 1 = BitVec.intMin 64 ∧
      rx w false 2 = BitVec.allOnes 64) ∧ (rx w false 1).toInt ≤ 0) ∧
    (∃ w, actsOn (probeX [(1, 7), (2, -2)]) w ∧ rx w false 2 ≠ 0 ∧ 0 ≤ (rx w false 1).toInt) :=
  ⟨acting (by decide +kernel), acting (by decide +kernel), acting (by decide +kernel), acting (by decide +kernel)⟩

theorem witness_ScalarResults :
    (∃ e, e ∈ Claims.twoSource 63 1 2) ∧ (∃ e, e ∈ Claims.oneSource 0 1 0xFFF) ∧ ((3 : Nat) < 4 ∧ 0xFFFF < 2 ^ 16) ∧
    (∃ v, v < 2 ^ 32 ∧ 7 ≤ v / 2 ^ 25 ∧ v / 2 ^ 25 ≤ 9 ∧ v / 2 ^ 6 % 2 ^ 6 ≠ 0) :=
  ⟨⟨_, List.mem_cons_self ..⟩, ⟨_, List.mem_cons_self ..⟩, by decide +kernel, 0x0E000040, by decide +kernel⟩

theorem witness_MaskResults : (∃ e, e ∈ Claims.maskForms 15 1 2) ∧
    ((0x40000006 : Nat) < 2 ^ 32 ∧ 0x40000006 / 2 ^ 25 = 0x20 ∧ 0x40000006 % 2 ^ 7 = 6 ∧ 0x40000006 / 2 ^ 21 % 16 = 0) ∧
    (∃ i, decodeS 0x41E00006 = .ok i ∧ i = .ksetx 15 0) ∧
    ∃ i, decodeS 0x40200000 = .ok i ∧ i ∈ (Claims.maskForms 1 0 0).map (·.1) :=
  ⟨⟨_, List.mem_cons_self ..⟩, by decide, ⟨_, rfl, rfl⟩, ⟨_, rfl, by decide +kernel⟩⟩

theorem witness_ControlTransfers :
    (∃ e, e ∈ Claims.branchForms 1 2 0x1FFF) ∧ (∃ w, actsOn probe w ∧ (w.restore && (5 : Nat) == 0) = false ∧
      (rx w false 5).toNat % 4 = 0) ∧
    (∃ w, actsOn (probeX [(5, 2)]) w ∧ (w.restore && (5 : Nat) == 0) = false ∧ (rx w false 5).toNat % 4 ≠ 0) ∧
    ∃ w, actsOn (probeWith fun w => { w with restore := true }) w ∧ w.restore = true :=
  ⟨⟨_, List.mem_cons_self ..⟩, acting (by decide +kernel), acting (by decide +kernel), acting (by decide +kernel)⟩

/-- The lanes of k0 that mask 1 names, for BRD. -/
def taken (s : State) (w : Warp) : W32 := (actPath s w).k0 &&& rk w s.cur.path 1

/-- The machine with mask 1, and with mask 1 in a diverged warp. -/
def probeK (k1 : W32) : State := probePath fun p => { p with k := [(0, 0xFF), (1, k1)] }
/-- The same, diverged, with a stack. -/
def probeKD (stack : List DEntry) : State :=
  probeWith fun w => { w with div := true, recon := 0x200040, dstack := stack, b := w.a,
                              a := { w.a with k := [(0, 0xFF), (1, 1)] } }

theorem witness_Divergence :
    (∃ w, actsOn (probeK 0) w ∧ taken (probeK 0) w = 0) ∧
    (∃ w, actsOn (probeK 0xFF) w ∧ taken (probeK 0xFF) w ≠ 0 ∧ taken (probeK 0xFF) w = (actPath (probeK 0xFF) w).k0) ∧
    (∃ w, actsOn (probeKD []) w ∧ taken (probeKD []) w ≠ 0 ∧ taken (probeKD []) w ≠ (actPath (probeKD []) w).k0 ∧
      w.div = true ∧ ((∃ e ∈ w.dstack, e.path = false ∧ e.jaddr = 0x200040) ∨ w.div = true ∧ w.recon = 0x200040)) ∧
    (∃ w, actsOn (probeKD (List.replicate 32 (entry false))) w ∧ taken (probeKD (List.replicate 32 (entry false))) w = 1 ∧
      w.div = true ∧ ¬((∃ e ∈ w.dstack, e.path = false ∧ e.jaddr = 0x200080) ∨ w.div = true ∧ w.recon = 0x200080) ∧
      32 ≤ w.dstack.length) ∧
    (∃ w, actsOn (probeKD [entry false]) w ∧ taken (probeKD [entry false]) w = 1 ∧ w.div = true ∧
      ¬((∃ e ∈ w.dstack, e.path = false ∧ e.jaddr = 0x200080) ∨ w.div = true ∧ w.recon = 0x200080) ∧
      w.dstack.length < 32) ∧
    (∃ w, actsOn (probeK 1) w ∧ w.div = false ∧ taken (probeK 1) w = 1 ∧ w.a.k0 ≠ 1 ∧ w.a.batch = [] ∧
      allDone (probeK 1) 3 false w.a = true) :=
  ⟨acting (by decide +kernel), acting (by decide +kernel), acting (by decide +kernel), acting (by decide +kernel), acting (by decide +kernel), acting (by decide +kernel)⟩

/-- The machine with a clause in the queue of path A. -/
def probeQ : State := after (.runc 0 0x10) probe

theorem witness_innermost : innermost [entry true, entry false] false (entry false) [entry true] ∧ noEntry [] false :=
  ⟨⟨[entry true], [], rfl, rfl, rfl, by simp⟩, by simp [noEntry]⟩

theorem witness_Joins :
    (∃ w, actsOn probeQ w ∧ allDone probeQ 3 false w.a = false) ∧
    (∃ w, actsOn (probeKD [entry false]) w ∧ allDone (probeKD [entry false]) 3 false w.a = true ∧
      w.dstack = [entry false] ∧ (entry false).jaddr = w.a.pc) ∧
    (∃ w, actsOn (probeKD [entry true]) w ∧ w.dstack = [entry true] ∧ (entry true).jaddr = w.a.pc) ∧
    (let e := { entry false with jaddr := 0x300000 }
     (∃ w, actsOn (probeKD [entry false, e]) w ∧ w.dstack = [entry false] ++ [e] ∧ e.jaddr ≠ w.a.pc ∧
      ∃ x ∈ w.dstack, x.path = false ∧ x.jaddr = w.a.pc) ∧
     ∃ w, actsOn (probeKD [e]) w ∧ e.jaddr ≠ w.a.pc ∧
      ¬((∃ x ∈ w.dstack, x.path = false ∧ x.jaddr = w.a.pc) ∨ w.div = true ∧ w.recon = w.a.pc)) ∧
    (∃ w, actsOn probe w ∧ w.dstack = [] ∧ ¬(w.div = true ∧ w.recon = w.a.pc)) ∧
    (let s := fun x => probeWith fun w => { w with div := true, recon := 0x200000, b := { w.a with wait := x } }
     (∃ w, actsOn (s .none) w ∧ w.div = true ∧ w.recon = w.a.pc ∧ w.dstack = [] ∧ allDone (s .none) 3 false w.a = true ∧
        w.a.wait = .none ∧ w.a.batch = [] ∧ w.b.live = true ∧ w.b.wait = .none) ∧
     ∃ w, actsOn (s .join) w ∧ w.div = true ∧ w.recon = w.a.pc ∧ w.dstack = [] ∧ w.b.live = true ∧ w.b.wait = .join) := by
  refine ⟨acting (by decide +kernel), acting (by decide +kernel), acting (by decide +kernel), ⟨acting (by decide +kernel), acting (by decide +kernel)⟩,
    acting (by decide +kernel), acting (by decide +kernel), acting (by decide +kernel)⟩

theorem witness_ExitLanes :
    (∃ w, actsOn (probeKD [entry false]) w ∧ w.dstack = [entry false]) ∧
    (let s := probeWith fun w => { w with div := true, dstack := [entry true], a := { w.a with k := [(0, 0xF)] } }
     ∃ w, actsOn s w ∧ w.dstack = [entry true] ∧ (entry true).mask &&& ~~~w.a.k0 ≠ 0) ∧
    (let s := probeKD [entry false, entry true]
     ∃ w, actsOn s w ∧ w.dstack = [entry false, entry true] ∧ (entry true).mask &&& ~~~w.a.k0 = 0 ∧
       let popped := putWarp s 3 { w with dstack := [entry false] }
       (match exec .exit popped with | .next t => t != popped | _ => true) = true) ∧
    (∃ w, actsOn probeB w ∧ w.dstack = [] ∧ w.div = true ∧ allDone probeB 3 true w.b = true ∧ w.b.batch = [] ∧
      w.a.live = true ∧ w.a.wait = .none) ∧
    (∃ w, actsOn probe w ∧ w.dstack = [] ∧ w.div = false ∧ w.a.wait = .none ∧ w.a.batch = []) :=
  ⟨acting (by decide +kernel), acting (by decide +kernel), acting (by decide +kernel), acting (by decide +kernel),
    acting (by decide +kernel)⟩

/-- The machine with one register, the lanes 0 and 1 active. -/
def probeR : State := probeV [(1, reg .f32 7)]

theorem witness_LaneScalarTransfer :
    (∃ w, actsOn (probeWith fun w => { w with vregs := 2 }) w ∧ w.vregs ≤ 2) ∧
    (∃ w, actsOn probeR w ∧ 1 < w.vregs ∧ (actPath probeR w).k0.getLsbD 31 = false) ∧
    (∃ w, actsOn probeR w ∧ transferReady probeR (actPath probeR w) 1 1 = true ∧ missing w 1 = false ∧
      wordPoisoned w 1 (laneBit 0) = false ∧ (actPath probeR w).k0.getLsbD 0 = true) ∧
    (let s := probeV [(1, { reg .f32 7 with line := none })]
     ∃ w, actsOn s w ∧ ¬(transferReady s (actPath s w) 1 1 = true ∧ missing w 1 = false)) ∧
    (let s := probeV [(1, { reg .f32 7 with pois := 1 })]
     ∃ w, actsOn s w ∧ wordPoisoned w 1 (laneBit 0) = true) :=
  ⟨acting (by decide +kernel), acting (by decide +kernel), acting (by decide +kernel), acting (by decide +kernel), acting (by decide +kernel)⟩

theorem witness_RunClause :
    (∃ w, actsOn (probeX [(3, 2)]) w ∧ ((actPath (probeX [(3, 2)]) w).lbase + rx w false 3 + BitVec.ofNat 64 0).toNat % 4 ≠ 0) ∧
    (∃ w, actsOn probe w ∧ ((actPath probe w).lbase + rx w false 0 + BitVec.ofNat 64 (4 * (2 ^ 19 - 1))).toNat % 4 = 0 ∧
      (liveQueue probe 3 false w.a).length < 16) ∧
    (let s := probeWith fun w => match (fget probeQ.warps 3).bind (·.a.queue.head?) with
       | some c => { w with a := { w.a with queue := List.replicate 16 c } }
       | none => w
     ∃ w, actsOn s w ∧ 16 ≤ (liveQueue s 3 false w.a).length) :=
  ⟨acting (by decide +kernel), acting (by decide +kernel), acting (by decide +kernel)⟩

/-- The machine after a store to the scratchpad with flag 5. -/
def probeSt : State := after (.stSp ⟨none, .v 1, .v 2, .const 2, 0, .n32, 0, some 5, false, 0⟩)
  (probeWith fun w => { w with regs := [(1, reg .b32 0x40), (2, reg .n32 0xA1B2C3D4)], a := w.a.withK0 1 })

theorem witness_WaitFlags :
    decodeTableWord 32 0x46000FFF = some (.waitf 0xFFF) ∧ (∀ o ∈ probe.ops, o.flag ≠ some 5) ∧
    (∃ w, actsOn probe w ∧ allIssued w.a = true ∧ ∀ f, f < 12 → (0x24).testBit f = true → flagPending probe 3 false f = false) ∧
    (∃ w, actsOn probeSt w ∧ ¬(allIssued w.a = true ∧
      ∀ f, f < 12 → (0x24).testBit f = true → flagPending probeSt 3 false f = false)) :=
  ⟨by decide +kernel, by decide +kernel, acting (by decide +kernel), acting (by decide +kernel)⟩

theorem witness_WaitCounter :
    (∃ w, actsOn probe w ∧ allIssued w.a = true ∧ ctrOf 0 ≠ .sh ∧ counter probe 3 false (ctrOf 0) ≤ (rx w false 0).toNat) ∧
    (∃ w, actsOn probeSt w ∧ allIssued w.a = true ∧ ctrOf 0 ≠ .sh ∧
      (rx w false 0).toNat < counter probeSt 3 false (ctrOf 0)) ∧
    (∃ w, actsOn probe w ∧ w.a.batch = [] ∧ counter probe 3 false .sh ≤ (rx w false 0).toNat) :=
  ⟨acting (by decide +kernel), acting (by decide +kernel), acting (by decide +kernel)⟩

/-- What atBarrier says. -/
theorem at_barrier {s : State} {l : Bool} {n : Nat} {P : Warp → Prop} [DecidablePred P]
    (h : (fget s.warps s.cur.warp).elim false (fun w => (w.path s.cur.path).live && decide ((rising s.warps = true ∧
      w.div = false ∧ w.dstack = [] ∧ allIssued (actPath s w) = true ∧ (actPath s w).synced = none ∧
      waitsPhase w l n = false) ∧ P w)) = true) : ∃ w, atBarrier s w l n ∧ P w := by
  obtain ⟨w, ha, ⟨h1, h2, h3, h4, h5, h6⟩, hp⟩ := acting h
  exact ⟨w, ⟨ha, h1, h2, by simp [noEntry, h3], h4, h5, h6⟩, hp⟩

/-- The barrier 3 of the block, and the launch. -/
def bar3 (s : State) (w : Warp) : Bar := (fget s.blocks w.block).elim Bar.fresh fun k => fgetD Bar.fresh k.bars 3

/-- The machine after an arrival at barrier 3 of two warps, with x5 and x6. -/
def probeA (x5 : W64) : State := after (.barArrive 3 6) (probeX [(5, x5), (6, 2)])

/-- The same with the warp's PEND and APH cleared, as another warp of the block would have them. -/
def probeA' (x5 : W64) : State := { probeA x5 with warps := fmap (probeA x5).warps fun _ w => { w with pend := 0, aph := 0 } }

theorem witness_NamedBarriers :
    (∃ w, atBarrier probe w false 31 ∧ (fget probe.blocks w.block).isSome = true ∧
      (warpLaunch probe w).map (·.lrec.nbar) = some 32 ∧ (rx w false 5).toNat < 1) ∧
    (∃ w, atBarrier (probeX [(5, 65)]) w false 0 ∧ 64 < (rx w false 5).toNat) ∧
    (∃ w, atBarrier (probeX [(5, 64)]) w false 0 ∧ fenceReady (probeX [(5, 64)]) 3 false 1 = true ∧
      1 ≤ (rx w false 5).toNat ∧ (rx w false 5).toNat ≤ 64 ∧ w.pend.getLsbD 0 = false ∧ (bar3 probe w).arrived = 0) ∧
    (∃ w, atBarrier (probeA 2) w false 3 ∧ fenceReady (probeA 2) 3 false 1 = true ∧ w.pend.getLsbD 3 = true ∧
      w.aph.getLsbD 3 = (bar3 (probeA 2) w).phase) ∧
    (∃ w, atBarrier (probeA' 3) w false 3 ∧ w.pend.getLsbD 3 = false ∧ (bar3 (probeA' 3) w).arrived ≠ 0 ∧
      (rx w false 5).toNat ≠ (bar3 (probeA' 3) w).expect) ∧
    (∃ w, atBarrier (probeA' 2) w false 3 ∧ w.pend.getLsbD 3 = false ∧
      (rx w false 5).toNat = (bar3 (probeA' 2) w).expect) ∧
    (let s := after (.barArrive 3 5) (probeX [(5, 1)])
     ∃ w, atBarrier s w false 3 ∧ w.pend.getLsbD 3 = true ∧ w.aph.getLsbD 3 ≠ (bar3 s w).phase) :=
  ⟨at_barrier (by decide +kernel), at_barrier (by decide +kernel), at_barrier (by decide +kernel), at_barrier (by decide +kernel),
   at_barrier (by decide +kernel), at_barrier (by decide +kernel), at_barrier (by decide +kernel)⟩

/-- The machine as one of a gang launch. -/
def probeG (f : Warp → Warp) : State := { probeWith f with
  launches := fmap probe.launches fun _ l => { l with lrec := { l.lrec with gang := true } } }

theorem witness_LevelBarriers :
    (∃ w, atBarrier probe w true 2 ∧ (warpLaunch probe w).map (·.lrec.gang) = some false) ∧
    (∃ w, atBarrier (probeG id) w true 5 ∧ (warpLaunch (probeG id) w).map (·.lrec.gang) = some true ∧
      fenceReady (probeG id) 3 false 5 = true ∧ pendOf w true 5 = false) ∧
    (let s := probeG fun w => { w with lpend := 1 }
     ∃ w, atBarrier s w true 2 ∧ fenceReady s 3 false 2 = true ∧ pendOf w true 2 = true ∧
       aphOf w true 2 = ((warpLaunch s w).elim Bar.fresh fun l => fgetD Bar.fresh l.lbars (levelKey w 2)).phase) ∧
    (let s := probeG fun w => { w with lpend := 1, laph := 1 }
     ∃ w, atBarrier s w true 2 ∧ pendOf w true 2 = true ∧
       aphOf w true 2 ≠ ((warpLaunch s w).elim Bar.fresh fun l => fgetD Bar.fresh l.lbars (levelKey w 2)).phase) :=
  ⟨at_barrier (by decide +kernel), at_barrier (by decide +kernel), at_barrier (by decide +kernel), at_barrier (by decide +kernel)⟩

theorem witness_FenceWaits :
    (∃ w, actsOn probe w ∧ allIssued w.a = true ∧ w.a.batch = [] ∧ probe.ops = [] ∧
      counter probe 3 false .fb = 0 ∧ counter probe 3 false .sh = 0) ∧
    (∃ w, actsOn probeSt w ∧ allIssued w.a = true ∧ w.a.batch = [] ∧
      ∃ o ∈ probeSt.ops, owns o 3 false = true ∧ (match o.body with | .mem m => memPerformed m false | _ => true) = false) :=
  ⟨acting (by decide +kernel), acting (by decide +kernel)⟩

theorem witness_LiveAndMark :
    (∃ w, actsOn probe w ∧ w.vregs ≤ 1536 + 0) ∧ (∃ w, actsOn probeB w ∧ 0 + 1535 < w.vregs ∧ w.div = true) ∧
    (let s := after (.mov ⟨none, .v 1, .const 2, .const 2, 0, .b32, 0, none, false, 0⟩) probeR
     ∃ w, actsOn s w ∧ 1 + 0 < w.vregs ∧ w.div = false ∧ transferReady s (actPath s w) 1 1 = true) ∧
    (∃ w, actsOn probeQ w ∧ 1 + 0 < w.vregs ∧ w.div = false ∧ transferReady probeQ (actPath probeQ w) 1 1 = false) ∧
    (∃ w, actsOn probeQ w ∧ allDone probeQ 3 false (actPath probeQ w) = false) ∧
    (∃ w, actsOn probe w ∧ allDone probe 3 false (actPath probe w) = true ∧ w.div = false ∧ w.dstack = []) ∧
    (∃ w, actsOn probeB w ∧ allDone probeB 3 true (actPath probeB w) = true ∧ ¬(w.div = false ∧ w.dstack = [])) :=
  ⟨acting (by decide +kernel), acting (by decide +kernel), acting (by decide +kernel), acting (by decide +kernel), acting (by decide +kernel), acting (by decide +kernel),
   acting (by decide +kernel)⟩

/-- The same with scalar registers and a page that may be written. -/
def probeRw (x : FMap W64) : State := { probeX x with mem := wrLe probe.mem 0x12010 8 0x10817 }

theorem witness_PoisonAndClaim :
    (∃ w, actsOn (probeX [(1, 32), (2, 64)]) w ∧ allIssued w.a = true ∧ (rx w false 1).toNat % 64 ≠ 0) ∧
    (∃ w, actsOn (probeX [(1, 0x200000), (2, 0x200000)]) w ∧ (rx w false 1).toNat % 64 = 0 ∧ 0 < (rx w false 2).toNat ∧
      (rx w false 2).toNat % 64 = 0 ∧ (rx w false 2).toNat ≤ 2 ^ 21) ∧
    (let s := probeRw [(1, 0x200000), (2, 64)]
     ∃ w, actsOn s w ∧ (xlateAll s (warpReq s w true .write none)
       ((partPieces (rx w false 1).toNat (rx w false 2).toNat).map (·.1))).toOption = some [0x200000] ∧
       fenceReady s 3 false 3 = true) ∧
    (∃ w, actsOn (probeX [(2, 2 ^ 30 + 1)]) w ∧ 2 ^ 30 < (rx w false 2).toNat) ∧
    (∃ w, actsOn (probeX [(1, 0x200000), (2, 64)]) w ∧ (rx w false 2).toNat ≤ 2 ^ 30 ∧
      (∀ c ∈ [Ctr.gs, .dm, .fb], counter (probeX [(1, 0x200000), (2, 64)]) 3 false c = 0) ∧
      (xlateAll (probeX [(1, 0x200000), (2, 64)]) (warpReq (probeX [(1, 0x200000), (2, 64)]) w true .read none)
        (rangePages (rx w false 1).toNat (rx w false 2).toNat)).toOption = some [0x200000]) :=
  ⟨acting (by decide +kernel), acting (by decide +kernel), acting (by decide +kernel), acting (by decide +kernel), acting (by decide +kernel)⟩

/-- The answer to the three granules of a launch record. -/
def launchAddrs (s : State) (w : Warp) (a : Nat) : Option (List Nat) :=
  let va := (rx w false a).toNat
  (xlateAll s (warpReq s w true .read none) [va, va + 64, va + 128]).toOption

theorem witness_DeviceLaunch :
    (∃ w, actsOn (probeX [(1, 1)]) w ∧ (fget probe.funcs w.fn).isSome = true ∧ (warpLaunch probe w).isSome = true ∧
      (rx w false 1).toNat % 64 ≠ 0) ∧
    (let s := { probe with funcs := fmap probe.funcs fun _ f => { f with devSeq := 2 ^ 47 } }
     ∃ w, actsOn s w ∧ (fget s.funcs w.fn).map (fun f => decide (2 ^ 47 - 1 < f.devSeq)) = some true) ∧
    (let s := probeX [(1, 0x200040)]
     ∃ w, actsOn s w ∧ (fget s.funcs w.fn).map (·.devSeq) = some 1 ∧ allIssued w.a = true ∧
       performedAll s 3 false false = true ∧ launchAddrs s w 1 = some [0x200040, 0x200080, 0x2000C0] ∧ devQueued s w.fn < 1024) ∧
    (let s := { probeX [(1, 0x200040)] with
       launches := probe.launches ++ ((fget probe.launches 1).elim [] fun l =>
         (List.range 1024).map fun n => (n + 2, { l with dev := true, st := .queued })) }
     ∃ w, actsOn s w ∧ 1024 ≤ devQueued s w.fn) :=
  ⟨acting (by decide +kernel), acting (by decide +kernel), acting (by decide +kernel), acting (by decide +kernel)⟩

/-- The machine that owns the banks 4 and 5, with scalar registers. -/
def probeAcc (x : FMap W64) : State := after (.accAlloc 60 61) (probeX (x ++ [(61, 4 + 2 * 64)]))

theorem witness_Accumulators :
    (∃ w, actsOn (probeX [(1, 63 + 2 * 64)]) w ∧ allDone probe 3 false w.a = true ∧ ¬bankFirst (rx w false 1) + bankCount (rx w false 1) ≤ 64) ∧
    (∃ w, actsOn (probeX [(1, 63 + 1 * 64 + 3 * 2 ^ 13)]) w ∧ (1 ≤ bankCount (rx w false 1) ∧
      bankFirst (rx w false 1) + bankCount (rx w false 1) ≤ 64 ∧ bankBand (rx w false 1) ≤ 3 ∧
      (rx w false 1).extractLsb' 16 48 = 0) ∧ ∀ k ∈ bankKeys w (rx w false 1), fget probe.banks k = none) ∧
    (let s := probeAcc [(1, 4 + 1 * 64)]
     ∃ w, actsOn s w ∧ bankBand (rx w false 1) = 0 ∧ (∀ k ∈ bankKeys w (rx w false 1), ownsBank s w k = true) ∧
       (∀ k ∈ bankKeys w (rx w false 1), bankBusy s k = false) ∧ counter s 3 false .ac < 255 ∧
       ∃ k ∈ bankKeys w (rx w false 1), (fget s.banks k).isSome = true) ∧
    (let s := after (.accZero 1) (probeAcc [(1, 4 + 1 * 64)])
     ∃ w, actsOn s w ∧ ∃ k ∈ bankKeys w (rx w false 1), bankBusy s k = true) ∧
    (∃ w, actsOn (probeX [(1, 1 * 64)]) w ∧ bankBand (rx w false 1) = 0 ∧
      ∃ k ∈ bankKeys w (rx w false 1), ownsBank (probeX [(1, 1 * 64)]) w k = false) :=
  ⟨acting (by decide +kernel), acting (by decide +kernel), acting (by decide +kernel), acting (by decide +kernel), acting (by decide +kernel)⟩

/-- The same with the bands and claims of its banks. -/
def probeBand (band : Nat) (claims : FMap Nat) (x : FMap W64) : State :=
  { probeAcc x with banks := fmap (probeAcc x).banks fun _ b => { b with band := band, claims := claims } }

/-- A drain descriptor: its first row and its number of rows. -/
def drainRow (x : W64) : Nat := (x.extractLsb' 6 5).toNat
/-- The number of rows. -/
def drainN (x : W64) : Nat := (x.extractLsb' 11 5).toNat + 1

theorem witness_AccumulatorDrain :
    (∃ w, actsOn (probeX [(1, 31 * 64 + 2 ^ 11)]) w ∧ 32 < drainRow (rx w false 1) + drainN (rx w false 1) ∧
      drainPending (probeX [(1, 31 * 64 + 2 ^ 11)]) 3 false 0 2 = false) ∧
    (∃ w, actsOn (probeX [(1, 4)]) w ∧ drainRow (rx w false 1) + drainN (rx w false 1) ≤ 32 ∧
      fget probe.banks (bankKey w (bankFirst (rx w false 1))) = none) ∧
    (let s := probeBand 3 [] [(1, 4 + 28 * 64 + 3 * 2 ^ 11)]
     ∃ w, actsOn s w ∧ (fget s.banks (bankKey w (bankFirst (rx w false 1)))).map (fun b => (b.block, 32 / 2 ^ b.band, b.claims)) =
       some (w.block, 4, []) ∧ drainRow (rx w false 1) % 4 = 0 ∧ drainN (rx w false 1) % 4 = 0 ∧
       1532 + drainN (rx w false 1) ≤ w.vregs ∧ w.vregs < 1533 + drainN (rx w false 1) ∧ w.div = false ∧
       counter s 3 false .ac < 255) ∧
    (let s := probeBand 3 [(7, 9)] [(1, 4 + 28 * 64 + 3 * 2 ^ 11)]
     ∃ w, actsOn s w ∧ ((fget s.banks (bankKey w 4)).bind fun b => fget b.claims 7) = some 9 ∧ 9 ≠ w.idx) ∧
    (let s := probeBand 1 [] [(1, 4 + 2 ^ 11)]
     ∃ w, actsOn s w ∧ (fget s.banks (bankKey w (bankFirst (rx w false 1)))).map (fun b => 32 / 2 ^ b.band) = some 16 ∧
       drainN (rx w false 1) % 16 ≠ 0) :=
  ⟨acting (by decide +kernel), acting (by decide +kernel), acting (by decide +kernel), acting (by decide +kernel), acting (by decide +kernel)⟩

/-- The control word of an MMA of 1 × 1 × 16 on bank 4, and operands of 32-byte rows at 64 and 128. -/
def mmaX (fbo : Nat) (pitch : W64) : FMap W64 :=
  [(1, BitVec.ofNat 64 (4 + 15 * 2 ^ 22 + fbo * 2 ^ 40)), (2, 64 + pitch * 2 ^ 32), (4, 128 + pitch * 2 ^ 32)]

/-- The machine that owns bank 4, with a format block for FP16 at 0. -/
def probeMma (fbo : Nat) (pitch : W64) : State :=
  let s := probeAcc (mmaX fbo pitch)
  { s with blocks := fmap s.blocks fun _ k => { k with sp := wrLe (wrLe [] 0 1 3) 16 1 3 } }

/-- The operands of an MMA. -/
def mmaA (w : Warp) : MatOp := matOp (rx w false 2) (rx w false 3)
/-- The second operand. -/
def mmaB (w : Warp) : MatOp := matOp (rx w false 4) (rx w false 5)
/-- The format block. -/
def mmaF (s : State) (w : Warp) (off : Nat) : FDesc :=
  fdesc (rdBytes (spCells s w.block) (16 * (mmaShape (rx w false 1)).fbo) 32) off

theorem witness_MatrixIssue :
    (let s := { probeMma 0 32 with warps := fmap (probeMma 0 32).warps fun _ w => { w with core := 1 } }
     ∃ w, actsOn s w ∧ allIssued w.a = true ∧ w.core % 2 = 1) ∧
    (∃ w, actsOn (probeMma 0 32) w ∧ w.core % 2 = 0 ∧ ¬((3 : Nat) % 2 = 0 ∧ 3 ≠ 0)) ∧
    (∃ w, actsOn (probeMma 0 4) w ∧ mmaGeometryBad (mmaShape (rx w false 1)) (mmaA w) (mmaB w) = true) ∧
    (∃ w, actsOn (probeMma (2 ^ 16) 32) w ∧ mmaGeometryBad (mmaShape (rx w false 1)) (mmaA w) (mmaB w) = false ∧
      spSize (probeMma (2 ^ 16) 32) w < 16 * (mmaShape (rx w false 1)).fbo + 32) ∧
    (∃ w, actsOn (probeMma 0 8) w ∧ mmaGeometryBad (mmaShape (rx w false 1)) (mmaA w) (mmaB w) = false ∧
      mmaFormatShort (mmaShape (rx w false 1)) (mmaA w) (mmaB w) (mmaF (probeMma 0 8) w 0) (mmaF (probeMma 0 8) w 16) = true) ∧
    (let s := probeMma 0 32
     ∃ w, actsOn s w ∧ mmaGeometryBad (mmaShape (rx w false 1)) (mmaA w) (mmaB w) = false ∧
       (mmaShape (rx w false 1)).bank + 1 ≤ 64 ∧ 16 * (mmaShape (rx w false 1)).fbo + 32 ≤ spSize s w ∧
       mmaFormatShort (mmaShape (rx w false 1)) (mmaA w) (mmaB w) (mmaF s w 0) (mmaF s w 16) = false ∧
       fblockBad (mmaF s w 0) (mmaF s w 16) = false ∧ acquireOut s 3 false = false ∧
       bytesOut s 3 false true w.block (16 * (mmaShape (rx w false 1)).fbo) 32 = false ∧
       ownsBank s w (bankKey w 4) = true ∧
       mmaBeyond (mmaShape (rx w false 1)) (mmaA w) (mmaB w) (mmaF s w 0) (mmaF s w 16) (spSize s w) = none ∧
       counter s 3 false .ac < 255) :=
  ⟨acting (by decide +kernel), acting (by decide +kernel), acting (by decide +kernel), acting (by decide +kernel), acting (by decide +kernel), acting (by decide +kernel)⟩

/-- A tile with weight 0, published. -/
def tile0 (pub : Bool) : Tile := ⟨[], 0, none, 0, pub, pub, false, false, 0, ⟨true, []⟩, ⟨true, []⟩⟩

/-- A region of one tile on site 0. -/
def region0 (st : RSt) (pub : Bool) : Region := ⟨0, 1, 1, st, false, none, [(0, tile0 pub)], [], none, [], [], []⟩

/-- The machine with region 7, granted under handle 5 to function 0, and bank 4. -/
def probeAmv (x : FMap W64) (r : Region) : State :=
  let s := probeAcc x
  { s with funcs := fmap s.funcs fun _ f => { f with grants := [(5, 7)] }, arrays := { s.arrays with regions := [(7, r)] } }

theorem witness_ArrayIssue :
    (∃ w, actsOn (probeAmv [(2, 32)] (region0 .inService true)) w ∧ ((rx w false 2).extractLsb' 0 32).toNat % 64 ≠ 0) ∧
    (let s := probeAmv [(1, 6)] (region0 .inService true)
     ∃ w, actsOn s w ∧ grantedRegion s w.fn ((rx w false 1).extractLsb' 0 32).toNat = none) ∧
    (let s := probeAmv [(1, 5 + 2 ^ 32)] (region0 .inService true)
     ∃ w, actsOn s w ∧ grantedRegion s w.fn 5 = some 7 ∧ (region0 .inService true).rs ≤ ((rx w false 1).extractLsb' 32 8).toNat) ∧
    inService (region0 .calibrating true) = false ∧
    (let s := probeAmv [(1, 5), (3, 4)] (region0 .inService true)
     ∃ w, actsOn s w ∧ (rx w false 1).extractLsb' 48 16 = 0 ∧ (rx w false 3).extractLsb' 6 58 = 0 ∧
       grantedRegion s w.fn ((rx w false 1).extractLsb' 0 32).toNat = some 7 ∧
       fget s.arrays.regions 7 = some (region0 .inService true) ∧ inService (region0 .inService true) = true ∧
       0 + 1024 ≤ spSize s w ∧ ownsBank s w (bankKey w 4) = true ∧ (tile0 true).published = true ∧
       counter s 3 false .an < 255) :=
  ⟨acting (by decide +kernel), acting (by decide +kernel), acting (by decide +kernel), by decide +kernel, acting (by decide +kernel)⟩

/-- A record of four 32-bit elements in the scratchpad. -/
def rec4 (base : Nat) : TRec := { base := base, space := 0, esize := 2, rank := 1, pod := 0, dims := [4], strides := [4] }

/-- The machine with tensor records in the slots 0 and 1. -/
def probeT (x : FMap W64) : State :=
  let s := probeX x
  { s with blocks := fmap s.blocks fun _ k => { k with recs := [(0, rec4 0), (1, rec4 64)] } }

theorem witness_TensorRecord :
    (∃ w, actsOn (probeX [(1, 0x200020)]) w ∧ allIssued w.a = true ∧ (fget probe.blocks w.block).isSome = true ∧
      (rx w false 1).toNat % 64 ≠ 0) ∧
    (let s := probeX [(1, 0x200040)]
     ∃ w, actsOn s w ∧ translate s (warpReq s w true .read none) (rx w false 1).toNat = .ok 0x200040 ∧
       trecBad (rdBytes s.mem 0x200040 64) = true) ∧
    (let s := { probeX [(1, 0x200040)] with mem := wrLe (wrLe (wrLe probe.mem 0x200048 4 0x10200) 0x200050 4 4) 0x200060 8 4 }
     ∃ w, actsOn s w ∧ translate s (warpReq s w true .read none) (rx w false 1).toNat = .ok 0x200040 ∧
       trecBad (rdBytes s.mem 0x200040 64) = false) :=
  ⟨acting (by decide +kernel), acting (by decide +kernel), acting (by decide +kernel)⟩

theorem witness_ShuttleForms :
    (∃ w, actsOn (probeT []) w ∧ allIssued w.a = true ∧ trecSlot (probeT []) w 0 = some (rec4 0) ∧ w.a.batch.length < 64 ∧
      trecSlot (probeT []) w 15 = none) ∧
    (∃ w, actsOn (probeT [(3, 5)]) w ∧ shRange (rx w false 3) (rec4 0) = none) ∧
    (∃ w, actsOn (probeT [(3, 3 + 2 ^ 32)]) w ∧ trecSlot (probeT []) w 1 = some (rec4 64) ∧
      shRange (rx w false 3) (rec4 0) = some (3, 1) ∧ recBeyond (spSize (probeT []) w) (selectOuter (rec4 0) 3 1) = none ∧
      recSize (rec4 0) = recSize (rec4 64) ∧ recCount (selectOuter (rec4 0) 3 1) = recCount (selectOuter (rec4 64) 3 1) ∧
      recBeyond (spSize (probeT []) w) (selectOuter (rec4 64) 3 1) = none ∧ recOverlap (rec4 0) (rec4 64) = false) ∧
    (∃ w, actsOn (probeT [(3, 2)]) w ∧ ((rx w false 3).extractLsb' 0 32).toNat % 4 ≠ 0) ∧
    (∃ w, actsOn (probeT [(3, 128)]) w ∧ ((rx w false 3).extractLsb' 0 32).toNat % 4 = 0 ∧ (rx w false 3).extractLsb' 32 32 = 0 ∧
      ((rx w false 3).extractLsb' 0 32).toNat + 4 * recOuter (rec4 0) ≤ spSize (probeT []) w ∧
      recInner (rec4 0) = recInner (rec4 64)) ∧
    (∃ w, actsOn (probeT []) w ∧ w.a.batch = []) ∧
    (let s := after (.shFill 0 0 0) (probeT [])
     ∃ w, actsOn s w ∧ w.a.batch ≠ [] ∧ counter s 3 false .sh < 255) :=
  ⟨acting (by decide +kernel), acting (by decide +kernel), acting (by decide +kernel), acting (by decide +kernel), acting (by decide +kernel), acting (by decide +kernel),
   acting (by decide +kernel)⟩

/-- The machine with a group of this function alone as group 1 of its partition. -/
def probeC (x : FMap W64) : State :=
  { probeT x with parts := { probe.parts with parts := [(0, { Part.reset with groups := [(1, [(0, 0)])] })] } }

theorem witness_CollectiveIssue :
    (∃ w, actsOn (probeC []) w ∧ allIssued w.a = true ∧ trecSlot (probeC []) w 2 = none) ∧
    (∃ w, actsOn (probeC []) w ∧ collBad 1 (collReq (rx w false 3)) (rec4 0) (rec4 64) = true) ∧
    (∃ w, actsOn (probeC [(3, 2)]) w ∧ collBad 0 (collReq (rx w false 3)) (rec4 0) (rec4 64) = false ∧
      groupOf (probeC []) (partOf (probeC []) w.fn) (collReq (rx w false 3)).group = none) ∧
    (∃ w, actsOn (probeC [(3, 1 + 2 ^ 32)]) w ∧ groupOf (probeC []) (partOf (probeC []) w.fn) (collReq (rx w false 3)).group =
      some [(0, 0)] ∧ 1 ≤ (collReq (rx w false 3)).rank) ∧
    (∃ w, actsOn (probeC [(3, 1)]) w ∧ collBad 0 (collReq (rx w false 3)) (rec4 0) (rec4 64) = false ∧
      groupOf (probeC []) (partOf (probeC []) w.fn) (collReq (rx w false 3)).group = some [(0, 0)] ∧
      (collReq (rx w false 3)).rank < 1 ∧ collCountBad 0 1 (recCount (rec4 64)) (recCount (rec4 0)) = false ∧
      recSize (rec4 0) = recSize (rec4 64) ∧ recBeyond (spSize (probeC []) w) (rec4 0) = none ∧
      recBeyond (spSize (probeC []) w) (rec4 64) = none ∧ recOverlap (rec4 0) (rec4 64) = false ∧ w.a.batch = [] ∧
      counter (probeC [(3, 1)]) 3 false .sh < 255 ∧ performedAll (probeC [(3, 1)]) 3 false true = true) ∧
    collCountBad 1 2 4 4 = true :=
  ⟨acting (by decide +kernel), acting (by decide +kernel), acting (by decide +kernel), acting (by decide +kernel), acting (by decide +kernel), by decide +kernel⟩

/-- The machine with a handler table whose every entry is 0x200400, with the lane base 0x200500. -/
def probeH (f : Warp → Warp) : State :=
  let s := probeWith f
  { s with funcs := fmap s.funcs fun _ f => { f with hvec := 0x200200 },
           mem := (List.range 24).foldl (fun m c => wrLe (wrLe m (0x200200 + 16 * c) 8 0x200400) (0x200208 + 16 * c) 8 0x200500)
             probe.mem }

theorem witness_RequestedTraps :
    (∃ w, actsOn (probeH id) w ∧ allIssued w.a = true ∧ w.a.priv = 0 ∧ w.b.held = none ∧ w.saving = false ∧
      handlerEntry (probeH id) w 19 = .entry 0x200400 0x200500) ∧
    (∃ w, actsOn probe w ∧ w.a.priv = 0 ∧ w.b.held = none ∧ w.saving = false ∧ handlerEntry probe w 23 = .none ∧
      w.kind = .kernel) ∧
    (∃ w, actsOn (probeSup id) w ∧ w.a.priv ≠ 0 ∧ w.kind ≠ .patrol ∧ (fget probe.funcs w.fn).isSome = true) ∧
    (Instr.trap 0, 0x134, true) ∈ [(Instr.trap 0, 0x134, true), (.brk 0, 0x170, false)] :=
  ⟨acting (by decide +kernel), acting (by decide +kernel), acting (by decide +kernel), List.mem_cons_self ..⟩

/-- What the core holds for a path in a handler. -/
def held0 (both : Bool) : Held := ⟨0xFF, 0, 0x300, false, 0, both, 0x134, [], []⟩

/-- The machine in a handler. -/
def probeHeld (both : Bool) : State := probeSup fun w => { w with a := { w.a with held := some (held0 both) } }

/-- The machine with a warp of the supervisor slot acting, and another one parked with a record in progress. -/
def probeSlot (r : Option FRec) : State :=
  let s := probeSup fun w => { w with kind := .supervisor, slot := 64 }
  { s with warps := s.warps ++ (probe.warps.map fun e => (9, { e.2 with st := .parked })),
           cores := { s.cores with sups := [(0, { table := 0x200200, base := 0, queue := [], cur := r })] } }

/-- A record about warp 9. -/
def rec9 (cause : Nat) : FRec := ⟨cause, 0, 0, 0, 0, 0, 0, 0, 0, 0, 0, 0, 0, .warp 9⟩

theorem witness_TrapReturns :
    (∃ w, actsOn (probeSup id) w ∧ w.a.priv ≠ 0 ∧ w.kind ≠ .supervisor ∧ w.a.held = none) ∧
    (∃ w, actsOn (probeHeld false) w ∧ w.a.priv ≠ 0 ∧ w.kind = .kernel ∧ w.a.held = some (held0 false) ∧
      allDone (probeHeld false) 3 false w.a = true ∧ fenceReady (probeHeld false) 3 false 3 = true) ∧
    (∃ w, actsOn (probeHeld true) w ∧ w.a.held = some (held0 true)) ∧
    (∃ w, actsOn (probeSlot none) w ∧ w.a.priv ≠ 0 ∧ w.kind = .supervisor ∧
      fget (probeSlot none).cores.sups (coreKey w) = some ⟨0x200200, 0, [], none⟩) ∧
    (∃ w, actsOn (probeSlot (some (rec9 0x60))) w ∧ allDone (probeSlot (some (rec9 0x60))) 3 false w.a = true ∧
      fenceReady (probeSlot (some (rec9 0x60))) 3 false 3 = true ∧
      (fget (probeSlot (some (rec9 0x60))).warps 9).map (fun v => (v.st, v.reload, v.kind)) = some (.parked, false, .kernel)) :=
  ⟨acting (by decide +kernel), acting (by decide +kernel), acting (by decide +kernel), acting (by decide +kernel), acting (by decide +kernel)⟩

theorem witness_PrivilegedForms :
    (∃ w, actsOn probe w ∧ w.a.priv = 0) ∧ ∃ w, actsOn (probeSup id) w ∧ w.a.priv ≠ 0 ∧ w.kind ≠ .patrol :=
  ⟨acting (by decide +kernel), acting (by decide +kernel)⟩

/-- The machine with its warp on a patrol core, at supervisor level. -/
def probePat (x : FMap W64) : State := probeSup fun w => { w with kind := .patrol, a := { w.a with x := x } }

theorem witness_SystemRegisters :
    (∃ w, actsOn probe w ∧ ∀ e ∈ Claims.sysRegs probe w w.a 0, e.1 ≠ 0x7F) ∧
    (∃ w, actsOn probe w ∧ ∃ e ∈ Claims.sysRegs probe w w.a 0, e.1 = 0x08 ∧ e.2.2.1 = false ∧ w.a.priv = 0) ∧
    (∃ w, actsOn (probeX [(1, 1)]) w ∧ ∃ e ∈ Claims.sysRegs probe w w.a 1, e.1 = 0x00 ∧ e.2.2.1 = true ∧ e.2.1 ≤ 1) ∧
    (∃ w, actsOn (probeSup id) w ∧ ∃ e ∈ Claims.sysRegs probe w w.a 31, e.1 = 0x08 ∧ w.a.priv ≠ 0 ∧ 31 < e.2.1) ∧
    (∃ w, actsOn (probeX [(2, 1)]) w ∧ (rx w false 0).toNat = 0 ∧ w.div = false) ∧
    (∃ w, actsOn probeB w ∧ w.div = true ∧ (rx w true 0).extractLsb' 0 5 ≠ w.wmode.extractLsb' 0 5) ∧
    (∃ w, actsOn (probePat [(1, 3)]) w ∧ w.kind = .patrol ∧ w.a.priv ≠ 0 ∧ (rx w false 1).toNat = 3 ∧
      clusterPresent probe w.die 3 = true) :=
  ⟨acting (by decide +kernel), acting (by decide +kernel), acting (by decide +kernel), acting (by decide +kernel), acting (by decide +kernel), acting (by decide +kernel),
   acting (by decide +kernel)⟩

/-- The machine at supervisor level with scalar registers. -/
def probeSx (x : FMap W64) : State := probeSup fun w => { w with a := { w.a with x := x } }

theorem witness_TlbInvalidates :
    (∃ w, actsOn (probeSx [(1, 2 ^ 16)]) w ∧ w.a.priv ≠ 0 ∧ allIssued w.a = true ∧ 2 ^ 16 ≤ (rx w false 1).toNat) ∧
    (let s := { probeSup fun w => { w with fn := 1, a := { w.a with x := [(1, 5)] } } with
       funcs := fput probe.funcs 1 (Func.reset false) }
     ∃ w, actsOn s w ∧ w.fn ≠ 0 ∧ (rx w false 1).toNat ≠ (warpXlate s w).vmid) ∧
    (let s := probeSx [(1, 2 ^ 16 - 1)]
     ∃ w, actsOn s w ∧ (rx w false 1).toNat < 2 ^ 16 ∧ fenceReady s 3 false 3 = true ∧
       tlbiPending s w 0 (fun v => w.fn = 0 || v = (warpXlate s w).vmid) (.asid (rx w false 1).toNat) = false) ∧
    (Instr.tlbiAsid 1 0, TlbiSel.asid 5) ∈ [(Instr.tlbiAll 0, TlbiSel.all), (.tlbiVa 2 1 0, .va 0 0), (.tlbiAsid 1 0, .asid 5),
      (.tlbiVmid 1 0, .vmid 5)] :=
  ⟨acting (by decide +kernel), acting (by decide +kernel), acting (by decide +kernel), by simp⟩

theorem witness_ContextForms :
    (∃ w, actsOn (probeSx [(1, 65)]) w ∧ w.a.priv ≠ 0 ∧ allIssued w.a = true ∧ 64 < (rx w false 1).toNat) ∧
    (∃ w, actsOn (probeSx [(1, 63)]) w ∧ (rx w false 1).toNat < 64 ∧ (slotWarp (probeSx []) (coreKey w) 63).isNone = true) ∧
    (∃ w, actsOn (probeSx [(1, 64)]) w ∧ (rx w false 1).toNat = 64 ∧ (slotWarp (probeSx []) (coreKey w) 64).isNone = true) ∧
    (let s0 := probeSx []
     let s := { s0 with warps := s0.warps ++ (probe.warps.map fun e => (9, { e.2 with slot := 1 })),
                        launches := fmap probe.launches fun _ l => { l with lrec := { l.lrec with ctxb := 0x200000 } },
                        mem := wrLe probe.mem 0x12010 8 0x10817 }
     ∃ w, actsOn s w ∧ (slotWarp s (coreKey w) 1).map (fun e => (e.1, e.2.kind, inHandler e.2)) = some (9, .kernel, false) ∧
       (∀ o ∈ s.ops, o.warp ≠ 9)) :=
  ⟨acting (by decide +kernel), acting (by decide +kernel), acting (by decide +kernel), acting (by decide +kernel)⟩

theorem witness_SystemForms :
    (∃ w, actsOn (probeSx [(1, 1023)]) w ∧ w.a.priv ≠ 0 ∧ (fget probe.funcs w.fn).isSome = true ∧ (rx w false 1).toNat ≠ 0 ∧
      (rx w false 1).toNat < 1024) ∧
    (∃ w, actsOn (probeSx [(1, 2 ^ 32 - 1)]) w ∧ 1024 ≤ (rx w false 1).toNat ∧ (rx w false 1).toNat < 2 ^ 32) ∧
    (∃ w, actsOn (probeSx [(1, 5)]) w ∧ 4 < (rx w false 1).toNat) ∧
    (∃ w, actsOn (probeSx [(1, 4), (2, 1)]) w ∧ (rx w false 1).toNat = 4 ∧ (rx w false 2).toNat ≠ 0) ∧
    (∃ w, actsOn (probeSx [(1, 2), (2, 2 ^ 17)]) w ∧ 2 ^ 17 ≤ (rx w false 2).toNat) ∧
    (∃ w, actsOn (probeSx [(1, 1)]) w ∧ (rx w false 1).toNat ≤ 1 ∧
      translate (probeSx []) (warpReq (probeSx []) w false .write none) 0 = .fault ⟨0x60, false, 0⟩) ∧
    (let s := { probeSx [(1, 1), (2, 0x200000)] with mem := wrLe probe.mem 0x12010 8 0x10817 }
     ∃ w, actsOn s w ∧ translate s (warpReq s w false .write none) (rx w false 2).toNat = .ok 0x200000) ∧
    (∃ w, actsOn (probeSx [(1, 2), (2, 63)]) w ∧ (slotWarp (probeSx []) (coreKey w) 63).isNone = true) ∧
    (let s := { probeSx [(1, 2), (2, 1)] with warps := (probeSx [(1, 2), (2, 1)]).warps ++
                  (probe.warps.map fun e => (9, { e.2 with slot := 1 })) }
     ∃ w, actsOn s w ∧ (slotWarp s (coreKey w) 1).map (·.1) = some 9) :=
  ⟨acting (by decide +kernel), acting (by decide +kernel), acting (by decide +kernel), acting (by decide +kernel), acting (by decide +kernel), acting (by decide +kernel),
   acting (by decide +kernel), acting (by decide +kernel), acting (by decide +kernel)⟩

/-- The patrol machine with cluster 0 of its die in a state. -/
def probeCl (x : FMap W64) (c : Cluster) : State :=
  { probePat x with power := { clusters := [(0, c)], patrol := [] }, blocks := [] }

theorem witness_PatrolForms :
    (∃ w, actsOn (probePat [(1, 4)]) w ∧ w.a.priv ≠ 0 ∧ w.kind = .patrol ∧ allIssued w.a = true ∧ 3 < (rx w false 1).toNat) ∧
    (∃ w, actsOn (probeCl [] Cluster.reset) w ∧ (rx w false 1).toNat ≤ 3 ∧ clusterPresent (probeCl [] Cluster.reset) w.die 0 = true ∧
      (clusterAt (probeCl [] Cluster.reset) w.die 0).st = .run ∧ (probeCl [] Cluster.reset).blocks = [] ∧
      (clusterAt (probeCl [] Cluster.reset) w.die 0).img = none) ∧
    (∀ flip ∈ [false, true], let m := retImage probe 0 0 1
     let c := { Cluster.reset with st := .quiesced, img := some (if flip then { m with fsel := 9 } else m) }
     (∃ w, actsOn (probeCl [] c) w ∧ clusterAt (probeCl [] c) w.die 0 = c ∧ c.st ≠ .run ∧ c.st ≠ .quiescing ∧ c.clkAck = true ∧
       c.railGood = true ∧ c.failed = false) ∧ c.img.map retGood = some (!flip)) ∧
    (let c := { Cluster.reset with st := .quiescing }
     ∃ w, actsOn (probeCl [] c) w ∧ (clusterAt (probeCl [] c) w.die 0).st = .quiescing) :=
  ⟨acting (by decide +kernel), acting (by decide +kernel), by
    intro f hf
    rcases List.mem_cons.1 hf with rfl | hf
    · exact ⟨acting (by decide +kernel), by decide +kernel⟩
    · obtain rfl := List.mem_singleton.1 hf
      exact ⟨acting (by decide +kernel), by decide +kernel⟩, acting (by decide +kernel)⟩

theorem witness_TagChecks :
    (∃ w, actsOn probe w ∧ w.wmode.getLsbD 4 = false) ∧ tagGroup .i32 = tagGroup .f32 ∧ tagGroup .i32 ≠ none ∧
    tagGroup .i16 ≠ tagGroup .f32 ∧ tagGroup .e8m0 = none :=
  ⟨acting (by decide +kernel), by decide +kernel⟩

/-- A lane operation on v1, v2 and v3. -/
def lop (f : Fmt) (mods : Nat) : LaneOp := ⟨some 5, .v 1, .v 2, .v 3, 0, f, 0, none, false, mods⟩

/-- The reading of a lane operation. -/
def readOk (s : State) (w : Warp) (o : LaneOp) (srcs : List (Src × Fmt)) : Bool :=
  match readSrcs s (lctx s w w.a o) o false 1 srcs with
  | .ok _ => true
  | .error _ => false

/-- Three registers of words. -/
def probe3 (t : Fmt) : State := probeV [(1, reg t 1), (2, reg t 2), (3, reg t 3)]

/-- The hypotheses of the statements on lane instructions: lanes to act on, declared and delivered sources, no armed
residue error; and no lane, and a register beyond the declared ones, and a source whose line is missing. -/
theorem witness_lane :
    (∃ w, actsOn (probe3 .b32) w ∧ (lctx (probe3 .b32) w w.a (lop .b32 0)).act ≠ 0 ∧ w.a.residue = false ∧
      srcBeyond (lctx (probe3 .b32) w w.a (lop .b32 0)) (.v 1) = false ∧
      srcWaits (probe3 .b32) (lctx (probe3 .b32) w w.a (lop .b32 0)) (.v 1) = false ∧
      dstWaits (probe3 .b32) (lctx (probe3 .b32) w w.a (lop .b32 0)) (some 5) = false ∧
      readOk (probe3 .b32) w (lop .b32 0) [(.v 1, .b32), (.v 2, .b32), (.v 3, .b32)] = true) ∧
    (let s := probeWith fun w => { w with a := w.a.withK0 0 }
     ∃ w, actsOn s w ∧ (lctx s w w.a (lop .b32 0)).act = 0 ∧ w.a.residue = false) ∧
    (let s := probeWith fun w => { w with vregs := 5 }
     ∃ w, actsOn s w ∧ (lctx s w w.a (lop .b32 0)).act ≠ 0 ∧ w.vregs ≤ 5) ∧
    (let s := probeV [(1, { reg .b32 1 with line := none })]
     ∃ w, actsOn s w ∧ srcWaits s (lctx s w w.a (lop .b32 0)) (.v 1) = true) :=
  ⟨acting (by decide +kernel), acting (by decide +kernel), acting (by decide +kernel), acting (by decide +kernel)⟩

theorem witness_LaneWords : (∃ e, e ∈ Claims.wordForms (lop .b32 0)) ∧
    ∃ w, actsOn (probe3 .i8) w ∧ readOk (probe3 .i8) w (lop .i8 0) [(.v 1, .i8), (.v 2, .i8), (.v 3, .n32)] = false :=
  ⟨⟨_, List.mem_cons_self ..⟩, acting (by decide +kernel)⟩

theorem witness_LaneIntegerResults : (∃ e, e ∈ Claims.intForms (lop .i32 0)) ∧ Claims.isIntFmt .i32 = true ∧
    Fmt.n4 ∈ [Fmt.i8, .n8, .i4, .n4] ∧
    ∃ w, actsOn (probe3 .i32) w ∧ readOk (probe3 .i32) w (lop .i32 0) [(.v 1, .i32), (.v 2, .i32)] = true :=
  ⟨⟨_, List.mem_cons_self ..⟩, rfl, by decide +kernel, acting (by decide +kernel)⟩

theorem witness_LaneFloatResults : (∃ e, e ∈ Claims.floatForms (lop .f32 0)) ∧ Claims.isIntFmt .bf16 = false ∧
    ∃ w, actsOn (probe3 .f32) w ∧ readOk (probe3 .f32) w (lop .f32 0) [(.v 1, .f32), (.v 2, .f32), (.v 3, .f32)] = true :=
  ⟨⟨_, List.mem_cons_self ..⟩, rfl, acting (by decide +kernel)⟩

theorem witness_LaneComparesAndConversions :
    (∃ w, actsOn (probe3 .f32) w ∧ lanesOf (lctx (probe3 .f32) w w.a (lop .f32 0)).act = [0, 1]) ∧ fmtOf 15 = .b32 ∧ fmtOf 0 ≠ .b32 :=
  ⟨acting (by decide +kernel), by decide +kernel⟩

/-- A scratchpad load or store at address a in both lanes. -/
def probeM (a : W32) : State := probeV [(1, reg .b32 a), (2, reg .n32 2), (3, reg .n32 3)]

/-- The checks of an access of both lanes. -/
def checks (s : State) (w : Warp) (space : Space) (size ea : Nat) : Option (Nat × W32 × Nat) × Option (Nat × W32 × Nat) :=
  (firstCause 3 (fun _ => alignCheck space ea size), firstCause 3 (fun _ => boundCheck s w space ea size))

theorem witness_LaneMemory :
    (∃ w, actsOn (probeM 2) w ∧ (checks (probeM 2) w .sp 4 2).1.isSome = true) ∧
    (∃ w, actsOn (probeM 0) w ∧ (checks (probeM 0) w .sp 4 0x100000).1 = none ∧
      (checks (probeM 0) w .sp 4 0x100000).2.isSome = true) ∧
    (∃ w, actsOn (probeM 0) w ∧ checks (probeM 0) w .sp 4 0xFFFFC = (none, none) ∧
      counter (probeM 0) 3 false (spaceCtr .sp) < 255 ∧ flagCount (probeM 0) 3 false 11 < 16 ∧ w.a.residue = false) ∧
    (∃ w, actsOn (probeRw []) w ∧ checks (probeRw []) w .dm 4 0x200000 = (none, none) ∧
      laneVa (probeRw []) w .dm 0 0x200000 = 0x200000 ∧
      translate (probeRw []) (warpReq (probeRw []) w true .write none) 0x200000 = .ok 0x200000) ∧
    (∃ w, actsOn (probeM 0) w ∧ w.wmode.getLsbD 5 = false) ∧
    (∃ w, actsOn (probeWith fun w => { w with wmode := 0x20 }) w ∧ w.wmode.getLsbD 5 = true) :=
  ⟨acting (by decide +kernel), acting (by decide +kernel), acting (by decide +kernel), acting (by decide +kernel), acting (by decide +kernel), acting (by decide +kernel)⟩

/-! ### Events -/

/-- The machine with one outstanding operation of its warp. -/
def probeOp (f : State → State) (body : OpBody) : State :=
  let s := f probe
  { s with ops := [⟨4, 3, 2, true, false, none, body⟩], next := 5,
           banks := [(0, ⟨2, 0, [], [(0, 0x3F800000)], []⟩)] }

/-- Its operation. -/
def op4 (body : OpBody) : Op := ⟨4, 3, 2, true, false, none, body⟩

/-- The matrix operation of one step on bank 0. -/
def seq0 : SeqRec := ⟨15 * 2 ^ 22, 0, 0, 0, 0, [], 1, true, false, 1, []⟩

theorem witness_BankEvents :
    (let s := probeOp id (.zero [0])
     findOp s 4 = some (op4 (.zero [0])) ∧ (fget s.warps 3).isSome = true ∧ ∀ k ∈ [0], bankReady s (op4 (.zero [0])) k = true) ∧
    (let b := OpBody.zero [0]
     let s := { probeOp id b with ops := [{ op4 (.zero [0]) with id := 2 }, op4 b] }
     findOp s 4 = some (op4 b) ∧ ∃ k ∈ [0], bankReady s (op4 b) k = false) ∧
    (let d : Drain := ⟨0, 31, 1, true, 5, 1⟩
     let s := probeOp id (.drain d 0)
     findOp s 4 = some (op4 (.drain d 0)) ∧ (fget s.banks 0).isSome = true ∧ bankReady s (op4 (.drain d 0)) 0 = true ∧
       (fget s.warps 3).map (drainMissing · d) = some false) ∧
    (let s := probeOp id (.mma seq0 [0])
     findOp s 4 = some (op4 (.mma seq0 [0])) ∧ (fget s.warps 3).map (·.st) = some .rink ∧ (fget s.banks 0).isSome = true ∧
       bankReady s (op4 (.mma seq0 [0])) 0 = true ∧ spReady s (op4 (.mma seq0 [0])) = true) ∧
    (let a : AmvOp := ⟨false, 7, 0, 0, 0x3F800000, 0, 0, []⟩
     let s := probeOp (fun s => { s with arrays := { s.arrays with regions := [(7, region0 .inService true)] } }) (.amv a 0)
     findOp s 4 = some (op4 (.amv a 0)) ∧ fget s.arrays.regions a.region = some (region0 .inService true) ∧
       (fget s.banks 0).isSome = true ∧ fget (region0 .inService true).tiles a.tile = some (tile0 true) ∧
       bankReady s (op4 (.amv a 0)) 0 = true ∧ spReady s (op4 (.amv a 0)) = true ∧
       poisonedIn (spPoison s 2) a.inOff 1024 = false) := by decide +kernel

/-- A lane memory operation of lane 0 at an address. -/
def mem0 (kind : MemKind) (space : Space) (addr : Nat) : LaneMem :=
  { kind := kind, space := space, block := 2, fmt := .n32, signed := false, dst := none, act := 1,
    accs := [⟨0, addr, 4, 0, 0, 32, 7, 0, 0⟩], left := 1, wire := 0, got := List.replicate 32 0, ord := 0, scope := .warp,
    clause := 0, vpage := [], hold := [] }

theorem witness_MemoryEvents : ∀ m ∈ [mem0 .load .sp 0x40, mem0 .store .dm 0x200000, mem0 (.atom 0) .dm 0x200000],
    let s := probeOp id (.mem m)
    findOp s 4 = some (op4 (.mem m)) ∧ m.left = m.act ∧ m.wire = 0 ∧ remoteLanes m = 0 ∧ (fget s.blocks m.block).isSome = true ∧
      (∀ a ∈ m.accs, isLocal a.addr = true) ∧ (∀ a ∈ m.accs, m.act.getLsbD a.lane = true) ∧
      (fget s.warps 3).map (dstMissing · m) = some false ∧ mayPerform s (op4 (.mem m)) m m.act = true ∧
      (fget s.warps 3).map (fun w => lanesPoisoned s (coreKey w) 3 m m.act) = some false := by decide +kernel

/-- A store that an earlier store of the same path to the same address holds back (R147, R254). -/
theorem witness_mayPerform :
    let m := mem0 .store .dm 0x200000
    let s := { probeOp id (.mem m) with ops := [{ op4 (.mem m) with id := 2 }, op4 (.mem m)] }
    findOp s 4 = some (op4 (.mem m)) ∧ mayPerform s (op4 (.mem m)) m m.act = false := by decide +kernel

/-- A shuttle operation between the records of the scratchpad. -/
def sh0 (kind : ShKind) (done : Nat) : ShOp :=
  ⟨kind, rec4 0, rec4 64, 9, 0, 4, done, false, [], 4, false, true, [], 0, false, [], [], [], [], [], []⟩

/-- The answer of a location. -/
def homeOf (x : ElemAt) : Option Nat := match x with
  | .home a => some a
  | _ => none

theorem witness_ShuttleEvents :
    (∀ k ∈ [ShKind.fill, .copy], let it := sh0 k 3
     let s := probeOp id (.batch [it])
     findOp s 4 = some (op4 (.batch [it])) ∧ it.stall = false ∧ it.done < it.total ∧ it.whole = false ∧
       (fget s.warps 3).map (fun w => (unbound s w it, homeOf (locate s w 4 it.user it.skip .write it.dst (elemVa it.dst it.done)),
         homeOf (locate s w 4 it.user it.skip .read it.src (elemVa it.src it.done)))) = some (false, some 12, some 76) ∧
       (fget s.blocks 2).isSome = true ∧ shOrdered s (op4 (.batch [it])) it = true) ∧
    (let s := probeOp id (.batch [sh0 .fill 4])
     laterBatch s (op4 (.batch [sh0 .fill 4])) = false ∧ writesOut s 4 = false ∧ (sh0 .fill 4).total ≤ (sh0 .fill 4).done) := by
  decide

/-- A collective of a group of one. -/
def coll0 (wrote : Bool) : CollOp := ⟨0, 1, 0, 0, 2, 0, true, [], false, [], [], [], wrote, rec4 0, rec4 64⟩

theorem witness_collComplete :
    (let s := probeOp id (.coll (coll0 true))
     findOp s 4 = some (op4 (.coll (coll0 true))) ∧ laterBatch s (op4 (.coll (coll0 true))) = false ∧ writesOut s 4 = false) ∧
    (let s := probeOp (fun s => { s with parts := (probeC []).parts }) (.coll (coll0 false))
     findOp s 4 = some (op4 (.coll (coll0 false))) ∧ otherPod (coll0 false).dst = none ∧
       (fget s.warps 3).map (fun w => ((members s (partOf s w.fn) (coll0 false)).map (·.o.id),
         groupOf s (partOf s w.fn) 1)) = some ([4], some [(0, 0)]) ∧ s.fabric.bobbin.length ≤ bobbinSize) := by decide +kernel

/-- The words of a fetch from this module. -/
def words? (s : State) (x : Except (Nat × XRes) (List Nat)) : Option (List Nat) := match x with
  | .ok l => some (l.map fun a => rdLe s.mem a 4)
  | .error _ => none

/-- The machine with a clause of one word at 0x200040. -/
def probeF (hdr : Nat) : State := { probeQ with
  mem := wrLe (wrLe probe.mem 0x200040 12 hdr) 0x20004C 12 0x04C0500100400C083E000000,
  warps := fmap probeQ.warps fun _ w => { w with a := { w.a with queue := w.a.queue.map fun c => { c with addr := 0x200040 } } } }

theorem witness_FetchEvents :
    (let s := probeWith fun w => { w with a := { w.a with pc := 0x600000 } }
     ∃ w, actsOn s w ∧ translate s (fetchReq s w w.a.priv) w.a.pc.toNat = .fault ⟨0x60, false, 0⟩) ∧
    (∃ w, actsOn (probeF 0) w ∧ (headClause w.a).map (fun k => (k.hdr, words? (probeF 0) (fetchAddrs (probeF 0) (fetchReq (probeF 0) w k.priv) k.addr.toNat 3))) =
      some (none, some [0, 0, 0]) ∧ (hdrFault (hdrFields 0)).isSome = true) ∧
    (let h := 0xFFC000000000000000000000
     ∃ w, actsOn (probeF h) w ∧ hdrFault (hdrFields h) = none ∧ (hdrFields h).count = 0 ∧ (headClause w.a).map (fun k =>
       (words? (probeF h) (fetchAddrs (probeF h) (fetchReq (probeF h) w k.priv) k.addr.toNat 3),
        (words? (probeF h) (fetchAddrs (probeF h) (fetchReq (probeF h) w k.priv) (k.addr.toNat + 12) 3)).isSome)) =
        some (some [0, 0, 0xFFC00000], true)) ∧
    (let s := after .clauseFetch (probeF 0xFFC000000000000000000000)
     ∃ w, actsOn s w ∧ (headClause w.a).map (fun k => (k.hdr.isSome, k.started)) = some (true, false) ∧
       ∀ f, f < 12 → flagCount s 3 false f = 0) := by
  refine ⟨acting (by decide +kernel), acting (by decide +kernel), acting (by decide +kernel), acting (by decide +kernel)⟩

/-- The machine with a second warp of core 0 in a state. -/
def probe2 (f : Warp → Warp) (st : WSt) : State := { probeWith f with
  warps := (probeWith f).warps ++ (probe.warps.map fun e => (9, { e.2 with st := st, since := 5 })) }

/-- The context of a warp is at the page of its program, which may be written. -/
def probeCtx (f : Warp → Warp) : State := { probe2 f .rink with
  launches := fmap probe.launches fun _ l => { l with lrec := { l.lrec with ctxb := 0x200000 } },
  mem := wrLe probe.mem 0x12010 8 0x10807 }

/-- The answer of a translation. -/
def ctxAddr (x : CtxRes) : Option Nat := match x with
  | .ok a => some a
  | _ => none

theorem mem_of_fget {α : Type} {m : FMap α} {k : Nat} {v : α} (h : fget m k = some v) : (k, v) ∈ m := by
  induction m with
  | nil => simp [fget] at h
  | cons e r ih =>
    obtain ⟨j, u⟩ := e
    by_cases hj : j = k
    · simp_all [fget]
    · exact List.mem_cons_of_mem _ (ih (by simpa [fget, hj] using h))

/-- What oldestOf says, over the listed warps. -/
theorem oldest_of {s : State} {core : Nat} {p : Nat → Warp → Bool} {u : Nat} (hr : rising s.warps = true)
    (h : (fget s.warps u).elim false (fun w => decide (coreKey w = core ∧ w.kind = .kernel ∧ p u w = true ∧
      ∀ e ∈ s.warps, coreKey e.2 = core → e.2.kind = .kernel → p e.1 e.2 = true → e.1 ≠ u → w.since < e.2.since)) = true) :
    ∃ w, Claims.oldestOf s core p u w := by
  cases hw : fget s.warps u with
  | none => simp [hw] at h
  | some w =>
    simp only [hw, Option.elim, decide_eq_true_eq] at h
    exact ⟨w, hr, hw, h.1, h.2.1, h.2.2.1, fun v x hv hc hk hp hn => h.2.2.2 (v, x) (mem_of_fget hv) hc hk hp hn⟩

theorem witness_RinkEvents :
    (let s := probeCtx fun w => { w with regs := [(1, { reg .f32 1 with line := none })] }
     (fget s.warps 3).map (fun w => ((fget w.regs 1).map (·.line), ctxAddr (ctxXlate s w .read (slotVa s w + 0x1000 + 128 * 1)))) =
       some (some none, some 0x201080)) ∧
    (let s := probe2 (fun w => { w with st := .ready, hot := [1], regs := [(1, { reg .f32 1 with line := none })] }) .rink
     (∃ w, Claims.oldestOf s 0 (fun _ x => x.st = .ready && !x.primed) 3 w) ∧ (fget s.warps 3).map hotMissing = some [1]) ∧
    (let s := probe2 (fun w => { w with st := .ready, primed := true }) .rink
     (∃ w, Claims.oldestOf (wakeBlocked s 0) 0 (fun _ x => x.st = .ready && x.primed) 3 w) ∧
       Claims.rinkCount (wakeBlocked s 0) 0 < 8) ∧
    (let s := probe2 (fun w => { w with st := .ready }) .rink
     (∃ w, Claims.oldestOf s 0 (fun _ x => x.st = .ready) 3 w) ∧
       ∃ w, Claims.oldestOf s 0 (fun _ x => x.st = .rink && !inHandler x) 9 w) ∧
    (fget (probeWith fun w => { w with a := { w.a with spin := ⟨0, 8, [], []⟩ } }).warps 3).map (fun w => w.a.spin.count) = some 8 ∧
    (fget (probeWith fun w => { w with saving := true, runOn := true }).warps 3).map (fun w => (w.saving, w.runOn)) =
      some (true, true) := by
  refine ⟨by decide +kernel, ⟨oldest_of (by decide +kernel) (by decide +kernel), by decide +kernel⟩, ⟨oldest_of (by decide +kernel) (by decide +kernel), by decide +kernel⟩,
    ⟨oldest_of (by decide +kernel) (by decide +kernel), oldest_of (by decide +kernel) (by decide +kernel)⟩, by decide +kernel, by decide +kernel⟩

/-- What holds of warp 3. -/
def warp3 (s : State) (p : Warp → Bool) : Bool := (fget s.warps 3).elim false p

theorem witness_WarpEvents :
    (let tr : Trap := ⟨0x60, false, false, 0, 0, 0, 0, 0, 0⟩
     let s := probeH fun w => { w with a := { w.a with pend := some tr } }
     warp3 s (fun w => decide (w.kind = .kernel ∧ w.saving = false ∧ w.a.pend = some tr ∧ w.st = .rink ∧ w.a.stopped = false ∧
       w.a.priv = 0 ∧ w.b.held = none ∧ handlerEntry s w 6 = .entry 0x200400 0x200500)) = true) ∧
    (let s := probeH fun w => { w with wdc := w.wdlim }
     warp3 s (fun w => decide (w.wdlim ≤ w.wdc ∧ w.a.pend = none ∧ w.b.pend = none ∧ w.a.live = true ∧ w.b.held = none ∧
       w.a.held = none ∧ w.a.priv = 0 ∧ handlerEntry s w 11 = .entry 0x200400 0x200500)) = true) ∧
    (let s := after .exit probe
     tablesRising s = true ∧ warp3 s (fun w => decide (w.a.wait = .exit ∧ w.b.live = false ∧ w.kind = .kernel ∧ w.st = .rink)) = true ∧
       (fget s.blocks 2).map (·.launch) = some 1 ∧ (fget s.launches 1).map (·.lbars) = some [] ∧ s.ops = [] ∧
       ∀ e ∈ s.warps, e.1 = 3) := by decide +kernel

theorem witness_SupervisorRecords :
    let s0 := probeSlot none
    let s := { s0 with cores := { s0.cores with sups := [(0, ⟨0x200200, 0, [rec9 0x60], none⟩)] }, mem := (probeH id).mem,
                       warps := fmap s0.warps fun n w => if n = 3 then { w with st := .idle } else w }
    (fget s.cores.sups 0).map (fun u => (u.queue, u.cur)) = some ([rec9 0x60], none) ∧ (supWarp s 0).2.1 = 3 ∧
      warp3 (supWarp s 0).1 (fun w => decide (w.st = .idle ∧ w.kind = .supervisor ∧ coreKey w = 0 ∧
        (supEntry (supWarp s 0).1 3 { w with fn := (rec9 0x60).fn } 0x200200 6).2 = .entry 0x200400 0x200500)) = true := by
  decide +kernel

/-- The number of bytes that a read has given. -/
def readLen (x : FarRes) : Option Nat := match x with
  | .ok _ b _ => some b.length
  | _ => none

theorem witness_Launches :
    (let s := State.reset
     (fget s.funcs 0).map (fun f => (f.clr, f.enabled, f.ready, f.lqEn)) = some (false, true, true, false)) ∧
    (2 ^ 0 < (2 + 2 ^ 32 - 0) % 2 ^ 32 ∧ (1 + 2 ^ 32 - 0) % 2 ^ 32 ≤ 2 ^ 0) ∧
    (let s := { probe with funcs := fmap probe.funcs fun _ f => { f with lqEn := true, lqTail := 1, lqbase := 0x200000 } }
     (fget s.funcs 0).map (fun f => (f.lqEn, decide (f.lqHead ≠ f.lqTail), f.seqx, decide (f.hostSeq < 2 ^ 47),
       readLen (deviceRead s 0 (f.lqbase.toNat + 192 * (f.lqHead % 2 ^ f.lqLog2)) 192))) = some (true, true, false, true, some 192)) ∧
    (let s := { probe with funcs := fmap probe.funcs fun _ f => { f with lqEn := true, lqTail := 1 } }
     readLen (deviceRead s 0 0 192) = none) := by decide +kernel

theorem witness_LaunchAdmission :
    (let s := { probe with launches := fmap probe.launches fun _ l => { l with st := .queued } }
     (fget s.launches 1).map (fun l => (l.st, admissionFault s l, prereqs s l)) = some (.queued, none, [])) ∧
    (let s := { probe with launches := fmap probe.launches fun _ l => { l with st := .queued, lrec := { l.lrec with bwarps := 65 } } }
     (fget s.launches 1).bind (admissionFault s) = some 0x140) := by decide +kernel

/-- The machine with its launch waiting for its block, no block placed, no page mapped, and one pair
enabled on its one die. -/
def probeP : State := { probe with
  mem := [], sites := [(0, { Site.full with off := (List.range 128).drop 2 })], warps := [], blocks := [], launches := fmap probe.launches fun _ l => { l with placedN := [0, 0, 0, 0] } }

theorem witness_BlockEvents :
    ((fget probeP.launches 1).isSome = true ∧ (misfit probeP 0).isNone = true ∧ (dispatchOrder probeP).map (·.1) = [1] ∧
      (fget probeP.launches 1).map (fun l => (l.lrec.gang, waitingOf probeP l 0, choosePair probeP 0 0 { r := l.lrec, image := imageNeed l.lrec, banks := [] })) =
        some (false, [.fresh 0], some 0)) ∧
    (let s := { probeCtx (fun w => { w with saving := true }) with
       blocks := fmap probe.blocks (fun _ k => { k with saving := true }), warps := (probeWith fun w => { w with saving := true }).warps }
     let s1 := (blockWarps s 2).foldl (fun t e => settleWarp t e.1) s
     (fget s.blocks 2).map (fun k => (k.saving, k.launch)) = some (true, 1) ∧ saveReady s1 2 = true ∧
       (∀ e ∈ blockWarps s1 2, writeBackWaits s1 e.1 = false)) ∧
    (let s := { probeRw [] with
       warps := [], blocks := [], launches := fmap probe.launches fun _ l => { l with endedN := 1, lrec := { l.lrec with done := 0x200040 } } }
     (fget s.launches 1).map (fun l => (l.recWritten, l.recWaits, l.st, decide (l.endedN = gridSize l.lrec),
       translate s { deviceReq s l.fn .write with d := l.xd } l.lrec.done)) =
       some (false, false, .admitted, true, .ok 0x200040)) := by
  refine ⟨by decide +kernel, by decide +kernel, by decide +kernel⟩

theorem witness_PurgeEvent : tablesRising probe = true := by decide +kernel

/-- The machine with the fault queue of the PF in its page, from 0x2000C0 on. -/
def probeFq (f : Func → Func) (cells : List Host.Cell → List Host.Cell) : State :=
  { probe with funcs := fmap probe.funcs fun _ x => f { x with lqbase := 0x200000 },
               mem := cells (wrLe probe.mem 0x12010 8 0x10807) }

theorem witness_FaultQueues :
    (∀ seq ∈ [0, 1], let s := probeFq (fun f => { f with fqWait := [rec9 0x60] }) fun m => wrLe m 0x2000C0 8 seq
     (fget s.funcs 0).map (fun f => (f.fqWait, f.fqerr, fqAddr s 0 f .write (recOffset f.fqNext))) =
       some ([rec9 0x60], false, .ok 0x2000C0) ∧ poisonedIn s.pois 0x2000C0 64 = false ∧ rdLe s.mem 0x2000C0 8 = seq) ∧
    (let s := { probe with funcs := fmap probe.funcs fun _ f => { f with fqWait := [rec9 0x60] } }
     (fget s.funcs 0).map (fun f => fqAddr s 0 f .write (recOffset f.fqNext)) = some (.fault ⟨0x60, false, 0⟩)) ∧
    (∀ resp ∈ [1, 2], let s := probeFq (fun f => { f with fqOut := [(1, { rec9 0x60 with subj := .warp 3 })] }) fun m => wrLe m 0x2000F8 8 resp
     (fget s.funcs 0).map (fun f => (f.fqOut.find? (fun e => recOffset e.1 = 64 * 0), fqAddr s 0 f .write (64 * 0))) =
       some (some (1, { rec9 0x60 with subj := .warp 3 }), .ok 0x2000C0) ∧ rdLe s.mem (0x2000C0 + 0x38) 8 = resp) ∧
    (let c : HotCtr := ⟨0, 0, 5, 1, Config.hotThreshold, 0⟩
     hotKey 0 0 5 1 ∉ State.reset.mgmt.hotTold ∧ Config.hotThreshold ≤ c.reads + c.writes ∧
       [c].find? (fun d => d.port = 0 && d.part = 0 && d.page = 5 && d.src = 1) = some c) := by decide +kernel

/-- The machine with a host request of a kind about the page of its program, to home 3. -/
def probeReq (kind target : Nat) : State := probeFq id fun m =>
  wrLe (wrLe (wrLe (wrLe m 0x2010C0 8 1) 0x2010C8 1 kind) 0x2010D0 8 0x200000) 0x2010D8 8 target

/-- A host request, as numbers. -/
def reqNums (q : Option HostReq) : Option (Nat × Nat × Nat) := q.map fun q => (q.addr, q.va, q.target)

/-- The machine with the fault queue of the PF in a second page, and host requests about the page of its program, which may
not be written, to a page of die 1: a MOVE in entry 0 and a DUP in entry 1. -/
def probeReqs (moves : List MoveJob) : State :=
  let req := fun (m : List Host.Cell) (e kind : Nat) => let a := 0x4010C0 + 64 * e
    wrLe (wrLe (wrLe (wrLe m a 8 1) (a + 8) 1 kind) (a + 16) 8 0x200000) (a + 24) 8 (2 ^ 16 + 3)
  { probe with funcs := fmap probe.funcs fun _ f => { f with lqbase := 0x400000 },
               mem := req (req (wrLe (wrLe (wrLe probe.mem 0x12010 8 0x10803) 0x12020 8 0x20807) 0x12028 8 (2 ^ 32 - 1)) 0 1) 1 2,
               mgmt := { probe.mgmt with moves := moves } }

/-- A MOVE of that page in progress. -/
def moveJob (todo : List Nat) : MoveJob :=
  { fn := 0, entry := 0, src := 0x200000, dst := 2 ^ 37 + 0x600000, todo := todo, sent := false, leaves := [(0x12010, 0)] }

/-! ## The leaves of a small machine, table by table -/

/-- The cells of a table of 8 KiB. -/
def cellsAt (m : List Host.Cell) (t : Nat) : List Host.Cell := m.filter fun c => t ≤ c.1 && c.1 < t + 8192

theorem rdByte_cellsAt (m : List Host.Cell) {t a : Nat} (h : t ≤ a) (h' : a < t + 8192) : rdByte (cellsAt m t) a = rdByte m a := by
  induction m with
  | nil => rfl
  | cons c r ih =>
    unfold rdByte fgetD cellsAt at *
    by_cases hc : c.1 = a
    · rw [List.filter_cons_of_pos (by simp; omega), fget_cons, fget_cons, if_pos hc, if_pos hc]
    · rw [fget_cons, if_neg hc, ← ih, List.filter_cons]
      split
      · rw [fget_cons, if_neg hc]
      · rfl

theorem rdLe_cellsAt (m : List Host.Cell) {t a n : Nat} (h : t ≤ a) (h' : a + n ≤ t + 8192) :
    rdLe (cellsAt m t) a n = rdLe m a n := by
  unfold rdLe
  rw [rdBytes_eq_map, rdBytes_eq_map]
  congr 1
  refine List.map_congr_left fun i hi => rdByte_cellsAt m (by omega) ?_
  have := List.mem_range.1 hi
  omega

theorem filterMap_eq {α β : Type} {l : List α} {f g : α → Option β} (h : ∀ a ∈ l, f a = g a) : l.filterMap f = l.filterMap g := by
  induction l with
  | nil => rfl
  | cons a r ih => simp only [List.filterMap_cons, h a (by simp), ih fun b hb => h b (by simp [hb])]

/-- The valid entries of a table whose cells are listed. -/
def nextsIn (m : List Host.Cell) (t : Nat) : List Nat :=
  (List.range 512).filterMap fun i => let e := rdLe m (t + 8 * i) 8
    if bitAt e 0 then some (nextTable e false) else none

/-- The valid leaves of a table whose cells are listed. -/
def leavesIn (m : List Host.Cell) (t : Nat) : List Nat :=
  (List.range 512).filterMap fun k => if bitAt (rdLe m (t + 16 * k) 8) 0 then some (t + 16 * k) else none

theorem isLocal_low {a : Nat} (h : a < 2 ^ 37) : isLocal a = true := by
  unfold isLocal homeModule physKind hostBase frameBase
  rw [if_neg (by omega), if_neg (by omega)]
  simp [fld, Config.moduleNo]; omega

/-- An entry in the low LPDDR of this module is read from the module's memory. -/
theorem tblLe_low (s : State) {a : Nat} (n : Nat) (h : a < 2 ^ 37) : tblLe s a n = rdLe s.mem a n := by
  rw [tblLe, if_pos (isLocal_low h)]

theorem away_isLocal (n : Nat) (h : n < 2 ^ 21) : isLocal (2 ^ 39 + n) = false := by
  unfold isLocal homeModule physKind hostBase frameBase
  rw [if_neg (by omega), if_neg (by omega)]
  have : ¬fld (2 ^ 39 + n) 46 39 = 0 := by unfold fld; omega
  simpa [Config.moduleNo] using this

theorem nextsIn_cellsAt (s : State) {t : Nat} (ht : t < 2 ^ 36) : nextsIn (cellsAt s.mem t) t = tableNexts s t :=
  filterMap_eq fun i hi => by
    have := List.mem_range.1 hi
    simp only [rdLe_cellsAt s.mem (t := t) (a := t + 8 * i) (n := 8) (by omega) (by omega), tblLe_low s 8 (a := t + 8 * i) (by omega)]

theorem leavesIn_cellsAt (s : State) {t : Nat} (ht : t < 2 ^ 36) : leavesIn (cellsAt s.mem t) t =
    (List.range 512).filterMap fun k => if bitAt (tblLe s (t + 16 * k) 8) 0 then some (t + 16 * k) else none :=
  filterMap_eq fun i hi => by
    have := List.mem_range.1 hi
    simp only [rdLe_cellsAt s.mem (t := t) (a := t + 16 * i) (n := 8) (by omega) (by omega),
      tblLe_low s 8 (a := t + 16 * i) (by omega)]

/-- The leaves under a root whose tables lie in the low LPDDR of this module, one table at each level. -/
theorem leavesOf_one (s : State) {r t1 t2 : Nat} {m0 m1 m2 : List Host.Cell} {l : List Nat}
    (hb : r < 2 ^ 36 ∧ t1 < 2 ^ 36 ∧ t2 < 2 ^ 36)
    (c0 : cellsAt s.mem r = m0) (c1 : cellsAt s.mem t1 = m1) (c2 : cellsAt s.mem t2 = m2)
    (h0 : nextsIn m0 r = [t1]) (h1 : nextsIn m1 t1 = [t2]) (h2 : leavesIn m2 t2 = l) : leavesOf s r = l := by
  unfold leavesOf
  simp only [← nextsIn_cellsAt s hb.1, ← nextsIn_cellsAt s hb.2.1, c0, c1, h0, h1, List.flatMap_cons, List.flatMap_nil,
    List.append_nil]
  rw [← leavesIn_cellsAt s hb.2.2, c2, h2]

theorem leaves_one (s : State) {r t1 t2 : Nat} {m0 m1 m2 : List Host.Cell} {l : List Nat} (hr : roots s = [r])
    (hb : r < 2 ^ 36 ∧ t1 < 2 ^ 36 ∧ t2 < 2 ^ 36)
    (c0 : cellsAt s.mem r = m0) (c1 : cellsAt s.mem t1 = m1) (c2 : cellsAt s.mem t2 = m2)
    (h0 : nextsIn m0 r = [t1]) (h1 : nextsIn m1 t1 = [t2]) (h2 : leavesIn m2 t2 = l) (hd : dedup l = l) : allLeaves s = l := by
  unfold allLeaves
  rw [hr]
  simp only [List.flatMap_cons, List.flatMap_nil, List.append_nil, leavesOf_one s hb c0 c1 c2 h0 h1 h2, hd]

theorem probeReqs_leavesOf : leavesOf (probeReqs []) 0x10000 = [0x12010, 0x12020] :=
  leavesOf_one (probeReqs []) (r := 0x10000) (t1 := 0x11000) (t2 := 0x12000) (by decide)
    (m0 := [(0x10000, 1), (0x10001, 16), (0x10002, 1), (0x11000, 1), (0x11001, 32), (0x11002, 1)])
    (m1 := [(0x11000, 1), (0x11001, 32), (0x11002, 1), (0x12010, 3), (0x12011, 8), (0x12012, 1), (0x12018, 255), (0x12019, 255),
      (0x1201A, 255), (0x1201B, 255), (0x12020, 7), (0x12021, 8), (0x12022, 2), (0x12028, 255), (0x12029, 255), (0x1202A, 255),
      (0x1202B, 255)])
    (m2 := [(0x12010, 3), (0x12011, 8), (0x12012, 1), (0x12018, 255), (0x12019, 255), (0x1201A, 255), (0x1201B, 255),
      (0x12020, 7), (0x12021, 8), (0x12022, 2), (0x12028, 255), (0x12029, 255), (0x1202A, 255), (0x1202B, 255)])
    (by decide +kernel) (by decide +kernel) (by decide +kernel) (by decide +kernel) (by decide +kernel) (by decide +kernel)

theorem probeReqs_leaves : allLeaves (probeReqs []) = [0x12010, 0x12020] := by
  unfold allLeaves
  rw [show roots (probeReqs []) = [0x10000] by decide +kernel]
  simp only [List.flatMap_cons, List.flatMap_nil, List.append_nil, probeReqs_leavesOf]
  decide

theorem probeReqs_naming : leavesNaming (probeReqs []) 0 0x12010 0x200000 = [0x12010] ∧
    pageWritable (probeReqs []) 0x200000 = false := by
  refine ⟨by unfold leavesNaming; rw [probeReqs_leaves]; decide +kernel, ?_⟩
  have hd : descs (probeReqs []) = [(false, ⟨0x10000, 0, 0, 0⟩)] := by decide +kernel
  have hl : leavesOf (probeReqs []) 0x10000 = [0x12010, 0x12020] := probeReqs_leavesOf
  unfold pageWritable mapsOf
  rw [hd]
  simp only [List.flatMap_cons, List.flatMap_nil, List.append_nil, Bool.false_eq_true, if_false, hl]
  decide +kernel

theorem witness_PageMoves :
    (let s := probeReqs []
     memWf s.mem = true ∧ reqNums (hostReq s 0 0 1) = some (0x4010C0, 0x200000, 2 ^ 16 + 3) ∧
       reqNums (hostReq s 0 1 2) = some (0x401100, 0x200000, 2 ^ 16 + 3) ∧ isLocal (0x401100 + 0x38) = true ∧
       reqLeaf s 0 0x200000 = some 0x12010 ∧ leafPage s 0 (readLeaf s 0x12010).kind (readLeaf s 0x12010).home = some 0x200000 ∧
       leafPage s 0 0 (2 ^ 16 + 3) = some (2 ^ 37 + 0x600000) ∧ movable (readLeaf s 0x12010) = true ∧
       isLocal (2 ^ 37 + 0x600000) = true ∧ homeDie 0x200000 ≠ homeDie (2 ^ 37 + 0x600000) ∧ reqLeaf s 0 0x600000 = none ∧
       (hostReq s 0 0 1).map (reqWaits s 0) = some false ∧ homeModule 0x200000 = homeModule (2 ^ 37 + 0x600000) ∧
       s.mgmt.copies = [] ∧ targetOk s 0 (readLeaf s 0x12010) (2 ^ 16 + 3) = true) ∧
    (leavesNaming (probeReqs []) 0 0x12010 0x200000 = [0x12010] ∧ pageWritable (probeReqs []) 0x200000 = false) ∧
    (∀ todo ∈ [[31], []], let s := probeReqs [moveJob todo]
     reqNums (hostReq s 0 0 1) = some (0x4010C0, 0x200000, 2 ^ 16 + 3) ∧ isLocal (0x200000 + 65536 * 31) = true ∧
       (s.mgmt.moves.find? (fun j => j.fn = 0 && j.entry = 0)).map (·.todo) = some todo) := by
  refine ⟨by decide +kernel, probeReqs_naming, by decide +kernel⟩

theorem witness_SharedPages :
    (let s := { probeReq 3 3 with mem := wrLe (probeReq 3 3).mem 0x12010 8 0x10827 }
     (readLeaf s 0x12010).sh = 1 ∧ movable (readLeaf s 0x12010) = true ∧ (hostReq s 0 0 3).isSome = true) ∧
    (readLeaf (probeReq 3 3) 0x12010).sh = 0 ∧ reqNums (hostReq (probeReq 3 3) 0 0 3) = some (0x2010C0, 0x200000, 3) ∧
    (let s := { probeReq 3 3 with mgmt := { probe.mgmt with evicts := [⟨0, 0, 0x12010, 0x600000, 0, []⟩] } }
     pageBusy s 0x600000 = false ∧ (hostReq s 0 0 3).isSome = true ∧ (1 : Nat) ≠ Config.moduleNo) := by decide +kernel

/-- The module with master 1 as owner. -/
def owned : State := { State.reset with mgmt := { State.reset.mgmt with own := { State.reset.mgmt.own with owner := 1 } } }

theorem witness_OwnerCommands :
    State.reset.mgmt.own.owner = 0 ∧ owned.mgmt.own.owner = 1 ∧ (after (.ownerOffer 1 2) owned).mgmt.own.offer = some 2 ∧
    (fget owned.funcs 0).isSome = true := by decide +kernel

theorem witness_Starts : (fget (probeAmv [] (region0 .inService true)).arrays.regions 7).isSome = true ∧
    (fget probe.funcs 0).isSome = true ∧ State.reset.ops = [] := by decide +kernel

theorem witness_FunctionEvents :
    (let s := { State.reset with mgmt := { State.reset.mgmt with vfEnable := true, vfBusy := [2] },
                                 funcs := fput State.reset.funcs 1 { Func.reset false with enabled := true } }
     rising s.funcs = true ∧ tablesRising s = true ∧ (fget s.funcs 1).map (·.enabled) = some true ∧ 1 ∉ s.mgmt.vfBusy ∧
       2 ∈ s.mgmt.vfBusy) ∧
    Claims.takesWrites (Func.reset true) ∧ ¬Claims.takesWrites (Func.reset false) ∧ (Func.reset true).gtStop = false ∧
    (∃ f, fget { State.reset with agenda := [.hostRead 1 0 0x100] }.funcs 0 = some f ∧ f.enabled = true ∧ f.clr = false) ∧
    (∃ f, fget { State.reset with agenda := [.hostRead 0 1 0] }.funcs 1 = some f ∧ f.enabled = false) := by
  refine ⟨by decide +kernel, ⟨rfl, rfl⟩, fun h => by simpa [Func.reset] using h.1, rfl,
    ⟨Func.reset true, rfl, rfl, rfl⟩, ⟨Func.reset false, rfl, rfl⟩⟩

/-- An AMV of tile (0, 0) of region 7. -/
def amv7 : AmvOp := ⟨false, 7, 0, 0, 0x3F800000, 0, 0, []⟩

/-- The module with an owner and region 7. -/
def ownedR (r : Region) : State := { owned with arrays := { owned.arrays with regions := [(7, r)] } }

theorem witness_ArrayCommands :
    isOwner State.reset 1 = false ∧ isOwner owned 1 = true ∧ regionBusy owned 7 = false ∧ owned.arrays.queue = [] ∧
    regionBusy (ownedR { region0 .inService true with busy := true }) 7 = true ∧
    (∀ st ∈ [RSt.inService, .offline, .empty, .damaged], (fget (ownedR (region0 st true)).arrays.regions 7).map (·.st) = some st) ∧
    amvOut? owned 7 = false ∧ handleOk (Func.reset true) 5 = true ∧ (∀ e ∈ owned.funcs, ∀ g ∈ e.2.grants, g.2 ≠ 7) ∧
    amvOut? { ownedR (region0 .inService true) with ops := [op4 (.amv amv7 0)] } 7 = true ∧
    (fget (probeAmv [] (region0 .inService true)).funcs 0).map (fun f => f.grants.find? fun g => g.2 = 7) = some (some (5, 7)) := by
  decide +kernel

/-- The request of one tile on a site, with its image and its scales at 2 MiB. -/
def req1 (site : Nat) : ProgramReq := ⟨site, 1, 1, 2 ^ 21, 2 ^ 21⟩

/-- An owner's module whose PF maps 2 MiB by one leaf. -/
def mapped (leaf : Nat) (ar : Arrays) (ops : List Op) (fab : Fabric) : State :=
  { owned with
    mem := wrLe (wrLe (wrLe (wrLe [] 0x10000 8 0x11001) 0x11000 8 0x12001) 0x12010 8 leaf) 0x12018 8 (2 ^ 32 - 1)
    funcs := fput owned.funcs 0 { Func.reset true with xd := { s1root := 0x10000, asid := 0, vmid := 0, s2root := 0 } }
    arrays := ar, ops := ops, fabric := fab }

/-- R352: a page of the host, and one that moves. -/
theorem witness_ArrayCommands_blocked :
    programBlocked (mapped (0x1081B + 0x60) owned.arrays [] owned.fabric) (req1 0) = some (2 ^ 21, none) ∧
    programBlocked (mapped (0x1081B + 0x40) owned.arrays [] owned.fabric) (req1 0) = some (2 ^ 21, some 0x12010) ∧
    isLocal 0x12010 = true := by decide +kernel

theorem rdLe_nil (a n : Nat) : rdLe [] a n = 0 := by
  induction n generalizing a with
  | zero => rfl
  | succ n ih =>
    have h := ih (a + 1)
    unfold rdLe at h ⊢
    simp only [rdBytes, leNat, h]; rfl
theorem owned_translate (va : Nat) : ∃ f, translate owned (pfReq owned) va = .fault f := by
  unfold Machine.translate tlbHit walk
  have h : owned.cores.tlb = [] := rfl
  simp only [h, List.find?_nil]
  split
  · exact ⟨_, rfl⟩
  · have e : fld va 47 39 < 512 := by unfold fld; omega
    have r : (pfReq owned).d.s1root = 0 := by decide +kernel
    have : findLeaf owned (pfReq owned) va = .error { cause := 0x60, walk := false, ipa := 0 } := by
      unfold findLeaf tableAddr
      have v : (pfReq owned).vf = false := rfl
      have z : tblLe owned (0 + 8 * fld va 47 39) 8 = 0 := by rw [tblLe_low owned 8 (by omega)]; exact rdLe_nil _ _
      have t : tblHere owned (0 + 8 * fld va 47 39) = true := by unfold tblHere; rw [isLocal_low (by omega)]; rfl
      have b : bitAt 0 0 = false := by decide
      rw [Nat.zero_add] at z t
      simp [v, r, z, t, b]
    rw [this]; exact ⟨_, rfl⟩
/-- A request of one tile that firmware cannot read. -/
theorem witness_ArrayCommands_unread : programBlocked owned ⟨0, 1, 1, 0, 0⟩ = none ∧ imageFar owned ⟨0, 1, 1, 0, 0⟩ = [] ∧
    readScales owned 0 (1023 + 1) = none := by
  have far : ∀ va n, pfFar owned va n = [] := by
    intro va n
    unfold pfFar
    rw [List.filterMap_eq_nil_iff]
    intro i _
    obtain ⟨f, h⟩ := owned_translate (n64 (va / 64 * 64 + 64 * i)).toNat
    rw [h]
  refine ⟨by decide +kernel, by simp [imageFar, far], ?_⟩
  obtain ⟨f, h⟩ := owned_translate (n64 (0 + 4 * 1023 + 0)).toNat
  have h0 : pfByte owned (0 + 4 * 1023 + 0) = none := by unfold pfByte; rw [h]
  have h4 : (List.range 4).mapM (fun i => pfByte owned (0 + 4 * 1023 + i)) = none := by
    show ([0, 1, 2, 3].mapM fun i => pfByte owned (0 + 4 * 1023 + i)) = none
    rw [List.mapM_cons, h0]; rfl
  rw [readScales, h4]
  split <;> simp_all

/-- What the page of a leaf at 2 MiB translates to. -/
theorem page_translate (s : State) (va w pa : Nat) (h1 : 2 ^ 21 ≤ va) (h2 : va < 2 ^ 22) (tlb : s.cores.tlb = [])
    (hd : (pfReq s).d = { s1root := 0x10000, asid := 0, vmid := 0, s2root := 0 }) (hp : (pfReq s).part = 0)
    (t0 : rdLe s.mem 0x10000 8 = 0x11001) (t1 : rdLe s.mem 0x11000 8 = 0x12001) (l0 : rdLe s.mem 0x12010 8 = w)
    (l1 : rdLe s.mem 0x12018 8 = 2 ^ 32 - 1)
    (ok : let l : Leaf := ⟨w, 2 ^ 32 - 1⟩; l.v = true ∧ leafBad s l false false = false ∧ l.r = true ∧ l.sh = 0 ∧ l.hs = 2 ∧
      homePage l.kind l.home = pa)
    (tag : (ptagOf s (pa + va % pageSize)).getD 0 = 0) : translate s (pfReq s) va = .ok (pa + va % pageSize) := by
  have e0 : fld va 47 39 = 0 := by unfold fld; omega
  have e1 : fld va 38 30 = 0 := by unfold fld; omega
  have e2 : fld va 29 21 = 1 := by unfold fld; omega
  have en : fld va 20 16 < 32 := by unfold fld; omega
  have v : (pfReq s).vf = false := rfl
  have here : ∀ a, a < 2 ^ 37 → tblHere s a = true := fun a h => by unfold tblHere; rw [isLocal_low h]; rfl
  have leaf : findLeaf s (pfReq s) va = .ok 0x12010 := by
    unfold findLeaf tableAddr
    simp only [v, hd, e0, e1, e2, Nat.mul_zero, Nat.add_zero, Bool.false_eq_true, if_false, tblLe_low s 8 (a := 0x10000) (by omega), t0,
      here 0x10000 (by omega)]
    rw [show nextTable 0x11001 false = 0x11000 by decide]
    simp only [tblLe_low s 8 (a := 0x11000) (by omega), t1, here 0x11000 (by omega)]
    rw [show nextTable 0x12001 false = 0x12000 by decide]
    simp only [here (0x12000 + 16 * 1) (by omega)]
    rfl
  have rl : readLeaf s 0x12010 = ⟨w, 2 ^ 32 - 1⟩ := by
    unfold readLeaf
    rw [tblLe_low s 8 (by omega), tblLe_low s 8 (by omega), l0, l1]
  have bit : ∀ n < 32, bitAt (2 ^ 32 - 1) n = true := by decide
  obtain ⟨k1, k2, k3, k4, k5, k6⟩ := ok
  have k7 : (⟨w, 2 ^ 32 - 1⟩ : Leaf).res = 2 ^ 32 - 1 := by
    show fld (2 ^ 32 - 1) 31 0 = 2 ^ 32 - 1
    decide
  unfold Machine.translate tlbHit walk
  simp only [tlb, List.find?_nil]
  rw [if_neg (by omega), leaf]
  simp only [rl]
  unfold leafChecks
  simp only [v, hp, show (pfReq s).acc = .read from rfl, show (pfReq s).user = false from rfl, show (pfReq s).kind = none from rfl,
    k1, k2, k3, k4, k5, k7, bit _ en]
  simp
  rw [show homePage (⟨w, 4294967295⟩ : Leaf).kind (⟨w, 4294967295⟩ : Leaf).home = pa from k6, if_pos tag]

/-- The machine of a request whose page lies here. -/
abbrev imageHere (ar : Arrays) (ops : List Op) : State := mapped 0x1081B ar ops owned.fabric

theorem imageHere_translate (ar : Arrays) (ops : List Op) (va : Nat) (h1 : 2 ^ 21 ≤ va) (h2 : va < 2 ^ 22) :
    translate (imageHere ar ops) (pfReq (imageHere ar ops)) va = .ok va := by
  have hv : 0x200000 + va % pageSize = va := by rw [show pageSize = 2 ^ 21 by decide]; omega
  have e := page_translate (imageHere ar ops) va 0x1081B 0x200000 h1 h2 rfl rfl rfl
    (by show rdLe (imageHere owned.arrays []).mem _ _ = _; decide +kernel)
    (by show rdLe (imageHere owned.arrays []).mem _ _ = _; decide +kernel)
    (by show rdLe (imageHere owned.arrays []).mem _ _ = _; decide +kernel)
    (by show rdLe (imageHere owned.arrays []).mem _ _ = _; decide +kernel)
    ⟨by decide, by show leafBad (imageHere owned.arrays []) _ _ _ = _; decide +kernel, by decide, by decide, by decide, by decide⟩
  rw [hv] at e
  refine e ?_
  have k : physKind va = 0 := by unfold physKind hostBase frameBase; rw [if_neg (by omega), if_neg (by omega)]
  unfold ptagOf firmwareOwned
  rw [isLocal_low (by omega), k]
  have hb : ¬ Config.firmwarePage ≤ va / pageSize % 65536 := by
    rw [show pageSize = 2 ^ 21 by decide, show Config.firmwarePage = 32768 by decide]; omega
  simp [hb]
  rfl

theorem imageHere_byte (ar : Arrays) (ops : List Op) (va : Nat) (h1 : 2 ^ 21 ≤ va) (h2 : va < 2 ^ 22) :
    pfByte (imageHere ar ops) va = some 0 := by
  have hm : (n64 va).toNat = va := by simp [n64, BitVec.toNat_ofNat]; omega
  have hz : ∀ (m : List Host.Cell), (∀ c ∈ m, c.1 < 2 ^ 21) → rdByte m va = 0 := by
    intro m hm
    induction m with
    | nil => rfl
    | cons c r ih =>
      have := hm c (by simp)
      unfold rdByte fgetD fget
      rw [if_neg (by omega)]
      exact ih fun c hc => hm c (by simp [hc])
  have cells : ∀ c ∈ (imageHere owned.arrays []).mem, c.1 < 2 ^ 21 := by decide +kernel
  unfold pfByte
  rw [hm, imageHere_translate ar ops va h1 h2]
  show (if poisonedIn [] va 1 then none else some (rdByte (imageHere owned.arrays []).mem va)) = some 0
  rw [hz _ cells]; rfl

theorem imageHere_tile (ar : Arrays) (ops : List Op) (n : Nat) (h : n ≤ 2 ^ 20) : readTile (imageHere ar ops) (2 ^ 21) n = some [] := by
  induction n with
  | zero => rfl
  | succ n ih =>
    rw [readTile, ih (by omega), imageHere_byte ar ops (2 ^ 21 + n) (by omega) (by omega)]
    rfl

theorem mapM_four (f : Nat → Option Byte) (h0 : f 0 = some 0) (h1 : f 1 = some 0) (h2 : f 2 = some 0) (h3 : f 3 = some 0) :
    [0, 1, 2, 3].mapM f = some [0, 0, 0, 0] := by simp [h0, h1, h2, h3]
theorem imageHere_scales (ar : Arrays) (ops : List Op) (n : Nat) (h : n ≤ 1024) :
    readScales (imageHere ar ops) (2 ^ 21) n = some [] := by
  induction n with
  | zero => rfl
  | succ n ih =>
    have b := fun i (hi : i < 4) => imageHere_byte ar ops (2 ^ 21 + 4 * n + i) (by omega) (by omega)
    have l : (List.range 4).mapM (fun i => pfByte (imageHere ar ops) (2 ^ 21 + 4 * n + i)) = some [0, 0, 0, 0] := by
      exact mapM_four _ (b 0 (by omega)) (b 1 (by omega)) (b 2 (by omega)) (b 3 (by omega))
    unfold readScales
    rw [ih (by omega), l]
    rfl

/-- The addresses of the granules of n bytes from 2 MiB on. -/
theorem gran_addr {i n : Nat} (hi : i < (2 ^ 21 % 64 + n + 63) / 64) (h : n ≤ 2 ^ 20) :
    (n64 (2 ^ 21 / 64 * 64 + 64 * i)).toNat = 2 ^ 21 + 64 * i ∧ 2 ^ 21 + 64 * i < 2 ^ 22 := by
  have : 64 * i < 2 ^ 21 := by omega
  exact ⟨by simp [n64, BitVec.toNat_ofNat]; omega, by omega⟩

theorem imageHere_near (ar : Arrays) (ops : List Op) (n : Nat) (h : n ≤ 2 ^ 20) : pfFar (imageHere ar ops) (2 ^ 21) n = [] := by
  unfold pfFar
  rw [List.filterMap_eq_nil_iff]
  intro i hi
  obtain ⟨hm, hl⟩ := gran_addr (List.mem_range.1 hi) h
  rw [hm, imageHere_translate ar ops _ (by omega) hl]
  show (if isLocal (2 ^ 21 + 64 * i) = true then none else some _) = none
  rw [if_pos (isLocal_low (by omega))]

theorem readImage_one (s : State) (r : ProgramReq) (l : FMap Int) (hk : r.cs = 1)
    (h : ∀ a n, a = r.image → n ≤ 2 ^ 20 → readTile s a n = some l) : readImage s r (0 + 1) = some [(0, freshTile l)] := by
  rw [readImage, h _ _ (by simp) (by simp), readImage]
  simp [hk, tileKey, fput]

theorem blocked_none (s : State) (site : Nat) {a : Nat} (h : translate s (pfReq s) (2 ^ 21) = .ok a) :
    programBlocked s (req1 site) = none := by
  have b : ∀ n, n ≤ 2 ^ 20 → 0 < n → pfBlocked s (2 ^ 21) n = none := by
    intro n hn h0
    unfold pfBlocked
    rw [show pageSize = 2 ^ 21 by decide, show (2 ^ 21 % 2 ^ 21 + n + 2 ^ 21 - 1) / 2 ^ 21 = 1 by omega,
      show List.range 1 = [0] by decide]
    simp only [firstSome]
    rw [show (n64 (2 ^ 21 / 2 ^ 21 * 2 ^ 21 + 2 ^ 21 * 0)).toNat = 2 ^ 21 by decide, h]
  unfold programBlocked
  rw [show (req1 site).image = 2 ^ 21 from rfl, show (req1 site).scale = 2 ^ 21 from rfl,
    show 2 ^ 20 * ((req1 site).rs * (req1 site).cs) = 2 ^ 20 from rfl, show 4096 * (req1 site).cs = 4096 from rfl,
    b _ (by omega) (by omega), b _ (by omega) (by omega)]

theorem imageFar_req1 (s : State) (site : Nat) : imageFar s (req1 site) = pfFar s (2 ^ 21) (2 ^ 20) ++ pfFar s (2 ^ 21) 4096 := by
  simp only [imageFar, req1, Nat.mul_one]

/-- A request of one tile that firmware can read, whatever the arrays and the operations are. -/
theorem imageHere_read (ar : Arrays) (ops : List Op) (site : Nat) :
    programBlocked (imageHere ar ops) (req1 site) = none ∧ imageFar (imageHere ar ops) (req1 site) = [] ∧
      readImage (imageHere ar ops) (req1 site) (0 + 1) = some [(0, freshTile [])] ∧
      readScales (imageHere ar ops) (2 ^ 21) 1024 = some [] := by
  have h : ∀ a n, a = 2 ^ 21 → n ≤ 2 ^ 20 → pfFar (imageHere ar ops) a n = [] := fun a n e l => e ▸ imageHere_near ar ops n l
  refine ⟨?_, ?_, readImage_one _ _ _ rfl fun _ n e l => e ▸ imageHere_tile ar ops n l, imageHere_scales ar ops 1024 (by omega)⟩
  · exact blocked_none _ site (imageHere_translate ar ops _ (by omega) (by omega))
  · rw [imageFar_req1, h _ _ rfl (by omega), h _ _ rfl (by omega)]
    rfl

/-- Every entry of the journal of a site open. -/
def fullJournal : List JEntry := List.replicate 16 { seq := 1, region := 9, phase := 1, stage := 0, digest := [] }

/-- R367, R368: a new region, one that AMVs still use, a full journal, and a site without tiles. -/
theorem witness_ArrayCommands_image :
    (∃ st, mayProgram (imageHere owned.arrays []) (req1 0) = some st) ∧
    1 ≤ (freeTiles (imageHere owned.arrays []) 0 7).length ∧ fget (imageHere owned.arrays []).arrays.regions 7 = none ∧
    (let s := imageHere { owned.arrays with regions := [(7, region0 .inService true)] } [op4 (.amv amv7 0)]
     amvOut? s 7 = true ∧ 1 ≤ (freeTiles s 0 7).length ∧ (mayProgram s (req1 0)).isSome = true) ∧
    (let s := imageHere { owned.arrays with journal := [(0, fullJournal)] } []
     1 ≤ (freeTiles s 0 7).length ∧ journalFull s 0 = true ∧ mayProgram s (req1 0) = none) ∧
    (freeTiles (imageHere owned.arrays []) 9 7).length < 1 ∧ isOwner (imageHere owned.arrays []) 1 = true := by
  refine ⟨⟨fwStage 0, by decide +kernel⟩, by decide +kernel, by decide +kernel, by decide +kernel, by decide +kernel,
    by decide +kernel, by decide +kernel⟩

/-- A route to module 1. -/
def routed1 : FMap Route := [(1, ⟨2, true, 3, true, 0, false, 0, []⟩)]

/-- What has come of every granule that a request needs. -/
def arrived (gs : List Nat) (pois : Bool) : List FarGran :=
  gs.map fun g => { warp := Reader.device.uid, gran := g, data := List.replicate 64 0, pois := pois, lost := false }

/-- The machine of a request whose page lies on module 1, with a route there or without, and with what has come. -/
abbrev imageAway (routes : FMap Route) (inbox : List FarGran) : State :=
  mapped (2 ^ 34 + 0x080B) owned.arrays [] { owned.fabric with routes := routes, inbox := inbox }

theorem imageAway_translate (routes : FMap Route) (inbox : List FarGran) (va : Nat) (h1 : 2 ^ 21 ≤ va) (h2 : va < 2 ^ 22) :
    translate (imageAway routes inbox) (pfReq (imageAway routes inbox)) va = .ok (2 ^ 39 + va % pageSize) := by
  refine page_translate (imageAway routes inbox) va (2 ^ 34 + 0x080B) (2 ^ 39) h1 h2 rfl rfl rfl
    (by show rdLe (imageAway [] []).mem _ _ = _; decide +kernel) (by show rdLe (imageAway [] []).mem _ _ = _; decide +kernel)
    (by show rdLe (imageAway [] []).mem _ _ = _; decide +kernel) (by show rdLe (imageAway [] []).mem _ _ = _; decide +kernel)
    ⟨by decide, by show leafBad (imageAway [] []) _ _ _ = _; decide +kernel, by decide, by decide, by decide, by decide⟩ ?_
  have hl : isLocal (2 ^ 39 + va % pageSize) = false := away_isLocal _ (by rw [show pageSize = 2 ^ 21 by decide]; omega)
  unfold ptagOf
  rw [hl]
  split <;> rfl

theorem pfFar_away (routes : FMap Route) (inbox : List FarGran) (n : Nat) (h : n ≤ 2 ^ 20) :
    pfFar (imageAway routes inbox) (2 ^ 21) n = (List.range ((2 ^ 21 % 64 + n + 63) / 64)).map fun i => 2 ^ 39 + 64 * i := by
  unfold pfFar
  rw [← List.filterMap_eq_map]
  refine filterMap_eq fun i hi => ?_
  obtain ⟨e, hl⟩ := gran_addr (List.mem_range.1 hi) h
  have hv : (2 ^ 21 + 64 * i) % pageSize = 64 * i := by rw [show pageSize = 2 ^ 21 by decide]; omega
  rw [e, imageAway_translate routes inbox _ (by omega) hl, hv]
  simp only [away_isLocal (64 * i) (by omega), Bool.false_eq_true, if_false, Function.comp_apply]

theorem imageAway_far (routes : FMap Route) (inbox : List FarGran) :
    2 ^ 39 ∈ imageFar (imageAway routes inbox) (req1 0) ∧
    ∀ x ∈ imageFar (imageAway routes inbox) (req1 0), ∃ n, n < 2 ^ 21 ∧ n % 64 = 0 ∧ x = 2 ^ 39 + n := by
  rw [imageFar_req1, pfFar_away _ _ _ (by omega), pfFar_away _ _ _ (by omega)]
  refine ⟨List.mem_append_left _ (List.mem_map.2 ⟨0, List.mem_range.2 (by omega), by omega⟩), ?_⟩
  intro x hx
  simp only [List.mem_append, List.mem_map, List.mem_range] at hx
  rcases hx with ⟨i, hi, rfl⟩ | ⟨i, hi, rfl⟩ <;> exact ⟨64 * i, by omega, by omega, rfl⟩

/-- The granules that a request needs. -/
def reqGrans (s : State) : List Nat :=
  ((imageFar s (req1 0)).map fun a => (a, 64)).flatMap fun e => if isLocal e.1 then [] else granulesOf e.1 e.2

theorem reqGrans_away (routes : FMap Route) (inbox : List FarGran) :
    2 ^ 33 ∈ reqGrans (imageAway routes inbox) ∧ ∀ g ∈ reqGrans (imageAway routes inbox), homeModule (64 * g) = 1 := by
  obtain ⟨h1, h2⟩ := imageAway_far routes inbox
  refine ⟨List.mem_flatMap.2 ⟨(2 ^ 39, 64), List.mem_map.2 ⟨_, h1, rfl⟩, by decide +kernel⟩, ?_⟩
  intro g hg
  obtain ⟨e, he, hg⟩ := List.mem_flatMap.1 hg
  obtain ⟨x, hx, rfl⟩ := List.mem_map.1 he
  obtain ⟨n, hn, hn', rfl⟩ := h2 x hx
  simp only [away_isLocal n hn, Bool.false_eq_true, if_false] at hg
  have : g = (2 ^ 39 + n) / 64 := by
    unfold granulesOf granule at hg
    rw [if_neg (by omega), show (2 ^ 39 + n + 64 - 1) / 64 - (2 ^ 39 + n) / 64 + 1 = 1 by omega] at hg
    simpa using hg
  subst this
  unfold homeModule physKind hostBase frameBase
  rw [if_neg (by omega), if_neg (by omega)]
  show fld _ 46 39 = 1
  unfold fld; omega

/-- What firmware's reads of a request's image give. -/
abbrev imageGot (s : State) : FarRes := farPieces s 0 0 Reader.device ((imageFar s (req1 0)).map fun a => (a, 64))

theorem imageGot_eq (s : State) : imageGot s =
    if (reqGrans s).isEmpty then .ok s (((imageFar s (req1 0)).map fun a => (a, 64)).flatMap fun e => rdBytes s.mem (readerAt s Reader.device e.1) e.2)
      (((imageFar s (req1 0)).map fun a => (a, 64)).any fun e => poisonedIn s.pois (readerAt s Reader.device e.1) e.2)
    else if (reqGrans s).any fun g => (farHas s Reader.device.uid g).any (·.lost) then .lost (farUsed s Reader.device.uid (reqGrans s))
    else if (reqGrans s).all fun g => (farHas s Reader.device.uid g).isSome then
      imageGot s
    else if (reqGrans s).any fun g => (routeNow s (partOf s 0) (homeModule (64 * g))).isNone
      then .lost (farUsed s Reader.device.uid (reqGrans s))
    else .wait ((reqGrans s).foldl (farAsk 0 0 Reader.device) s) := by
  conv => lhs; unfold imageGot farPieces
  show (if (reqGrans s).isEmpty then _ else if ((reqGrans s).any fun g => (farHas s Reader.device.uid g).any (·.lost)) then _
    else if ((reqGrans s).all fun g => (farHas s Reader.device.uid g).isSome) then _ else _) = _
  split
  · rfl
  split
  · rfl
  split
  · rename_i h0 h1 h2
    unfold imageGot farPieces
    show _ = (if (reqGrans s).isEmpty then _ else if ((reqGrans s).any fun g => (farHas s Reader.device.uid g).any (·.lost)) then _
      else if ((reqGrans s).all fun g => (farHas s Reader.device.uid g).isSome) then _ else _)
    rw [if_neg h0, if_neg h1, if_pos h2]
  · rfl

/-- R408: the READs of a request's image wait while they are out, and are lost without a route. -/
theorem witness_ArrayCommands_far :
    (∀ rt inbox, imageFar (imageAway rt inbox) (req1 0) ≠ [] ∧ programBlocked (imageAway rt inbox) (req1 0) = none) ∧
    (∃ t, imageGot (imageAway routed1 []) = .wait t) ∧ ∃ t, imageGot (imageAway [] []) = .lost t := by
  have e : ∀ rt, (reqGrans (imageAway rt [])).isEmpty = false := fun rt => by
    have := (reqGrans_away rt []).1
    cases h : reqGrans (imageAway rt []) with
    | nil => rw [h] at this; cases this
    | cons _ _ => rfl
  have none' : ∀ rt g, farHas (imageAway rt []) Reader.device.uid g = none := fun rt g => rfl
  have any0 : ∀ rt, (reqGrans (imageAway rt [])).any (fun g => (farHas (imageAway rt []) Reader.device.uid g).any (·.lost)) = false :=
    fun rt => List.any_eq_false.2 fun g _ => by simp [none']
  have all0 : ∀ rt, (reqGrans (imageAway rt [])).all (fun g => (farHas (imageAway rt []) Reader.device.uid g).isSome) = false :=
    fun rt => by
      have := (reqGrans_away rt []).1
      exact List.all_eq_false.2 ⟨_, this, by simp [none']⟩
  refine ⟨fun rt inbox => ⟨fun h => ?_, blocked_none _ _ (imageAway_translate rt inbox _ (by omega) (by omega))⟩, ⟨(reqGrans (imageAway routed1 [])).foldl (farAsk 0 0 Reader.device) (imageAway routed1 []), ?_⟩,
    ⟨farUsed (imageAway [] []) Reader.device.uid (reqGrans (imageAway [] [])), ?_⟩⟩
  · have := (imageAway_far rt inbox).1
    rw [h] at this; cases this
  · rw [imageGot_eq, e, any0, all0]
    have : (reqGrans (imageAway routed1 [])).any (fun g => (routeNow (imageAway routed1 []) (partOf (imageAway routed1 []) 0)
        (homeModule (64 * g))).isNone) = false := List.any_eq_false.2 fun g hg => by
      rw [(reqGrans_away routed1 []).2 g hg]; decide +kernel
    rw [this]; rfl
  · rw [imageGot_eq, e, any0, all0]
    have : (reqGrans (imageAway [] [])).any (fun g => (routeNow (imageAway [] []) (partOf (imageAway [] []) 0)
        (homeModule (64 * g))).isNone) = true := List.any_eq_true.2 ⟨_, (reqGrans_away [] []).1, by decide +kernel⟩
    rw [this]; rfl

theorem arrived_has {gs : List Nat} {pois : Bool} {g : Nat} (h : g ∈ gs) :
    ∃ f, (arrived gs pois).find? (fun f => f.warp = Reader.device.uid && f.gran = g) = some f ∧ f.lost = false ∧ f.pois = pois := by
  have : ((arrived gs pois).find? (fun f => f.warp = Reader.device.uid && f.gran = g)).isSome = true := by
    rw [List.find?_isSome]
    exact ⟨_, List.mem_map.2 ⟨g, h, rfl⟩, by simp⟩
  obtain ⟨f, hf⟩ := Option.isSome_iff_exists.1 this
  obtain ⟨k, -, rfl⟩ := List.mem_map.1 (List.mem_of_find?_eq_some hf)
  exact ⟨_, hf, rfl, rfl⟩

/-- R152: they have come, whole and poisoned. -/
theorem witness_ArrayCommands_come (pois : Bool) : ∃ gs, reqGrans (imageAway routed1 (arrived gs pois)) = gs ∧
    ∃ t b, imageGot (imageAway routed1 (arrived gs pois)) = .ok t b pois := by
  have same : ∀ inbox, reqGrans (imageAway routed1 inbox) = reqGrans (imageAway routed1 []) := by
    intro inbox
    unfold reqGrans
    simp only [imageFar_req1, pfFar_away routed1 _ _ (show 2 ^ 20 ≤ 2 ^ 20 by omega), pfFar_away routed1 _ _ (show 4096 ≤ 2 ^ 20 by omega)]
  refine ⟨reqGrans (imageAway routed1 []), same _, ?_⟩
  generalize hgs : reqGrans (imageAway routed1 []) = gs at same
  have has : ∀ g ∈ gs, ∃ f, farHas (imageAway routed1 (arrived gs pois)) Reader.device.uid g = some f ∧ f.lost = false ∧ f.pois = pois :=
    fun g h => arrived_has h
  have mem : 2 ^ 33 ∈ gs := hgs ▸ (reqGrans_away routed1 []).1
  unfold imageGot farPieces
  have h0 : ¬(reqGrans (imageAway routed1 (arrived gs pois))).isEmpty = true := by
    rw [same]; intro h; rw [List.isEmpty_iff.1 h] at mem; cases mem
  have h1 : ¬(reqGrans (imageAway routed1 (arrived gs pois))).any
      (fun g => (farHas (imageAway routed1 (arrived gs pois)) Reader.device.uid g).any (·.lost)) = true := by
    rw [same, Bool.not_eq_true]
    exact List.any_eq_false.2 fun g hg => by obtain ⟨f, hf, hl, -⟩ := has g hg; simp [hf, hl]
  have h2 : (reqGrans (imageAway routed1 (arrived gs pois))).all
      (fun g => (farHas (imageAway routed1 (arrived gs pois)) Reader.device.uid g).isSome) = true := by
    rw [same]
    exact List.all_eq_true.2 fun g hg => by obtain ⟨f, hf, -⟩ := has g hg; simp [hf]
  show ∃ t b, (if (reqGrans (imageAway routed1 (arrived gs pois))).isEmpty then _
    else if ((reqGrans (imageAway routed1 (arrived gs pois))).any
      fun g => (farHas (imageAway routed1 (arrived gs pois)) Reader.device.uid g).any (·.lost)) then _
    else if ((reqGrans (imageAway routed1 (arrived gs pois))).all
      fun g => (farHas (imageAway routed1 (arrived gs pois)) Reader.device.uid g).isSome) then _ else _) = FarRes.ok t b pois
  rw [if_neg h0, if_neg h1, if_pos h2]
  refine ⟨_, _, congrArg _ ?_⟩
  have far : ∀ e ∈ (imageFar (imageAway routed1 (arrived gs pois)) (req1 0)).map (fun a => (a, 64)),
      isLocal e.1 = false ∧ ∀ g ∈ granulesOf e.1 e.2, g ∈ gs := by
    intro e he
    obtain ⟨x, hx, rfl⟩ := List.mem_map.1 he
    obtain ⟨n, hn, -, rfl⟩ := (imageAway_far routed1 _).2 x hx
    refine ⟨away_isLocal n hn, fun g hg => ?_⟩
    rw [← same (arrived gs pois)]
    exact List.mem_flatMap.2 ⟨_, he, by rw [away_isLocal n hn, if_neg (by decide)]; exact hg⟩
  cases pois with
  | false =>
    refine List.any_eq_false.2 fun e he => ?_
    obtain ⟨l, hg⟩ := far e he
    rw [l, if_neg (by decide), Bool.not_eq_true]
    exact List.any_eq_false.2 fun g h => by obtain ⟨f, hf, -, hp⟩ := has g (hg g h); simp [hf, hp]
  | true =>
    refine List.any_eq_true.2 ⟨_, List.mem_map.2 ⟨_, (imageAway_far routed1 _).1, rfl⟩, ?_⟩
    rw [show isLocal (2 ^ 39, 64).1 = false from away_isLocal 0 (by omega), if_neg (by decide)]
    refine List.any_eq_true.2 ⟨2 ^ 33, by decide, ?_⟩
    obtain ⟨f, hf, -, hp⟩ := has _ mem
    rw [hf]
    exact hp

/-- The machine with region 7 whose one tile has its digest stored. -/
def digested (r : Region) (x : Tile) : State :=
  let s := ownedR { r with tiles := [(0, x)] }
  { s with arrays := { s.arrays with digests := [(65536 * 7 + 0, tileDigest x)] } }

theorem witness_ArrayEvents :
    (let r := { region0 .programming true with staged := some ⟨0, 1, 1, 0, 0⟩, image := [(0, tile0 false)] }
     (fget (ownedR r).arrays.regions 7).map (fun r => (r.st, r.staged)) = some (.programming, some ⟨0, 1, 1, 0, 0⟩) ∧
       rising r.image = true) ∧
    (∀ st ∈ [RSt.verifying, .calibrating, .inService], let r := region0 st true
      r.dests = [] ∧ fget r.tiles 0 = some (tile0 true) ∧ copyInUse (ownedR r) 7 0 1 = false ∧ r.leaving = none ∧
      rising r.tiles = true ∧ dueElse (ownedR r) r (tile0 true) = false ∧ sigsPoisoned (ownedR r) r (tile0 true) = true) ∧
    (let s := { ownedR (region0 .inService true) with ops := [op4 (.amv { amv7 with copy := 1 } 0)] }
     copyInUse s 7 0 1 = true ∧ (tile0 true).cur = 0 ∧ amvOut? s 7 = true) ∧
    copyKeeps ⟨false, [(0, 0x7FC00000)]⟩ = false ∧ (tile0 false).published = false ∧
    (let r := { region0 .inService true with leaving := some .offline }
     amvOut? (ownedR r) 7 = false ∧ (fget (ownedR r).arrays.regions 7).map (·.leaving) = some (some .offline)) := by decide +kernel

/-- R371: a tile whose cells have its digest, and one whose writing was cut short. -/
theorem witness_ArrayEvents_verify :
    (let x := tile0 true
     x.tries < 4 ∧ fgetD [] (digested (region0 .verifying true) x).arrays.digests (65536 * 7 + 0) = tileDigest x) ∧
    (let x := { tile0 true with tries := 4 }
     3 ≤ x.tries ∧ ¬x.tries < 4) ∧ (tile0 true).tries < 3 :=
  ⟨⟨by decide, rfl⟩, by decide, by decide⟩

/-- R372: codes that stand within the limit under the nominal copy, and codes that do not. -/
theorem witness_ArrayEvents_codes :
    codesClose (tile0 true) nominalCopy 0 false 0 (fun p => if p = 7 then 4 else 0) = true ∧
    codesClose (tile0 true) nominalCopy 0 false 0 (fun _ => 1023) = false := by decide +kernel

/-- R284, R368: a region that leaves service to be programmed, with a place for the staged copy and without. -/
theorem witness_ArrayEvents_leaves :
    (let s := ownedR { region0 .inService true with leaving := some .programming, staged := some (req1 0) }
     amvOut? s 7 = false ∧ (mayProgram s (req1 0)).isSome = true) ∧
    (let s := ownedR { region0 .inService true with leaving := some .programming, staged := some (req1 0) }
     mayProgram { s with arrays := { s.arrays with journal := [(0, fullJournal)] } } (req1 0) = none) := by decide +kernel

theorem witness_partition_made : ∀ s ∈ [after (.create 1 5) owned],
    fget s.parts.parts 5 = some Part.reset ∧ ownsAny s 5 = false ∧ clusterPresent s 0 3 = true ∧
      foreignHomed s 5 0 3 = false ∧ (clusterAt s 0 3).st = .run ∧ s.blocks = [] := by decide +kernel

theorem witness_PartitionCommands :
    fget owned.parts.parts 5 = none ∧ fget owned.parts.parts 0 = some Part.reset ∧ ownsAny owned 0 = true ∧
    owned.fabric.bobbin = [] ∧ pageMapped owned (5 * 2 ^ 21) = false ∧ pooled owned (5 * 2 ^ 21) = false ∧
    pooled { owned with mem := wrLe (wrLe owned.mem 0x1000 4 1) 0x1040 8 (0x50000 * 2 ^ 16), mgmt := { owned.mgmt with pools := [0x1000] } }
      (0x50000 * 2 ^ 21) = true ∧
    pagePresent owned 5 = true ∧ pagePresent owned (2 ^ 26) = false ∧ fget Part.reset.groups 1 = none ∧
    (1 : Nat) ≠ Config.podNo := by decide +kernel

theorem witness_SnapshotsAndRemaps :
    (fget State.reset.funcs 0).map (·.part) = some 0 ∧ fget State.reset.parts.parts 0 = some Part.reset ∧
    owned.mgmt.remaps = [] ∧ (∃ e ∈ owned.bind, e.2 = 3) ∧ diesBusy owned [0, 1] = false ∧
    siteRefuses owned 0 1 = false ∧ siteRefuses owned 0 9 = true ∧ fget owned.bind 0 = some 0 ∧ fget owned.bind 1 = some 1 := by
  decide +kernel

/-- The module with cluster 0 of site 0 as given. -/
def clusterIs (c : Cluster) : State := { State.reset with power := { State.reset.power with clusters := [(0, c)] } }

theorem witness_PowerEvents :
    clusterPresent State.reset 0 0 = true ∧ clusterPresent State.reset 0 4 = false ∧ (clusterAt State.reset 0 0).clkReq = true ∧ (clusterAt State.reset 0 0).st = .run ∧
    (∀ st ∈ [CSt.quiescing, .quiesced, .clkoff, .railoff, .railup], (clusterAt (clusterIs { Cluster.reset with st := st }) 0 0).st = st) ∧
    clusterBusy State.reset 0 0 = false ∧ clusterEngines State.reset 0 0 = false ∧ harvested State.reset 0 = false := by decide +kernel

theorem witness_ReliabilityEvents :
    warp3 (probeH id) (fun w => decide (w.a.live = true ∧ w.a.stopped = false ∧ w.st = .rink ∧ w.a.priv = 0 ∧ w.b.held = none ∧
      w.saving = false ∧ handlerEntry (probeH id) w 2 = .entry 0x200400 0x200500)) = true ∧
    ((fgetD [] [(0, [(⟨3, false, 0, 0, 1, []⟩ : Replay)])] 0)[0]? = some ⟨3, false, 0, 0, 1, []⟩) ∧
    (isLocal 0x200000 = true ∧ isLocal (2 ^ 48) = true) ∧ pairOn State.reset 3 63 = true ∧
    (fget State.reset.funcs 0).isSome = true ∧ pairBlocks State.reset 0 0 = [] := by decide +kernel

/-- What a scrub reads outside memory, and a pair past the threshold of evacuation. -/
theorem witness_ReliabilityEvents_scrub :
    (let s := putWarp State.reset 1 { newSupervisor 0 with regs := [(5, { tag := .b32, line := none, pois := 0, slot := 0 })] }
     (fget s.warps 1).bind (fun w => fget w.regs 5) = some { tag := .b32, line := none, pois := 0, slot := 0 }) ∧
    (let s := { State.reset with blocks := [(4, probeBlock 1 4)] }
     (fget s.blocks 4).map (·.spPois) = some []) ∧
    (let s := { State.reset with mgmt := { State.reset.mgmt with errors := [(0, [(0, 65)])] } }
     pairErrors s 0 0 = 65 ∧ Config.evacThreshold < 65) ∧ pairErrors State.reset 0 0 ≤ Config.evacThreshold := by decide +kernel

/-- A request of module 1 to this module. -/
def packet (kind cls : Nat) : Packet := sealPacket ⟨kind, cls, 2, 0, 0, 1, 0, 0, 0, 0, 0, 0x200000, 0, 1, List.replicate 64 0, 0, 2⟩

/-- The module with a route to module 1. -/
def routed : State := { State.reset with fabric := { State.reset.fabric with routes := [(1, ⟨2, true, 3, true, 0, false, 0, []⟩)] } }

theorem witness_FabricHome :
    (routeNow routed 0 1).isSome = true ∧
    (∀ e ∈ [(1, 0), (2, 1), (3, 0), (8, 1)], forHere (packet e.1 e.2) e.1 e.2 = true) ∧ forHere (packet 1 1) 1 0 = false ∧
    seqDist (windowFor routed (packet 1 0)).base 1023 < 1024 ∧ ¬seqDist (windowFor routed (packet 1 0)).base 1024 < 1024 ∧
    fget (windowFor routed (packet 1 0)).ents 0 = none ∧ maskWords 3 = [0, 1] ∧
    routed.pois.contains (0x200000 / 64) = false ∧ { routed with pois := [0x8000] }.pois.contains (0x200000 / 64) = true := by
  decide +kernel

theorem witness_FabricSource :
    (let m := { mem0 .load .dm (2 ^ 29) with left := 0, wire := 1 }
     let e : BEntry := ⟨{ packet 1 0 with src := 0, dst := 1 }, true, false, 0, some 4, 3, false, 1⟩
     let s := { probeOp id (.mem m) with fabric := { routed.fabric with bobbin := [e] } }
     let p := { packet 4 2 with src := 1, dst := 0 }
     findOp s 4 = some (op4 (.mem m)) ∧ (fget s.warps 3).map (dstMissing · m) = some false ∧ forSource p 4 = true ∧
       answered s p [1] = some e ∧ e.op = some 4 ∧ p.pois = 0) ∧
    (rising routed.fabric.routes = true ∧ 2 ∉ routed.fabric.down ∧ routed.fabric.bobbin = [] ∧
      (fget routed.funcs 0).isSome = true) := by decide +kernel

theorem witness_StepRunsDecoded :
    (let s := State.reset.withFetchWord 32 0x02000000
     s.agenda = [.issue 3 false] ∧ warp3 s (fun w => decide (w.a.pend = none ∧ mayIssue s w w.a = true ∧
       translate { s with cur := ⟨3, false⟩ } (fetchReq s w w.a.priv) w.a.pc.toNat = .ok 0x200000)) = true ∧
       decodeTableWord 32 (rdLe s.mem 0x200000 4) = some .nop) ∧
    (let s := State.reset.withFetchWord 96 0x04C0500100400C083E000000
     s.agenda = [.lane 3 false] ∧ warp3 s (fun w => mayLane s w w.a && (headClause w.a).any fun c => c.hdr.isSome && c.started) = true) ∧
    isEvent .coldStart = true := by decide +kernel

/-! ### Further clauses of the same statements -/

/-- The machine whose page of two gigabytes' distance lies on die 1, with scalar registers. -/
def probeFar (x : FMap W64) : State := { probeX x with mem := wrLe probe.mem 0x12010 8 (2 ^ 32 + 0x10817) }

/-- The machine with one operation of POISON of the range of x1 and x2, all of whose packets have been acknowledged. -/
def probePois (x : FMap W64) (va n : Nat) (todo : List Nat) : State :=
  { probeRw x with ops := [⟨4, 3, 2, true, false, none, .pois va n todo []⟩] }

theorem witness_PoisonRange :
    (let s := { probeRw [(1, 0x200000), (2, 64)] with ops := probeSt.ops }
     ∃ w, actsOn s w ∧ allIssued w.a = true ∧ poisOp s 3 false 0x200000 64 = none ∧
       ¬(acquireOut s 3 false = false ∧ fenceReady s 3 false 3 = true)) ∧
    (let s := probeRw [(1, 0x200000), (2, 64)]
     ∃ w, actsOn s w ∧ poisOp s 3 false 0x200000 64 = none ∧ acquireOut s 3 false = false ∧ fenceReady s 3 false 3 = true ∧
       ((([0x200000] : List Nat).zip ((partPieces 0x200000 64).map (·.2))).flatMap fun e => granulesOf e.1 e.2).all
         (fun g => isLocal (64 * g)) = true) ∧
    (let s := probePois [(1, 0x200000), (2, 64)] 0x200000 64 []
     ∃ w, actsOn s w ∧ (poisOp s 3 false 0x200000 64).map (·.body) = some (.pois 0x200000 64 [] []) ∧
       (xlateAll s (warpReq s w true .write none) [0x200000]).toOption = some [0x200000]) :=
  ⟨acting (by decide +kernel), acting (by decide +kernel), acting (by decide +kernel)⟩

theorem probeFar_leaves : allLeaves (probeFar [(1, 0x200000), (2, 64)]) = [0x12010] :=
  leaves_one (probeFar [(1, 0x200000), (2, 64)]) (r := 0x10000) (t1 := 0x11000) (t2 := 0x12000) (by decide +kernel) (by decide)
    (m0 := [(0x10000, 1), (0x10001, 16), (0x10002, 1), (0x11000, 1), (0x11001, 32), (0x11002, 1)])
    (m1 := [(0x11000, 1), (0x11001, 32), (0x11002, 1), (0x12010, 23), (0x12011, 8), (0x12012, 1), (0x12014, 1), (0x12018, 255), (0x12019, 255), (0x1201A, 255), (0x1201B, 255)])
    (m2 := [(0x12010, 23), (0x12011, 8), (0x12012, 1), (0x12014, 1), (0x12018, 255), (0x12019, 255), (0x1201A, 255), (0x1201B, 255)])
    (by decide +kernel) (by decide +kernel) (by decide +kernel) (by decide +kernel) (by decide +kernel) (by decide +kernel)
    (by decide +kernel)

theorem probeFar_freePage : freePage (probeFar [(1, 0x200000), (2, 64)]) 0 0 = some 0x400000 := by
  unfold freePage
  rw [probeFar_leaves]
  decide +kernel

theorem probeFar_claims : let s := probeFar [(1, 0x200000), (2, 64)]
    ∃ w, actsOn s w ∧ allIssued w.a = true ∧ (∀ c ∈ [Ctr.gs, .dm, .fb], counter s 3 false c = 0) ∧
      rangePages 0x200000 64 = [0x200000] ∧ claimHome s w true 0x200000 = some (2 ^ 37 + 0x200000) ∧
      engineTouches s (2 ^ 37 + 0x200000) = false ∧ partOf s w.fn = 0 ∧ w.die = 0 ∧ memWf s.mem = true ∧
      (xlateAll s (warpReq s w true .read none) [0x200000]).toOption = some [2 ^ 37 + 0x200000] :=
  acting (by decide +kernel)

theorem witness_ClaimPages :
    (let s := probeFar [(1, 0x200000), (2, 64)]
     ∃ w, actsOn s w ∧ allIssued w.a = true ∧ (∀ c ∈ [Ctr.gs, .dm, .fb], counter s 3 false c = 0) ∧
       rangePages 0x200000 64 = [0x200000] ∧ claimHome s w true 0x200000 = some (2 ^ 37 + 0x200000) ∧
       engineTouches s (2 ^ 37 + 0x200000) = false ∧ freePage s (partOf s w.fn) w.die = some 0x400000 ∧ memWf s.mem = true ∧
       (xlateAll s (warpReq s w true .read none) [0x200000]).toOption = some [2 ^ 37 + 0x200000]) ∧
    (let f := probeFar [(1, 0x200000), (2, 64)]
     let t : TRec := { base := 0x200000, space := 2, esize := 2, rank := 1, pod := 0, dims := [1], strides := [4] }
     let i : ShOp := ⟨.fill, t, t, 9, 0, 1, 0, false, [], 4, false, true, [], 0, false, [], [], [], [], [], []⟩
     let s := { f with ops := [⟨4, 3, 2, true, false, none, .batch [i]⟩] }
     ∃ w, actsOn s w ∧ claimHome s w true 0x200000 = some (2 ^ 37 + 0x200000) ∧ engineTouches s (2 ^ 37 + 0x200000) = true) ∧
    (let s := probeRw [(1, 0x200000), (2, 64)]
     ∃ w, actsOn s w ∧ claimHome s w true 0x200000 = none) ∧
    ∃ w, actsOn (probeX [(1, 0x200000)]) w ∧ (rx w false 2).toNat = 0 :=
  ⟨by
    obtain ⟨w, ha, h1, h2, h3, h4, h5, hp, hd, h6⟩ := probeFar_claims
    refine ⟨w, ha, h1, h2, h3, h4, h5, ?_, h6⟩
    rw [hp, hd]
    exact probeFar_freePage, acting (by decide +kernel), acting (by decide +kernel),
    acting (by decide +kernel)⟩

theorem witness_LaunchRead :
    let s := probeX [(1, 0x200040)]
    ∃ w, actsOn s w ∧ acquireOut s 3 false = false ∧ (launchAddrs s w 1).map (fun l => l.map fun x =>
      (isLocal x, poisonedIn s.pois x 64)) = some [(true, false), (true, false), (true, false)] :=
  acting (by decide +kernel)

theorem witness_matrixWaits :
    let s := { probeMma 4 32 with ops := probeSt.ops }
    ∃ w, actsOn s w ∧ w.core % 2 = 0 ∧ (acquireOut s 3 false = true ∨ bytesOut s 3 false true w.block (16 * 4) 32 = true) :=
  acting (by decide +kernel)

theorem witness_TensorRecordReads :
    (let s := probeX [(1, 2 ^ 48)]
     ∃ w, actsOn s w ∧ acquireOut s 3 false = false ∧ (rx w false 1).toNat % 64 = 0 ∧ 2 ^ 48 ≤ (rx w false 1).toNat ∧
       w.kind ≠ .supervisor) ∧
    (let s := probeX [(1, 0x200040)]
     ∃ w, actsOn s w ∧ bytesOut s 3 false false 0 0x200040 64 = false ∧ isLocal 0x200040 = true ∧
       poisonedIn s.pois 0x200040 64 = false) ∧
    (let s := { probeX [(1, 0x200040)] with pois := [granule 0x200040] }
     ∃ w, actsOn s w ∧ translate s (warpReq s w true .read none) (rx w false 1).toNat = .ok 0x200040 ∧
       bytesOut s 3 false false 0 0x200040 64 = false ∧ poisonedIn s.pois 0x200040 64 = true) ∧
    (let s := { probeX [(1, 0x200040)] with ops := [op4 (.mem (mem0 .store .dm 0x200040))] }
     ∃ w, actsOn s w ∧ acquireOut s 3 false = false ∧ bytesOut s 3 false false 0 0x200040 64 = true) :=
  ⟨acting (by decide +kernel), acting (by decide +kernel), acting (by decide +kernel), acting (by decide +kernel)⟩

theorem witness_trapsFree :
    (∃ w, actsOn (probeH id) w ∧ trapWaits w false = false) ∧ ∃ w, actsOn (probeSup id) w ∧ trapsHeld w = false :=
  ⟨acting (by decide +kernel), acting (by decide +kernel)⟩

theorem witness_tlbDrained :
    let s := probeSx [(1, 2 ^ 16 - 1)]
    (∃ w, actsOn s w ∧ tlbiPackets s w 0 (fun v => w.fn = 0 || v = (warpXlate s w).vmid) (.asid (rx w false 1).toNat) = false) ∧
    (let s2 := { s with ops := probeSt.ops }
     ∃ w, actsOn s2 w ∧ fenceReady s2 3 false 3 = false) :=
  ⟨acting (by decide +kernel), acting (by decide +kernel)⟩

/-- The machine at supervisor level with a context of its warp at the page of its program, which may be written. -/
def probeOwn (f : State → State) (x : FMap W64) : State := f { probeSx x with
  launches := fmap probe.launches fun _ l => { l with lrec := { l.lrec with ctxb := 0x200000 } },
  mem := wrLe probe.mem 0x12010 8 0x10807 }

/-- Whether a context write ends. -/
def wrote (x : Except (Nat × CtxRes) State) : Bool := match x with
  | .ok _ => true
  | .error _ => false

theorem witness_ContextOwn :
    (let s := probeOwn id []
     ∃ w, actsOn s w ∧ w.a.priv ≠ 0 ∧ (rx w false 1).toNat ≤ 64 ∧ (ctxTarget s (coreKey w) (rx w false 1).toNat).map (·.2.1) = some 3 ∧
       (ctxTarget s (coreKey w) (rx w false 1).toNat).map (fun e => decide (e.1 = s)) = some true ∧
       allDone s 3 false w.a = true ∧ wrote (writeContext s 3 (selfImage w false)) = true) ∧
    (let s := { probeOwn id [] with warps := fmap (probeOwn id []).warps fun n w => match (fget probeQ.warps n) with
       | some v => { w with a := { w.a with queue := v.a.queue } }
       | none => w }
     ∃ w, actsOn s w ∧ allDone s 3 false w.a = false) ∧
    (let s0 := probeOwn id [(1, 1)]
     let s := { s0 with warps := s0.warps ++ (probe.warps.map fun e => (9, { e.2 with slot := 1 })) }
     ∃ w, actsOn s w ∧ (ctxTarget s (coreKey w) (rx w false 1).toNat).map (fun e => (e.2.1, liveQueue e.1 9 false e.2.2.a,
       liveQueue e.1 9 true e.2.2.b, wrote (writeContext e.1 9 e.2.2))) = some (9, [], [], true) ∧ (∀ o ∈ s.ops, o.warp ≠ 9)) ∧
    (let s := probeOwn id [(1, 64)]
     ∃ w, actsOn s w ∧ (ctxTarget s (coreKey w) (rx w false 1).toNat).map (fun e => decide (e.2.1 ≠ 3)) = some true) :=
  ⟨acting (by decide +kernel), acting (by decide +kernel), acting (by decide +kernel), acting (by decide +kernel)⟩

/-- A page that lies on module 1: its LPDDR home field has the module from bit 20 on. -/
def probeAway (x : FMap W64) : State := { probeSx x with mem := wrLe probe.mem 0x12010 8 (2 ^ 34 + 0x10817) }

theorem witness_InjectAway :
    (let s := { probeAway [(1, 1), (2, 0x200000)] with ops := [⟨4, 3, 2, true, false, none, .pois 0x200000 1 [] []⟩] }
     ∃ w, actsOn s w ∧ w.a.priv ≠ 0 ∧ (rx w false 1).toNat = 1 ∧ (match translate s (warpReq s w false .write none) 0x200000 with
       | .ok m => !isLocal m
       | _ => false) = true ∧ (poisOp s 3 false 0x200000 1).map (·.body) = some (.pois 0x200000 1 [] [])) ∧
    (let s := { probeSx [(1, 1), (2, 0x200000)] with mem := wrLe probe.mem 0x12010 8 0x10817 }
     ∃ w, actsOn s w ∧ isLocal 0x200000 = true) :=
  ⟨acting (by decide +kernel), acting (by decide +kernel)⟩

theorem witness_bankReads :
    (let a : AmvOp := ⟨false, 7, 0, 0, 0x3F800000, 0, 0, []⟩
     copyPoisoned probe (region0 .inService true) (tile0 true) a = false) ∧
    (let m := mem0 (.atom 0) .dm 0x200000
     ∀ l ∈ List.range 32, m.act.getLsbD l = true → ∃ a ∈ m.accs, a.lane = l) ∧
    (let s := probeOp id (.coll (coll0 true))
     collWritten s (op4 (.coll (coll0 true))) (coll0 true) = true) ∧
    (∀ x ∈ [0x200040, 0x20004C, 0x201080, 0x200000], isLocal x = true) := by decide +kernel

/-- The machine with a ready warp 3 behind the seven and eight rink warps of core 0. -/
def probeFull (n : Nat) (f : Warp → Warp) : State := { probeWith fun w => f { w with st := .ready } with
  warps := (probeWith fun w => f { w with st := .ready }).warps ++ (List.range n).flatMap fun i =>
    probe.warps.map fun e => (9 + i, { e.2 with st := .rink, since := 5 + i }) }

theorem witness_AgeExchange :
    (∀ n ∈ [7, 8], let s := probeFull n fun w => { w with primed := true }
     (∃ w, Claims.oldestOf s 0 (fun _ x => x.st = .ready) 3 w) ∧
       (∃ w, Claims.oldestOf s 0 (fun _ x => x.st = .rink && !inHandler x) 9 w) ∧ Claims.rinkCount s 0 = n ∧
       (fget s.warps 3).map (·.primed) = some true) ∧
    (let s := probeFull 8 id
     (∃ w, Claims.oldestOf s 0 (fun _ x => x.st = .ready) 3 w) ∧ Claims.rinkCount s 0 = 8 ∧
       (fget s.warps 3).map (fun w => (w.primed, hotMissing w)) = some (false, [])) ∧
    (let s := probeFull 8 fun w => { w with hot := [1], regs := [(1, { reg .f32 1 with line := none })] }
     (∃ w, Claims.oldestOf s 0 (fun _ x => x.st = .ready) 3 w) ∧
       (fget s.warps 3).map (fun w => (w.primed, hotMissing w)) = some (false, [1])) := by
  refine ⟨?_, ⟨oldest_of (by decide +kernel) (by decide +kernel), by decide +kernel⟩,
    ⟨oldest_of (by decide +kernel) (by decide +kernel), by decide +kernel⟩⟩
  intro n hn
  rcases List.mem_cons.1 hn with rfl | hn
  · exact ⟨oldest_of (by decide +kernel) (by decide +kernel), oldest_of (by decide +kernel) (by decide +kernel), by decide +kernel⟩
  · obtain rfl := List.mem_singleton.1 hn
    exact ⟨oldest_of (by decide +kernel) (by decide +kernel), oldest_of (by decide +kernel) (by decide +kernel), by decide +kernel⟩

theorem witness_trapsTaken :
    warp3 (probeH id) (fun w => decide (w.reload = false ∧ w.a.more = [] ∧ w.b.pend = none ∧ w.b.more = [])) = true ∧
    warp3 (probeHeld false) (fun w => decide (w.a.held ≠ none ∧ w.a.priv ≠ 0 ∧ w.reload = false)) = true := by decide +kernel

theorem witness_ringWaits :
    let s := { probe with funcs := fmap probe.funcs (fun _ f => { f with lqEn := true, lqTail := 1, lqbase := 0x200000 }),
                          mem := wrLe probe.mem 0x12010 8 (2 ^ 34 + 0x10817), fabric := routed.fabric }
    (fget s.funcs 0).map (fun f => (f.clr, f.lqEn, f.seqx, match deviceRead s 0 (f.lqbase.toNat + 0) 192 with
      | .ok _ _ _ => 0 | .wait _ => 1 | .lost _ => 2)) = some (false, true, false, 1) ∧
    (fget { s with funcs := fmap s.funcs fun _ f => { f with hostSeq := 2 ^ 47 - 1 } }.funcs 0).map (fun f =>
      decide (2 ^ 47 ≤ f.hostSeq + 1)) = some true := by decide +kernel

theorem witness_purgeCauses : causeAssigned 0x150 = true ∧ causeAssigned 0x1FF = false := by decide +kernel

/-- The machine with its launch waiting, and the context slot of its block in the page of its program. -/
def probeSlotPage : State := { probeP with
  launches := fmap probeP.launches (fun _ l => { l with lrec := { l.lrec with ctxb := 0x200000 } }),
  mem := wrLe probe.mem 0x12010 8 0x10807 }

theorem probeSlotPage_leaves : allLeaves probeSlotPage = [0x12010] :=
  leaves_one probeSlotPage (r := 0x10000) (t1 := 0x11000) (t2 := 0x12000) (by decide +kernel) (by decide)
    (m0 := [(0x10000, 1), (0x10001, 16), (0x10002, 1), (0x11000, 1), (0x11001, 32), (0x11002, 1)])
    (m1 := [(0x11000, 1), (0x11001, 32), (0x11002, 1), (0x12010, 7), (0x12011, 8), (0x12012, 1), (0x12018, 255), (0x12019, 255), (0x1201A, 255), (0x1201B, 255)])
    (m2 := [(0x12010, 7), (0x12011, 8), (0x12012, 1), (0x12018, 255), (0x12019, 255), (0x1201A, 255), (0x1201B, 255)])
    (by decide +kernel) (by decide +kernel) (by decide +kernel) (by decide +kernel) (by decide +kernel) (by decide +kernel)
    (by decide +kernel)

theorem probeSlotPage_homed : homedPairs probeSlotPage 0 = [] := by
  unfold homedPairs
  rw [probeSlotPage_leaves]
  decide +kernel

theorem witness_creationHeader :
    (fget probeSlotPage.launches 1).map (fun l => (l.lrec.bwarps, choosePair probeSlotPage 0 0 { r := l.lrec, image := imageNeed l.lrec, banks := [] })) =
      some (1, some 0) ∧
    ∀ v : Warp, v.kind = .kernel → v.launch = 1 → v.fn = 0 → v.die = 0 → v.core = 0 →
      ctxXlate probeSlotPage v .write 0x200000 = .ok 0x200000 := by
  refine ⟨?_, ?_⟩
  · unfold choosePair
    rw [probeSlotPage_homed]
    decide +kernel
  intro v h1 h2 h3 h4 h5
  simp only [ctxXlate, warpReq, warpXlate, warpLaunch, coreKey, h1, h2, h3, h4, h5]
  decide +kernel

theorem witness_faultQueueHome :
    (let s := probeFq (fun f => { f with fqWait := [rec9 0x60] }) id
     isLocal 0x2000C0 = true ∧ poisonedIn [granule 0x2000C0] 0x2000C0 64 = true ∧ poisonedIn s.pois 0x2000C0 64 = false) ∧
    fget (probeFq (fun f => { f with fqOut := [(1, { rec9 0x60 with subj := .warp 77 })] }) id).warps 77 = none := by decide +kernel

theorem witness_FunctionMasters :
    isOwner owned 1 = true ∧ isOwner owned 2 = false ∧ State.reset.mgmt.vfEnable = false ∧
    (fget State.reset.funcs 63).map (fun f => (f.enabled, f.gtStop)) = some (false, false) ∧
    ((fget State.reset.funcs 0).map fun f => decide ((f.gtLast.toNat : Int) ≤ f.newOff.toInt + (State.reset.mgmt.tb * f.newMul.toNat / 2 ^ 32 : Nat))) = some true ∧
    ({ Func.reset true with newOff := -1 }.newOff.toInt + (0 : Nat) < ((Func.reset true).gtLast.toNat : Int)) := by decide +kernel

theorem witness_publishedCopy : copyKeeps ⟨true, []⟩ = true ∧ copyKeeps ⟨true, [(1, 0)]⟩ = false ∧
    copyInUse (ownedR (region0 .inService true)) 7 0 1 = false ∧ (tile0 true).cur ≤ 1 := by decide +kernel

theorem witness_clusterQuiesced :
    let s := { clusterIs { Cluster.reset with st := .quiescing } with
      warps := probe.warps.map fun e => (9, { e.2 with kind := .supervisor, st := .idle, block := 0 }) }
    clusterBusy s 0 0 = false ∧ clusterEngines s 0 0 = false ∧ rising s.warps = true ∧
      (fget s.warps 9).map (fun w => (w.kind, w.die, w.core / 32)) = some (.supervisor, 0, 0) := by decide +kernel

theorem witness_stepHyps :
    let s := State.reset.withFetchWord 32 0x02000000
    warp3 s (fun w => hasContext w && !watchdogDue w && w.a.pend.isNone) = true ∧ isLocal 0x200000 = true := by decide +kernel

theorem witness_residueTrap : warp3 (probeH id) (fun w => decide (w.a.pend = none ∧ w.reload = false)) = true := by decide +kernel

theorem witness_movingPage :
    let s := { probeReq 3 3 with mem := wrLe (probeReq 3 3).mem 0x12010 8 0x10867 }
    (readLeaf s 0x12010).sh = 3 ∧ reqLeaf s 0 0x200000 = some 0x12010 := by decide +kernel

/-! ### Open batches, barriers of two paths, and reads that are held -/

/-- The machine with an open batch and n closed ones, its warp changed. -/
def probeBatch (n : Nat) (f : Warp → Warp) : State :=
  let s := after (.shFill 0 0 0) (probeT [])
  { s with warps := fmap s.warps fun _ w => f w, ops := (List.range n).map fun i => ⟨10 + i, 3, 2, true, false, none, .batch []⟩ }

theorem witness_openBatches :
    (∀ n ∈ [0, 255], let s := probeBatch n fun w => { w with a := { w.a with k := [(0, 3), (1, 1)] } }
     warp3 s (fun w => decide (w.a.batch ≠ [] ∧ w.div = false ∧ taken s w ≠ 0 ∧ taken s w ≠ w.a.k0 ∧ allDone s 3 false w.a = true ∧
       counter s 3 false .sh = n)) = true) ∧
    (∀ n ∈ [0, 255], ∀ wt ∈ [PWait.none, .join],
     let s := probeBatch n fun w => { w with div := true, recon := w.a.pc, b := { w.a with batch := [], wait := wt } }
     warp3 s (fun w => decide (w.a.batch ≠ [] ∧ w.div = true ∧ w.recon = w.a.pc ∧ w.dstack = [] ∧ w.a.wait = .none ∧ w.b.live = true ∧
       w.b.wait = wt ∧ allDone s 3 false w.a = true ∧ counter s 3 false .sh = n)) = true) ∧
    (∀ b ∈ [false, true], let s := probeBatch 0 fun w =>
       { w with div := true, recon := w.a.pc, a := if b then { w.a with batch := [] } else w.a, b := { w.a with live := false } }
     warp3 s (fun w => decide (w.b.live = false ∧ w.div = true ∧ w.recon = w.a.pc ∧ (w.a.batch = [] ↔ b = true))) = true) ∧
    (∀ n ∈ [0, 255], let s := probeBatch n id
     warp3 s (fun w => decide (w.a.batch ≠ [] ∧ w.dstack = [] ∧ w.div = false ∧ w.a.wait = .none ∧ allIssued w.a = true ∧
       allDone s 3 false w.a = true ∧ counter s 3 false .sh = n)) = true) := by decide +kernel

theorem witness_counterFull :
    let s := probeBatch 3 fun w => { w with a := { w.a with x := [(0, 2), (1, 300)] } }
    warp3 s (fun w => decide (w.a.batch ≠ [] ∧ ¬255 ≤ (rx w false 0).toNat ∧ 255 ≤ (rx w false 1).toNat)) = true ∧
    warp3 (probeBatch 3 fun w => { w with a := { w.a with batch := [] } }) (fun w => decide (w.a.batch = [] ∧
      ¬255 ≤ (rx w false 0).toNat ∧ (rx w false 0).toNat < counter (probeBatch 3 id) 3 false .sh)) = true := by decide +kernel

/-- The machine at a barrier whose earlier store has not been performed. -/
def probeStA (f : Warp → Warp) : State := { probeSt with warps := fmap probeSt.warps fun _ w => f { w with a := { w.a with x := [(5, 2)] } } }

theorem witness_BarrierChecks :
    (∃ w, actsOn (probeF 0) w ∧ allIssued w.a = false) ∧
    (∃ w, actsOn probe w ∧ allIssued w.a = true ∧ (warpLaunch probe w).map (·.lrec.nbar) = some 32) ∧
    (∃ w, actsOn (probeKD [entry false]) w ∧ allIssued w.a = true ∧ w.dstack = [entry false]) ∧
    (∃ w, atBarrier (probeStA id) w false 3 ∧ fenceReady (probeStA id) 3 false 1 = false ∧ (rx w false 5).toNat = 2) ∧
    (let s := { probeG id with ops := probeSt.ops }
     ∃ w, atBarrier s w true 5 ∧ fenceReady s 3 false 5 = false) :=
  ⟨acting (by decide +kernel), acting (by decide +kernel), acting (by decide +kernel), at_barrier (by decide +kernel),
   at_barrier (by decide +kernel)⟩

/-- R159: the only warp of an instance, and one that another has not joined. -/
theorem witness_levelMet :
    ((∀ e ∈ (probeG id).warps, e.1 = 3) ∧ (fget (probeG id).launches 1).map (fun l => warp3 (probeG id) fun w =>
      unplacedIn l w 5 = 0) = some true) ∧
    (let s := { probe2 id .rink with launches := (probeG id).launches }
     ∃ x, fget s.warps 9 = some x ∧ (x.launch = 1 ∧ x.kind = .kernel ∧ x.st ≠ .ended ∧ pendOf x true 5 = false) ∧
       levelInst x 5 = levelInst x 2) :=
  ⟨by decide +kernel, (fget (probe2 id .rink).warps 9).get (by decide +kernel), by simp, by decide +kernel, by decide +kernel⟩

/-- The machine diverged, path B as given, in a gang launch, with x5. -/
def probePair (x5 : W64) (b : Warp → Path → Path) (f : Warp → Warp) : State :=
  probeG fun w => f { w with div := true, recon := 0x200040, a := { w.a with x := [(5, x5)] }, b := b w w.a }

/-- A path that has arrived at the barrier of the other one, with a count. -/
def pairAt (pc : W64) (m : Nat) (_ : Warp) (p : Path) : Path := { p with wait := .bar pc m }

/-- What BarrierPairs takes of the acting path. -/
def paired (s : State) (w : Warp) : Bool :=
  rising s.warps && allIssued w.a && w.dstack.isEmpty && w.div && (warpLaunch s w).any (fun l => l.lrec.gang && 3 < l.lrec.nbar) &&
    w.a.synced.isNone && !waitsPhase w false 3 && !waitsPhase w true 5 && (fget s.blocks w.block).isSome && w.b.live

/-- R157: what stands at the other path: it has ended, or reached JOIN; it goes on; it waits at another barrier, with another
count, or at the same one. -/
theorem witness_BarrierPairs :
    warp3 (probePair 2 (fun _ p => { p with live := false }) id) (fun w => !w.b.live && w.div) = true ∧
    (∀ b ∈ [fun (_ : Warp) (p : Path) => { p with wait := PWait.join }, fun _ p => p, pairAt 0x300000 2, pairAt 0x200000 7,
        pairAt 0x200000 2, pairAt 0x200000 0],
      let s := probePair 2 b id
      warp3 s (paired s) = true) ∧
    (let s := probePair 2 (pairAt 0x200000 2) id
     warp3 s (fun w => decide (w.a.pc = 0x200000 ∧ (rx w false 5).toNat = 2 ∧ fenceReady s 3 false 1 = true ∧ fenceReady s 3 true 1 = true ∧
       fenceReady s 3 false 5 = true ∧ fenceReady s 3 true 5 = true ∧ pendOf w false 3 = false ∧ pendOf w true 5 = false ∧
       (barState s w ⟨false, 3, true, false, 2⟩).arrived = 0)) = true) ∧
    (let s := { probePair 2 (pairAt 0x200000 2) id with ops := probeSt.ops }
     warp3 s (fun w => paired s w && !fenceReady s 3 false 1 && !fenceReady s 3 false 5) = true) ∧
    (let s := probePair 2 (pairAt 0x200000 2) fun w => { w with pend := 8, lpend := 15 }
     warp3 s (fun w => paired s w && decide (pendOf w false 3 = true ∧ pendOf w true 5 = true ∧
       aphOf w false 3 = (barState s w ⟨false, 3, true, false, 2⟩).phase ∧
       aphOf w true 5 = (barState s w ⟨true, 5, true, false, 0⟩).phase)) = true) ∧
    (let s := probePair 2 (pairAt 0x200000 0) fun w => { w with pend := 8, aph := 8, lpend := 15, laph := 15 }
     warp3 s (fun w => paired s w && decide (pendOf w false 3 = true ∧ aphOf w false 3 ≠ (barState s w ⟨false, 3, false, true, 0⟩).phase ∧
       aphOf w true 5 ≠ (barState s w ⟨true, 5, false, true, 0⟩).phase)) = true) ∧
    (let s := { probePair 2 (pairAt 0x200000 2) id with blocks := (probeA 3).blocks }
     warp3 s (fun w => paired s w && decide ((barState s w ⟨false, 3, true, false, 2⟩).arrived ≠ 0 ∧
       (barState s w ⟨false, 3, true, false, 2⟩).expect ≠ 7)) = true) := by decide +kernel

theorem witness_BarrierBroken : ∀ recon ∈ [0x200000, 0x200040],
    let s := probePair 2 (pairAt 0x300000 2) fun w => { w with recon := BitVec.ofNat 64 recon }
    warp3 s (fun w => decide (w.div = true ∧ w.dstack = [] ∧ allDone s 3 false w.a = true ∧ w.a.batch = [] ∧ w.a.wait = .none ∧
      w.b.live = true ∧ w.b.wait = .bar 0x300000 2 ∧ w.recon.toNat = recon)) = true := by decide +kernel

/-- R117: a record that has been read waits for room; one that a store or a poisoned granule holds up. -/
theorem witness_DeviceLaunch_reads :
    (let s := probePath fun p => { p with read := some (List.replicate 192 0), x := [(1, 0x200040)] }
     ∃ w, actsOn s w ∧ (rx w false 1).toNat % 64 = 0 ∧ w.a.read.isSome = true ∧ devQueued s w.fn < 1024) ∧
    (let s := { probePath (fun p => { p with read := some (List.replicate 192 0), x := [(1, 0x200040)] }) with
       launches := probe.launches ++ ((fget probe.launches 1).elim [] fun l =>
         (List.range 1024).map fun n => (n + 2, { l with dev := true, st := .queued })) }
     ∃ w, actsOn s w ∧ w.a.read.isSome = true ∧ ¬devQueued s w.fn < 1024) ∧
    (let s := { probeX [(1, 0x200040)] with ops := [⟨4, 3, 2, true, false, none, .batch []⟩, op4 (.mem (mem0 .store .dm 0x200040))] }
     ∃ w, actsOn s w ∧ w.a.read = none ∧ performedAll s 3 false false = false) ∧
    (let s := { probeX [(1, 0x200040)] with ops := [⟨4, 3, 2, true, false, none, .mem { mem0 .store .dm 0x200040 with left := 0, wire := 1 }⟩] }
     ∃ w, actsOn s w ∧ launchAddrs s w 1 = some [0x200040, 0x200080, 0x2000C0] ∧ bytesOut s 3 false false w.block 0x200040 64 = true) ∧
    (let s := { probeX [(1, 0x200040)] with pois := [granule 0x200040] }
     ∃ w, actsOn s w ∧ launchAddrs s w 1 = some [0x200040, 0x200080, 0x2000C0] ∧ performedAll s 3 false false = true ∧
       acquireOut s 3 false = false ∧ bytesOut s 3 false false w.block 0x200040 64 = false ∧
       poisonedIn s.pois (fromCopy s w.die 0x200040) 64 = true ∧ isLocal 0x200040 = true) :=
  ⟨acting (by decide +kernel), acting (by decide +kernel), acting (by decide +kernel), acting (by decide +kernel),
   acting (by decide +kernel)⟩

/-! ### Poison, room, and the engines -/

theorem witness_AccumulatorDrain_diverged :
    let s := probeAcc [(1, 4)]
    let t := { s with warps := fmap s.warps fun _ w => { w with div := true, b := w.a } }
    ∃ w, actsOn t w ∧ w.div = true ∧ vtag w 0 ≠ .f32 ∧ (fget t.banks (bankKey w (bankFirst (rx w false 1)))).map (·.block) = some w.block ∧
      drainN (rx w false 1) = 1 :=
  acting (by decide +kernel)

/-- The machine that owns bank 4, with other bytes or poison in its format block. -/
def probeFb (fmt : Nat) (pois : List Nat) : State :=
  { probeMma 0 32 with blocks := fmap (probeMma 0 32).blocks fun _ k => { k with sp := wrLe k.sp 0 1 fmt, spPois := pois } }

theorem witness_MatrixIssue_format :
    (let s := probeFb 3 [0]
     ∃ w, actsOn s w ∧ mmaGeometryBad (mmaShape (rx w false 1)) (mmaA w) (mmaB w) = false ∧
       mmaFormatShort (mmaShape (rx w false 1)) (mmaA w) (mmaB w) (mmaF s w 0) (mmaF s w 16) = false ∧
       poisonedIn (spPoison s w.block) (16 * (mmaShape (rx w false 1)).fbo) 32 = true ∧ acquireOut s 3 false = false) ∧
    (let s := probeFb 31 []
     ∃ w, actsOn s w ∧ mmaGeometryBad (mmaShape (rx w false 1)) (mmaA w) (mmaB w) = false ∧
       mmaFormatShort (mmaShape (rx w false 1)) (mmaA w) (mmaB w) (mmaF s w 0) (mmaF s w 16) = false ∧
       fblockBad (mmaF s w 0) (mmaF s w 16) = true ∧ poisonedIn (spPoison s w.block) 0 32 = false) :=
  ⟨acting (by decide +kernel), acting (by decide +kernel)⟩

/-- The machine whose warp another warp holds, and one that holds another warp with work in progress. -/
theorem witness_ContextHeld :
    (let s0 := probeOwn id []
     let s := { s0 with warps := fmap s0.warps fun _ w => { w with frozen := some 77 } }
     ∃ w, actsOn s w ∧ ctxTarget s (coreKey w) 0 = some (s, 3, w) ∧ heldElse s w = false) ∧
    (let s0 := probeOwn id [(1, 1)]
     let s := { s0 with warps := s0.warps ++ (probe.warps.map fun e => (9, { e.2 with slot := 1, frozen := some 10 })) ++
       (probe.warps.map fun e => (10, { e.2 with slot := 2 })) }
     ∃ w, actsOn s w ∧ (ctxTarget s (coreKey w) (rx w false 1).toNat).map (fun e => (e.2.1, heldElse s e.2.2, liveQueue e.1 9 false e.2.2.a,
       liveQueue e.1 9 true e.2.2.b)) = some (9, true, [], [])) ∧
    (let s0 := probeOwn id [(1, 1)]
     let s := { s0 with warps := s0.warps ++ (probe.warps.map fun e => (9, { e.2 with slot := 1 })),
                        ops := [⟨4, 9, 2, true, false, none, .batch []⟩] }
     ∃ w, actsOn s w ∧ (ctxTarget s (coreKey w) (rx w false 1).toNat).map (fun e => (e.2.1, heldElse s e.2.2, e.1.ops.length)) =
       some (9, false, 1)) :=
  ⟨acting (by decide +kernel), acting (by decide +kernel), acting (by decide +kernel)⟩

theorem witness_PatrolForms_failed :
    (let m := retImage probe 0 0 1
     ∀ c ∈ [{ Cluster.reset with st := .reset, img := some { m with fsel := 9 } }, { Cluster.reset with st := .quiesced, img := some m, failed := true },
       { Cluster.reset with st := .run, img := some m }],
      (∃ w, actsOn (probeCl [] c) w ∧ clusterAt (probeCl [] c) w.die 0 = c ∧ (fget (probeCl [] c).funcs 0).isSome = true) ∧
        c.img.map retGood = some (decide (c.st ≠ .reset))) := by
  intro m c hc
  rcases List.mem_cons.1 hc with rfl | hc
  · exact ⟨acting (by decide +kernel), by decide +kernel⟩
  rcases List.mem_cons.1 hc with rfl | hc
  · exact ⟨acting (by decide +kernel), by decide +kernel⟩
  · obtain rfl := List.mem_singleton.1 hc
    exact ⟨acting (by decide +kernel), by decide +kernel⟩

/-- Operations of path A that count on a counter, n of them, with a flag. -/
def probeOps (n : Nat) (f : Option Nat) (m : LaneMem) (g : Warp → Warp) : State :=
  { probeWith g with ops := (List.range n).map fun i => ⟨10 + i, 3, 2, true, false, f, .mem m⟩ }

/-- R30, R29: a full counter, a full flag, no room on fb, and no lane in act. -/
theorem witness_memRoom :
    (∀ c ∈ [Space.sp, .dm], counter (probeOps 255 none (mem0 .load c 0x40) id) 3 false (spaceCtr c) = 255) ∧
    flagCount (probeOps 16 (some 5) (mem0 .load .sp 0x40) id) 3 false 5 = 16 ∧
    fbDue (probeOps 255 none { mem0 .store .dm (2 ^ 39) with accs := [⟨0, 2 ^ 39, 4, 0, 0, 32, 7, 0, 1⟩] } id) 3 false = 255 ∧
    isLocal (2 ^ 39) = false ∧
    (let s := probeOps 255 none (mem0 .load .sp 0x40) fun w => { w with a := w.a.withK0 0 }
     warp3 s (fun w => (lctx s w w.a (lop .n32 0)).act = 0) = true) ∧
    warp3 (probeWith fun w => { w with wmode := 0x20, a := w.a.withK0 0 }) (fun w => w.wmode.getLsbD 5 &&
      (lctx (probeWith fun w => { w with wmode := 0x20, a := w.a.withK0 0 }) w w.a (lop .n32 0)).act = 0) = true ∧
    (lop .n32 0x300).mods / 2 ^ 8 % 4 = 3 ∧ (lop .n32 0).mods / 2 ^ 8 % 4 = 0 := by decide +kernel

/-- The machine with an outstanding operation of its warp, and poison in its scratchpad. -/
def probePo (pois : List Nat) (body : OpBody) : State :=
  { probeOp id body with blocks := fmap probe.blocks fun _ k => { k with spPois := pois } }

/-- R152, R255: poison that an MMA step and an AMV read, an operation that an acquire holds up, and one that a rewind left. -/
theorem witness_BankEvents_poison :
    (let s := probePo [0] (.mma seq0 [0])
     let l := stepBytes (mmaShape seq0.ctl) seq0 0 0
     stepPoisoned (spPoison s 2) seq0 l = true ∧ bankReady s (op4 (.mma seq0 [0])) 0 = true ∧ spReady s (op4 (.mma seq0 [0])) = true ∧
       warp3 s (fun w => w.kind = .kernel && w.st = .rink) = true ∧ disowned (op4 (.mma seq0 [0])) = false ∧
       stepPoisoned [] seq0 l = false) ∧
    (let s := probePo [0] (.amv amv7 0)
     poisonedIn (spPoison s 2) amv7.inOff 1024 = true ∧ bankReady s (op4 (.amv amv7 0)) 0 = true ∧
       spReady s (op4 (.amv amv7 0)) = true ∧ disowned (op4 (.amv amv7 0)) = false) ∧
    (let acq := { op4 (.mem { mem0 .load .dm 0x200000 with ord := 1 }) with id := 2 }
     ∀ b ∈ [OpBody.zero [0], .drain ⟨0, 31, 1, true, 5, 1⟩ 0, .mma seq0 [0], .amv amv7 0],
       let s := { probeOp id b with ops := [acq, op4 b] }
       findOp s 4 = some (op4 b) ∧ acquireBefore s (op4 b) = true ∧ spReady s (op4 b) = false) ∧
    disowned { op4 (.zero [0]) with ownA := false } = true := by decide +kernel

theorem witness_MemoryEvents_poison : ∀ m ∈ [mem0 .load .sp 0x40, mem0 (.atom 0) .sp 0x40],
    let s := probePo [1] (.mem m)
    findOp s 4 = some (op4 (.mem m)) ∧ mayPerform s (op4 (.mem m)) m m.act = true ∧ disowned (op4 (.mem m)) = false ∧
      (fget s.warps 3).map (fun w => lanesPoisoned s (coreKey w) 3 m m.act && w.kind = .kernel) = some true ∧ l1May m = false ∧
      (m.accs.filter fun e => e.lane = 0).length = 1 := by decide +kernel

/-- A gather of rows by an index at 0 of the scratchpad: as it begins its first row, and inside that row. -/
def gather0 (rows : Nat) (value : W64) : ShOp := { sh0 .gather 0 with start := 0, rows := rows, value := value }

/-- The machine with that gather, index i at its start. -/
def probeGat (i : Nat) (it : ShOp) (f : Warp → Warp) : State :=
  { probeOp id (.batch [it]) with blocks := fmap probe.blocks fun _ k => { k with sp := wrLe [] 0 4 i }, warps := (probeWith f).warps }

theorem witness_ShuttleEvents_gather :
    (∀ e ∈ [(0, gather0 0 0), (9, gather0 0 0), (0, gather0 1 3), (0, gather0 1 9)],
      let s := probeGat e.1 e.2 id
      findOp s 4 = some (op4 (.batch [e.2])) ∧ e.2.stall = false ∧ e.2.done < e.2.total ∧ e.2.whole = false ∧ e.2.obuf = [] ∧
        e.2.seen = [] ∧ (fget s.warps 3).map (fun w => (engineBusy s w 4 0, unbound s w e.2,
          homeOf (locate (engineBegin s w 4 0) w (engineOp 4 0) e.2.user e.2.skip .write e.2.dst (elemVa e.2.dst 0)))) =
          some (false, false, some 0) ∧ shOrdered s (op4 (.batch [e.2])) e.2 = true) ∧
    (gather0 0 0).rows ≤ 0 ∧ ¬(gather0 1 0).rows ≤ 0 ∧ recOuter (rec4 64) = 4 ∧ recInner (rec4 0) = 1 ∧
    rdLe (spCells (probeGat 9 (gather0 0 0) id) 2) 0 4 = 9 ∧
    (let s := probeGat 9 (gather0 0 0) fun w => { w with div := true, b := { w.a with held := some (held0 false), priv := 1 } }
     warp3 s (fun w => trapWaits w false && w.a.priv == 0 && w.a.pend.isNone) = true) ∧
    disowned (op4 (.batch [gather0 0 0])) = false := by
  decide +kernel

/-- The machine all of whose engines serve another operation. -/
def probeBusy : State :=
  let b := OpBody.batch [sh0 .fill 3]
  { probeOp id b with
    ops := [op4 b, { op4 b with id := 6 }]
    cores := { probe.cores with engines := (List.range 16).map fun i => (65536 + i, ⟨6, 0, 0⟩) } }

/-- R179, R393: a batch with an element left, or with bytes not yet sent, and an engine that serves another operation. -/
theorem witness_ShuttleEvents_rest :
    (sh0 .fill 3).done < (sh0 .fill 3).total ∧ ∃ w, fget probeBusy.warps 3 = some w ∧ engineBusy probeBusy w 4 0 = true := by
  refine ⟨by decide +kernel, ?_⟩
  obtain ⟨w, hw⟩ := Option.isSome_iff_exists.1 (show (fget probe.warps 3).isSome = true by decide +kernel)
  refine ⟨w, hw, ?_⟩
  have hd : w.die = 0 := by
    have : (fget probe.warps 3).map (·.die) = some 0 := by decide +kernel
    rw [hw] at this
    exact Option.some.inj this
  unfold engineBusy engineUnit
  rw [hd]
  generalize hk : Config.freeEngine (engineOp 4 0) % 16 = k
  have : k < 16 := by omega
  interval_cases k <;> decide +kernel

/-- R39, R231, R232: what the events of rink and lodge look at. -/
theorem witness_lodgePrime :
    (let s := probe2 (fun w => { w with st := .ready }) .ready
     rising s.warps = true ∧ warp3 s (fun w => w.st = .ready && !w.reload && hotMissing w == []) = true) ∧
    (let s := probeWith fun w => { w with st := .blocked }
     warp3 s (fun w => w.st = .blocked && w.a.live && !longWait s 3 w false) = true) ∧
    (let s := probeFull 8 fun w => { w with primed := true }
     let s1 := { s with warps := s.warps.map fun e => if e.1 = 9 then (9, { e.2 with a := { e.2.a with demoted := true } }) else e }
     (∃ w, Claims.oldestOf s1 0 (fun n z => z.st = .rink && warpBlocked s1 n z) 9 w) ∧ 8 ≤ Claims.rinkCount s1 0) := by
  refine ⟨by decide +kernel, by decide +kernel, oldest_of (by decide +kernel) (by decide +kernel), by decide +kernel⟩

/-! ### Masters, moves, journals, partitions and links -/

theorem witness_names :
    Claims.names 0 1 0 ∧ Claims.names 64 1 0 ∧ Claims.names 65 1 1 ∧ Claims.names 1 0 1 ∧ Claims.names (64 * 3 + 63) 3 63 ∧
    Claims.mayWrite owned 1 0 ∧ ¬Claims.mayWrite owned 2 0 ∧ Claims.mayWrite State.reset 0 1 ∧ ¬Claims.mayWrite State.reset 0 0 := by
  refine ⟨by simp [Claims.names], by simp [Claims.names], by simp [Claims.names], by simp [Claims.names], by simp [Claims.names], .inl (by decide +kernel), ?_, .inr ⟨rfl, by decide⟩, ?_⟩ <;>
    (rintro (h | ⟨h, h'⟩)) <;> revert h <;> try decide +kernel
  · exact fun _ => h' rfl

theorem witness_ContextRead :
    (let s := probeOwn id [(1, 1)]
     let t := { s with warps := s.warps ++ (probe.warps.map fun e => (9, { e.2 with slot := 1 })) }
     ∃ w, actsOn t w ∧ (ctxTarget t (coreKey w) (rx w false 1).toNat).map (fun e => (e.2.1, heldElse t e.2.2,
       (readHeader e.1 9 e.2.2).toOption.map fun r => decide (at' r.2 0 8 % 4 < 2))) = some (9, false, some true)) :=
  acting (by decide +kernel)

/-- R118: a ring in a page of another module, with no route to it. -/
theorem witness_ringLost :
    let s := { probe with funcs := fmap probe.funcs (fun _ f => { f with lqEn := true, lqTail := 1, lqbase := 0x200000 }),
                          mem := wrLe probe.mem 0x12010 8 (2 ^ 34 + 0x10817) }
    (fget s.funcs 0).map (fun f => match deviceRead s 0 (f.lqbase.toNat + 0) 192 with
      | .ok _ _ _ => 0 | .wait _ => 1 | .lost _ => 2) = some 2 := by decide +kernel

/-- R351: a request about a page whose table lies on another module, and one for a page of another module. -/
theorem witness_reqWaits :
    (let s := { probeReq 1 3 with mem := wrLe (probeReq 1 3).mem 0x10000 8 (2 ^ 37 * 4 + 1), fabric := routed.fabric }
     ∃ q : HostReq, q.va = 0x200000 ∧ q.addr = 0x2010C0 ∧ isLocal (q.addr + 0x38) = true ∧ reqWaits s 0 q = true) ∧
    isLocal (2 ^ 39 + 0x200000) = false ∧ homeModule (2 ^ 39 + 0x200000) = homeModule (2 ^ 39 + 2 ^ 37 + 0x600000) ∧
    homeDie (2 ^ 39 + 0x200000) ≠ homeDie (2 ^ 39 + 2 ^ 37 + 0x600000) :=
  ⟨⟨⟨0x2010C0, 0x200000, 3⟩, rfl, rfl, by decide +kernel, by decide +kernel⟩, by decide +kernel, by decide +kernel, by decide +kernel⟩

theorem witness_evictFar :
    partModules routed 0 = [1] ∧ (routeNow routed 0 1).isSome = true ∧
    routed.fabric.bobbin.length + (partModules routed 0).length ≤ bobbinSize ∧ (∀ e ∈ routed.fabric.bobbin, e.lanes ≠ 6) ∧
    (let s := { probeReq 3 3 with mgmt := { probe.mgmt with evicts := [⟨0, 0, 0x12010, 0x600000, 0, [1]⟩] }, fabric := routed.fabric }
     (hostReq s 0 0 3).map (reqWaits s 0) = some false ∧ (s.mgmt.evicts.find? (fun j => j.fn = 0 && j.entry = 0)).map (·.waits) = some [1]) := by
  decide +kernel

/-- R369, R371: a region whose journal entry was open, one with a tile that was rewritten three times, and one with neither. -/
theorem witness_Starts_regions :
    (let s := ownedR (region0 .verifying true)
     let t := { s with arrays := { s.arrays with journal := [(0, [{ seq := 1, region := 7, phase := 2, stage := 0, digest := [] }])] } }
     ∃ j ∈ journalOf t 0, j.region = 7 ∧ (j.phase = 1 ∨ j.phase = 2)) ∧
    (∃ e ∈ [(0, { tile0 true with tries := 4 })], 4 ≤ e.2.tries) ∧
    (¬∃ j ∈ journalOf (digested (region0 .inService true) (tile0 true)) 0, j.region = 7 ∧ (j.phase = 1 ∨ j.phase = 2)) ∧
    (∀ e ∈ [(0, tile0 true)], e.2.tries < 4) ∧
    fgetD [] (digested (region0 .inService true) (tile0 true)).arrays.digests (65536 * 7 + 0) = tileDigest (tile0 true) :=
  ⟨by decide +kernel, by decide, by decide +kernel, by decide, rfl⟩

theorem witness_vfclr :
    let s := { State.reset with agenda := [.hostRead 1 0 0x108], mgmt := { State.reset.mgmt with vfBusy := [2, 63], zpend := true } }
    (∀ n ∈ s.mgmt.vfBusy, 1 ≤ n ∧ n < 64) ∧ s.mgmt.vfBusy.Nodup ∧ (fget s.funcs 0).map (fun f => (f.enabled, f.clr)) = some (true, false) := by
  decide +kernel

theorem witness_partRequests :
    owned.parts.job = none ∧ isOwner owned 2 = false ∧ pageTaken owned (5 * 2 ^ 21) = false ∧
    (let s := { owned with parts := { owned.parts with job := some (5, 0, 3) },
                           power := { State.reset.power with clusters := [(3, { Cluster.reset with st := .quiescing })] } }
     s.parts.job = some (5, 0, 3) ∧ (clusterAt s 0 3).st = .quiescing ∧ (5, 0, 3) ≠ (5, 0, 2)) ∧
    (let s := { owned with parts := { owned.parts with job := some (5, 0, 3) },
                           power := { State.reset.power with clusters := [(3, { Cluster.reset with st := .quiesced })] } }
     (clusterAt s 0 3).st = .quiesced) ∧
    (let l := [(Config.moduleNo, 0), (Config.moduleNo + 1, 9)]
     2 ≤ l.length ∧ ∀ e ∈ l, e.1 = Config.moduleNo → (fget owned.funcs e.2).map (·.part) = some 0) ∧
    (fget owned.funcs 1).map (fun f => (f.part, f.grants)) = some (0, []) ∧
    (pageTaken { owned with mgmt := { owned.mgmt with freed := [5 * 2 ^ 21] } } (5 * 2 ^ 21) = true) := by decide +kernel

theorem witness_supervisorFlushed :
    let s := { clusterIs { Cluster.reset with st := .quiescing } with
      warps := probe.warps.map fun e => (9, { e.2 with kind := .supervisor, st := .idle, block := 0 }), next := 10 }
    (∀ e ∈ s.warps, e.1 < s.next) ∧ coreOn s 0 0 = true ∧
      (fget s.warps 9).map (fun w => decide (supWarp s (coreKey w) = (s, 9, w))) = some true := by decide +kernel

/-- R410, R411: a lane instruction that waits for its checker, and entries of the replay queue. -/
theorem witness_checkers :
    (let c : Clause := ⟨1, 0x200100, [], [], 0, none, [0], true, 2⟩
     let p : Path := { Path.absent with queue := [c] }
     (checkedClause p ⟨0x200100, 1, 3⟩).isSome = true) ∧
    warp3 probe (fun w => w.a.live && w.st != .ended) = true ∧ fget probe.warps 77 = none ∧
    (let s := { State.reset with mgmt := { State.reset.mgmt with evac := [5] }, blocks := [(4, probeBlock 1 4)] }
     64 * 0 + 5 ∈ s.mgmt.evac ∧ pairOn s 0 5 = true) ∧
    (fget probe.banks 0).isNone = true ∧ fget (probeAcc [(1, 4)]).banks 4 ≠ none := by decide +kernel

theorem witness_poisonedFlits :
    (let p := sealPacket { packet 8 1 with pois := 2 }
     p.pois.testBit 1 = true ∧ 32 * 1 < p.payload.length ∧ forHere p 8 1 = true) ∧
    (let p := { packet 2 1 with crc := (packet 2 1).crc + 1 }
     crcMatches p = false ∧ 1 ≤ p.kind ∧ p.kind ≤ 8 ∧ p.len ≤ 8) ∧ crcMatches (packet 2 1) = true ∧
    (let s := { routed with fabric := { routed.fabric with crcs := [(2, List.replicate 15 0)] } }
     16 ≤ (s.mgmt.tb :: (fgetD [] s.fabric.crcs 2).filter fun t => (s.mgmt.tb + 2 ^ 64 - t) % 2 ^ 64 ≤ s.mgmt.tbRate / 1000).length) := by
  decide +kernel

/-- R403, R406, R407: a rejected packet with its route and without, a route that comes up below and above CUR, and one that fails. -/
theorem witness_routes :
    usable routed 0 1 0 = true ∧ usable routed 0 1 2 = false ∧ routeNow routed 0 1 = some 0 ∧ routeNow routed 0 9 = none ∧
    (let r : Route := ⟨2, true, 3, true, 0, false, 1, [0]⟩
     routePort r 0 = some 2 ∧ 0 < r.cur ∧ routePort r 1 = some 3 ∧ r.cur ≤ 1 ∧ (∀ j, j < 1 → routePort r j ≠ some 3)) ∧
    (let e : BEntry := ⟨{ packet 1 0 with src := 0, dst := 1 }, true, false, 0, some 4, 3, false, 1⟩
     e.pkt.dst = 1 ∧ e.sent = true ∧ e.rejected = false ∧
     (let r1 : Route := ⟨2, true, 3, true, 0, false, 0, [0]⟩
      let s1 := { routed with fabric := { routed.fabric with bobbin := [e], routes := [(1, { r1 with cur := curFrom routed r1 1 })] } }
      routeNow s1 e.pkt.part 1 = some 1)) := by decide +kernel

theorem witness_settled :
    State.reset.mgmt.dups = [] ∧ ∀ v x, fget probe.warps v = some x → x.a.last = none ∧ x.b.last = none := by
  refine ⟨rfl, fun v x h => ?_⟩
  have : ∀ e ∈ probe.warps, e.2.a.last = none ∧ e.2.b.last = none := by decide +kernel
  exact this _ (mem_of_fget h)

theorem witness_MemoryStaysCanonical : memWf State.reset.mem = true ∧ ∃ t, step State.reset = .next t := by
  refine ⟨rfl, _, rfl⟩

end Sys2Proof.Tests
end

/-! # Canonical memory (O60)

Every function of the model that gives a state either leaves memory as it was or writes it through the operations of
`Laws/Memory`, which keep the canonical form. So each has one lemma here, in the order of the model: `f_mem` where
memory stays, `canonical_f` where the state that `f` gives stays canonical, `canonical_of_f` where that state is part of
a result, and `out_f` for an outcome. A function that takes a continuation asks the same of it.

`simp -implicitDefEqProofs` stands where a side condition holds by a lemma that is true by `rfl`: simp then rewrites
with it by a proof, and not by the kernel's evaluation of the state. -/

namespace Sys2Proof.Machine

/-- The canonical form of log entry 1, kept folded. -/
def Canonical (m : List Host.Cell) : Prop := memWf m = true

/-- The next state of an outcome, where there is one, has its memory in canonical form. -/
def OutCanonical (o : Out) : Prop := ∀ t, o = .next t → Canonical t.mem

@[simp] theorem canonical_filter {m : List Host.Cell} (hm : Canonical m) (p : Host.Cell → Bool) :
    Canonical (m.filter p) := memWf_filter p hm

@[simp] theorem canonical_wrByte {m : List Host.Cell} (hm : Canonical m) (a : Nat) (b : Byte) :
    Canonical (wrByte m a b) := memWf_wrByte a b hm

@[simp] theorem canonical_wrBytes {m : List Host.Cell} (hm : Canonical m) (a : Nat) (l : List Byte) :
    Canonical (wrBytes m a l) := memWf_wrBytes a l hm

@[simp] theorem canonical_wrLe {m : List Host.Cell} (hm : Canonical m) (a n v : Nat) : Canonical (wrLe m a n v) :=
  memWf_wrLe a n v hm

@[simp] theorem canonical_zeroRange {m : List Host.Cell} (hm : Canonical m) (a n : Nat) :
    Canonical (zeroRange m a n) := memWf_zeroRange a n hm

@[simp] theorem canonical_copyRange {m : List Host.Cell} (hm : Canonical m) (a b n : Nat) :
    Canonical (copyRange m a b n) := memWf_copyRange a b n hm

@[simp] theorem outCanonical_next (s : State) : OutCanonical (.next s) ↔ Canonical s.mem :=
  ⟨fun h => h s rfl, fun h t e => by cases e; exact h⟩

@[simp] theorem outCanonical_fault (r : Fault) : OutCanonical (.fault r) := fun _ e => by cases e

@[simp] theorem outCanonical_refused (r : Refusal) : OutCanonical (.refused r) := fun _ e => by cases e

/-! ## Branches and folds -/

@[simp] theorem ite_mem (c : Prop) [Decidable c] (s t : State) :
    (if c then s else t).mem = if c then s.mem else t.mem := apply_ite State.mem c s t

@[simp] theorem canonical_ite (c : Prop) [Decidable c] (m n : List Host.Cell) :
    Canonical (if c then m else n) ↔ (c → Canonical m) ∧ (¬c → Canonical n) := by
  split <;> simp [*]

@[simp] theorem outCanonical_ite (c : Prop) [Decidable c] (x y : Out) :
    OutCanonical (if c then x else y) ↔ (c → OutCanonical x) ∧ (¬c → OutCanonical y) := by
  split <;> simp [*]

@[simp] theorem foldl_mem {α : Type} (f : State → α → State) (l : List α) (s : State)
    (hf : ∀ t a, (f t a).mem = t.mem) :
    (l.foldl f s).mem = s.mem := by
  induction l generalizing s with
  | nil => rfl
  | cons a r ih => rw [List.foldl_cons, ih, hf]

theorem canonical_foldl {α : Type} {f : State → α → State} {l : List α} {s : State} (hs : Canonical s.mem)
    (hf : ∀ t a, Canonical t.mem → Canonical (f t a).mem) : Canonical (l.foldl f s).mem := by
  induction l generalizing s with
  | nil => exact hs
  | cons a r ih => exact ih (hf s a hs)

@[simp] theorem out_onPath {s : State} {f : Warp → Path → Out} (hf : ∀ w p, OutCanonical (f w p)) :
    OutCanonical (onPath s f) := by
  unfold onPath
  split
  · simp
  · split <;> simp [hf]

end Sys2Proof.Machine

/-! # Canonical memory: memory, operations and lanes -/

namespace Sys2Proof.Machine

/-! ## What performed lanes do -/

theorem canonical_cellsOf {s : State} (hs : Canonical s.mem) {space : Space} (h : space ≠ .sp) (b : Nat) :
    Canonical (cellsOf s space b) := by simpa [cellsOf, h] using hs

theorem canonical_setCells {s : State} {space : Space} {b : Nat} {m : List Host.Cell} {p : List Nat}
    (hs : Canonical s.mem) (hm : space ≠ .sp → Canonical m) : Canonical (setCells s space b m p).mem := by
  unfold setCells
  split <;> simp_all

@[simp] theorem canonical_setCells_cellsOf {s : State} {space : Space} {b : Nat} {p : List Nat} (hs : Canonical s.mem) :
    Canonical (setCells s space b (cellsOf s space b) p).mem :=
  canonical_setCells hs fun h => canonical_cellsOf hs h b

@[simp] theorem canonical_setCells_wrBytes {s : State} {space : Space} {b : Nat} {p : List Nat} (hs : Canonical s.mem)
    (a : Nat) (l : List Byte) : Canonical (setCells s space b (wrBytes (cellsOf s space b) a l) p).mem :=
  canonical_setCells hs fun h => canonical_wrBytes (canonical_cellsOf hs h b) a l

@[simp] theorem canonical_setCells_wrLe {s : State} {space : Space} {b : Nat} {p : List Nat} (hs : Canonical s.mem)
    (a n v : Nat) : Canonical (setCells s space b (wrLe (cellsOf s space b) a n v) p).mem :=
  canonical_setCells_wrBytes hs a _

@[simp] theorem l1Fill_mem (s : State) (core : Nat) (owner : Option Nat) (vp : List Nat) (a : Nat) :
    (l1Fill s core owner vp a).mem = s.mem := rfl

@[simp] theorem l1Write_mem (s : State) (core a : Nat) (bytes : List Byte) : (l1Write s core a bytes).mem = s.mem := rfl

@[simp] theorem l1FillFar_mem (s : State) (core : Nat) (owner : Option Nat) (vp : List Nat) (g : Nat) (bytes : List Byte)
    (bad : Bool) :
    (l1FillFar s core owner vp g bytes bad).mem = s.mem := rfl

@[simp] theorem l1Clear_mem (s : State) (core g : Nat) : (l1Clear s core g).mem = s.mem := rfl

@[simp] theorem l1FillLanes_mem (s : State) (die core key uid : Nat) (m : LaneMem) (lanes : W32) :
    (l1FillLanes s die core key uid m lanes).mem = s.mem := by simp [l1FillLanes]

@[simp] theorem canonical_accWrite {s : State} {key : Nat} {m : LaneMem} {a : LaneAcc}
    (hs : Canonical s.mem) : Canonical (accWrite s key m a).mem := by
  simp [accWrite, hs]

@[simp] theorem accSend_mem (s : State) (key : Nat) (a : LaneAcc) : (accSend s key a).mem = s.mem := rfl

@[simp] theorem canonical_performStore {s : State} {key : Nat} {m : LaneMem} {lanes : W32}
    (hs : Canonical s.mem) : Canonical (performStore s key m lanes).mem := by
  have hw := canonical_foldl (l := m.accs) (f := fun t a =>
    if !lanes.getLsbD a.lane then t else if isLocal a.addr then accWrite t key m a else accSend t key a) hs
    fun t a ht => by simp [ht]
  dsimp only [performStore]
  split
  · exact canonical_foldl hw fun t g ht => by simp [ht]
  · exact hw

@[simp] theorem canonical_accAtom {s : State} {key : Nat} {m : LaneMem} {oper : Nat} {a : LaneAcc}
    (hs : Canonical s.mem) : Canonical (accAtom s key m oper a).1.mem := by
  simp [accAtom, hs]

@[simp] theorem canonical_performAtom {s : State} {key : Nat} {m : LaneMem} {oper : Nat} {lanes : W32}
    (hs : Canonical s.mem) : Canonical (performAtom s key m oper lanes).1.mem :=
  List.foldlRecOn (motive := fun t : State × Lanes => Canonical t.1.mem) _ _ hs fun t ht a _ => by
    dsimp only
    split <;> simp [ht]

/-! ## Warps, paths and what belongs to them -/

@[simp] theorem out_retire {s : State} {w : Warp}
    (hs : Canonical s.mem) : OutCanonical (retire s w) := by simp [retire, hs]

@[simp] theorem out_stall {s : State} (hs : Canonical s.mem) : OutCanonical (stall s) := by simp [stall, hs]

@[simp] theorem countPair_mem (s : State) (die pair : Nat) : (countPair s die pair).mem = s.mem := rfl

@[simp] theorem meterWarp_mem (s : State) (w : Warp) (i n : Nat) :
    (meterWarp s w i n).mem = s.mem := by simp [meterWarp]

/-! ## Links -/

@[simp] theorem countTx_mem (s : State) (e : BEntry) : (countTx s e).mem = s.mem := by simp [countTx]

@[simp] theorem emit_mem (s : State) (p : Packet) : (emit s p).mem = s.mem := rfl

@[simp] theorem sendFirst_mem (s : State) (e : BEntry) : (sendFirst s e).mem = s.mem := by simp [sendFirst]

@[simp] theorem pump_mem (s : State) : (pump s).mem = s.mem := by simp [pump]

@[simp] theorem acceptPacket_mem (s : State) (who : Sender) (p : Packet) (route : Nat) :
    (acceptPacket s who p route).mem = s.mem := by simp [acceptPacket]

@[simp] theorem farAsk_mem (fn tag : Nat) (who : Reader) (s : State) (g : Nat) :
    (farAsk fn tag who s g).mem = s.mem := by simp [farAsk]

@[simp] theorem farUsed_mem (s : State) (uid : Nat) (gs : List Nat) : (farUsed s uid gs).mem = s.mem := rfl

/-- The state that a read leaves. -/
@[simp] def FarRes.st : FarRes → State
  | .ok s _ _ | .wait s | .lost s => s

theorem farPieces_mem {s : State} {fn tag : Nat} {who : Reader} {l : List (Nat × Nat)} {r : FarRes}
    (h : farPieces s fn tag who l = r) : r.st.mem = s.mem := by
  subst h
  dsimp only [farPieces]
  repeat' split
  all_goals simp

theorem canonical_of_farPieces {s : State} {fn tag : Nat} {who : Reader} {l : List (Nat × Nat)} {r : FarRes}
    (hs : Canonical s.mem) (h : farPieces s fn tag who l = r) : Canonical r.st.mem := by
  rwa [farPieces_mem h]

theorem farWrite_mem {fn tag uid : Nat} {s t : State} {l : List (Nat × List Byte)}
    (h : farWrite fn tag uid s l = some t) : t.mem = s.mem := by
  induction l generalizing s with
  | nil => cases h; rfl
  | cons e r ih =>
    dsimp only [farWrite] at h
    split at h
    · cases h
    · split at h
      · cases h
      · rw [ih h, acceptPacket_mem]

theorem farBytes_mem {s : State} {fn tag : Nat} {who : Reader} {a n : Nat} {r : FarRes}
    (h : farBytes s fn tag who a n = r) : r.st.mem = s.mem := farPieces_mem h

theorem canonical_of_farBytes {s : State} {fn tag : Nat} {who : Reader} {a n : Nat} {r : FarRes}
    (hs : Canonical s.mem) (h : farBytes s fn tag who a n = r) : Canonical r.st.mem := canonical_of_farPieces hs h

@[simp] theorem canonical_devWrite {s : State} {fn a : Nat} {bytes : List Byte}
    (hs : Canonical s.mem) : Canonical (devWrite s fn a bytes).mem := by
  dsimp only [devWrite]
  repeat' split
  all_goals simp [hs]

@[simp] theorem canonical_devWriteAll {s : State} {fn a : Nat} {bytes : List Byte}
    (hs : Canonical s.mem) : Canonical (devWriteAll s fn a bytes).mem := by
  unfold devWriteAll
  exact canonical_foldl hs fun t a ht => by simp [ht]

@[simp] theorem canonical_tblWrite {s : State} {fn a : Nat} {bytes : List Byte}
    (hs : Canonical s.mem) : Canonical (tblWrite s fn a bytes).mem := by simp [tblWrite, hs]

@[simp] theorem walkRead_mem (s : State) (fn g : Nat) : (walkRead s fn g).mem = s.mem := by simp [walkRead]

@[simp] theorem dropWalks_mem (s : State) : (dropWalks s).mem = s.mem := rfl

/-! ## Meters of the matrix engine -/

@[simp] theorem countMacs_mem (s : State) (w : Warp) (r : SeqRec) (upto : Nat) :
    (countMacs s w r upto).mem = s.mem := by simp [countMacs]

/-! ## Outstanding operations, and what a trap does -/

@[simp] theorem closeBatch_mem (s : State) (uid : Nat) (pf : Bool) : (closeBatch s uid pf).mem = s.mem := by
  unfold closeBatch
  split <;> simp

@[simp] theorem parkContext_mem (s : State) (uid : Nat) : (parkContext s uid).mem = s.mem := rfl

@[simp] theorem meterLanes_mem (s : State) (w : Warp) (m : LaneMem) (n lanes : Nat) :
    (meterLanes s w m n lanes).mem = s.mem := by
  unfold meterLanes
  split <;> simp

@[simp] theorem meterMem_mem (s : State) (w : Warp) (m : LaneMem) : (meterMem s w m).mem = s.mem := by simp [meterMem]

@[simp] theorem canonical_flushOp {s : State} {o : Op} (hs : Canonical s.mem) : Canonical (flushOp s o).mem := by
  unfold flushOp
  repeat' split
  all_goals simp [hs]

@[simp] theorem canonical_removeWarps {s : State} {gone : Nat → Warp → Bool}
    (hs : Canonical s.mem) : Canonical (removeWarps s gone).mem := by
  unfold removeWarps
  exact canonical_foldl hs fun t a ht => by simp [ht]

@[simp] theorem removeBlocks_mem (s : State) (gone : Nat → Block → Bool) : (removeBlocks s gone).mem = s.mem := rfl

@[simp] theorem canonical_purgeLaunches {s : State} {hit : Launch → Bool} {cause : Nat} {report : Bool}
    (hs : Canonical s.mem) : Canonical (purgeLaunches s hit cause report).mem := by simp [purgeLaunches, hs]

@[simp] theorem canonical_purgeWith {s : State} {fn tag cause : Nat} {report : Bool}
    (hs : Canonical s.mem) : Canonical (purgeWith s fn tag cause report).mem := by simp [purgeWith, hs]

@[simp] theorem canonical_purgeKey {s : State} {fn tag cause : Nat}
    (hs : Canonical s.mem) : Canonical (purgeKey s fn tag cause).mem := by simp [purgeKey, hs]

@[simp] theorem canonical_defaultAction {s : State} {uid cause : Nat}
    (hs : Canonical s.mem) : Canonical (defaultAction s uid cause).mem := by
  unfold defaultAction
  split <;> simp [hs]

@[simp] theorem canonical_migrate {s : State} {uid : Nat} {w : Warp} {engine : Bool} {pc : W64} {leaf va : Nat}
    (hs : Canonical s.mem) : Canonical (migrate s uid w engine pc leaf va).mem := by simp [migrate, hs]

@[simp] theorem doubleFault_mem (s : State) (uid : Nat) (pf : Bool) (t : Trap) (w : Warp) :
    (doubleFault s uid pf t w).mem = s.mem := by
  unfold doubleFault
  split <;> simp

@[simp] theorem canonical_handlerRead {s : State} {uid : Nat} {pf : Bool} {w : Warp} {t : Trap}
    (hs : Canonical s.mem) : Canonical (handlerRead s uid pf w t).1.mem := by
  dsimp only [handlerRead]
  split
  · next a _ =>
    have hf := farBytes_mem (s := s) (fn := w.fn) (tag := w.reqtag) (who := Reader.of uid pf) (a := a) (n := 16) rfl
    split <;> simp_all
  · simp [hs]
  · exact hs

@[simp] theorem canonical_enterTrap {s : State} {uid : Nat} {pf : Bool} {t0 : Trap}
    (hs : Canonical s.mem) : Canonical (enterTrap s uid pf t0).mem := by
  unfold enterTrap
  split
  · exact hs
  · next w _ =>
    have hr := canonical_handlerRead (uid := uid) (pf := pf) (w := w) (t := delivered (w.path pf) t0) hs
    dsimp only
    generalize handlerRead s uid pf w (delivered (w.path pf) t0) = r at hr ⊢
    split
    · exact hs
    · split
      · simpa using hs
      · split
        · exact hs
        · obtain ⟨u, e⟩ := r
          replace hr : Canonical u.mem := hr
          cases e <;> simp -implicitDefEqProofs [hs, hr]

@[simp] theorem canonical_raiseTrap {s : State} {uid : Nat} {pf : Bool} {t : Trap}
    (hs : Canonical s.mem) : Canonical (raiseTrap s uid pf t).mem := by
  unfold raiseTrap
  split <;> simp [hs]

@[simp] theorem canonical_raiseX {s : State} {uid : Nat} {pf : Bool} {t : Trap} {f : XFault}
    (hs : Canonical s.mem) : Canonical (raiseX s uid pf t f).mem := by
  unfold raiseX
  repeat' split
  all_goals simp [hs]

@[simp] theorem out_trapS {s : State} {cause : Nat} (hs : Canonical s.mem) : OutCanonical (trapS s cause) := by
  dsimp only [trapS]
  split <;> simp -implicitDefEqProofs [hs]

@[simp] theorem out_trapSx {s : State} {f : XFault} {va : Nat}
    (hs : Canonical s.mem) : OutCanonical (trapSx s f va) := by
  dsimp only [trapSx]
  split <;> simp -implicitDefEqProofs [hs]

@[simp] theorem out_xlateStop {s : State} {w : Warp} {e : Nat × XRes}
    (hs : Canonical s.mem) : OutCanonical (xlateStop s w e) := by
  unfold xlateStop
  split <;> simp [hs]

theorem out_privileged {s : State} {f : Warp → Path → Out}
    (hs : Canonical s.mem) (hf : ∀ w p, OutCanonical (f w p)) : OutCanonical (privileged s f) :=
  out_onPath fun w p => by simp -implicitDefEqProofs [hs, hf]

/-! ## The source side of the fabric -/

@[simp] theorem canonical_fabricLoss {s : State} {uid : Nat} {pf : Bool} {fn tag cause : Nat}
    (hs : Canonical s.mem) : Canonical (fabricLoss s uid pf fn tag cause).mem := by
  unfold fabricLoss
  split <;> simp [hs]

theorem handLanes_mem {s t : State} {w : Warp} {who : Sender} {m : LaneMem} {lanes : W32}
    (h : handLanes s w who m lanes = .ok t) : t.mem = s.mem := by
  dsimp only [handLanes] at h
  split at h
  · cases h
  · split at h
    · cases h
    · cases h; simp

/-! ## The frame of lane instructions -/

@[simp] theorem out_trapL {s : State} {c : LCtx} {cause : Nat} {lmask : W32} {va : W64}
    (hs : Canonical s.mem) : OutCanonical (trapL s c cause lmask va) := by simp [trapL, hs]

theorem out_laneRead {s : State} {o : LaneOp} {rok : Bool} {srcs : List (Src × Fmt)} {k : LIn → Out}
    (hs : Canonical s.mem) (hk : ∀ x, Canonical x.s.mem → OutCanonical (k x)) :
    OutCanonical (laneRead s o rok srcs k) :=
  out_onPath fun w p => by
    dsimp only
    split
    · exact hk _ hs
    · split
      · exact out_trapL hs
      · split
        · exact out_stall hs
        · split
          · exact out_trapL hs
          · exact hk _ hs

theorem out_laneGuard {x : LIn} {tag : Fmt} {k : Out}
    (hx : Canonical x.s.mem) (hk : OutCanonical k) : OutCanonical (laneGuard x tag k) := by
  simp -implicitDefEqProofs [laneGuard, hx, hk]

@[simp] theorem pushReplay_mem (s : State) (c : LCtx) : (pushReplay s c).mem = s.mem := rfl

@[simp] theorem out_residueCheck {s : State} {c : LCtx} {w : Warp}
    (hs : Canonical s.mem) : OutCanonical (residueCheck s c w) := by
  simp -implicitDefEqProofs [residueCheck, hs]

@[simp] theorem out_laneEnd {s : State} {c : LCtx} {w : Warp} {res : Lanes} {tag : Fmt} {pend : Option Nat} {fl : Nat}
    (hs : Canonical s.mem) : OutCanonical (laneEnd s c w res tag pend fl) := by simp [laneEnd, hs]

@[simp] theorem out_laneRun {s : State} {o : LaneOp} {rok : Bool} {srcs : List (Src × Fmt)} {f : LIn → LRes}
    (hs : Canonical s.mem) : OutCanonical (laneRun s o rok srcs f) :=
  out_laneRead hs fun _ hx => out_laneGuard hx (by simp -implicitDefEqProofs [hs])

/-! ## Lane loads, stores and atomics -/

theorem out_of_placeLanes {s : State} {c : LCtx} {space : Space} {acc : Acc} {eas : Nat → Nat} {o : Out}
    (hs : Canonical s.mem) (h : placeLanes s c space acc eas = .trap o) : OutCanonical o := by
  dsimp only [placeLanes] at h
  split at h
  · split at h
    · cases h; simp [hs]
    · cases h; simpa using hs
  · split at h
    · cases h; simp [hs]
    · split at h
      · cases h; simpa using hs
      · cases h

theorem out_checkLanes {s : State} {c : LCtx} {space : Space} {acc : Acc} {size : Nat} {eas : Nat → Nat}
    {k : FMap Nat → Out} (hs : Canonical s.mem) (hk : ∀ h, OutCanonical (k h)) :
    OutCanonical (checkLanes s c space acc size eas k) := by
  unfold checkLanes
  split
  · simp [hs]
  · split
    · simp [hs]
    · split
      · exact hk _
      · split
        · exact hk _
        · next o ho => exact out_of_placeLanes hs ho

@[simp] theorem out_emptyMem {s : State} {x : LIn} {space : Space} {w : Warp} {tag : Fmt}
    (hs : Canonical s.mem) : OutCanonical (emptyMem s x space w tag) := by simp [emptyMem, hs]

@[simp] theorem out_issueMem {s : State} {x : LIn} {w : Warp} {m : LaneMem} {tag : Fmt} {pend : Bool}
    (hs : Canonical s.mem) : OutCanonical (issueMem s x w m tag pend) := by simp -implicitDefEqProofs [issueMem, hs]

@[simp] theorem out_execLd {space : Space} {o : LaneOp} {s : State}
    (hs : Canonical s.mem) : OutCanonical (execLd space o s) :=
  out_laneRead hs fun _ hx => out_laneGuard hx <| by
    split
    · exact out_emptyMem hs
    · exact out_checkLanes hs fun _ => out_issueMem hs

@[simp] theorem out_execSt {space : Space} {o : LaneOp} {s : State}
    (hs : Canonical s.mem) : OutCanonical (execSt space o s) :=
  out_laneRead hs fun _ hx => out_laneGuard hx <| by
    split
    · exact out_emptyMem hs
    · exact out_checkLanes hs fun _ => out_issueMem hs

@[simp] theorem out_execAtom {oper : Nat} {o : LaneOp} {s : State}
    (hs : Canonical s.mem) : OutCanonical (execAtom oper o s) :=
  out_laneRead hs fun _ hx => out_laneGuard hx <| by
    dsimp only
    split
    · exact out_trapL hs
    · split
      · exact out_trapL hs
      · split
        · exact out_emptyMem hs
        · exact out_checkLanes hs fun _ => out_issueMem hs

@[simp] theorem out_execLdt {o : LaneOp} {s : State} (hs : Canonical s.mem) : OutCanonical (execLdt o s) :=
  out_laneRead hs fun _ hx => out_laneGuard hx <| by
    split
    · exact out_emptyMem hs
    · dsimp only
      split
      · exact out_trapL hs
      · split
        · exact out_trapL hs
        · exact out_issueMem hs

/-! ## The events of lane memory operations -/

@[simp] theorem canonical_poisonTrap {s : State} {o : Op} {w : Warp} {m : LaneMem}
    (hs : Canonical s.mem) : Canonical (poisonTrap s o w m).mem := by simp -implicitDefEqProofs [poisonTrap, hs]

@[simp] theorem acquireDrop_mem (s : State) (key : Nat) (m : LaneMem) :
    (acquireDrop s key m).mem = s.mem := by simp [acquireDrop]

@[simp] theorem finishMem_mem (s : State) (id : Nat) : (finishMem s id).mem = s.mem := by
  unfold finishMem
  repeat' split
  all_goals simp

theorem out_withHanded {s : State} {o : Op} {w : Warp} {m : LaneMem} {lanes : W32} {k : State → W32 → State}
    (hs : Canonical s.mem) (hk : ∀ t l, Canonical t.mem → Canonical (k t l).mem) :
    OutCanonical (withHanded s o w m lanes k) := by
  unfold withHanded
  split
  · simpa using hk s 0 hs
  · split
    · next t ht => simpa using hk t lanes (by rwa [handLanes_mem ht])
    · simpa using hk s 0 hs
    · simp -implicitDefEqProofs [hs]

theorem out_withMem {s : State} {id : Nat} {k : Op → LaneMem → Warp → Out} (hs : Canonical s.mem)
    (hk : ∀ o m w, OutCanonical (k o m w)) : OutCanonical (withMem s id k) := by
  unfold withMem
  split
  · simpa using hs
  · split
    · exact hk _ _ _
    · simpa using hs

@[simp] theorem out_loadLanes {s : State} {o : Op} {m : LaneMem} {w : Warp} {l : W32}
    (hs : Canonical s.mem) : OutCanonical (loadLanes s o m w l) := by
  dsimp only [loadLanes]
  split
  · simpa using hs
  · split
    · simp [hs]
    · exact out_withHanded (by simp [hs]) fun t sent ht => by simp -implicitDefEqProofs [ht]

@[simp] theorem out_execLoadComplete {op lanes : Nat} {s : State}
    (hs : Canonical s.mem) : OutCanonical (execLoadComplete op lanes s) :=
  out_withMem hs fun o m w => by split <;> simp [hs]

@[simp] theorem out_execStoreComplete {op lanes : Nat} {s : State}
    (hs : Canonical s.mem) : OutCanonical (execStoreComplete op lanes s) :=
  out_withMem hs fun o m w => by
    dsimp only
    split
    · split
      · simpa using hs
      · exact out_withHanded hs fun t sent ht => by simp -implicitDefEqProofs [ht]
    · simpa using hs

@[simp] theorem atomSend_mem (s : State) (key : Nat) (m : LaneMem) (lanes : W32) :
    (atomSend s key m lanes).mem = s.mem := foldl_mem _ _ _ fun t a => by simp

@[simp] theorem out_execAtomComplete {op : Nat} {s : State}
    (hs : Canonical s.mem) : OutCanonical (execAtomComplete op s) :=
  out_withMem hs fun o m w => by
    split
    · dsimp only
      generalize (if openLanes m &&& remoteLanes m ≠ 0 then 0 else _ : W32) = loc
      split
      · simpa using hs
      · split
        · simp [hs]
        · exact out_withHanded (canonical_performAtom hs) fun t sent ht => by simp -implicitDefEqProofs [ht]
    · simpa using hs

@[simp] theorem sendPois_mem (s : State) (o : Op) (fn tag : Nat) (l wire : List Nat) :
    (sendPois s o fn tag l wire).1.mem = s.mem := by
  induction l generalizing s wire with
  | nil => rfl
  | cons g r ih =>
    unfold sendPois
    split
    · rfl
    · simp [ih]

@[simp] theorem advancePois_mem (s : State) (id : Nat) : (advancePois s id).mem = s.mem := by
  unfold advancePois
  repeat' split
  all_goals simp

theorem out_poisonAway {s : State} {w : Warp} {va n : Nat} {gs : List Nat} {here : State → State} {done : State → Out}
    (hs : Canonical s.mem) (hh : ∀ t, Canonical t.mem → Canonical (here t).mem)
    (hd : ∀ t, Canonical t.mem → OutCanonical (done t)) : OutCanonical (poisonAway s w va n gs here done) := by
  dsimp only [poisonAway]
  repeat' split
  · exact hd _ hs
  · simp -implicitDefEqProofs [hs]
  · simp [hs]
  · exact hd _ (hh _ hs)
  · simp -implicitDefEqProofs [hs]
  · simp -implicitDefEqProofs [hh _ hs]

end Sys2Proof.Machine

/-! # Canonical memory: engines, contexts and launches -/

namespace Sys2Proof.Machine

/-! ## Accumulator banks and MMA -/

@[simp] theorem unclaim_mem (s : State) (ks : List Nat) : (unclaim s ks).mem = s.mem := rfl

@[simp] theorem out_trapAt {s : State} {cause off : Nat}
    (hs : Canonical s.mem) : OutCanonical (trapAt s cause off) := by
  dsimp only [trapAt]
  split <;> simp -implicitDefEqProofs [hs]

@[simp] theorem out_engineIssue {s : State} {w : Warp} {c : Ctr} {ends : Bool} {b : OpBody} {ks : List Nat}
    (hs : Canonical s.mem) : OutCanonical (engineIssue s w c ends b ks) :=
  by simp -implicitDefEqProofs [engineIssue, hs]

@[simp] theorem out_execAccAlloc {d a : Nat} {s : State}
    (hs : Canonical s.mem) : OutCanonical (execAccAlloc d a s) := by simp [execAccAlloc, hs]

@[simp] theorem out_execAccFree {a : Nat} {s : State}
    (hs : Canonical s.mem) : OutCanonical (execAccFree a s) := by simp [execAccFree, hs]

@[simp] theorem out_execAccZero {a : Nat} {s : State}
    (hs : Canonical s.mem) : OutCanonical (execAccZero a s) := by simp [execAccZero, hs]

@[simp] theorem out_execAccZeroRetire {op : Nat} {s : State}
    (hs : Canonical s.mem) : OutCanonical (execAccZeroRetire op s) := by
  unfold execAccZeroRetire
  repeat' split
  all_goals simp [hs]

@[simp] theorem out_execAccDrain {a d : Nat} {s : State}
    (hs : Canonical s.mem) : OutCanonical (execAccDrain a d s) := out_onPath fun w p => by
  dsimp only
  repeat' split
  all_goals simp [hs]

@[simp] theorem out_execAccDrainRetire {op : Nat} {s : State}
    (hs : Canonical s.mem) : OutCanonical (execAccDrainRetire op s) := by
  unfold execAccDrainRetire
  repeat' split
  all_goals simp [hs]

@[simp] theorem out_mma {z : Bool} {d a b : Nat} {s : State}
    (hs : Canonical s.mem) : OutCanonical (mma z d a b s) := out_onPath fun w p => by
  dsimp only
  repeat' split
  all_goals simp [hs]

@[simp] theorem canonical_lateTrap {s : State} {o : Op} {cause : Nat}
    (hs : Canonical s.mem) : Canonical (lateTrap s o cause).mem := by
  unfold lateTrap
  split <;> simp [hs]

@[simp] theorem canonical_mmaRun {s : State} {o : Op} {r : SeqRec} {ks : List Nat} {w : Warp}
    (hs : Canonical s.mem) : Canonical (mmaRun s o r ks w).mem := by simp [mmaRun, hs]

@[simp] theorem spRead_mem (s : State) (id a : Nat) : (spRead s id a).mem = s.mem := by
  unfold spRead
  repeat' split
  all_goals simp

@[simp] theorem out_execMmaStep {op : Nat} {s : State} (hs : Canonical s.mem) : OutCanonical (execMmaStep op s) := by
  unfold execMmaStep
  repeat' split
  all_goals simp [hs]

/-! ## AMV -/

@[simp] theorem out_amv {transposed : Bool} {d a b : Nat} {s : State}
    (hs : Canonical s.mem) : OutCanonical (amv transposed d a b s) := out_onPath fun w p => by
  dsimp only
  repeat' split
  all_goals simp [hs]

@[simp] theorem out_execAmvRetire {op : Nat} {s : State}
    (hs : Canonical s.mem) : OutCanonical (execAmvRetire op s) := by
  dsimp only [execAmvRetire]
  repeat' split
  all_goals simp -implicitDefEqProofs [hs]

/-! ## Launch records -/

@[simp] theorem enqueueLaunch_mem (s : State) (fn : Nat) (dev : Bool) (r : LaunchRec) (id : Nat) :
    (enqueueLaunch s fn dev r id).mem = s.mem := rfl

/-! ## Context slots -/

@[simp] theorem canonical_ctxWait {s : State} {uid : Nat} {w : Warp} {va : Nat} {x : CtxRes}
    (hs : Canonical s.mem) : Canonical (ctxWait s uid w va x).mem := by
  unfold ctxWait
  split
  · simp [hs]
  · split
    · next e => exact canonical_of_farBytes hs e
    · exact hs
  · simp [hs]
  · exact hs

theorem ctxRead_mem {s : State} {uid : Nat} {w : Warp} {a n : Nat} {r : State × List Byte × Bool}
    (h : ctxRead s uid w a n = .ok r) : r.1.mem = s.mem := by
  unfold ctxRead at h
  split at h
  · cases h; rfl
  · split at h
    · cases h
    · split at h
      · next e => cases h; exact farBytes_mem e
      · cases h
      · cases h

theorem canonical_of_ctxWrite {s t : State} {uid : Nat} {w : Warp} {a : Nat} {b : List Byte}
    (hs : Canonical s.mem) (h : ctxWrite s uid w a b = .ok t) : Canonical t.mem := by
  dsimp only [ctxWrite] at h
  split at h
  · cases h; simp [hs]
  · split at h
    · cases h
    · split at h
      · next u hu => cases h; rwa [farWrite_mem hu]
      · cases h

theorem lineRead_mem {s : State} {uid : Nat} {w : Warp} {a : Nat} {r : State × Lanes × W32}
    (h : lineRead s uid w a = .ok r) : r.1.mem = s.mem := by
  unfold lineRead at h
  cases h1 : ctxRead s uid w a 128 with
  | error x => rw [h1] at h; cases h
  | ok e =>
    cases h2 : ctxRead s uid w a 64 with
    | error x => rw [h1, h2] at h; cases h
    | ok f =>
      cases h3 : ctxRead s uid w (a + 64) 64 with
      | error x => rw [h1, h2, h3] at h; cases h
      | ok g => rw [h1, h2, h3] at h; cases h; exact ctxRead_mem h1

theorem canonical_of_writeLines {s t : State} {uid : Nat} {w : Warp} {l : List Nat}
    (hs : Canonical s.mem) (h : writeLines s uid w l = .ok t) : Canonical t.mem := by
  induction l generalizing s with
  | nil => cases h; exact hs
  | cons n r ih =>
    unfold writeLines at h
    split at h
    · split at h
      · next u hu => exact ih (canonical_of_ctxWrite hs hu) h
      · cases h
    · cases h

theorem canonical_of_writeHeader {s t : State} {uid : Nat} {w : Warp}
    (hs : Canonical s.mem) (h : writeHeader s uid w = .ok t) : Canonical t.mem := by
  unfold writeHeader at h
  split at h
  · next a _ =>
    cases hc : ctxWrite s uid w a (headerBytes s uid w) with
    | error x => simp [hc, Except.mapError] at h
    | ok u =>
      simp only [hc, Except.mapError, Except.ok.injEq] at h
      exact h ▸ canonical_of_ctxWrite hs hc
  · cases h

theorem canonical_of_writeContext {s t : State} {uid : Nat} {w : Warp}
    (hs : Canonical s.mem) (h : writeContext s uid w = .ok t) : Canonical t.mem := by
  unfold writeContext at h
  split at h
  · next u hu => exact canonical_of_writeLines (canonical_of_writeHeader hs hu) h
  · cases h

@[simp] theorem canonical_bornHeader {s : State} {uid : Nat}
    (hs : Canonical s.mem) : Canonical (bornHeader s uid).mem := by
  unfold bornHeader
  split
  · exact hs
  · split
    · next e => simpa using canonical_of_writeHeader hs e
    · simp [hs]
    · simp [hs]

/-! ## Pre-emption, save and restore -/

theorem andThen_eq_wait {α β : Type} {r : CoreRes α} {f : α → CoreRes β} {t : State} :
    r.andThen f = .wait t ↔ r = .wait t ∨ ∃ a, r = .ok a ∧ f a = .wait t := by
  cases r <;> simp [CoreRes.andThen]

theorem coreBytes_mem {s t : State} {uid : Nat} {w : Warp} {l : List Nat} (h : coreBytes s uid w l = .wait t) :
    t.mem = s.mem := by
  dsimp only [coreBytes] at h
  split at h
  · cases h
  · split at h
    · cases h
    · cases h; simp

theorem canonical_of_coreRead {s t : State} {uid : Nat} {w : Warp} {va n : Nat}
    (hs : Canonical s.mem) (h : coreRead s uid w va n = .wait t) : Canonical t.mem := by
  unfold coreRead at h
  split at h
  · rwa [coreBytes_mem h]
  · cases h
  · cases h; simp [hs]
  · cases h; exact hs

theorem canonical_of_findPattern {s t : State} {uid : Nat} {w : Warp} {want n va : Nat}
    (hs : Canonical s.mem) (h : findPattern s uid w want n va = .wait t) : Canonical t.mem := by
  induction n generalizing va with
  | zero => cases h
  | succ n ih =>
    obtain h | ⟨b, -, h⟩ := andThen_eq_wait.mp h
    · exact canonical_of_coreRead hs h
    · split at h
      · cases h
      · split at h
        · cases h
        · exact ih h

theorem canonical_of_markPattern {s t : State} {uid : Nat} {w : Warp}
    (hs : Canonical s.mem) (h : markPattern s uid w = .wait t) : Canonical t.mem := by
  dsimp only [markPattern] at h
  split at h
  · cases h
  · split at h
    · cases h
    · obtain h | ⟨n, -, h⟩ := andThen_eq_wait.mp h
      · exact canonical_of_coreRead hs h
      · obtain h | ⟨e, -, h⟩ := andThen_eq_wait.mp h
        · exact canonical_of_findPattern hs h
        · obtain h | ⟨v, -, h⟩ := andThen_eq_wait.mp h
          · exact canonical_of_coreRead hs h
          · cases h

theorem canonical_of_rewound {s t : State} {uid : Nat} {w : Warp}
    (hs : Canonical s.mem) (h : rewound s uid w = .wait t) : Canonical t.mem := by
  unfold rewound at h
  split at h
  · cases h
  · split at h
    · cases h
    · obtain h | ⟨e, -, h⟩ := andThen_eq_wait.mp h
      · exact canonical_of_markPattern hs h
      · cases h

@[simp] theorem abandonOps_mem (s : State) (uid : Nat) : (abandonOps s uid).mem = s.mem := rfl

@[simp] theorem canonical_settleWarp {s : State} {uid : Nat}
    (hs : Canonical s.mem) : Canonical (settleWarp s uid).mem := by
  dsimp only [settleWarp]
  split
  · exact hs
  · split
    · exact hs
    · split
      · exact hs
      · exact hs
      · next e => exact canonical_of_rewound hs e

@[simp] theorem takeSupRecords_mem (s : State) (uid : Nat) :
    (takeSupRecords s uid).mem = s.mem := foldl_mem _ _ _ fun t a => by simp

@[simp] theorem canonical_preemptWarp {s : State} {uid : Nat}
    (hs : Canonical s.mem) : Canonical (preemptWarp s uid).mem := by
  unfold preemptWarp
  split <;> simp [hs]

@[simp] theorem canonical_saveBlock {s : State} {b : Nat} (hs : Canonical s.mem) : Canonical (saveBlock s b).mem := by
  dsimp only [saveBlock]
  split
  · exact hs
  · split
    · exact hs
    · exact canonical_foldl hs fun t e ht => by simp [ht]

@[simp] theorem canonical_startSave {s : State} {b : Nat} (hs : Canonical s.mem) : Canonical (startSave s b).mem := by
  unfold startSave
  exact canonical_foldl hs fun t a ht => by simp [ht]

@[simp] theorem canonical_saveWhere {s : State} {p : Nat → Nat → Bool}
    (hs : Canonical s.mem) : Canonical (saveWhere s p).mem := by
  unfold saveWhere
  exact canonical_foldl hs fun t a ht => by simp [ht]

@[simp] theorem out_execPreemptMarkTimeout {warp : Nat} {s : State}
    (hs : Canonical s.mem) : OutCanonical (execPreemptMarkTimeout warp s) := by simp [execPreemptMarkTimeout, hs]

@[simp] theorem closeSp_mem (s : State) (uid : Nat) :
    (closeSp s uid).mem = s.mem := foldl_mem _ _ _ fun t a => by split <;> simp

@[simp] theorem stopMma_mem (s : State) (o : Op) : (stopMma s o).mem = s.mem := by
  unfold stopMma
  split <;> simp

@[simp] theorem makeImage_mem (s : State) (b : Nat) (k : Block) : (makeImage s b k).mem = s.mem := by simp [makeImage]

theorem canonical_of_writeWarps {s t : State} {l : List (Nat × Warp)}
    (hs : Canonical s.mem) (h : writeWarps s l = .ok t) : Canonical t.mem := by
  induction l generalizing s with
  | nil => cases h; exact hs
  | cons e r ih =>
    unfold writeWarps at h
    split at h
    · exact ih hs h
    · split at h
      · next u hu => exact ih (canonical_of_writeContext hs hu) h
      · cases h

@[simp] theorem out_execBlockSaveComplete {block : Nat} {s : State}
    (hs : Canonical s.mem) : OutCanonical (execBlockSaveComplete block s) := by
  have h1 := canonical_foldl (l := blockWarps s block) (f := fun t e => closeSp (settleWarp t e.1) e.1) hs
    fun t e ht => by simp [ht]
  dsimp only [execBlockSaveComplete]
  split
  · simpa using hs
  · split
    · simpa using hs
    · split
      · simpa using h1
      · split
        · next e => simpa using canonical_of_writeWarps h1 e
        · split <;> simp -implicitDefEqProofs [h1]

theorem readHeader_mem {s : State} {uid : Nat} {w : Warp} {r : State × List Byte}
    (h : readHeader s uid w = .ok r) : r.1.mem = s.mem := by
  unfold readHeader at h
  split at h
  · next a _ =>
    cases hc : ctxRead s uid w a 4096 with
    | error x => simp [hc, Except.map] at h
    | ok u =>
      simp only [hc, Except.map, Except.ok.injEq] at h
      exact h ▸ ctxRead_mem hc
  · cases h

@[simp] theorem canonical_reloadWarp {s : State} {uid : Nat}
    (hs : Canonical s.mem) : Canonical (reloadWarp s uid).mem := by
  dsimp only [reloadWarp]
  split
  · exact hs
  · split
    · split <;> simp [hs]
    · simp -implicitDefEqProofs [hs]
    · next e =>
      replace e : _ = s.mem := readHeader_mem e
      split
      · simp [hs]
      · rwa [putWarp_mem, e]

@[simp] theorem canonical_unpark {s : State} {uid : Nat} (hs : Canonical s.mem) : Canonical (unpark s uid).mem := by
  unfold unpark
  split <;> simp -implicitDefEqProofs [hs]

@[simp] theorem out_execPurge {fn tag cause : Nat} {s : State}
    (hs : Canonical s.mem) : OutCanonical (execPurge fn tag cause s) := by simp [execPurge, hs]

/-! ## Pages -/

@[simp] theorem canonical_movePool {page tgt : Nat} {s : State} {pool : Nat}
    (hs : Canonical s.mem) : Canonical (movePool page tgt s pool).mem := by
  unfold movePool
  exact canonical_foldl hs fun t a ht => by simp [ht]

@[simp] theorem dropDups_mem (s : State) (page : Nat) : (dropDups s page).mem = s.mem := rfl

@[simp] theorem canonical_putLeaf {s : State} {a : Nat} {l : Leaf}
    (hs : Canonical s.mem) : Canonical (putLeaf s a l).mem := by simp [putLeaf, hs]

@[simp] theorem canonical_pruneDups {s : State} (hs : Canonical s.mem) : Canonical (pruneDups s).mem := by
  dsimp only [pruneDups]
  split
  · exact hs
  · exact canonical_foldl hs fun t page ht =>
      canonical_foldl (by simpa using ht) fun u m hu => canonical_putLeaf hu

@[simp] theorem canonical_modLeaves {s : State} {page : Nat} {f : Leaf → Leaf}
    (hs : Canonical s.mem) : Canonical (modLeaves s page f).mem := by
  unfold modLeaves
  exact canonical_foldl hs fun t a ht => by simp [ht]

@[simp] theorem canonical_moveBytes {s : State} {page tgt : Nat}
    (hs : Canonical s.mem) : Canonical (moveBytes s page tgt).mem := by simp [moveBytes, hs]

@[simp] theorem dropPage_mem (s : State) (page : Nat) : (dropPage s page).mem = s.mem := rfl

@[simp] theorem canonical_moveHome {s : State} {page tgt : Nat}
    (hs : Canonical s.mem) : Canonical (moveHome s page tgt).mem := by simp [moveHome, hs]

/-! ## Guest time -/

@[simp] theorem readTime_mem (s : State) (fn : Nat) : (readTime s fn).1.mem = s.mem := by
  unfold readTime
  split <;> simp

/-! ## Launches -/

@[simp] theorem dropMaster_mem (s : State) (m : Nat) : (dropMaster s m).mem = s.mem := by simp [dropMaster]

@[simp] theorem ownerReq_mem (s f : State) (m : Nat) : (ownerReq s m f).mem = if isOwner s m then f.mem else s.mem := by
  simp [ownerReq]

@[simp] theorem writerReq_mem (s f : State) (fn : Nat) :
    (writerReq s fn f).mem = if masterOf fn = 0 ∨ isOwner s (masterOf fn) then f.mem else s.mem := by
  by_cases h : masterOf fn = 0 <;> simp [writerReq, h]

@[simp] theorem queueError_mem (s : State) (fn cause : Nat) : (queueError s fn cause).mem = s.mem := rfl

@[simp] theorem ringBell_mem (s : State) (fn v : Nat) (f : Func) : (ringBell s fn v f).mem = s.mem := by simp [ringBell]

@[simp] theorem out_execLaunchDoorbell {fn value : Nat} {s : State}
    (hs : Canonical s.mem) : OutCanonical (execLaunchDoorbell fn value s) := by
  unfold execLaunchDoorbell
  split <;> simp [hs]

theorem deviceRead_mem {s : State} {fn va n : Nat} {r : FarRes} (h : deviceRead s fn va n = r) : r.st.mem = s.mem := by
  unfold deviceRead at h
  split at h
  · subst h; rfl
  · subst h; rfl
  · split at h
    · next e =>
      replace e : _ = s.mem := farPieces_mem e
      split at h <;> (subst h; exact e)
    · subst h; exact farPieces_mem rfl

@[simp] theorem out_execRingEntryConsume {fn : Nat} {s : State}
    (hs : Canonical s.mem) : OutCanonical (execRingEntryConsume fn s) := by
  dsimp only [execRingEntryConsume]
  split
  · simpa using hs
  · split
    · simpa using hs
    · split
      all_goals
        next e =>
        replace e : _ = s.mem := deviceRead_mem e
        simp_all

@[simp] theorem refuseLaunch_mem (s : State) (n cause : Nat) : (refuseLaunch s n cause).mem = s.mem := rfl

@[simp] theorem out_execLaunchAdmission {launch : Nat} {s : State}
    (hs : Canonical s.mem) : OutCanonical (execLaunchAdmission launch s) := by
  dsimp only [execLaunchAdmission]
  repeat' split
  all_goals simp [hs]

@[simp] theorem placeL1_mem (s : State) (die pair : Nat) : (placeL1 s die pair).mem = s.mem := rfl

@[simp] theorem canonical_placeNew {s : State} {n : Nat} {l : Launch} {die pair index : Nat}
    (hs : Canonical s.mem) : Canonical (placeNew s n l die pair index).mem := by
  unfold placeNew
  exact canonical_foldl hs fun t a ht => by simp [ht]

@[simp] theorem canonical_checkSeqs {s : State} {b : Nat} (hs : Canonical s.mem) : Canonical (checkSeqs s b).mem :=
  canonical_foldl hs fun t a ht => by split <;> simp -implicitDefEqProofs [ht]

@[simp] theorem canonical_placeSaved {s : State} {b : Nat} {k : Block} {pair : Nat}
    (hs : Canonical s.mem) : Canonical (placeSaved s b k pair).mem := by
  dsimp only [placeSaved]
  refine canonical_checkSeqs (canonical_foldl (by simpa using hs) fun t e ht => ?_)
  split <;> simp [ht]

theorem canonical_of_placeOne {s t : State} {n die : Nat} {x : Waiting}
    (hs : Canonical s.mem) (h : placeOne s n die x = some t) : Canonical t.mem := by
  unfold placeOne at h
  split at h
  · cases h
  · split at h
    · cases h
    · cases h; simp [hs]
    · obtain ⟨k, -, rfl⟩ := Option.map_eq_some_iff.mp h
      simp [hs]

theorem canonical_of_placeGang {s t : State} {n die : Nat} {l : List Waiting}
    (hs : Canonical s.mem) (h : placeGang s n die l = some t) : Canonical t.mem := by
  induction l generalizing s with
  | nil => cases h; exact hs
  | cons x r ih =>
    unfold placeGang at h
    split at h
    · cases h
    · next u hu => exact ih (canonical_of_placeOne hs hu) h

theorem exists_of_firstSome {α β : Type} {f : α → Option β} {l : List α} {b : β} (h : firstSome f l = some b) :
    ∃ a, f a = some b := by
  induction l with
  | nil => cases h
  | cons a r ih =>
    unfold firstSome at h
    split at h
    · next e => exact ⟨a, e.trans h⟩
    · exact ih h

theorem canonical_of_placeLaunch {s t : State} {die n : Nat} {l : Launch}
    (hs : Canonical s.mem) (h : placeLaunch s die n l = some t) : Canonical t.mem := by
  dsimp only [placeLaunch] at h
  split at h
  · split at h
    · cases h
    · exact canonical_of_placeGang hs h
  · obtain ⟨x, hx⟩ := exists_of_firstSome h
    exact canonical_of_placeOne hs hx

theorem canonical_of_dispatch {s t : State} {die : Nat} {head : Bool} {l : List (Nat × Launch)}
    (hs : Canonical s.mem) (h : dispatch s die head l = some t) : Canonical t.mem := by
  induction l generalizing head with
  | nil => cases h
  | cons e r ih =>
    unfold dispatch at h
    split at h
    · exact ih h
    · split at h
      · next e => cases h; exact canonical_of_placeLaunch hs e
      · split at h
        · cases h
        · exact ih h

@[simp] theorem vacate_mem (s : State) (l : List Nat) : (vacate s l).mem = s.mem := rfl

@[simp] theorem canonical_preemptFor {s : State} {die : Nat} {l : List (Nat × Launch)}
    (hs : Canonical s.mem) : Canonical (preemptFor s die l).mem := by
  unfold preemptFor
  split
  · exact canonical_foldl hs fun t e ht => by simp [ht]
  · exact hs

@[simp] theorem askWake_mem (s : State) (die : Nat) : (askWake s die).mem = s.mem := by
  unfold askWake
  split <;> simp

@[simp] theorem out_execBlockPlacement {die : Nat} {s : State}
    (hs : Canonical s.mem) : OutCanonical (execBlockPlacement die s) := by
  dsimp only [execBlockPlacement]
  split
  · simp [hs]
  · split
    · next e => simpa using canonical_of_dispatch hs e
    · simp [hs]

@[simp] theorem recordFault_mem (s : State) (n : Nat) (l : Launch) (cause : Nat) (f : XFault) :
    (recordFault s n l cause f).mem = s.mem := rfl

@[simp] theorem canonical_putRecord {s : State} {n : Nat} {l : Launch} {a : Nat}
    (hs : Canonical s.mem) : Canonical (putRecord s n l a).mem := by
  dsimp only [putRecord]
  repeat' split
  all_goals simp [hs]

@[simp] theorem out_execLaunchCompletionRecord {launch : Nat} {s : State}
    (hs : Canonical s.mem) : OutCanonical (execLaunchCompletionRecord launch s) := by
  dsimp only [execLaunchCompletionRecord]
  repeat' split
  all_goals simp [hs]

end Sys2Proof.Machine

/-! # Canonical memory: arrays, shuttle and collectives -/

namespace Sys2Proof.Machine

/-! ## Arrays -/

@[simp] theorem putRegion_mem (s : State) (n : Nat) (r : Region) : (putRegion s n r).mem = s.mem := rfl

@[simp] theorem arrayStatus_mem (s : State) (v : Nat) : (arrayStatus s v).mem = s.mem := rfl

@[simp] theorem grantStatus_mem (s : State) (handle : Nat) : (grantStatus s handle).mem = s.mem := rfl

@[simp] theorem queueReq_mem (s : State) (region : Nat) (q : ArrayReq) : (queueReq s region q).mem = s.mem := rfl

@[simp] theorem canonical_pfMigrate {s : State} {leaf va : Nat}
    (hs : Canonical s.mem) : Canonical (pfMigrate s leaf va).mem := by simp [pfMigrate, hs]

@[simp] theorem openEntry_mem (s : State) (region : Nat) (r : Region) (stage : Nat) :
    (openEntry s region r stage).mem = s.mem := rfl

@[simp] theorem setPhase_mem (s : State) (region : Nat) (r : Region) (phase : Nat) :
    (setPhase s region r phase).mem = s.mem := rfl

@[simp] theorem beginProgram_mem (s : State) (region : Nat) (r : Region) (q : ProgramReq) (stage : Nat) :
    (beginProgram s region r q stage).mem = s.mem := rfl

@[simp] theorem program_mem (s : State) (region : Nat) (q : ProgramReq) (old : Option Region) (img : FMap Tile)
    (sc : FMap W32) :
    (program s region q old img sc).1.mem = s.mem := by
  dsimp only [program]
  repeat' split
  all_goals simp

@[simp] theorem programFrom_mem (v s : State) (region : Nat) (q : ProgramReq) (old : Option Region) :
    (programFrom v s region q old).1.mem = s.mem := by
  unfold programFrom
  split
  · exact program_mem ..
  · exact arrayStatus_mem ..

@[simp] theorem canonical_serveProgram {s : State} {region : Nat} {q : ProgramReq}
    (hs : Canonical s.mem) : Canonical (serveProgram s region q).1.mem := by
  unfold serveProgram
  generalize programBlocked s q = blocked
  obtain _ | ⟨va, _ | leaf⟩ := blocked
  · dsimp only
    split
    · exact hs
    · split
      · rwa [programFrom_mem]
      · split
        · next e => exact canonical_of_farPieces hs e
        · next e => exact canonical_of_farPieces hs e
        · next e =>
          have ht := canonical_of_farPieces hs e
          split
          · exact ht
          · rw [programFrom_mem]; exact ht
  · dsimp only
    split <;> exact hs
  · dsimp only
    split
    · exact hs
    · exact canonical_pfMigrate hs

@[simp] theorem serveOffline_mem (s : State) (region : Nat) : (serveOffline s region).mem = s.mem := by
  unfold serveOffline
  split <;> simp

@[simp] theorem serveOnline_mem (s : State) (region : Nat) : (serveOnline s region).mem = s.mem := by
  unfold serveOnline
  split <;> simp

@[simp] theorem canonical_deliverScales {s : State} {r : Region} {dest : Nat}
    (hs : Canonical s.mem) : Canonical (deliverScales s r dest).mem := by simp [deliverScales, hs]

@[simp] theorem canonical_serveGrant {s : State} {region fn dest handle : Nat}
    (hs : Canonical s.mem) : Canonical (serveGrant s region fn dest handle).1.mem := by
  dsimp only [serveGrant]
  repeat' split
  all_goals simp -implicitDefEqProofs [hs]

@[simp] theorem dropGrant_mem (s : State) (region fn : Nat) : (dropGrant s region fn).mem = s.mem := rfl

@[simp] theorem serveFree_mem (s : State) (region : Nat) : (serveFree s region).mem = s.mem := by
  unfold serveFree
  split <;> simp

@[simp] theorem canonical_serveReq {s : State} {region : Nat} {q : ArrayReq}
    (hs : Canonical s.mem) : Canonical (serveReq s region q).1.mem := by
  cases q <;> simp [serveReq, hs]

@[simp] theorem out_arrayReq {s : State} {m region : Nat} {q : ArrayReq}
    (hs : Canonical s.mem) : OutCanonical (arrayReq s m region q) := by simp [arrayReq, hs]

@[simp] theorem canonical_arrayServe {s : State} {region : Nat}
    (hs : Canonical s.mem) : Canonical (arrayServe s region).mem := by
  unfold arrayServe
  split <;> simp [hs]

@[simp] theorem out_execRegionLeaveService {region : Nat} {s : State}
    (hs : Canonical s.mem) : OutCanonical (execRegionLeaveService region s) := by
  unfold execRegionLeaveService
  repeat' split
  all_goals simp [hs]

@[simp] theorem storeDigests_mem (s : State) (region : Nat) (l : FMap Tile) :
    (storeDigests s region l).mem = s.mem := rfl

@[simp] theorem out_execTilesWritten {region : Nat} {s : State}
    (hs : Canonical s.mem) : OutCanonical (execTilesWritten region s) := by
  unfold execTilesWritten
  split <;> simp [hs]

@[simp] theorem writeCells_mem (s : State) (region tile : Nat) (w : FMap Int) :
    (writeCells s region tile w).mem = s.mem := by
  unfold writeCells
  repeat' split
  all_goals simp

@[simp] theorem signTiles_mem (s : State) (r : Region) : (signTiles s r).1.mem = s.mem := rfl

@[simp] theorem canonical_acceptTiles {s : State} {region : Nat} {r : Region}
    (hs : Canonical s.mem) : Canonical (acceptTiles s region r).mem := by
  unfold acceptTiles
  exact canonical_foldl hs fun t a ht => by simp [ht]

@[simp] theorem out_execTileVerify {region : Nat} {verified : Bool} {s : State}
    (hs : Canonical s.mem) : OutCanonical (execTileVerify region verified s) := by
  unfold execTileVerify
  split <;> simp [hs]

@[simp] theorem modTile_mem (s : State) (region : Nat) (r : Region) (tile : Nat) (f : Tile → Tile) :
    (modTile s region r tile f).mem = s.mem := rfl

@[simp] theorem failService_mem (s : State) (region : Nat) (r : Region) :
    (failService s region r).mem = s.mem := by simp [failService]

@[simp] theorem out_execTailorProbe {region tile : Nat} {withinLimit : Bool} {s : State}
    (hs : Canonical s.mem) : OutCanonical (execTailorProbe region tile withinLimit s) := by
  unfold execTailorProbe
  repeat' split
  all_goals simp [hs]

@[simp] theorem out_execProbeDeadline {region tile : Nat} {s : State}
    (hs : Canonical s.mem) : OutCanonical (execProbeDeadline region tile s) := by
  unfold execProbeDeadline
  split <;> simp [hs]

@[simp] theorem finishCalibration_mem (s : State) (region : Nat) : (finishCalibration s region).mem = s.mem := by
  unfold finishCalibration
  split <;> simp

@[simp] theorem clearCopy_mem (s : State) (r : Region) (t : Tile) (copy : Nat) :
    (clearCopy s r t copy).mem = s.mem := rfl

@[simp] theorem out_execTailorPublish {region tile : Nat} {fit : CompCopy} {s : State}
    (hs : Canonical s.mem) : OutCanonical (execTailorPublish region tile fit s) := by
  unfold execTailorPublish
  repeat' split
  all_goals simp [hs]

@[simp] theorem replayJournal_mem (s : State) : (replayJournal s).mem = s.mem :=
  foldl_mem _ _ _ fun t e => by
    dsimp only
    split
    · rfl
    · split <;> simp

/-! ## Lane floating-point arithmetic -/

@[simp] theorem out_float2 {s : State} {o : LaneOp} {rok : Bool} {f : RMode → Num → Num → Coded}
    (hs : Canonical s.mem) : OutCanonical (float2 s o rok f) := by simp [float2, hs]

@[simp] theorem out_float1 {s : State} {o : LaneOp} {rok : Bool} {f : RMode → Num → Coded}
    (hs : Canonical s.mem) : OutCanonical (float1 s o rok f) := by simp [float1, hs]

/-! ## Tensor records and shuttle batches -/

@[simp] theorem out_trecPut {s : State} {w : Warp} {slot : Nat} {b : List Byte} {pois : Bool}
    (hs : Canonical s.mem) : OutCanonical (trecPut s w slot b pois) := by simp [trecPut, hs]

@[simp] theorem out_trecRead {s : State} {w : Warp} {slot h : Nat}
    (hs : Canonical s.mem) : OutCanonical (trecRead s w slot h) := by
  dsimp only [trecRead]
  split
  · simp [hs]
  · split
    · next e => exact out_trecPut (canonical_of_farBytes hs e)
    · next e => exact out_stall (canonical_of_farBytes hs e)
    · next e => exact (outCanonical_next _).2 (canonical_fabricLoss (canonical_of_farBytes hs e))

@[simp] theorem trecFault_mem (s : State) (w : Warp) (uid : Nat) (pf : Bool) (f : XFault) (va : W64) :
    (trecFault s w uid pf f va).mem = s.mem := by simp [trecFault]

@[simp] theorem out_trecRecord {s : State} {w : Warp} {f : XFault} {va : Nat}
    (hs : Canonical s.mem) : OutCanonical (trecRecord s w f va) := by simp [trecRecord, hs]

@[simp] theorem out_execTrec {slot a : Nat} {s : State}
    (hs : Canonical s.mem) : OutCanonical (execTrec slot a s) := out_onPath fun w p => by
  dsimp only
  repeat' split
  all_goals simp [hs]

@[simp] theorem engineBegin_mem (s : State) (w : Warp) (id item : Nat) : (engineBegin s w id item).mem = s.mem := rfl

@[simp] theorem out_addToBatch {s : State} {w : Warp} {p : Path} {op : ShOp}
    (hs : Canonical s.mem) : OutCanonical (addToBatch s w p op) := by simp [addToBatch, hs]

@[simp] theorem out_shTail {s : State} {w : Warp} {p : Path} {dst src : TRec} {k : Bool → ShOp}
    (hs : Canonical s.mem) : OutCanonical (shTail s w p dst src k) := by
  dsimp only [shTail]
  repeat' split
  all_goals simp [hs]

@[simp] theorem out_execShCopy {d a b : Nat} {s : State}
    (hs : Canonical s.mem) : OutCanonical (execShCopy d a b s) := out_onPath fun w p => by
  dsimp only
  repeat' split
  all_goals simp [hs]

@[simp] theorem out_execShFill {d a b : Nat} {s : State}
    (hs : Canonical s.mem) : OutCanonical (execShFill d a b s) := out_onPath fun w p => by
  dsimp only
  repeat' split
  all_goals simp [hs]

@[simp] theorem out_execShGather {d a b : Nat} {s : State}
    (hs : Canonical s.mem) : OutCanonical (execShGather d a b s) := out_onPath fun w p => by
  repeat' split
  all_goals simp [hs]

@[simp] theorem out_execShClose {s : State}
    (hs : Canonical s.mem) : OutCanonical (execShClose s) := by simp [execShClose, hs]

@[simp] theorem engineFault_mem (s : State) (w : Warp) (f : XFault) (va id item : Nat) :
    (engineFault s w f va id item).mem = s.mem := by simp [engineFault]

@[simp] theorem lowerEntry_mem (s : State) (o : Op) : (lowerEntry s o).mem = s.mem := by
  unfold lowerEntry
  split <;> simp

@[simp] theorem dropBatch_mem (s : State) (o : Op) : (dropBatch s o).mem = s.mem := by simp [dropBatch]

theorem sendEngine_mem {s t : State} {o : Op} {p : Packet} (h : sendEngine s o p = .ok t) : t.mem = s.mem := by
  unfold sendEngine at h
  split at h
  · cases h
  · split at h
    · cases h
    · cases h; simp

theorem canonical_afterHand {s : State} {o : Op} {w : Warp} {x : Handed} (hs : Canonical s.mem)
    (hx : ∀ t, x = .ok t → Canonical t.mem) : Canonical (afterHand s o w x).mem := by
  unfold afterHand
  split
  · exact hx _ rfl
  · exact hs
  · simp -implicitDefEqProofs [hs]

@[simp] theorem canonical_afterHand_sendEngine {s : State} {o : Op} {w : Warp} {p : Packet} (hs : Canonical s.mem) :
    Canonical (afterHand s o w (sendEngine s o p)).mem :=
  canonical_afterHand hs fun _ e => by rwa [sendEngine_mem e]

@[simp] theorem meterEngine_mem (s : State) (w : Warp) (t : TRec) : (meterEngine s w t).mem = s.mem := by
  unfold meterEngine
  split <;> simp

theorem canonical_of_readElem {s t : State} {o : Op} {w : Warp} {g : List Nat} {b : List Host.Cell} {p : List Nat}
    {r : TRec} {a : Nat} (hs : Canonical s.mem) (h : readElem s o w g b p r a = .halt t) : Canonical t.mem := by
  dsimp only [readElem] at h
  repeat' split at h
  all_goals cases h
  · exact hs
  · simp [hs]

@[simp] theorem setItem_mem (s : State) (id item : Nat) (f : ShOp → ShOp) : (setItem s id item f).mem = s.mem := rfl

@[simp] theorem canonical_noHome {s : State} {o : Op} {w : Warp} {item va : Nat} {x : ElemAt}
    (hs : Canonical s.mem) : Canonical (noHome s o w item va x).mem := by
  unfold noHome
  split <;> simp [hs]

@[simp] theorem canonical_readIndex {s : State} {o : Op} {item : Nat} {it : ShOp} {n : Nat}
    (hs : Canonical s.mem) : Canonical (readIndex s o item it n).1.mem := by
  dsimp only [readIndex]
  split <;> simp -implicitDefEqProofs [hs]

/-- The state that the taking of an element leaves. -/
@[simp] def Took.st : Took → State
  | .val s _ _ | .skip s | .halt s => s

theorem canonical_takeElem {s : State} {o : Op} {w : Warp} {item : Nat} {it : ShOp} {n : Nat}
    (hs : Canonical s.mem) : Canonical (takeElem s o w item it n).st.mem := by
  have h1 := canonical_readIndex (o := o) (item := item) (it := it) (n := n) hs
  unfold takeElem
  generalize readIndex s o item it n = r at h1
  obtain ⟨s1, it1⟩ := r
  dsimp only at h1 ⊢
  repeat' split
  · exact h1
  · exact h1
  · exact h1
  · exact h1
  · simpa using h1
  · simpa using h1
  · next e => exact canonical_of_readElem h1 e
  · simpa using h1
  · simp [h1]

@[simp] theorem canonical_coverElem {s : State} {o : Op} {item : Nat} {it : ShOp} {space : Space} {a size : Nat}
    {pois : Bool}
    (hs : Canonical s.mem) : Canonical (coverElem s o item it space a size pois).mem := by simp [coverElem, hs]

@[simp] theorem canonical_writeElem {s : State} {o : Op} {w : Warp} {item : Nat} {it : ShOp} {a v : Nat} {pois : Bool}
    (hs : Canonical s.mem) : Canonical (writeElem s o w item it a v pois).mem := by simp [writeElem, hs]

@[simp] theorem canonical_flushGran {s : State} {o : Op} {w : Warp} {item : Nat} {it : ShOp} {g : Nat}
    (hs : Canonical s.mem) : Canonical (flushGran s o w item it g).mem := by
  dsimp only [flushGran]
  split
  · next e => simpa [sendEngine_mem e] using hs
  · exact canonical_afterHand_sendEngine hs

@[simp] theorem sendPod_mem (s : State) (w : Warp) (pod va : Nat) (bytes : List Byte) (pois : Bool) :
    (sendPod s w pod va bytes pois).mem = s.mem := rfl

theorem canonical_of_placeElem {s t : State} {o : Op} {w : Warp} {item : Nat} {it : ShOp} {n v : Nat} {pois : Bool}
    (hs : Canonical s.mem) (h : placeElem s o w item it n v pois = .ok t ∨ placeElem s o w item it n v pois = .error t) :
    Canonical t.mem := by
  dsimp only [placeElem] at h
  split at h
  · obtain h | h := h <;> cases h
    exact hs
  · split at h
    · obtain h | h := h <;> cases h
      exact hs
    · obtain h | h := h <;> cases h
      simpa using hs
  · obtain h | h := h <;> cases h
    simp [hs]
  · obtain h | h := h <;> cases h
    simp [hs]

@[simp] theorem canonical_stepTake {s : State} {o : Op} {w : Warp} {item : Nat} {it : ShOp}
    (hs : Canonical s.mem) : Canonical (stepTake s o w item it).mem := by
  have h := canonical_takeElem (o := o) (w := w) (item := item) (it := it) (n := it.taken.length) hs
  unfold stepTake
  split <;> simp_all

@[simp] theorem nextElem_mem (s : State) (o : Op) (item : Nat) : (nextElem s o item).mem = s.mem := rfl

@[simp] theorem canonical_moveElem {s : State} {o : Op} {w : Warp} {item : Nat} {it : ShOp}
    (hs : Canonical s.mem) : Canonical (moveElem s o w item it).mem := by
  dsimp only [moveElem]
  generalize hg : (if it.whole then _ else _ : Took) = got
  have h : Canonical got.st.mem := by
    subst hg
    split
    · split <;> exact hs
    · exact canonical_takeElem hs
  cases got with
  | skip t => simpa using h
  | halt t => exact h
  | val t v p =>
    dsimp only
    split
    · next e => simpa using canonical_of_placeElem h (.inl e)
    · next e => exact canonical_of_placeElem h (.inr e)

@[simp] theorem canonical_stepElem {s : State} {o : Op} {w : Warp} {item : Nat} {it : ShOp}
    (hs : Canonical s.mem) : Canonical (stepElem s o w item it).mem := by
  dsimp only [stepElem]
  repeat' split
  all_goals simp -implicitDefEqProofs [hs]

theorem canonical_withItem {s : State} {id item : Nat} {k : Op → Warp → ShOp → State} (hs : Canonical s.mem)
    (hk : ∀ o w it, Canonical (k o w it).mem) : Canonical (withItem s id item k).mem := by
  unfold withItem
  split
  · exact hs
  · split
    · next l w _ _ => cases l[item]? <;> simp [hs, hk]
    · exact hs

@[simp] theorem canonical_runElems {id item n : Nat} {s : State} (hs : Canonical s.mem) :
    Canonical (runElems id item n s).mem := by
  induction n generalizing s with
  | zero => exact hs
  | succ n ih => exact ih (canonical_withItem hs fun o w it => by simp [hs])

@[simp] theorem out_execShuttleTransfer {op item n : Nat} {s : State}
    (hs : Canonical s.mem) : OutCanonical (execShuttleTransfer op item n s) :=
  (outCanonical_next _).2 <| canonical_withItem hs fun o w it => by
    split <;> simp -implicitDefEqProofs [hs]

@[simp] theorem canonical_openElement {s : State} {uid : Nat} {pf : Bool} {item : Nat}
    (hs : Canonical s.mem) : Canonical (openElement s uid pf item).mem := by
  dsimp only [openElement]
  split
  · exact hs
  · split
    · split
      · rw [modWarp_mem]
        exact canonical_withItem (by simp [hs]) fun o v it => by split <;> simp -implicitDefEqProofs [hs]
      · exact hs
    · exact hs

@[simp] theorem finishBatch_mem (s : State) (id : Nat) : (finishBatch s id).mem = s.mem := by
  unfold finishBatch
  split <;> simp

@[simp] theorem out_execShBatchComplete {op : Nat} {s : State}
    (hs : Canonical s.mem) : OutCanonical (execShBatchComplete op s) := by simp [execShBatchComplete, hs]

/-! ## Collectives -/

@[simp] theorem out_collIssue {s : State} {w : Warp} {p : Path} {c : CollOp}
    (hs : Canonical s.mem) : OutCanonical (collIssue s w p c) := by simp -implicitDefEqProofs [collIssue, hs]

@[simp] theorem out_coll {form d a b : Nat} {s : State}
    (hs : Canonical s.mem) : OutCanonical (coll form d a b s) := out_onPath fun w p => by
  dsimp only
  repeat' split
  all_goals simp [hs]

@[simp] theorem modColl_mem (s : State) (ids : List Nat) (f : CollOp → CollOp) : (modColl s ids f).mem = s.mem := rfl

theorem canonical_of_readSource {s t : State} {m : Member} {n : Nat}
    (hs : Canonical s.mem) (h : readSource s m n = .error t) : Canonical t.mem := by
  induction n generalizing t with
  | zero => cases h
  | succ n ih =>
    unfold readSource at h
    split at h
    · next e => cases h; exact ih e
    · dsimp only at h
      split at h
      · cases h
      · cases h
      · split at h
        · cases h
        · next e => cases h; exact canonical_of_readElem hs e
      · cases h; simpa using hs
      · cases h; simp [hs]
      · cases h; exact hs

theorem canonical_of_readSources {s t : State} {l : List Member}
    (hs : Canonical s.mem) (h : readSources s l = .error t) : Canonical t.mem := by
  induction l generalizing t with
  | nil => cases h
  | cons m r ih =>
    unfold readSources at h
    split at h
    · cases h; exact hs
    · split at h
      · next e => cases h; exact canonical_of_readSource hs e
      · split at h
        · next e => cases h; exact ih e
        · cases h

@[simp] theorem meterSource_mem (s : State) (m : Member) (l : List (Option (Nat × Bool))) :
    (meterSource s m l).mem = s.mem := by
  unfold meterSource
  repeat' split
  all_goals simp

theorem canonical_of_placesOf {s t : State} {m : Member} {n : Nat}
    (hs : Canonical s.mem) (h : placesOf s m n = .error t) : Canonical t.mem := by
  induction n generalizing t with
  | zero => cases h
  | succ n ih =>
    unfold placesOf at h
    split at h
    · next e => cases h; exact ih e
    · dsimp only at h
      split at h
      · cases h
      · cases h
      · cases h
      · cases h; simpa using hs
      · cases h; simp [hs]
      · cases h; exact hs

theorem canonical_of_placesAll {s t : State} {l : List Member}
    (hs : Canonical s.mem) (h : placesAll s l = .error t) : Canonical t.mem := by
  induction l generalizing t with
  | nil => cases h
  | cons m r ih =>
    unfold placesAll at h
    split at h
    · next e => cases h; exact canonical_of_placesOf hs e
    · split at h
      · next e => cases h; exact ih e
      · cases h

@[simp] theorem canonical_collWrite {s : State} {m : Member} {a : Nat} {v : Nat × Bool}
    (hs : Canonical s.mem) : Canonical (collWrite s m a v).mem := by
  have h1 : Canonical (meterEngine s m.w m.c.dst).mem := by simpa using hs
  dsimp only [collWrite]
  split
  · exact canonical_setCells_wrLe h1 _ _ _
  · split
    · next e => rwa [sendEngine_mem e]
    · exact canonical_afterHand_sendEngine h1

@[simp] theorem collAway_mem (s : State) (m : Member) (i : Nat) (v : Nat × Bool) : (collAway s m i v).mem = s.mem := by
  unfold collAway
  split <;> simp

@[simp] theorem canonical_collClear {s : State} {m : Member} {l : List Nat}
    (hs : Canonical s.mem) : Canonical (collClear s m l).mem := by simp [collClear, hs]

@[simp] theorem canonical_collStore {n : Nat} {src : FMap (List (Option (Nat × Bool)))} {s : State} {m : Member}
    {l : List (Option Nat)} (hs : Canonical s.mem) : Canonical (collStore n src s m l).mem := by
  dsimp only [collStore]
  refine canonical_foldl (by simp [hs]) fun t i ht => ?_
  split <;> simp -implicitDefEqProofs [ht]

@[simp] theorem collEnd_mem (s : State) (ms : List Member) : (collEnd s ms).mem = s.mem := by simp [collEnd]

@[simp] theorem canonical_collDisagree {s : State} {ms : List Member}
    (hs : Canonical s.mem) : Canonical (collDisagree s ms).mem :=
  canonical_foldl (by simp [hs]) fun t m ht => by simp [ht]

@[simp] theorem out_execCollComplete {op : Nat} {others : List CollPart} {s : State}
    (hs : Canonical s.mem) : OutCanonical (execCollComplete op others s) := by
  dsimp only [execCollComplete]
  split
  · simpa using hs
  · split
    · next o _ c w _ _ =>
      have h0 : Canonical ((members s (partOf s w.fn) c).foldl (fun t m => engineBegin t m.w m.o.id 0) s).mem :=
        canonical_foldl hs fun t m ht => by simp [ht]
      split
      · simpa using hs
      · split
        · simp [hs]
        · split
          · simpa using hs
          · split
            · simp [hs]
            · split
              · simpa using hs
              · split
                · next e => exact (outCanonical_next _).2 (canonical_of_readSources h0 e)
                · split
                  · next e => exact (outCanonical_next _).2 (canonical_of_placesAll h0 e)
                  · split
                    · simpa using hs
                    · refine (outCanonical_next _).2 (canonical_foldl ?_ fun t m ht => by split <;> simp [ht])
                      rw [collEnd_mem]
                      refine canonical_foldl (canonical_foldl h0 fun t m ht => ?_) fun t e ht => canonical_collStore ht
                      rwa [meterSource_mem]
    · simpa using hs

end Sys2Proof.Machine

/-! # Canonical memory: control, scheduling and queues -/

namespace Sys2Proof.Machine

/-! ## Branches and paths -/

@[simp] theorem out_taken {s : State} {w : Warp} {tgt : W64}
    (hs : Canonical s.mem) : OutCanonical (taken s w tgt) := by simp [taken, hs]

@[simp] theorem out_fell {s : State} {w : Warp} (hs : Canonical s.mem) : OutCanonical (fell s w) := by simp [fell, hs]

@[simp] theorem out_cmpBranch {s : State} {a b off : Nat} {c : W64 → W64 → Bool}
    (hs : Canonical s.mem) : OutCanonical (cmpBranch s a b off c) := by simp [cmpBranch, hs]

@[simp] theorem out_execB {off : Nat} {s : State}
    (hs : Canonical s.mem) : OutCanonical (execB off s) := by simp [execB, hs]

@[simp] theorem out_execCall {n off : Nat} {s : State}
    (hs : Canonical s.mem) : OutCanonical (execCall n off s) := by simp [execCall, hs]

@[simp] theorem out_execRet {a : Nat} {s : State}
    (hs : Canonical s.mem) : OutCanonical (execRet a s) := by simp [execRet, hs]

@[simp] theorem out_execLoop {a off : Nat} {s : State}
    (hs : Canonical s.mem) : OutCanonical (execLoop a off s) := by simp [execLoop, hs]

@[simp] theorem out_execBrd {kn toff joff : Nat} {s : State}
    (hs : Canonical s.mem) : OutCanonical (execBrd kn toff joff s) := out_onPath fun w p => by
  dsimp only
  repeat' split
  all_goals simp [hs]

@[simp] theorem canonical_breakBarrier {s : State} {uid : Nat} {pf : Bool}
    (hs : Canonical s.mem) : Canonical (breakBarrier s uid pf).mem := by
  dsimp only [breakBarrier]
  repeat' split
  all_goals simp -implicitDefEqProofs [hs]

@[simp] theorem tryMerge_mem (s : State) (uid : Nat) : (tryMerge s uid).mem = s.mem := by
  unfold tryMerge
  split <;> simp

@[simp] theorem canonical_waitJoin {s : State} {uid : Nat} {pf : Bool}
    (hs : Canonical s.mem) : Canonical (waitJoin s uid pf).mem := by simp [waitJoin, hs]

@[simp] theorem out_execJoin {s : State} (hs : Canonical s.mem) : OutCanonical (execJoin s) := out_onPath fun w p => by
  dsimp only
  repeat' split
  all_goals simp -implicitDefEqProofs [hs]

@[simp] theorem canonical_endPath {s : State} {uid : Nat} {pf : Bool} {rest : List DEntry}
    (hs : Canonical s.mem) : Canonical (endPath s uid pf rest).mem := by simp [endPath, hs]

@[simp] theorem out_execExit {s : State} (hs : Canonical s.mem) : OutCanonical (execExit s) := out_onPath fun w p => by
  dsimp only
  repeat' split
  all_goals simp -implicitDefEqProofs [hs]

/-! ## Barriers, POISON and CLAIM -/

@[simp] theorem putBar_mem (s : State) (w : Warp) (r : BarReq) (b : Bar) :
    (putBar s w r b).mem = s.mem := by simp [putBar]

@[simp] theorem finishWait_mem (s : State) (uid : Nat) (level : Bool) (n : Nat) :
    (finishWait s uid level n).mem = s.mem := by
  unfold finishWait
  split <;> simp

@[simp] theorem wakePhase_mem (s : State) (w : Warp) (r : BarReq) (phase : Bool) :
    (wakePhase s w r phase).mem = s.mem := by simp [wakePhase]

@[simp] theorem completePhase_mem (s : State) (w : Warp) (r : BarReq) (b : Bar) :
    (completePhase s w r b).mem = s.mem := by simp [completePhase]

theorem barArrive_mem {s t : State} {uid : Nat} {w : Warp} {r : BarReq} (h : barArrive s uid w r = .ok t) :
    t.mem = s.mem := by
  dsimp only [barArrive] at h
  repeat' split at h
  all_goals cases h
  all_goals simp

@[simp] theorem canonical_trapBoth {s : State} {uid : Nat} {pf : Bool} {cause : Nat}
    (hs : Canonical s.mem) : Canonical (trapBoth s uid pf cause).mem := by
  dsimp only [trapBoth]
  split
  · exact hs
  · exact canonical_foldl hs fun t q ht => by simp [ht]

@[simp] theorem canonical_barWait {s : State} {uid : Nat} {pf : Bool} {r : BarReq}
    (hs : Canonical s.mem) : Canonical (barWait s uid pf r).mem := by
  unfold barWait
  split <;> simp [hs]

@[simp] theorem barPast_mem (s : State) (uid : Nat) (pf : Bool) : (barPast s uid pf).mem = s.mem := rfl

@[simp] theorem canonical_barAct {s : State} {uid : Nat} {pf : Bool} {w : Warp} {r : BarReq}
    (hs : Canonical s.mem) : Canonical (barAct s uid pf w r).mem := by
  dsimp only [barAct]
  split
  · split
    · simp [hs]
    · next t e =>
      have ht : Canonical t.mem := by rwa [barArrive_mem e]
      split <;> simp [ht]
  · simp [hs]

@[simp] theorem out_barCommon {s : State} {w : Warp} {p : Path} {r : BarReq}
    (hs : Canonical s.mem) : OutCanonical (barCommon s w p r) := by
  dsimp only [barCommon]
  repeat' split
  all_goals simp [hs]

@[simp] theorem out_bar {s : State} {r : BarReq} (hs : Canonical s.mem) : OutCanonical (bar s r) := by simp [bar, hs]

@[simp] theorem out_lbar {s : State} {r : BarReq} (hs : Canonical s.mem) : OutCanonical (lbar s r) := by simp [lbar, hs]

@[simp] theorem levelExit_mem (s : State) (w : Warp) : (levelExit s w).mem = s.mem := by simp [levelExit]

@[simp] theorem out_execFence {scope : Nat} {s : State}
    (hs : Canonical s.mem) : OutCanonical (execFence scope s) := by simp [execFence, hs]

@[simp] theorem poisonHere_mem (s : State) (gs : List Nat) : (poisonHere s gs).mem = s.mem := rfl

@[simp] theorem out_execPoison {a b : Nat} {s : State} (hs : Canonical s.mem) : OutCanonical (execPoison a b s) :=
  out_onPath fun w p => by
    dsimp only
    split
    · simp [hs]
    · split
      · simp [hs]
      · split
        · simp [hs]
        · split
          · simp [hs]
          · exact out_poisonAway hs (fun t ht => by simp [ht]) fun t ht => by simp [ht]

@[simp] theorem canonical_claimPages {s : State} {w : Warp} {user : Bool} {l : List Nat}
    (hs : Canonical s.mem) : Canonical (claimPages s w user l).1.mem := by
  induction l generalizing s with
  | nil => exact hs
  | cons va r ih =>
    unfold claimPages
    split
    · exact ih (by simp -implicitDefEqProofs [hs])
    · exact ih hs

@[simp] theorem out_execClaim {d a b : Nat} {s : State}
    (hs : Canonical s.mem) : OutCanonical (execClaim d a b s) := out_onPath fun w p => by
  dsimp only
  repeat' split
  all_goals simp [hs]

/-! ## The core's own events -/

@[simp] theorem canonical_fillReg {s : State} {uid reg : Nat}
    (hs : Canonical s.mem) : Canonical (fillReg s uid reg).mem := by
  dsimp only [fillReg]
  split
  · exact hs
  · split
    · exact hs
    · split
      · exact hs
      · split
        · split
          · next t _ _ e => rwa [putWarp_mem, show t.mem = s.mem from lineRead_mem e]
          · simp [hs]
        · simp [hs]
        · simp [hs]

@[simp] theorem out_execRegisterFill {warp reg : Nat} {s : State}
    (hs : Canonical s.mem) : OutCanonical (execRegisterFill warp reg s) := by simp [execRegisterFill, hs]

@[simp] theorem canonical_evictReg {s : State} {uid reg : Nat}
    (hs : Canonical s.mem) : Canonical (evictReg s uid reg).mem := by
  dsimp only [evictReg]
  split
  · exact hs
  · split
    · exact hs
    · split
      · exact hs
      · split
        · exact hs
        · split
          · simpa using hs
          · split
            · next e => simpa using canonical_of_writeLines hs e
            · simp [hs]
            · simp [hs]

@[simp] theorem wakeBlocked_mem (s : State) (core : Nat) :
    (wakeBlocked s core).mem = s.mem := foldl_mem _ _ _ fun t a => by simp

@[simp] theorem canonical_primeWarp {s : State} {u : Nat} {w : Warp}
    (hs : Canonical s.mem) : Canonical (primeWarp s u w).mem := by
  unfold primeWarp
  split <;> simp [hs]

@[simp] theorem primeIdle_mem (s : State) (core : Nat) : (primeIdle s core).mem = s.mem := rfl

@[simp] theorem out_execLodgePrime {core : Nat} {s : State}
    (hs : Canonical s.mem) : OutCanonical (execLodgePrime core s) := by
  dsimp only [execLodgePrime]
  split <;> simp -implicitDefEqProofs [hs]

@[simp] theorem enterRink_mem (s : State) (u : Nat) : (enterRink s u).mem = s.mem := rfl

@[simp] theorem enterLodge_mem (s : State) (u : Nat) (st : WSt) : (enterLodge s u st).mem = s.mem := rfl

@[simp] theorem out_execRinkExchange {core : Nat} {s : State}
    (hs : Canonical s.mem) : OutCanonical (execRinkExchange core s) := by
  dsimp only [execRinkExchange]
  repeat' split
  all_goals simp [hs]

@[simp] theorem out_execLodgeAgeExchange {core : Nat} {s : State}
    (hs : Canonical s.mem) : OutCanonical (execLodgeAgeExchange core s) := by
  unfold execLodgeAgeExchange
  split <;> simp [hs]

@[simp] theorem out_execSpinDemotion {warp : Nat} {path : Bool} {s : State}
    (hs : Canonical s.mem) : OutCanonical (execSpinDemotion warp path s) := by simp [execSpinDemotion, hs]

@[simp] theorem out_execWatchdogExpiry {warp : Nat} {s : State}
    (hs : Canonical s.mem) : OutCanonical (execWatchdogExpiry warp s) := by
  unfold execWatchdogExpiry
  split <;> simp [hs]

@[simp] theorem out_execTrapEntry {warp : Nat} {path : Bool} {s : State}
    (hs : Canonical s.mem) : OutCanonical (execTrapEntry warp path s) := by
  dsimp only [execTrapEntry]
  repeat' split
  all_goals simp -implicitDefEqProofs [hs]

@[simp] theorem patrolBoot_mem (s : State) (die : Nat) (pc lbase : W64) :
    (patrolBoot s die pc lbase).mem = s.mem := by simp [patrolBoot]

@[simp] theorem supWarp_mem (s : State) (core : Nat) : (supWarp s core).1.mem = s.mem := by
  unfold supWarp
  split <;> simp

@[simp] theorem modSup_mem (s : State) (core : Nat) (f : Sup → Sup) : (modSup s core f).mem = s.mem := rfl

@[simp] theorem canonical_answerEngine {s : State} {id item page : Nat} {skip : Bool}
    (hs : Canonical s.mem) : Canonical (answerEngine s id item page skip).mem := by
  dsimp only [answerEngine]
  repeat' split
  all_goals simp -implicitDefEqProofs [hs]

@[simp] theorem canonical_answerTrec {s : State} {r : FRec} {uid : Nat} {pf skip : Bool}
    (hs : Canonical s.mem) : Canonical (answerTrec s r uid pf skip).mem := by
  unfold answerTrec
  repeat' split
  all_goals simp [hs]

@[simp] theorem canonical_answerRecord {s : State} {r : FRec} {skip : Bool}
    (hs : Canonical s.mem) : Canonical (answerRecord s r skip).mem := by
  unfold answerRecord
  split <;> simp [hs]

@[simp] theorem supIdle_mem (s : State) (core uid : Nat) : (supIdle s core uid).mem = s.mem := rfl

@[simp] theorem canonical_endRecord {s : State} {core uid : Nat} {skip : Bool}
    (hs : Canonical s.mem) : Canonical (endRecord s core uid skip).mem := by
  unfold endRecord
  split <;> simp -implicitDefEqProofs [hs]

@[simp] theorem canonical_supEntry {s : State} {uid : Nat} {w : Warp} {table : W64} {cls : Nat}
    (hs : Canonical s.mem) : Canonical (supEntry s uid w table cls).1.mem := by
  dsimp only [supEntry]
  split
  · exact hs
  · split
    · exact hs
    · simp [hs]
    · exact hs
    · split
      · next e => exact canonical_of_farBytes hs e
      · next e => exact canonical_of_farBytes hs e
      · next e => exact canonical_of_farBytes hs e

@[simp] theorem canonical_reviveSup {s : State} {uid : Nat}
    (hs : Canonical s.mem) : Canonical (reviveSup s uid).mem := by
  dsimp only [reviveSup]
  split
  · exact hs
  · split
    · next t _ e => rwa [putWarp_mem, show t.mem = s.mem from readHeader_mem e]
    · simpa using hs
    · simp -implicitDefEqProofs [hs]

@[simp] theorem out_execSupervisorRecordEntry {core : Nat} {s : State}
    (hs : Canonical s.mem) : OutCanonical (execSupervisorRecordEntry core s) := by
  dsimp only [execSupervisorRecordEntry]
  split
  · next r rest _ _ =>
    have h1 : Canonical (supWarp s core).1.mem := by rwa [supWarp_mem]
    have h2 := canonical_supEntry (uid := (supWarp s core).2.1) (w := { (supWarp s core).2.2 with fn := r.fn })
      (table := (supOf s core).table) (cls := r.cause / 16) h1
    split
    · simpa using hs
    · split
      · simp [hs]
      · split
        all_goals
          next e =>
          rw [e] at h2
          simp -implicitDefEqProofs [show Canonical _ from h2]
  · simpa using hs

@[simp] theorem endBlock_mem (s : State) (b : Nat) : (endBlock s b).mem = s.mem := by
  unfold endBlock
  split <;> simp

@[simp] theorem out_execWarpEnd {warp : Nat} {s : State}
    (hs : Canonical s.mem) : OutCanonical (execWarpEnd warp s) := by
  unfold execWarpEnd
  split <;> simp [hs]

/-! ## Fault queues and the host's requests -/

@[simp] theorem fqError_mem (s : State) (fn va cause : Nat) (walk : Bool) (ipa : Nat) :
    (fqError s fn va cause walk ipa).mem = s.mem := by simp [fqError]

theorem out_queueRead {s : State} {fn a n : Nat} {k : State → List Byte → Bool → Out}
    (hs : Canonical s.mem) (hk : ∀ t b p, Canonical t.mem → OutCanonical (k t b p)) :
    OutCanonical (queueRead s fn a n k) := by
  unfold queueRead
  split
  · next e => exact hk _ _ _ (canonical_of_farBytes hs e)
  · next e => exact (outCanonical_next _).2 (canonical_of_farBytes hs e)
  · next e => exact (outCanonical_next _).2 (canonical_of_farBytes hs e)

@[simp] theorem canonical_putEntry {s : State} {fn n : Nat} {f : Func} {r : FRec} {rest : List FRec} {a : Nat}
    (hs : Canonical s.mem) : Canonical (putEntry s fn n f r rest a).mem := by
  dsimp only [putEntry]
  repeat' split
  all_goals simp [hs]

@[simp] theorem out_execFaultRecordWrite {fn : Nat} {s : State}
    (hs : Canonical s.mem) : OutCanonical (execFaultRecordWrite fn s) := by
  unfold execFaultRecordWrite
  split
  · simpa using hs
  · split
    · simpa using hs
    · split
      · simpa using hs
      · split
        · split
          · simp [hs]
          · exact out_queueRead hs fun t b p ht => by simp -implicitDefEqProofs [ht]
        · simp [hs]
        · simpa using hs
        · simpa using hs

@[simp] theorem out_execFqerrClear {fn : Nat} {s : State}
    (hs : Canonical s.mem) : OutCanonical (execFqerrClear fn s) := by simp [execFqerrClear, hs]

@[simp] theorem canonical_endTake {s : State} {fn leaf home : Nat}
    (hs : Canonical s.mem) : Canonical (endTake s fn leaf home).mem := by simp [endTake, hs]

@[simp] theorem sendPart_mem (s : State) (fn b : Nat) (bytes : List Byte) (bad : Nat → Bool) :
    (sendPart s fn b bytes bad).mem = s.mem := by simp [sendPart]

@[simp] theorem canonical_placePart {s : State} {b : Nat} {bytes : List Byte} {bad : Nat → Bool}
    (hs : Canonical s.mem) : Canonical (placePart s b bytes bad).mem := by simp [placePart, hs]

@[simp] theorem canonical_copyPart {s : State} {job : MoveJob} {n : Nat}
    (hs : Canonical s.mem) : Canonical (copyPart s job n).1.mem := by
  dsimp only [copyPart]
  split
  · split <;> exact hs
  · split
    · next e => exact canonical_of_farBytes hs e
    · next e => exact canonical_of_farBytes hs e
    · next u b bad e =>
      have hu : Canonical u.mem := canonical_of_farBytes hs e
      split
      · simp [hu]
      · split
        · exact hs
        · simpa using hu

@[simp] theorem putCopy_mem (s : State) (fn entry : Nat) (job : Option MoveJob) :
    (putCopy s fn entry job).mem = s.mem := rfl

theorem canonical_runCopy {s : State} {job : MoveJob} {fin : State → State}
    (hs : Canonical s.mem) (hf : ∀ t, Canonical t.mem → Canonical (fin t).mem) : Canonical (runCopy s job fin).mem := by
  unfold runCopy
  split
  · exact hf _ hs
  · simp [hs]

@[simp] theorem canonical_takePage {s : State} {fn entry leaf bus : Nat}
    (hs : Canonical s.mem) : Canonical (takePage s fn entry leaf bus).1.mem := by
  dsimp only [takePage]
  split
  · split
    · exact canonical_runCopy hs fun t ht => by simp [ht]
    · exact canonical_runCopy hs fun t ht => ht
  · split
    · exact hs
    · split
      · exact hs
      · split
        · simp -implicitDefEqProofs [hs]
        · simpa using hs

@[simp] theorem walkAgain_mem (s : State) (page : Nat) : (walkAgain s page).mem = s.mem := rfl

@[simp] theorem canonical_retryRec {s0 : State} {r : FRec} {entry mark data : Nat}
    (hs : Canonical s0.mem) : Canonical (retryRec s0 r entry mark data).1.mem := by
  dsimp only [retryRec]
  split <;> simp -implicitDefEqProofs [hs]

@[simp] theorem canonical_purgeWarp {s : State} {u cause : Nat}
    (hs : Canonical s.mem) : Canonical (purgeWarp s u cause).mem := by
  unfold purgeWarp
  split <;> simp [hs]

@[simp] theorem canonical_purgeRec {s : State} {r : FRec} (hs : Canonical s.mem) : Canonical (purgeRec s r).mem := by
  unfold purgeRec
  split <;> simp [hs]

@[simp] theorem canonical_purgeGone {s : State} {r : FRec}
    (hs : Canonical s.mem) : Canonical (purgeGone s r).mem := by simp [purgeGone, hs]

@[simp] theorem canonical_freeEntry {s : State} {fn n a : Nat}
    (hs : Canonical s.mem) : Canonical (freeEntry s fn n a).mem := by simp [freeEntry, hs]

@[simp] theorem out_execFaultResponse {fn entry : Nat} {s : State}
    (hs : Canonical s.mem) : OutCanonical (execFaultResponse fn entry s) := by
  dsimp only [execFaultResponse]
  split
  · simpa using hs
  · split
    · refine out_queueRead hs fun t b p ht => ?_
      repeat' split
      all_goals simp -implicitDefEqProofs [ht]
    · simpa using hs

@[simp] theorem out_execHotnessProposal {port part page src : Nat} {s : State}
    (hs : Canonical s.mem) : OutCanonical (execHotnessProposal port part page src s) := by
  dsimp only [execHotnessProposal]
  repeat' split
  all_goals simp [hs]

@[simp] theorem out_execHotnessEpoch {port : Nat} {s : State}
    (hs : Canonical s.mem) : OutCanonical (execHotnessEpoch port s) := by simp [execHotnessEpoch, hs]

theorem out_withReq {s : State} {fn entry kind : Nat} {k : State → HostReq → Out}
    (hs : Canonical s.mem) (hk : ∀ t q, Canonical t.mem → OutCanonical (k t q)) :
    OutCanonical (withReq s fn entry kind k) := by
  unfold withReq
  split
  · simpa using hs
  · split
    · refine out_queueRead hs fun t b _ ht => ?_
      split
      · simpa using ht
      · simp [ht, hk]
    · simpa using hs

@[simp] theorem canonical_endReq {s : State} {fn : Nat} {q : HostReq} {done : Nat}
    (hs : Canonical s.mem) : Canonical (endReq s fn q done).mem := by simp [endReq, hs]

@[simp] theorem canonical_startMove {s : State} {job : MoveJob} {target : Nat}
    (hs : Canonical s.mem) : Canonical (startMove s job target).mem := by
  unfold startMove
  exact canonical_foldl hs fun t a ht => by simp [ht]

@[simp] theorem canonical_landPart {s : State} {job : MoveJob} {n : Nat}
    (hs : Canonical s.mem) : Canonical (landPart s job n).mem := by
  unfold landPart
  exact canonical_foldl hs fun t a ht => by simp [ht]

@[simp] theorem canonical_leavePart {s : State} {fn a : Nat}
    (hs : Canonical s.mem) : Canonical (leavePart s fn a).mem := by simp [leavePart, hs]

@[simp] theorem canonical_movePart {s : State} {job : MoveJob} {n : Nat}
    (hs : Canonical s.mem) : Canonical (movePart s job n).mem :=
  canonical_landPart (canonical_leavePart (canonical_copyRange hs _ _ _))

@[simp] theorem canonical_farPart {s : State} {job : MoveJob} {n : Nat}
    (hs : Canonical s.mem) : Canonical (farPart s job n).1.mem := by
  dsimp only [farPart]
  split
  · exact canonical_landPart (canonical_leavePart (canonical_copyPart hs))
  · exact canonical_copyPart hs

@[simp] theorem putMove_mem (s : State) (fn entry : Nat) (job : Option MoveJob) :
    (putMove s fn entry job).mem = s.mem := rfl

@[simp] theorem canonical_endMove {s : State} {job : MoveJob} {q : HostReq}
    (hs : Canonical s.mem) : Canonical (endMove s job q).mem := by
  dsimp only [endMove]
  have h1 : Canonical (job.leaves.foldl (fun t e => putLeaf t e.1 (leafRv (readLeaf t e.1) false 0)) s).mem :=
    canonical_foldl hs fun t e ht => canonical_putLeaf ht
  simp -implicitDefEqProofs [h1]

@[simp] theorem out_execMove {fn entry : Nat} {s0 : State}
    (hs : Canonical s0.mem) : OutCanonical (execMove fn entry s0) :=
  out_withReq hs fun s q hs => by
    split
    · simpa using hs
    · split
      · split
        · simp [hs]
        · split <;> simp -implicitDefEqProofs [hs]
      · split
        · simp [hs]
        · dsimp only
          split
          · split <;> simp [hs]
          · simp [hs]

@[simp] theorem canonical_endDup {s : State} {fn : Nat} {leaves : List Nat} {q : HostReq} {src dst : Nat}
    (hs : Canonical s.mem) : Canonical (endDup s fn leaves q src dst).mem := by
  dsimp only [endDup]
  exact canonical_endReq (canonical_foldl hs fun t b ht => canonical_putLeaf ht)

@[simp] theorem out_execDup {fn entry : Nat} {s0 : State}
    (hs : Canonical s0.mem) : OutCanonical (execDup fn entry s0) :=
  out_withReq hs fun s q hs => by
    split
    · simpa using hs
    · split
      · simp -implicitDefEqProofs [hs]
      · dsimp only
        split
        · split
          · simp -implicitDefEqProofs [hs]
          · exact (outCanonical_next _).2 (canonical_runCopy hs fun t ht => canonical_endDup ht)
        · split
          · split
            · simp [hs]
            · split
              · simp -implicitDefEqProofs [hs]
              · simpa using hs
          · simp [hs]

@[simp] theorem sendShoot_mem (fn home : Nat) (s : State) (m : Nat) : (sendShoot fn home s m).mem = s.mem := by
  dsimp only [sendShoot]
  repeat' split
  all_goals simp

@[simp] theorem canonical_startEvict {s : State} {fn entry leaf home : Nat} {q : HostReq}
    (hs : Canonical s.mem) : Canonical (startEvict s fn entry leaf home q).mem := by simp [startEvict, hs]

@[simp] theorem canonical_endEvict {s : State} {j : EvictJob} {at' : Nat} {q : HostReq}
    (hs : Canonical s.mem) : Canonical (endEvict s j at' q).mem := by
  dsimp only [endEvict]
  exact canonical_endReq (canonical_putLeaf (by rw [dropPage_mem]; exact canonical_putLeaf hs))

theorem canonical_evictBytes {s : State} {j : EvictJob} {k : State → State}
    (hs : Canonical s.mem) (hk : ∀ t, Canonical t.mem → Canonical (k t).mem) : Canonical (evictBytes s j k).mem := by
  dsimp only [evictBytes]
  split
  · exact hk _ (by simp [hs])
  · split
    · next e => exact hk _ (canonical_wrBytes (canonical_of_farBytes hs e) _ _)
    · next e => exact canonical_of_farBytes hs e
    · next e => exact canonical_of_farBytes hs e

@[simp] theorem out_execEvict {fn entry : Nat} {s0 : State}
    (hs : Canonical s0.mem) : OutCanonical (execEvict fn entry s0) :=
  out_withReq hs fun s q hs => by
    split
    · simpa using hs
    · split
      · split
        · exact (outCanonical_next _).2 (canonical_evictBytes hs fun t ht => canonical_endEvict ht)
        · exact (outCanonical_next _).2 (canonical_foldl hs fun t m ht => by simp [ht])
      · split
        · simp [hs]
        · dsimp only
          split
          · simpa using hs
          · split
            · simp [hs]
            · split <;> simp [hs]

@[simp] theorem out_execShoot {src home : Nat} {s : State}
    (hs : Canonical s.mem) : OutCanonical (execShoot src home s) := by simp [execShoot, hs]

@[simp] theorem out_execShootAnswer {module home : Nat} {s : State}
    (hs : Canonical s.mem) : OutCanonical (execShootAnswer module home s) := by simp [execShootAnswer, hs]

end Sys2Proof.Machine

/-! # Canonical memory: fabric, fetching and the host -/

namespace Sys2Proof.Machine

/-! ## Packets that arrive -/

@[simp] theorem respond_mem (s : State) (p : Packet) (kind : Nat) (payload : List Byte) (pois : Nat) :
    (respond s p kind payload pois).mem = s.mem := by simp [respond]

@[simp] theorem putWindow_mem (s : State) (p : Packet) (w : Window) : (putWindow s p w).mem = s.mem := rfl

@[simp] theorem applied_mem (s : State) (p : Packet) (words : List W32) : (applied s p words).mem = s.mem := rfl

@[simp] theorem countRx_mem (s : State) (p : Packet) : (countRx s p).mem = s.mem := rfl

@[simp] theorem countHot_mem (s : State) (p : Packet) (write : Bool) :
    (countHot s p write).mem = s.mem := by simp [countHot]

theorem canonical_atHome {s : State} {p : Packet} {again : State → List W32 → State} {first : State}
    (hs : Canonical s.mem) (ha : ∀ t l, Canonical t.mem → Canonical (again t l).mem) (hf : Canonical first.mem) :
    Canonical (atHome s p again first).mem := by
  dsimp only [atHome]
  split
  · simpa using hs
  · split
    · exact ha _ _ hs
    · exact hf

@[simp] theorem sendRdata_mem (s : State) (p : Packet) : (sendRdata s p).mem = s.mem := by simp [sendRdata]

@[simp] theorem out_execRead {p : Packet} {s : State} (hs : Canonical s.mem) : OutCanonical (execRead p s) := by
  unfold execRead
  split
  · simpa using hs
  · exact (outCanonical_next _).2 (canonical_atHome hs (fun t _ ht => by simp [ht]) (by simp [hs]))

@[simp] theorem canonical_applyWrite {s : State} {p : Packet} (hs : Canonical s.mem) : Canonical (applyWrite s p).mem :=
  List.foldlRecOn (motive := Canonical) _ _ hs fun _ hm _ _ => canonical_wrByte hm _ _

@[simp] theorem out_execWrite {p : Packet} {s : State} (hs : Canonical s.mem) : OutCanonical (execWrite p s) := by
  unfold execWrite
  split
  · simpa using hs
  · exact (outCanonical_next _).2 <|
      canonical_atHome hs (fun t _ ht => by simp [ht]) (by simp -implicitDefEqProofs [hs])

@[simp] theorem canonical_applyEwrite {s : State} {p : Packet}
    (hs : Canonical s.mem) : Canonical (applyEwrite s p).mem := by simp [applyEwrite, hs]

@[simp] theorem out_execEwrite {p : Packet} {s : State} (hs : Canonical s.mem) : OutCanonical (execEwrite p s) := by
  unfold execEwrite
  split
  · simpa using hs
  · exact (outCanonical_next _).2 <|
      canonical_atHome hs (fun t _ ht => by simp [ht]) (by simp -implicitDefEqProofs [hs])

@[simp] theorem canonical_atomWords {p : Packet} {signed : Bool} {l : List Nat} {k : Nat} {s : State}
    (hs : Canonical s.mem) : Canonical (atomWords p signed l k s).1.mem := by
  induction l generalizing k s with
  | nil => exact hs
  | cons i r ih => exact ih (canonical_wrLe hs _ _ _)

@[simp] theorem canonical_applyAtomic {s : State} {p : Packet}
    (hs : Canonical s.mem) : Canonical (applyAtomic s p).mem := by simp [applyAtomic, hs]

@[simp] theorem out_execAtomic {p : Packet} {s : State} (hs : Canonical s.mem) : OutCanonical (execAtomic p s) := by
  unfold execAtomic
  split
  · simpa using hs
  · exact (outCanonical_next _).2 <|
      canonical_atHome hs (fun t l ht => by split <;> simp [ht]) (by simp -implicitDefEqProofs [hs])

@[simp] theorem retirePacket_mem (s : State) (e : BEntry) : (retirePacket s e).mem = s.mem := by simp [retirePacket]

@[simp] theorem lanesBack_mem (s : State) (o : Op) (m : LaneMem) (lanes : W32) (got : Lanes) :
    (lanesBack s o m lanes got).mem = s.mem := by simp [lanesBack]

@[simp] theorem engineData_mem (s : State) (o : Op) (p : Packet) : (engineData s o p).mem = s.mem := by
  unfold engineData
  repeat' split
  all_goals simp

@[simp] theorem holdFar_mem (s : State) (o : Op) (w : Warp) (m : LaneMem) (p : Packet) :
    (holdFar s o w m p).mem = s.mem := by simp [holdFar]

@[simp] theorem keepGran_mem (s : State) (e : BEntry) (data : List Byte) (pois lost : Bool) :
    (keepGran s e data pois lost).mem = s.mem := rfl

@[simp] theorem out_execRdata {p : Packet} {s : State} (hs : Canonical s.mem) : OutCanonical (execRdata p s) := by
  dsimp only [execRdata]
  repeat' split
  all_goals simp [hs]

@[simp] theorem poisBack_mem (s : State) (o : Op) (va n : Nat) (todo wire : List Nat) :
    (poisBack s o va n todo wire).mem = s.mem := by simp [poisBack]

@[simp] theorem forgetFar_mem (s : State) (o : Op) (p : Packet) : (forgetFar s o p).mem = s.mem := by
  unfold forgetFar
  cases fget s.warps o.warp <;> simp

@[simp] theorem out_execAck {p : Packet} {s : State} (hs : Canonical s.mem) : OutCanonical (execAck p s) := by
  dsimp only [execAck]
  repeat' split
  all_goals simp [hs]

@[simp] theorem out_execAresult {p : Packet} {s : State} (hs : Canonical s.mem) : OutCanonical (execAresult p s) := by
  dsimp only [execAresult]
  repeat' split
  all_goals simp [hs]

@[simp] theorem modBobbin_mem (s : State) (f : BEntry → BEntry) : (modBobbin s f).mem = s.mem := rfl

@[simp] theorem out_execReject {p : Packet} {s : State}
    (hs : Canonical s.mem) : OutCanonical (execReject p s) := by simp [execReject, hs]

@[simp] theorem out_execRejectResend {entry : Nat} {s : State}
    (hs : Canonical s.mem) : OutCanonical (execRejectResend entry s) := by
  unfold execRejectResend
  repeat' split
  all_goals simp [hs]

@[simp] theorem homeFull_mem (s : State) (p : Packet) : (homeFull s p).mem = s.mem := by simp [homeFull]

@[simp] theorem requeue_mem (s : State) (p : Packet) : (requeue s p).mem = s.mem := by
  dsimp only [requeue]
  repeat' split
  all_goals simp

@[simp] theorem canonical_lostPacket {s : State} {e : BEntry}
    (hs : Canonical s.mem) : Canonical (lostPacket s e).mem := by
  unfold lostPacket
  repeat' split
  all_goals simp [hs]

@[simp] theorem canonical_dropRouteless {s : State} {dest : Nat}
    (hs : Canonical s.mem) : Canonical (dropRouteless s dest).mem := by
  dsimp only [dropRouteless]
  rw [pump_mem]
  exact canonical_foldl hs fun t e ht => by simp [ht]

@[simp] theorem putRoute_mem (s : State) (dest : Nat) (r : Route) : (putRoute s dest r).mem = s.mem := rfl

@[simp] theorem canonical_replay {s : State} {dest : Nat} {failed : Nat → Bool}
    (hs : Canonical s.mem) : Canonical (replay s dest failed).mem := by simp [replay, hs]

@[simp] theorem canonical_failRoutes {s : State} {dest : Nat} {failed : Nat → Bool}
    (hs : Canonical s.mem) : Canonical (failRoutes s dest failed).mem := by simp -implicitDefEqProofs [failRoutes, hs]

@[simp] theorem out_execLinkDown {port : Nat} {s : State}
    (hs : Canonical s.mem) : OutCanonical (execLinkDown port s) := by
  dsimp only [execLinkDown]
  split
  · simpa using hs
  · exact (outCanonical_next _).2 (by
      rw [raiseVector_mem]
      exact canonical_foldl hs fun t d ht => by simp [ht])

@[simp] theorem out_execInvalidPacket {port : Nat} {p : Packet} {s : State}
    (hs : Canonical s.mem) : OutCanonical (execInvalidPacket port p s) := by simp [execInvalidPacket, hs]

@[simp] theorem out_execAckTimeout {dest : Nat} {s : State}
    (hs : Canonical s.mem) : OutCanonical (execAckTimeout dest s) := by
  dsimp only [execAckTimeout]
  split <;> simp -implicitDefEqProofs [hs]

@[simp] theorem out_execLinkUp {port : Nat} {s : State}
    (hs : Canonical s.mem) : OutCanonical (execLinkUp port s) := by simp -implicitDefEqProofs [execLinkUp, hs]

@[simp] theorem out_execRoute {m dest entry : Nat} {s : State}
    (hs : Canonical s.mem) : OutCanonical (execRoute m dest entry s) := by simp -implicitDefEqProofs [execRoute, hs]

/-! ## Fetching -/

@[simp] theorem out_execMalformedEncoding {detail : Nat} {s : State}
    (hs : Canonical s.mem) : OutCanonical (execMalformedEncoding detail s) := by simp [execMalformedEncoding, hs]

@[simp] theorem out_laneWordFault {s : State} {detail k : Nat}
    (hs : Canonical s.mem) : OutCanonical (laneWordFault s detail k) := by simp [laneWordFault, hs]

@[simp] theorem out_execLaneOpcodeUnassigned {opcode : Nat} {s : State}
    (hs : Canonical s.mem) : OutCanonical (execLaneOpcodeUnassigned opcode s) := by simp [execLaneOpcodeUnassigned, hs]

theorem out_withWords {s : State} {w : Warp} {l : List Nat} {k : State → List Nat → Out}
    (hs : Canonical s.mem) (hk : ∀ t l, Canonical t.mem → OutCanonical (k t l)) : OutCanonical (withWords s w l k) := by
  unfold withWords
  split
  · next e => exact hk _ _ (canonical_of_farPieces hs e)
  · next e => exact out_stall (canonical_of_farPieces hs e)
  · next e => exact (outCanonical_next _).2 (canonical_fabricLoss (canonical_of_farPieces hs e))

@[simp] theorem out_execInstructionFetchFault {cause : Nat} {s : State}
    (hs : Canonical s.mem) : OutCanonical (execInstructionFetchFault cause s) := out_onPath fun w p => by
  repeat' split
  all_goals simp [hs]

@[simp] theorem out_clauseFetchStop {s : State} {c : LCtx} {e : Nat × XRes}
    (hs : Canonical s.mem) : OutCanonical (clauseFetchStop s c e) := by
  unfold clauseFetchStop
  split <;> simp [hs]

@[simp] theorem out_execClauseFetch {s : State} (hs : Canonical s.mem) : OutCanonical (execClauseFetch s) :=
  out_onPath fun w p => by
    split
    · simpa using hs
    · next k _ =>
      split
      · simpa using hs
      · extract_lets c q
        cases fetchAddrs s q k.addr.toNat 3 with
        | error e => simp [hs]
        | ok l =>
          refine out_withWords hs fun _ top _ => ?_
          extract_lets h
          cases hdrFault h with
          | some d => simp [hs]
          | none =>
            cases fetchAddrs s q (k.addr.toNat + 12) (3 * (h.count + 1)) with
            | error e => simp [hs]
            | ok m => exact out_withWords hs fun t all ht => by simp [ht]

@[simp] theorem out_execClauseStart {s : State}
    (hs : Canonical s.mem) : OutCanonical (execClauseStart s) := out_onPath fun w p => by
  repeat' split
  all_goals simp [hs]

/-! ## The host interface -/

@[simp] theorem out_execSetxd {requester target : Nat} {d : XlateDesc} {s : State}
    (hs : Canonical s.mem) : OutCanonical (execSetxd requester target d s) := by simp [execSetxd, hs]

@[simp] theorem out_ownerCmd {s : State} {m cmd : Nat} {f : Own → Own × Nat}
    (hs : Canonical s.mem) : OutCanonical (ownerCmd s m cmd f) := by simp [ownerCmd, hs]

@[simp] theorem out_execOwnerInvalidCmd {m cmd : Nat} {s : State}
    (hs : Canonical s.mem) : OutCanonical (execOwnerInvalidCmd m cmd s) := by simp [execOwnerInvalidCmd, hs]

@[simp] theorem out_execOwnerLapse {s : State}
    (hs : Canonical s.mem) : OutCanonical (execOwnerLapse s) := by simp [execOwnerLapse, hs]

@[simp] theorem out_execOfferTimeout {s : State}
    (hs : Canonical s.mem) : OutCanonical (execOfferTimeout s) := by simp [execOfferTimeout, hs]

@[simp] theorem out_writeOwnctl {m v : Nat} {s : State} (hs : Canonical s.mem) : OutCanonical (writeOwnctl m v s) := by
  dsimp only [writeOwnctl]
  generalize hu : (if isOwner s m then _ else s : State) = u
  have h1 : Canonical u.mem := by
    subst hu
    split <;> exact hs
  split
  case h_7 => exact out_execOwnerInvalidCmd h1
  all_goals exact out_ownerCmd h1

@[simp] theorem applyTime_mem (s : State) (fn : Nat) : (applyTime s fn).mem = s.mem := by
  unfold applyTime
  split <;> simp

@[simp] theorem out_execGtctlApply {fn : Nat} {s : State}
    (hs : Canonical s.mem) : OutCanonical (execGtctlApply fn s) := by simp [execGtctlApply, hs]

@[simp] theorem out_execGtctlStop {fn : Nat} {stop : Bool} {s : State}
    (hs : Canonical s.mem) : OutCanonical (execGtctlStop fn stop s) := by simp [execGtctlStop, hs]

@[simp] theorem writeGtctl_mem (s : State) (fn v : Nat) : (writeGtctl s fn v).mem = s.mem := by simp [writeGtctl]

@[simp] theorem writeGt_mem (s : State) (fn reg v : Nat) : (writeGt s fn reg v).mem = s.mem := by
  unfold writeGt
  split <;> simp

@[simp] theorem enableVfs_mem (s : State) : (enableVfs s).mem = s.mem := by simp [enableVfs]

@[simp] theorem writeFuncReg_mem (s : State) (fn offset v : Nat) : (writeFuncReg s fn offset v).mem = s.mem := by
  unfold writeFuncReg
  split <;> simp

@[simp] theorem writePfReg_mem (s : State) (offset v : Nat) :
    (writePfReg s offset v).mem = s.mem := by simp [writePfReg]

@[simp] theorem out_writeReg {m fn offset v : Nat} {s : State}
    (hs : Canonical s.mem) : OutCanonical (writeReg m fn offset v s) := by simp [writeReg, hs]

@[simp] theorem out_execRegisterWrite {fn offset value : Nat} {s : State}
    (hs : Canonical s.mem) : OutCanonical (execRegisterWrite fn offset value s) := by
  unfold execRegisterWrite
  split <;> simp [hs]

@[simp] theorem hostRead_mem (s : State) (m fn offset : Nat) : (hostRead s m fn offset).mem = s.mem := rfl

@[simp] theorem canonical_dropWork {s : State} {fn cause : Nat}
    (hs : Canonical s.mem) : Canonical (dropWork s fn cause).mem := by
  have h1 := canonical_purgeLaunches (hit := fun l => l.fn = fn) (cause := cause) (report := false) hs
  dsimp only [dropWork]
  refine canonical_foldl (canonical_foldl h1 fun t e ht => ?_) fun t g ht => by simp [ht]
  split
  · split
    · simp [ht]
    · exact ht
  · exact ht

@[simp] theorem freePages_mem (s : State) (l : List Nat) : (freePages s l).mem = s.mem := by simp [freePages]

@[simp] theorem dropJobs_mem (s : State) (fn : Nat) : (dropJobs s fn).mem = s.mem := rfl

@[simp] theorem canonical_startClear {s : State} {fn : Nat}
    (hs : Canonical s.mem) : Canonical (startClear s fn).mem := by simp [startClear, hs]

@[simp] theorem out_execVfEnableClear {s : State} (hs : Canonical s.mem) : OutCanonical (execVfEnableClear s) := by
  dsimp only [execVfEnableClear]
  split
  · simpa using hs
  · exact (outCanonical_next _).2 <| canonical_foldl (canonical_foldl hs fun t v ht => by simp [ht]) fun t v ht => by
      simp [ht]

@[simp] theorem dropGrants_mem (s : State) (fn : Nat) :
    (dropGrants s fn).mem = s.mem := foldl_mem _ _ _ fun t a => by simp

@[simp] theorem canonical_resetPf {s : State}
    (hs : Canonical s.mem) : Canonical (resetPf s).mem := by simp [resetPf, hs]

@[simp] theorem out_execFlr {fn : Nat} {s : State}
    (hs : Canonical s.mem) : OutCanonical (execFlr fn s) := by simp [execFlr, hs]

@[simp] theorem out_execVfClearComplete {fn : Nat} {s : State}
    (hs : Canonical s.mem) : OutCanonical (execVfClearComplete fn s) := by simp [execVfClearComplete, hs]

@[simp] theorem out_execFreedPageZeroed {s : State} (hs : Canonical s.mem) : OutCanonical (execFreedPageZeroed s) := by
  dsimp only [execFreedPageZeroed]
  exact (outCanonical_next _).2 (canonical_foldl hs fun t p ht => by simp -implicitDefEqProofs [ht])

@[simp] theorem out_execWarmStart {s : State}
    (hs : Canonical s.mem) : OutCanonical (execWarmStart s) := by simp -implicitDefEqProofs [execWarmStart, hs]

@[simp] theorem canonical_powerOff {s : State} {a : Arrays}
    (hs : Canonical s.mem) : Canonical (powerOff s a).mem := by simp [powerOff, hs]

@[simp] theorem out_execColdStart {s : State}
    (hs : Canonical s.mem) : OutCanonical (execColdStart s) := by simp [execColdStart, hs]

@[simp] theorem out_execPowerLoss {s : State}
    (hs : Canonical s.mem) : OutCanonical (execPowerLoss s) := by simp [execPowerLoss, hs]

end Sys2Proof.Machine

/-! # Canonical memory: the other instructions -/

namespace Sys2Proof.Machine

/-! ## Lane bit operations -/

@[simp] theorem out_bit1 {s : State} {o : LaneOp} {tag : Fmt} {f : W32 → W32}
    (hs : Canonical s.mem) : OutCanonical (bit1 s o tag f) := by simp [bit1, hs]

@[simp] theorem out_bit2 {s : State} {o : LaneOp} {fa tag : Fmt} {f : W32 → W32 → W32}
    (hs : Canonical s.mem) : OutCanonical (bit2 s o fa tag f) := by simp [bit2, hs]

@[simp] theorem out_bit3 {s : State} {o : LaneOp} {f : W32 → W32 → W32 → W32}
    (hs : Canonical s.mem) : OutCanonical (bit3 s o f) := by simp [bit3, hs]

/-! ## Conversion -/

@[simp] theorem out_execPack {o : LaneOp} {s : State}
    (hs : Canonical s.mem) : OutCanonical (execPack o s) := by simp [execPack, hs]

@[simp] theorem out_execUnpack {o : LaneOp} {s : State}
    (hs : Canonical s.mem) : OutCanonical (execUnpack o s) := by simp [execUnpack, hs]

@[simp] theorem out_execQnt {o : LaneOp} {s : State}
    (hs : Canonical s.mem) : OutCanonical (execQnt o s) := by simp [execQnt, hs]

@[simp] theorem out_execDqnt {o : LaneOp} {s : State}
    (hs : Canonical s.mem) : OutCanonical (execDqnt o s) := by simp [execDqnt, hs]

/-! ## Lane integer arithmetic -/

@[simp] theorem out_intForm {s : State} {o : LaneOp} {srcs : List Src} {f : LIn → Nat → Nat → Int}
    (hs : Canonical s.mem) : OutCanonical (intForm s o srcs f) := by simp [intForm, hs]

@[simp] theorem out_dotForm {s : State} {o : LaneOp}
    (hs : Canonical s.mem) : OutCanonical (dotForm s o) := by simp [dotForm, hs]

/-! ## Lane data movement -/

@[simp] theorem out_shuffle {s : State} {o : LaneOp} {src : LIn → Nat → Nat}
    (hs : Canonical s.mem) : OutCanonical (shuffle s o src) := by simp [shuffle, hs]

/-! ## The SYS instructions -/

@[simp] theorem out_requestTrap {ends : Bool} {cause imm : Nat} {s : State}
    (hs : Canonical s.mem) : OutCanonical (requestTrap ends cause imm s) :=
  by simp -implicitDefEqProofs [requestTrap, hs]

theorem out_sysForm {s : State} {f : Warp → Path → Out}
    (hs : Canonical s.mem) (hf : ∀ w p, OutCanonical (f w p)) : OutCanonical (sysForm s f) :=
  out_privileged hs fun w p => by simp [hs, hf]

@[simp] theorem out_rets {mode : Nat} {s : State}
    (hs : Canonical s.mem) : OutCanonical (rets mode s) := out_privileged hs fun w p => by
  dsimp only
  repeat' split
  all_goals simp -implicitDefEqProofs [hs]

@[simp] theorem putCluster_mem (s : State) (die c : Nat) (x : Cluster) : (putCluster s die c x).mem = s.mem := rfl

@[simp] theorem putPatrol_mem (s : State) (die : Nat) (x : Patrol) : (putPatrol s die x).mem = s.mem := rfl

theorem out_withSysReg {s : State} {a reg : Nat} {f : Warp → Path → Nat → SysReg → Out}
    (hs : Canonical s.mem) (hf : ∀ w p i r, OutCanonical (f w p i r)) : OutCanonical (withSysReg s a reg f) :=
  out_onPath fun w p => by
    dsimp only
    split
    · simp [hs]
    · simp [hs, hf]

@[simp] theorem out_execSysrd {d a reg : Nat} {s : State} (hs : Canonical s.mem) : OutCanonical (execSysrd d a reg s) :=
  out_withSysReg hs fun w p i r => by simp -implicitDefEqProofs [hs]

@[simp] theorem reopenSups_mem (s : State) (die c : Nat) : (reopenSups s die c).mem = s.mem := rfl

@[simp] theorem setClctl_mem (s : State) (die c v : Nat) : (setClctl s die c v).mem = s.mem := by simp [setClctl]

@[simp] theorem out_writeSys {s : State} {w : Warp} {pf : Bool} {n i : Nat} {v : W64}
    (hs : Canonical s.mem) : OutCanonical (writeSys s w pf n i v) := by
  dsimp only [writeSys]
  split <;> simp -implicitDefEqProofs [hs]

@[simp] theorem out_execSyswr {v a reg : Nat} {s : State} (hs : Canonical s.mem) : OutCanonical (execSyswr v a reg s) :=
  out_withSysReg hs fun w p i r => by simp -implicitDefEqProofs [hs]

@[simp] theorem tlbiDrop_mem (s : State) (w : Warp) (scope : Nat) (own : Nat → Bool) (q : TlbiSel) :
    (tlbiDrop s w scope own q).mem = s.mem := by
  unfold tlbiDrop
  split <;> simp

@[simp] theorem out_tlbi {scope : Nat} {bad : Warp → Bool} {q : Warp → TlbiSel} {s : State}
    (hs : Canonical s.mem) : OutCanonical (tlbi scope bad q s) :=
  out_sysForm hs fun w p => by simp -implicitDefEqProofs [hs]

theorem ctxTarget_mem {s : State} {core slot : Nat} {r : State × Nat × Warp} (h : ctxTarget s core slot = some r) :
    r.1.mem = s.mem := by
  unfold ctxTarget at h
  split at h
  · cases h; simp
  · obtain ⟨e, -, rfl⟩ := Option.map_eq_some_iff.mp h
    rfl

@[simp] theorem freeze_mem (s : State) (u : Nat) : (freeze s u).mem = s.mem := by simp [freeze]

@[simp] theorem out_execCtxfl {d a : Nat} {s : State} (hs : Canonical s.mem) : OutCanonical (execCtxfl d a s) :=
  out_sysForm hs fun w p => by
    dsimp only
    split
    · simp [hs]
    · split
      · simp [hs]
      · next s0 u v e =>
        have h0 : Canonical s0.mem := by rwa [show s0.mem = s.mem from ctxTarget_mem e]
        split
        · simp [hs]
        · split
          · simp [h0]
          · split
            · simp -implicitDefEqProofs [hs]
            · simp -implicitDefEqProofs [h0]
            · next e =>
              have ht := canonical_of_writeContext h0 e
              simp [ht]

@[simp] theorem out_execCtxld {a : Nat} {s : State} (hs : Canonical s.mem) : OutCanonical (execCtxld a s) :=
  out_sysForm hs fun w p => by
    dsimp only
    split
    · simp [hs]
    · split
      · simp [hs]
      · next s0 u v e =>
        have h0 : Canonical s0.mem := by rwa [show s0.mem = s.mem from ctxTarget_mem e]
        split
        · simp [hs]
        · split
          · simp [hs]
          · split <;> simp -implicitDefEqProofs [h0]

@[simp] theorem out_execWdogSet {a : Nat} {s : State} (hs : Canonical s.mem) : OutCanonical (execWdogSet a s) :=
  out_sysForm hs fun w p => by simp -implicitDefEqProofs [hs]

@[simp] theorem out_execWdogKick {s : State} (hs : Canonical s.mem) : OutCanonical (execWdogKick s) :=
  out_sysForm hs fun w p => by simp -implicitDefEqProofs [hs]

@[simp] theorem countError_mem (s : State) (a : Nat) : (countError s a).mem = s.mem := by simp [countError]

@[simp] theorem out_injectAt {s : State} {w : Warp} {p : Path} {kind va : Nat}
    (hs : Canonical s.mem) : OutCanonical (injectAt s w p kind va) := by
  dsimp only [injectAt]
  split
  · split
    · simp [hs]
    · split
      · simp [hs]
      · exact out_poisonAway hs (fun t ht => ht) fun t ht => by simp [ht]
  · simp [hs]
  · simp [hs]
  · simp [hs]

@[simp] theorem out_execInject {d a : Nat} {s : State}
    (hs : Canonical s.mem) : OutCanonical (execInject d a s) := out_sysForm hs fun w p => by
  dsimp only
  repeat' split
  all_goals simp -implicitDefEqProofs [hs]

@[simp] theorem out_execGtime {d : Nat} {s : State}
    (hs : Canonical s.mem) : OutCanonical (execGtime d s) := by simp [execGtime, hs]

theorem out_patrolForm {s : State} {f : Warp → Path → Out}
    (hs : Canonical s.mem) (hf : ∀ w p, OutCanonical (f w p)) : OutCanonical (patrolForm s f) :=
  out_privileged hs fun w p => by simp [hs, hf]

theorem out_withCluster {s : State} {a : Nat} {f : Warp → Path → Nat → Out}
    (hs : Canonical s.mem) (hf : ∀ w p n, OutCanonical (f w p n)) : OutCanonical (withCluster s a f) :=
  out_patrolForm hs fun w p => by simp [hs, hf]

@[simp] theorem canonical_beginQuiesce {s : State} {die c : Nat}
    (hs : Canonical s.mem) : Canonical (beginQuiesce s die c).mem := by
  unfold beginQuiesce
  exact canonical_foldl hs fun t a ht => by simp [ht]

@[simp] theorem out_execQuiesce {d a : Nat} {s : State}
    (hs : Canonical s.mem) : OutCanonical (execQuiesce d a s) := out_withCluster hs fun w p n => by
  dsimp only
  repeat' split
  all_goals simp -implicitDefEqProofs [hs]

@[simp] theorem retFlip_mem (s : State) (die c n : Nat) : (retFlip s die c n).mem = s.mem := by simp [retFlip]

@[simp] theorem out_execRetsave {d a : Nat} {s : State} (hs : Canonical s.mem) : OutCanonical (execRetsave d a s) :=
  out_withCluster hs fun w p n => by simp -implicitDefEqProofs [hs]

@[simp] theorem canonical_recreateSups {s : State} {die c : Nat} {m : RetImage}
    (hs : Canonical s.mem) : Canonical (recreateSups s die c m).mem := by
  dsimp only [recreateSups]
  exact canonical_foldl (canonical_foldl hs fun t i ht => ht) fun t u ht => canonical_reviveSup ht

@[simp] theorem applyMask_mem (s : State) (die c : Nat) (off : List Nat) : (applyMask s die c off).mem = s.mem := by
  unfold applyMask
  split <;> simp

@[simp] theorem canonical_applyImage {s : State} {die c : Nat} {x : Cluster} {m : RetImage}
    (hs : Canonical s.mem) : Canonical (applyImage s die c x m).mem := by simp [applyImage, hs]

@[simp] theorem out_execRetload {d a : Nat} {s : State}
    (hs : Canonical s.mem) : OutCanonical (execRetload d a s) := out_withCluster hs fun w p n => by
  dsimp only
  repeat' split
  all_goals simp -implicitDefEqProofs [hs]

@[simp] theorem out_execHalt {s : State}
    (hs : Canonical s.mem) : OutCanonical (execHalt s) := out_patrolForm hs fun w p => by simp -implicitDefEqProofs [hs]

/-! ## Power -/

@[simp] theorem canonical_flushSup {s : State} {core : Nat}
    (hs : Canonical s.mem) : Canonical (flushSup s core).mem := by
  have h1 : Canonical (supWarp s core).1.mem := by rwa [supWarp_mem]
  dsimp only [flushSup]
  split
  · exact hs
  · split
    · next e => simpa using canonical_of_writeContext h1 e
    · exact hs

@[simp] theorem out_execClusterQuiesced {die cluster : Nat} {s : State}
    (hs : Canonical s.mem) : OutCanonical (execClusterQuiesced die cluster s) := by
  dsimp only [execClusterQuiesced]
  split
  · simpa using hs
  · rw [outCanonical_next, putCluster_mem]
    exact canonical_foldl hs fun t k ht => by simp [ht]

@[simp] theorem out_execClkackChange {die cluster : Nat} {s : State}
    (hs : Canonical s.mem) : OutCanonical (execClkackChange die cluster s) := by
  dsimp only [execClkackChange]
  repeat' split
  all_goals simp [hs]

@[simp] theorem dropCluster_mem (s : State) (die c : Nat) : (dropCluster s die c).mem = s.mem := rfl

@[simp] theorem out_execRailgoodChange {die cluster : Nat} {s : State}
    (hs : Canonical s.mem) : OutCanonical (execRailgoodChange die cluster s) := by
  dsimp only [execRailgoodChange]
  repeat' split
  all_goals simp [hs]

@[simp] theorem askCluster_mem (s : State) (die c v : Nat) : (askCluster s die c v).mem = s.mem := by simp [askCluster]

@[simp] theorem out_execClctlClkreq {die cluster : Nat} {on : Bool} {s : State}
    (hs : Canonical s.mem) : OutCanonical (execClctlClkreq die cluster on s) := by simp [execClctlClkreq, hs]

@[simp] theorem out_execClctlRailreq {die cluster : Nat} {on : Bool} {s : State}
    (hs : Canonical s.mem) : OutCanonical (execClctlRailreq die cluster on s) := by simp [execClctlRailreq, hs]

@[simp] theorem out_execClctlResume {die cluster : Nat} {s : State}
    (hs : Canonical s.mem) : OutCanonical (execClctlResume die cluster s) := by simp [execClctlResume, hs]

@[simp] theorem out_execWake {m die mask : Nat} {s : State}
    (hs : Canonical s.mem) : OutCanonical (execWake m die mask s) := by simp [execWake, hs]

@[simp] theorem out_execPatrolWake {die : Nat} {s : State}
    (hs : Canonical s.mem) : OutCanonical (execPatrolWake die s) := by simp [execPatrolWake, hs]

/-! ## Partitions -/

@[simp] theorem partStatus_mem (s : State) (v : Nat) : (partStatus s v).mem = s.mem := rfl

@[simp] theorem out_partReq {s : State} {m : Nat} {f : State}
    (hs : Canonical s.mem) (hf : Canonical f.mem) : OutCanonical (partReq s m f) := by
  simp [partReq, hs, hf]

@[simp] theorem putPart_mem (s : State) (p : Nat) (x : Part) : (putPart s p x).mem = s.mem := rfl

theorem out_onPart {s : State} {m p : Nat} {f : Part → State}
    (hs : Canonical s.mem) (hf : ∀ x, Canonical (f x).mem) : OutCanonical (onPart s m p f) :=
  out_partReq hs (by split <;> simp [hs, hf])

@[simp] theorem out_execCreate {m part : Nat} {s : State} (hs : Canonical s.mem) : OutCanonical (execCreate m part s) :=
  out_partReq hs (by simp [hs])

@[simp] theorem out_execDestroy {m part : Nat} {s : State}
    (hs : Canonical s.mem) : OutCanonical (execDestroy m part s) :=
  out_partReq hs (by split <;> simp [hs])

@[simp] theorem dropEngineTlb_mem (s : State) (die q : Nat) : (dropEngineTlb s die q).mem = s.mem := rfl

@[simp] theorem canonical_giveCluster {s : State} {p die c : Nat}
    (hs : Canonical s.mem) : Canonical (giveCluster s p die c).mem := by simp [giveCluster, hs]

@[simp] theorem putJob_mem (s : State) (j : Option (Nat × Nat × Nat)) : (putJob s j).mem = s.mem := rfl

@[simp] theorem canonical_runCluster {s : State} {p die c : Nat}
    (hs : Canonical s.mem) : Canonical (runCluster s p die c).mem := by
  unfold runCluster
  split <;> simp [hs]

@[simp] theorem out_execCluster {m part die cluster : Nat} {s : State}
    (hs : Canonical s.mem) : OutCanonical (execCluster m part die cluster s) := by
  unfold execCluster
  split
  · simp [hs]
  · exact out_onPart hs fun x => by simp [hs]

@[simp] theorem out_execFuncJoin {m part fn : Nat} {s : State}
    (hs : Canonical s.mem) : OutCanonical (execFuncJoin m part fn s) := out_onPart hs fun x => by
  dsimp only
  repeat' split
  all_goals simp -implicitDefEqProofs [hs]

@[simp] theorem out_execPages {m part first count : Nat} {s : State}
    (hs : Canonical s.mem) : OutCanonical (execPages m part first count s) :=
  out_onPart hs fun x => by simp -implicitDefEqProofs [hs]

@[simp] theorem putWeight_mem (s : State) (p port w : Nat) : (putWeight s p port w).mem = s.mem := rfl

@[simp] theorem out_execPort {m part port weight : Nat} {s : State}
    (hs : Canonical s.mem) : OutCanonical (execPort m part port weight s) :=
  out_onPart hs fun x => by
    dsimp only
    split
    · simp [hs]
    · rw [partStatus_mem]
      exact canonical_foldl (by split <;> simpa using hs) fun t d ht => by simp [ht]

@[simp] theorem out_execQos {m part wdm wsh wan : Nat} {s : State}
    (hs : Canonical s.mem) : OutCanonical (execQos m part wdm wsh wan s) :=
  out_onPart hs fun x => by simp -implicitDefEqProofs [hs]

@[simp] theorem out_execGroup {m part group : Nat} {members : List (Nat × Nat)} {s : State}
    (hs : Canonical s.mem) : OutCanonical (execGroup m part group members s) :=
  out_onPart hs fun x => by simp -implicitDefEqProofs [hs]

@[simp] theorem out_execBind {m part pod remote : Nat} {s : State}
    (hs : Canonical s.mem) : OutCanonical (execBind m part pod remote s) :=
  out_onPart hs fun x => by simp -implicitDefEqProofs [hs]

@[simp] theorem canonical_gateway {s : State} {p va : Nat} {bytes : List Byte} {pois : Bool}
    (hs : Canonical s.mem) : Canonical (gateway s p va bytes pois).mem := by
  unfold gateway
  repeat' split
  all_goals simp [hs]

@[simp] theorem out_execGetMeasurements {requester part : Nat} {viaOwner : Bool} {s : State}
    (hs : Canonical s.mem) : OutCanonical (execGetMeasurements requester part viaOwner s) := by
  unfold execGetMeasurements
  repeat' split
  all_goals simp [hs]

@[simp] theorem remapStatus_mem (s : State) (v : Nat) : (remapStatus s v).mem = s.mem := rfl

@[simp] theorem canonical_stopDies {s : State} {dies : List Nat}
    (hs : Canonical s.mem) : Canonical (stopDies s dies).mem := by simp [stopDies, hs]

@[simp] theorem canonical_purgeMisfits {s : State} {die : Nat}
    (hs : Canonical s.mem) : Canonical (purgeMisfits s die).mem := by
  unfold purgeMisfits
  exact canonical_foldl hs fun t a ht => by simp [ht]

@[simp] theorem canonical_rebind {s : State} {bind : FMap Nat} {dies : List Nat} {a b : Nat}
    (hs : Canonical s.mem) : Canonical (rebind s bind dies a b).mem := by
  unfold rebind
  exact canonical_foldl hs fun t a ht => by simp [ht]

@[simp] theorem out_execRemapMove {m die site : Nat} {s : State}
    (hs : Canonical s.mem) : OutCanonical (execRemapMove m die site s) := by simp [execRemapMove, hs]

@[simp] theorem out_execRemapSwap {m d1 d2 : Nat} {s : State}
    (hs : Canonical s.mem) : OutCanonical (execRemapSwap m d1 d2 s) := by
  unfold execRemapSwap
  split <;> simp [hs]

/-! ## Reliability -/

@[simp] theorem out_execCheckerMismatch {warp : Nat} {path lane : Bool} {s : State}
    (hs : Canonical s.mem) : OutCanonical (execCheckerMismatch warp path lane s) := by
  dsimp only [execCheckerMismatch]
  repeat' split
  all_goals simp -implicitDefEqProofs [hs]

@[simp] theorem out_execReplayQueueCheck {core entry : Nat} {mismatch : Bool} {s : State}
    (hs : Canonical s.mem) : OutCanonical (execReplayQueueCheck core entry mismatch s) := by
  dsimp only [execReplayQueueCheck]
  repeat' split
  all_goals simp -implicitDefEqProofs [hs]

@[simp] theorem scrubBad_mem (s : State) (x : ScrubAt) : (scrubBad s x).mem = s.mem := by
  cases x <;> rfl

@[simp] theorem scrubGood_mem (s : State) (x : ScrubAt) : (scrubGood s x).mem = s.mem := by
  cases x with
  | mem a => simp [scrubGood]
  | sp b _ => dsimp only [scrubGood]; cases fget s.blocks b <;> simp
  | reg u _ _ => dsimp only [scrubGood]; cases fget s.warps u <;> simp
  | l1 | bank => simp [scrubGood]

@[simp] theorem out_execPatrolScrub {addr : Nat} {uncorrectable : Bool} {s : State}
    (hs : Canonical s.mem) : OutCanonical (execPatrolScrub addr uncorrectable s) := by simp [execPatrolScrub, hs]

@[simp] theorem out_execL1LineExpiry {core line : Nat} {s : State}
    (hs : Canonical s.mem) : OutCanonical (execL1LineExpiry core line s) := by simp [execL1LineExpiry, hs]

@[simp] theorem disablePair_mem (s : State) (die pair : Nat) : (disablePair s die pair).mem = s.mem := by
  unfold disablePair
  split <;> simp

@[simp] theorem canonical_moveFrame {s : State} {page tgt : Nat}
    (hs : Canonical s.mem) : Canonical (moveFrame s page tgt).mem :=
  canonical_foldl (by simp [hs]) fun t e ht => by simp [ht]

@[simp] theorem canonical_evacuate {s : State} {die pair : Nat}
    (hs : Canonical s.mem) : Canonical (evacuate s die pair).mem := by
  dsimp only [evacuate]
  repeat' split
  all_goals simp [hs]

@[simp] theorem modEvac_mem (s : State) (f : List Nat → List Nat) : (modEvac s f).mem = s.mem := rfl

@[simp] theorem out_execPredictiveEvacuation {die pair : Nat} {s : State}
    (hs : Canonical s.mem) : OutCanonical (execPredictiveEvacuation die pair s) :=
  by simp -implicitDefEqProofs [execPredictiveEvacuation, hs]

/-! ## S-stream arithmetic -/

@[simp] theorem out_alu2 {s : State} {d a b : Nat} {f : W64 → W64 → W64}
    (hs : Canonical s.mem) : OutCanonical (alu2 s d a b f) := by simp [alu2, hs]

@[simp] theorem out_alu1 {s : State} {d a : Nat} {f : W64 → W64}
    (hs : Canonical s.mem) : OutCanonical (alu1 s d a f) := by simp [alu1, hs]

@[simp] theorem out_execNop {s : State} (hs : Canonical s.mem) : OutCanonical (execNop s) := by simp [execNop, hs]

@[simp] theorem out_execLdi {d pos imm : Nat} {s : State}
    (hs : Canonical s.mem) : OutCanonical (execLdi d pos imm s) := by simp [execLdi, hs]

/-! ## Mask operations -/

@[simp] theorem out_kop {s : State} {d : Nat} {f : Warp → W32}
    (hs : Canonical s.mem) : OutCanonical (kop s d f) := by simp [kop, hs]

@[simp] theorem out_execKgetx {n a : Nat} {s : State}
    (hs : Canonical s.mem) : OutCanonical (execKgetx n a s) := by simp [execKgetx, hs]

@[simp] theorem out_execVget {n vn lane : Nat} {s : State}
    (hs : Canonical s.mem) : OutCanonical (execVget n vn lane s) := by simp [execVget, hs]

@[simp] theorem out_execVput {n vn lane : Nat} {s : State}
    (hs : Canonical s.mem) : OutCanonical (execVput n vn lane s) := by simp [execVput, hs]

/-! ## Waits and LAUNCH -/

@[simp] theorem out_execRunc {n off : Nat} {s : State}
    (hs : Canonical s.mem) : OutCanonical (execRunc n off s) := by simp [execRunc, hs]

@[simp] theorem out_execWaitf {mask : Nat} {s : State}
    (hs : Canonical s.mem) : OutCanonical (execWaitf mask s) := by simp [execWaitf, hs]

@[simp] theorem out_execWaitc {a ctr : Nat} {s : State}
    (hs : Canonical s.mem) : OutCanonical (execWaitc a ctr s) := by simp [execWaitc, hs]

@[simp] theorem out_execLiveDead {vn cnt : Nat} {s : State}
    (hs : Canonical s.mem) : OutCanonical (execLiveDead vn cnt s) := by simp [execLiveDead, hs]

@[simp] theorem out_execLiveHot {vn cnt : Nat} {s : State}
    (hs : Canonical s.mem) : OutCanonical (execLiveHot vn cnt s) := by simp [execLiveHot, hs]

@[simp] theorem out_execMark {s : State} (hs : Canonical s.mem) : OutCanonical (execMark s) := by simp [execMark, hs]

@[simp] theorem readHome_mem (s : State) (core : Nat) (l : List Nat) : (readHome s core l).mem = s.mem :=
  foldl_mem _ _ _ fun t a => by simp

theorem out_withBytes {s : State} {w : Warp} {q : XReq} {va n : Nat} {k : State → List Byte → Out}
    (hs : Canonical s.mem) (hk : ∀ t l, Canonical t.mem → OutCanonical (k t l)) :
    OutCanonical (withBytes s w q va n k) := by
  unfold withBytes
  split
  · simp [hs]
  · split
    · simp [hs]
    · split
      · next u b bad e =>
        have hu : Canonical u.mem := canonical_of_farPieces hs e
        split
        · exact out_trapS hs
        · exact hk _ _ (by rwa [readHome_mem])
      · next e => exact out_stall (canonical_of_farPieces hs e)
      · next e => exact (outCanonical_next _).2 (canonical_fabricLoss (canonical_of_farPieces hs e))

@[simp] theorem out_launchRead {d seq : Nat} {s : State} {b : List Byte}
    (hs : Canonical s.mem) : OutCanonical (launchRead d seq s b) := by simp -implicitDefEqProofs [launchRead, hs]

@[simp] theorem out_execLaunch {d a : Nat} {s : State} (hs : Canonical s.mem) : OutCanonical (execLaunch d a s) :=
  out_onPath fun w p => by
    dsimp only
    split
    · simp [hs]
    · split
      · simp [hs]
      · split
        · simp [hs]
        · split
          · simp [hs]
          · exact out_withBytes hs fun t b ht => by simp [ht]

end Sys2Proof.Machine

/-! # Canonical memory: the step -/

namespace Sys2Proof.Machine

/-! ## The dispatch -/

/-- R252: no instruction and no event takes memory out of its canonical form. The instructions of one form share the
lemma of that form; the others have one each. -/
@[simp] theorem out_exec {i : Instr} {s : State} (hs : Canonical s.mem) : OutCanonical (exec i s) := by
  cases i
  all_goals dsimp only [exec]
  case ldSp | ldGs | ldDm | ldPv => exact out_execLd hs
  case stSp | stGs | stDm | stPv => exact out_execSt hs
  case atomAdd | atomMin | atomMax | atomAnd | atomOr | atomXor | atomExch | atomCas | atomIncb | atomFadd =>
    exact out_execAtom hs
  case mma | mmaZ => exact out_mma hs
  case amv | amvT => exact out_amv hs
  case program | offline | online | grant | revoke | freeRegion => exact out_arrayReq hs
  case fadd | fsub | fmul | fscale => exact out_float2 hs
  case ffma | fmin | fmax | fabs | fneg | fcpys | fclass | fcmp | sel | cvt | isad | icmp | mov | scan | red |
      rng => exact out_laneRun hs
  case frcp | frsq | fsqrt | flog2 | ftanh | fexpf | frint => exact out_float1 hs
  case collAllreduce | collAllgather | collReducescatter | collAlltoall => exact out_coll hs
  case beq | bne | blt | bge | bltu | bgeu => exact out_cmpBranch hs
  case barArrive | barWait | barSync => exact out_bar hs
  case lbarArrive | lbarWait | lbarSync => exact out_lbar hs
  case ownerClaim | ownerRelease | ownerOffer | ownerAccept | ownerWithdraw | ownerBeat => exact out_ownerCmd hs
  case andB32 | orB32 | xorB32 | shlB32 | shrN32 | sraI32 | bfe => exact out_bit2 hs
  case notB32 | popcB32 | clzB32 | brevB32 => exact out_bit1 hs
  case bool3 | bfi | perm => exact out_bit3 hs
  case iadd | isub | imul | imad | imulh | imin | imax | iabs => exact out_intForm hs
  case dp4 | dp8 => exact out_dotForm hs
  case shfl | shflx | bcst => exact out_shuffle hs
  case trap | brk => exact out_requestTrap hs
  case rets | retsSkip | retsDecline => exact out_rets hs
  case tlbiAll | tlbiVa | tlbiAsid | tlbiVmid => exact out_tlbi hs
  case add | sub | mul | mulhI64 | mulhN64 | divI64 | divN64 | remI64 | remN64 | and | or | xor | andn | shl |
      shr | sra | ror | minI64 | minN64 | maxI64 | maxN64 | sltI64 | sltN64 => exact out_alu2 hs
  case clz | popc | sextI8 | sextI16 | sextI32 | zextN8 | zextN16 | zextN32 | brev | addi | andi | ori | xori |
      shli | shri | srai | sltiI64 | sltiN64 | ldiK => exact out_alu1 hs
  case kand | kor | kxor | kandn | knot | kmov | ksetx => exact out_kop hs
  all_goals simp [hs]

/-! ## What one step may do -/

@[simp] theorem out_fetchAndRun {s : State} {w : Warp} {p : Path}
    (hs : Canonical s.mem) : OutCanonical (fetchAndRun s w p) := by
  unfold fetchAndRun
  split
  · exact out_withWords hs fun t l ht => by simp [ht]
  · simp [hs]
  · simp [hs]
  · simp [hs]

@[simp] theorem canonical_contextStep {s : State} {uid : Nat} {w : Warp}
    (hs : Canonical s.mem) : Canonical (contextStep s uid w).mem := by simp [contextStep, hs]

@[simp] theorem out_issueStep {uid : Nat} {pf : Bool} {s : State}
    (hs : Canonical s.mem) : OutCanonical (issueStep uid pf s) := by
  dsimp only [issueStep]
  split <;> simp -implicitDefEqProofs [hs]

@[simp] theorem out_runLaneWord {s : State} {c : Clause} {h : Hdr}
    (hs : Canonical s.mem) : OutCanonical (runLaneWord s c h) := by
  dsimp only [runLaneWord]
  split
  · simp [hs]
  · split <;> simp [hs]

@[simp] theorem out_laneAct {s : State} {p : Path} (hs : Canonical s.mem) : OutCanonical (laneAct s p) := by
  unfold laneAct
  repeat' split
  all_goals simp [hs]

@[simp] theorem out_laneStep {uid : Nat} {pf : Bool} {s : State}
    (hs : Canonical s.mem) : OutCanonical (laneStep uid pf s) := by
  dsimp only [laneStep]
  split <;> simp -implicitDefEqProofs [hs]

@[simp] theorem out_eventStep {i : Instr} {s : State} (hs : Canonical s.mem) : OutCanonical (eventStep i s) := by
  unfold eventStep
  split <;> simp [hs]

@[simp] theorem waitTick_mem (s : State) (uid : Nat) : (waitTick s uid).mem = s.mem := by
  unfold waitTick
  split <;> simp

@[simp] theorem tlbFill_mem (s : State) (core uid va : Nat) : (tlbFill s core uid va).mem = s.mem := by
  dsimp only [tlbFill]
  repeat' split
  all_goals simp

@[simp] theorem tlbEvict_mem (s : State) (i : Nat) : (tlbEvict s i).mem = s.mem := rfl

@[simp] theorem canonical_hostWrite {s : State} {a : Nat} {b : List Byte}
    (hs : Canonical s.mem) : Canonical (hostWrite s a b).mem := by simp [hostWrite, hs]

@[simp] theorem supContext_mem (s : State) (core : Nat) (base table : W64) :
    (supContext s core base table).mem = s.mem := by simp [supContext]

@[simp] theorem namePool_mem (s : State) (a : Nat) : (namePool s a).mem = s.mem := rfl

@[simp] theorem walkDrop_mem (s : State) (g : Nat) : (walkDrop s g).mem = s.mem := rfl

@[simp] theorem farTag_mem (s : State) (page part : Nat) : (farTag s page part).mem = s.mem := by simp [farTag]

@[simp] theorem farDie_mem (s : State) (module die lack : Nat) :
    (farDie s module die lack).mem = s.mem := by simp [farDie]

@[simp] theorem out_doChoice {c : Choice} {s : State} (hs : Canonical s.mem) : OutCanonical (doChoice c s) := by
  unfold doChoice
  split <;> simp [hs]

@[simp] theorem settleChecked_mem (c : Choice) (s t : State) : (settleChecked c s t).mem = t.mem := by
  unfold settleChecked
  repeat' split
  all_goals simp

@[simp] theorem canonical_settle {c : Choice} {s t : State} (ht : Canonical t.mem) : Canonical (settle c s t).mem :=
  canonical_pruneDups (by rwa [settleChecked_mem])

@[simp] theorem out_runChoice {c : Choice} {s : State} (hs : Canonical s.mem) : OutCanonical (runChoice c s) := by
  have h := out_doChoice (c := c) hs
  unfold runChoice
  split
  · next t e => simp [h t e]
  · exact h

/-! ## One step -/

@[simp] theorem out_step {s : State} (hs : Canonical s.mem) : OutCanonical (step s) := by
  unfold step
  split
  · exact out_runChoice hs
  · exact out_runChoice hs

end Sys2Proof.Machine

namespace Sys2Proof.Proofs

open Sys2Proof.Machine

/-- Settles O60: a step carries out one choice, and no instruction and no event takes memory out of its canonical form
(`out_exec`), for they all write it through the operations that keep it. -/
theorem memoryStaysCanonical : Obligations.MemoryStaysCanonical := by
  unfold Obligations.MemoryStaysCanonical
  exact fun s t hs ht => out_step hs t ht

end Sys2Proof.Proofs

/-! # What a step does to the duplicates of a page (O49) -/

namespace Sys2Proof.Machine

/-! ## The management interface behind a write of a table -/

@[simp] theorem sendFirst_mgmt (s : State) (e : BEntry) : (sendFirst s e).mgmt = s.mgmt := by
  dsimp only [sendFirst, countTx]
  repeat' split
  all_goals rfl

@[simp] theorem pump_mgmt (s : State) : (pump s).mgmt = s.mgmt :=
  List.foldlRecOn (motive := fun t : State => t.mgmt = s.mgmt) _ _ rfl fun t ht e _ => by rw [sendFirst_mgmt, ht]

@[simp] theorem devWrite_mgmt (s : State) (fn a : Nat) (b : List Byte) : (devWrite s fn a b).mgmt = s.mgmt := by
  dsimp only [devWrite]
  repeat' split
  · rfl
  · rfl
  · rfl
  · rw [acceptPacket, pump_mgmt]

@[simp] theorem putLeaf_mgmt (s : State) (a : Nat) (l : Leaf) : (putLeaf s a l).mgmt = s.mgmt := by
  dsimp only [putLeaf, tblWrite]
  split
  · rfl
  · exact devWrite_mgmt ..

/-! ## The duplicates that a step leaves (R249) -/

/-- What `pruneDups` does for one page, with the leaves that map it. -/
theorem dups_undupLeaves (s : State) (page : Nat) (l : List (Nat × Option Nat × Bool)) :
    (l.foldl (fun u m => putLeaf u m.1 (leafUndup (readLeaf u m.1))) (dropDups s page)).mgmt.dups =
      s.mgmt.dups.filter fun d => d.1 ≠ page :=
  List.foldlRecOn (motive := fun t : State => t.mgmt.dups = s.mgmt.dups.filter fun d => d.1 ≠ page) _ _ rfl
    fun t ht m _ => by rw [putLeaf_mgmt, ht]

theorem mem_dedup {α : Type} [DecidableEq α] {a : α} {l : List α} : a ∈ dedup l ↔ a ∈ l := by
  induction l with
  | nil => rfl
  | cons b r ih =>
    by_cases h : a = b <;> simp [dedup, ih, h]

/-- R249: exactly the duplicates of pages that some entry lets be written are dropped. -/
theorem dups_pruneDups (s : State) :
    (pruneDups s).mgmt.dups = s.mgmt.dups.filter fun d => !pageWritable s d.1 := by
  have hfold : ∀ (maps : Nat → List (Nat × Option Nat × Bool)) (gone : List Nat) (t : State),
      (gone.foldl (fun t page => (maps page).foldl (fun u m => putLeaf u m.1 (leafUndup (readLeaf u m.1)))
        (dropDups t page)) t).mgmt.dups = t.mgmt.dups.filter fun d => d.1 ∉ gone := by
    intro maps gone
    induction gone with
    | nil => simp
    | cons page r ih =>
      intro t
      rw [List.foldl_cons, ih, dups_undupLeaves, List.filter_filter]
      refine List.filter_congr fun d _ => ?_
      by_cases h : d.1 = page <;> simp [h]
  dsimp only [pruneDups]
  split
  · next h => simp [List.isEmpty_iff.mp h]
  · rw [hfold fun page => (mapsOf s).filter fun m => m.2.1 = some page]
    refine List.filter_congr fun d hd => ?_
    have hmem : d.1 ∈ s.mgmt.dups.map (·.1) := List.mem_map_of_mem hd
    simp [List.mem_filter, mem_dedup, hmem]

/-! ## A page with a duplicate and an entry that lets it be written -/

/-- Tables of the PF, whose root lies at 0: the root's first entry names the table at 4096, whose first names the one at
8192, whose first is a leaf with V, R, W, DUP, HS = 2 and, as its home, the page at 2 MiB. -/
def dupTables : List Host.Cell :=
  [(0, 1), (1, 0x10), (4096, 1), (4097, 0x20), (8192, 0x87), (8193, 8), (8194, 1)]

/-- The module after a cold start, but that those tables stand, that the page at 2 MiB has a duplicate at 4 MiB, and that the
driver of the PF is about to read FSTAT. -/
def writableDup : State :=
  { State.reset with
    mem := dupTables, mgmt := { Mgmt.reset with dups := [(pageSize, 2 * pageSize)] }, agenda := [.hostRead 1 0 0] }

/-- The same module when it has read the register, before what follows from that at once. -/
def writableDupRead : State := hostRead { writableDup with turn := 1, agenda := [] } 1 0 0

theorem step_writableDup : step writableDup = .next (pruneDups writableDupRead) := rfl

theorem pfDesc_mem_descs : (false, (Func.reset true).xd) ∈ descs writableDupRead :=
  mem_dedup.mpr (List.mem_append_left _ (List.mem_map.mpr ⟨(0, Func.reset true), by decide, rfl⟩))

theorem mem_tableNexts {s : State} {t i : Nat} (hi : i < 512) (h : bitAt (tblLe s (t + 8 * i) 8) 0 = true) :
    nextTable (tblLe s (t + 8 * i) 8) false ∈ tableNexts s t :=
  List.mem_filterMap.mpr ⟨i, List.mem_range.mpr hi, if_pos h⟩

theorem leaf_mem_leavesOf : 8192 ∈ leavesOf writableDupRead 0 :=
  List.mem_flatMap.mpr ⟨4096, mem_tableNexts (t := 0) (i := 0) (by decide) (by decide),
    List.mem_flatMap.mpr ⟨8192, mem_tableNexts (t := 4096) (i := 0) (by decide) (by decide),
      List.mem_filterMap.mpr ⟨0, List.mem_range.mpr (by decide), by decide⟩⟩⟩

/-- The leaf maps the page at 2 MiB and lets it be written. -/
theorem leafMap_writableDupRead :
    leafMap writableDupRead false (Func.reset true).xd 8192 = (8192, some pageSize, true) := rfl

theorem pageWritable_writableDupRead : pageWritable writableDupRead pageSize = true := by
  refine List.any_eq_true.mpr ⟨(8192, some pageSize, true), ?_, by simp⟩
  refine List.mem_flatMap.mpr ⟨_, pfDesc_mem_descs, List.mem_map.mpr ⟨8192, ?_, leafMap_writableDupRead⟩⟩
  refine List.mem_filter.mpr ⟨?_, decide_eq_true rfl⟩
  rw [if_neg Bool.false_ne_true]
  exact leaf_mem_leavesOf

theorem dups_after_read : (pruneDups writableDupRead).mgmt.dups = [] := by
  rw [dups_pruneDups, show writableDupRead.mgmt.dups = [(pageSize, 2 * pageSize)] from rfl]
  simp [pageWritable_writableDupRead]

end Sys2Proof.Machine

namespace Sys2Proof.Proofs

open Sys2Proof.Machine

/-- Refutes O49: "a read changes nothing else" fails in a state where a page that some entry lets be written has a duplicate. A
read is carried out as a step, and every step ends by dropping the duplicates of such pages (R249, `dups_pruneDups`): after
the read of FSTAT the duplicate of `writableDup` is gone. No clause of the statement keeps such states out. -/
theorem not_functionEvents : ¬ Obligations.FunctionEvents := by
  unfold Obligations.FunctionEvents
  intro ⟨_, hreads⟩
  obtain ⟨v, hstep, _⟩ := hreads writableDup 1 0 0 (Func.reset true) [] rfl rfl
  rw [step_writableDup, Host.Outcome.next.injEq] at hstep
  have hdups := dups_after_read
  rw [hstep] at hdups
  cases hdups

end Sys2Proof.Proofs

/-! # Privileged forms (O25) -/

namespace Sys2Proof.Machine

/-- R33: a form that begins with the check of the level raises 19.0 at user level. -/
theorem trapsAt_privileged_user {i : Instr} {s : State} {w : Warp} {f : Warp → Path → Out} (h : actsOn s w)
    (hp : (actPath s w).priv = 0) (hi : exec i s = privileged s f) : trapsAt i s w 0x130 :=
  trapS_live i s w 0x130 h (hi.trans (privileged_user s w f h hp))

/-- R207, R208: a form of the patrol core raises 19.8 at supervisor level on any other core. -/
theorem trapsAt_patrolForm_other {i : Instr} {s : State} {w : Warp} {f : Warp → Path → Out} (h : actsOn s w)
    (hp : (actPath s w).priv ≠ 0) (hk : w.kind ≠ .patrol) (hi : exec i s = patrolForm s f) : trapsAt i s w 0x138 :=
  trapS_live i s w 0x138 h (by rw [hi, patrolForm, privileged_super s w _ h hp, if_pos hk])

/-- The forms of R207 and R208 are forms of the patrol core. -/
theorem exec_patrolForm {d a : Nat} {i : Instr} (hi : i ∈ [.quiesce d a, .retsave d a, .retload d a, .halt]) (s : State) :
    ∃ f, exec i s = patrolForm s f := by
  simp only [List.mem_cons, List.not_mem_nil, or_false] at hi
  rcases hi with rfl | rfl | rfl | rfl
  · rw [exec_quiesce, execQuiesce, withCluster]; exact ⟨_, rfl⟩
  · rw [exec_retsave, execRetsave, withCluster]; exact ⟨_, rfl⟩
  · rw [exec_retload, execRetload, withCluster]; exact ⟨_, rfl⟩
  · rw [exec_halt, execHalt]; exact ⟨_, rfl⟩

/-- The forms of R188 that only the supervisor level may use begin with the check of the level. -/
theorem exec_supervisorForm {d a scope : Nat} {i : Instr}
    (hi : i ∈ [.rets, .retsSkip, .retsDecline, .tlbiAll scope, .tlbiVa d a scope, .tlbiAsid a scope, .tlbiVmid a scope,
      .ctxfl d a, .ctxld a, .wdogSet a, .wdogKick, .inject d a]) (s : State) : ∃ f, exec i s = privileged s f := by
  simp only [List.mem_cons, List.not_mem_nil, or_false] at hi
  rcases hi with rfl | rfl | rfl | rfl | rfl | rfl | rfl | rfl | rfl | rfl | rfl | rfl
  · rw [exec_rets, execRets, rets]; exact ⟨_, rfl⟩
  · rw [exec_retsSkip, execRetsSkip, rets]; exact ⟨_, rfl⟩
  · rw [exec_retsDecline, execRetsDecline, rets]; exact ⟨_, rfl⟩
  · rw [exec_tlbiAll, execTlbiAll, tlbi, sysForm]; exact ⟨_, rfl⟩
  · rw [exec_tlbiVa, execTlbiVa, tlbi, sysForm]; exact ⟨_, rfl⟩
  · rw [exec_tlbiAsid, execTlbiAsid, tlbi, sysForm]; exact ⟨_, rfl⟩
  · rw [exec_tlbiVmid, execTlbiVmid, tlbi, sysForm]; exact ⟨_, rfl⟩
  · rw [exec_ctxfl, execCtxfl, sysForm]; exact ⟨_, rfl⟩
  · rw [exec_ctxld, execCtxld, sysForm]; exact ⟨_, rfl⟩
  · rw [exec_wdogSet, execWdogSet, sysForm]; exact ⟨_, rfl⟩
  · rw [exec_wdogKick, execWdogKick, sysForm]; exact ⟨_, rfl⟩
  · rw [exec_inject, execInject, sysForm]; exact ⟨_, rfl⟩

end Sys2Proof.Machine

namespace Sys2Proof.Proofs

open Sys2Proof.Machine

/-- Settles O25: every form named begins with the check of the level (`exec_supervisorForm`), and those of a patrol core
check the core next (`exec_patrolForm`). -/
theorem privilegedForms : Obligations.PrivilegedForms := by
  unfold Obligations.PrivilegedForms
  intro s w d a scope hacts patrol forms
  refine ⟨fun hpriv i hi => ?_, fun hpriv hkind i hi => ?_⟩
  · rcases List.mem_append.mp hi with hsup | hpat
    · obtain ⟨f, hf⟩ := exec_supervisorForm hsup s
      exact trapsAt_privileged_user hacts hpriv hf
    · obtain ⟨f, hf⟩ := exec_patrolForm hpat s
      exact trapsAt_privileged_user hacts hpriv hf
  · obtain ⟨f, hf⟩ := exec_patrolForm hi s
    exact trapsAt_patrolForm_other hacts hpriv hkind hf

end Sys2Proof.Proofs

/-! # The tag check of a source (O30) -/

namespace Sys2Proof.Machine

/-- R26, R58: equal tags, and b32 on either side, pass a source as it is. -/
theorem tagCheck_same {s : State} {c : LCtx} {o : LaneOp} {rok : Bool} {draw : Nat} {v : Lanes} {tag want : Fmt}
    (h : tag = want ∨ tag = .b32 ∨ want = .b32) : tagCheck s c o rok draw (v, tag) want = .ok (v, tag, 0) :=
  if_pos (by simpa [or_assoc] using h)

end Sys2Proof.Machine

namespace Sys2Proof.Proofs

open Sys2Proof.Machine

/-- Settles O30: the branches of `tagCheck`, and the elements of a word packed from its elements (`elem_packElems`). -/
theorem tagChecks : Obligations.TagChecks := by
  unfold Obligations.TagChecks
  intro s c o rok draw v tag want r
  refine ⟨tagCheck_same, fun hne htag hwant => ?_⟩
  have hdiff : ¬(tag = want || tag = .b32 || want = .b32) = true := by simp [hne, htag, hwant]
  refine ⟨fun hgroup => ?_, fun hsome hsame => ?_⟩
  · have hbad : ((tagGroup tag).isNone || tagGroup tag ≠ tagGroup want) = true := by simpa using hgroup
    exact (if_neg hdiff).trans (if_pos hbad)
  have hgood : ¬((tagGroup tag).isNone || tagGroup tag ≠ tagGroup want) = true := by simpa [hsame] using hsame ▸ hsome
  refine ⟨fun htagx => ?_, fun htagx => ?_⟩
  · exact ((if_neg hdiff).trans (if_neg hgood)).trans (if_pos htagx)
  · have hconv : ¬wmodeTagx c.w.wmode = true := by simpa [wmodeTagx] using htagx
    refine ⟨_, _, ((if_neg hdiff).trans (if_neg hgood)).trans (if_neg hconv), fun l e hl he => ?_⟩
    rw [lane_mkLanes, if_pos hl, elem_packElems want _ he]

end Sys2Proof.Proofs

/-! # The events of fetching (O39) -/

namespace Sys2Proof.Machine

open Sys2Proof.Claims

/-! ## Words that are no instruction -/

/-- R80, R82: what names no lane of its own names the captured k0. -/
theorem actOf_zero_wordCtx (s : State) (w : Warp) (p : Path) : actOf (wordCtx s w p).k 0 = (wordCtx s w p).act := by
  unfold wordCtx
  split <;> simp [actOf, Path.k0]

/-- R81 to R83: a lane word without a mask field raises its cause for the captured lanes. -/
theorem trapsLane_laneWordFault {i : Instr} {s : State} {w : Warp} {d : Nat} (hw : actsOn s w) (hd : d < 16)
    (hi : exec i s = laneWordFault s d 0) : trapsLane i s (wordCtx s w (actPath s w)) d := by
  refine trapsLaneAt_trapL i s _ d _ _ ?_
  rw [hi, laneWordFault, onPath_live s w hw]
  dsimp only
  rw [actOf_zero_wordCtx, Nat.mod_eq_of_lt hd]

/-! ## The fetch of a word -/

/-- R340, R341: the event of a fetch whose walk meets a fault. -/
theorem exec_fetchFault {s : State} {w : Warp} {f : XFault} (hw : actsOn s w)
    (hf : translate s (fetchReq s w (actPath s w).priv) (actPath s w).pc.toNat = .fault f) :
    exec (.instructionFetchFault f.cause) s = .next (raiseX s s.cur.warp s.cur.path
      { sTrap (actPath s w) f.cause with va := (actPath s w).pc } f) := by
  rw [exec_instructionFetchFault, execInstructionFetchFault, onPath_live s w hw, hf]
  exact if_pos rfl

/-- R341: a fault of another class than 7 is a trap of the path. -/
theorem raiseX_own {s : State} {u : Nat} {pf : Bool} {t : Trap} {f : XFault} (h : f.cause / 16 ≠ 7) :
    raiseX s u pf t f = raiseTrap s u pf { t with cause := f.cause } := if_neg h

/-- R341: a fault of class 7 parks the warp, with a record for the PF. -/
theorem raiseX_stage2 {s : State} {u : Nat} {w : Warp} {pf : Bool} {t : Trap} {f : XFault} (hw : fget s.warps u = some w)
    (h : f.cause / 16 = 7) : raiseX s u pf t f = pushRec (park s u) 0
      { warpRec w f.cause t.resume (.warp u) with flags := b2n f.walk, addr := n64 f.ipa, va := t.va } := by
  rw [raiseX, if_pos h, hw]

/-! ## Words of this module -/

@[simp] theorem length_rdBytes (m : List Host.Cell) (a n : Nat) : (rdBytes m a n).length = n := by
  rw [rdBytes_eq_map, List.length_map, List.length_range]

/-- The first of the 32-bit words of bytes. -/
theorem wordsOf_append (b r : List Byte) (hb : b.length = 4) : wordsOf (b ++ r) = leNat b :: wordsOf r := by
  have hcount : (b ++ r).length / 4 = r.length / 4 + 1 := by rw [List.length_append, hb]; omega
  rw [wordsOf, hcount, List.range_succ_eq_map, List.map_cons, List.map_map]
  congr 1
  · simp [hb]
  · refine List.map_congr_left fun i _ => ?_
    have hdrop : (b ++ r).drop (4 * (i + 1)) = r.drop (4 * i) := by
      rw [Nat.mul_succ, Nat.add_comm, ← hb, List.drop_append]; simp
    simp [Function.comp, hdrop]

/-- The words at a list of addresses of memory. -/
theorem wordsOf_rdBytes (m : List Host.Cell) (f : Nat → Nat) (l : List Nat) :
    wordsOf (l.flatMap fun a => rdBytes m (f a) 4) = l.map fun a => rdLe m (f a) 4 := by
  induction l with
  | nil => simp [wordsOf]
  | cons a r ih => rw [List.flatMap_cons, wordsOf_append _ _ (length_rdBytes m (f a) 4), ih]; rfl

/-- The 32-bit words at addresses of this module, as a warp reads them (R249). -/
def wordsAt (s : State) (w : Warp) (l : List Nat) : List Nat := l.map fun x => rdLe s.mem (fromCopy s w.die x) 4

theorem wordsAt_append_drop {s : State} {w : Warp} {l b : List Nat} {n : Nat} (hl : l.length = n) :
    (wordsAt s w (l ++ b)).drop n = wordsAt s w b := by
  rw [wordsAt, List.map_append, List.drop_left' (by rw [List.length_map, hl])]; rfl

/-- R401: words that lie on this module are read where they lie. -/
theorem withWords_local {s : State} {w : Warp} {l : List Nat} (k : State → List Nat → Out)
    (hw : fget s.warps s.cur.warp = some w) (hl : ∀ x ∈ l, isLocal x = true) :
    withWords s w l k = k s (wordsAt s w l) := by
  have hat : readerAt s (Reader.of s.cur.warp s.cur.path) = fromCopy s w.die := by
    funext a; simp [readerAt, Reader.of, hw]
  have hnone : ((l.map fun a => (a, 4)).flatMap fun e => if isLocal e.1 then [] else granulesOf e.1 e.2) = [] := by
    simpa [List.flatMap_map] using fun a ha h => absurd (hl a ha) (by simp [h])
  simp only [withWords, farPieces, hnone, hat, List.isEmpty_nil, if_true, List.flatMap_map]
  rw [wordsOf_rdBytes, wordsAt]

theorem length_xlateAll {s : State} {q : XReq} {v l : List Nat} (h : xlateAll s q v = .ok l) : l.length = v.length := by
  induction v generalizing l with
  | nil => cases h; rfl
  | cons a r ih =>
    simp only [xlateAll] at h
    split at h
    · split at h
      · next hr => cases h; simp [ih hr]
      · cases h
    · cases h

theorem length_fetchAddrs {s : State} {q : XReq} {va n : Nat} {l : List Nat} (h : fetchAddrs s q va n = .ok l) :
    l.length = n := by
  rw [length_xlateAll h, List.length_map, List.length_range]

/-! ## Clauses -/

/-- The clause at the head of the queue replaced by one of its number. -/
theorem clauseSet_putWarp (s : State) (w : Warp) {k k' : Clause} (h : k'.seq = k.seq) :
    clauseSet s (putWarp s s.cur.warp (w.setPath s.cur.path (setClause (actPath s w) k'))) w k k' := by
  refine ⟨_, rfl, ?_, path_setPath_other _ _ _, ?_, ?_⟩
  · cases s.cur.path <;> rfl
  · rw [actPath, path_setPath]; rfl
  · rw [actPath, path_setPath, ← h]; rfl

section Clause

variable {s : State} {w : Warp} {k : Clause} {l : List Nat}

/-- R78: the fetch of the clause at the head of the queue, once its header h is at hand. The header is a variable
here, so that no check of this proof computes it. -/
theorem exec_clauseFetch_header {h : RawHdr} (hw : actsOn s w) (hk : headClause (actPath s w) = some k) (hn : k.hdr = none)
    (hl : fetchAddrs s (fetchReq s w k.priv) k.addr.toNat 3 = .ok l) (hloc : ∀ x ∈ l, isLocal x = true)
    (hh : hdrFields (joinWord (wordsAt s w l)) = h) :
    (∀ d, hdrFault h = some d →
      exec .clauseFetch s = trapL s (wordCtx s w (actPath s w)) d (wordCtx s w (actPath s w)).act 0) ∧
    (∀ b, hdrFault h = none →
      fetchAddrs s (fetchReq s w k.priv) (k.addr.toNat + 12) (3 * (h.count + 1)) = .ok b →
      exec .clauseFetch s = withWords s w (l ++ b) fun t all => .next (putWarp t s.cur.warp (w.setPath s.cur.path
        (setClause (actPath s w)
          { k with hdr := some { wait := h.wait, setA := h.setA, setB := h.setB, count := h.count },
                   body := joinWords (h.count + 1) (all.drop 3), idx := 1 })))) := by
  rw [exec_clauseFetch, execClauseFetch, onPath_live s w hw]
  split
  · next hnone => rw [hk] at hnone; cases hnone
  next k' hk' =>
  rw [hk] at hk'; cases hk'
  rw [if_neg (by simp [hn])]
  extract_lets c q
  split
  · next hbad => rw [hl] at hbad; cases hbad
  next l' hl' =>
  rw [hl] at hl'; cases hl'
  rw [withWords_local _ hw.1 hloc, hh]
  dsimp only
  refine ⟨fun d hd => ?_, fun b hnone hb => ?_⟩
  · rw [hd]
  · rw [hnone]
    dsimp only
    rw [hb]

theorem bitAt_eq_testBit (x i : Nat) : bitAt x i = x.testBit i := by
  rw [Nat.testBit_eq_decide_div_mod_eq]; rfl

/-- R29: the flags that a clause waits for, none of them pending. -/
theorem noneWaited_iff (s : State) (h : Hdr) :
    ((List.range 12).all fun f => !bitAt h.wait f || !flagPending s s.cur.warp s.cur.path f) = true ↔
      ¬∃ f, f < 12 ∧ h.wait.testBit f = true ∧ flagCount s s.cur.warp s.cur.path f ≠ 0 := by
  simp [bitAt_eq_testBit, flagPending, or_iff_not_imp_left]

/-- R29: the start of the clause at the head of the queue. -/
theorem exec_clauseStart_head {h : Hdr} (hw : actsOn s w) (hk : headClause (actPath s w) = some k) (hh : k.hdr = some h)
    (hs : k.started = false) : exec .clauseStart s =
      if (List.range 12).all fun f => !bitAt h.wait f || !flagPending s s.cur.warp s.cur.path f
      then .next (putWarp s s.cur.warp (w.setPath s.cur.path (setClause (actPath s w) { k with started := true })))
      else .next s := by
  rw [exec_clauseStart, execClauseStart, onPath_live s w hw, hk]
  simp only [hh, hs, Bool.not_false, Bool.true_and]

end Clause

end Sys2Proof.Machine

namespace Sys2Proof.Proofs

open Sys2Proof.Machine

/-- Settles O39: each event on a live path is one equation of the model (`exec_fetchFault`, `exec_clauseFetch_header`,
`exec_clauseStart_head`), and words of this module are read at once (`withWords_local`). -/
theorem fetchEvents : Obligations.FetchEvents := by
  unfold Obligations.FetchEvents
  intro s w hw p c req
  refine ⟨fun d => ?_, fun n => ?_, fun f hf => ⟨fun hcls => ?_, fun hcls pfn hpfn => ?_⟩,
    fun k l hk hn hl hloc => ?_, fun k h hk hh hs => ?_⟩
  · exact trapS_live _ s w _ hw (by rw [exec_malformedEncoding, execMalformedEncoding, onPath_live s w hw])
  · exact trapsLane_laneWordFault hw (by split <;> omega) (exec_laneOpcodeUnassigned n s)
  · rw [exec_fetchFault hw hf, raiseX_own hcls]; rfl
  · refine ⟨_, exec_fetchFault hw hf, ?_⟩
    rw [raiseX_stage2 hw.1 hcls]
    refine ⟨?_, { warpRec w f.cause p.pc (.warp s.cur.warp) with flags := b2n f.walk, addr := n64 f.ipa, va := p.pc },
      rfl, rfl, rfl, rfl, rfl, ?_⟩
    · simp [fget_fmod, hw.1]
    · rw [pushRec_funcs, park_funcs, fget_fmod, if_pos rfl, hpfn]; rfl
  · obtain ⟨hfault, hbody⟩ := exec_clauseFetch_header hw hk hn hl hloc rfl
    refine ⟨fun d hd => trapsLaneAt_trapL _ s c d _ _ (hfault d hd), fun b hd hb hbloc => ?_⟩
    have hall : ∀ x ∈ l ++ b, isLocal x = true := fun x hx => (List.mem_append.mp hx).elim (hloc x) (hbloc x)
    refine ⟨_, (hbody b hd hb).trans (withWords_local _ hw.1 hall), ?_⟩
    rw [wordsAt_append_drop (length_fetchAddrs hl)]
    exact clauseSet_putWarp s w rfl
  · rw [waits, runs, exec_clauseStart_head hw hk hh hs]
    refine ⟨fun hpend => if_neg fun hall => (noneWaited_iff s h).mp hall hpend, fun hnone => ?_⟩
    exact ⟨_, if_pos ((noneWaited_iff s h).mpr hnone), clauseSet_putWarp s w rfl⟩

end Sys2Proof.Proofs

/-! # A register's line across the border of the module (O41) -/

namespace Sys2Proof.Machine

/-! ## A fill whose line cannot be read -/

/-- R39, R408: a fill whose line is lost on the way ends the launch of its warp. -/
theorem fillReg_lost {s : State} {u n a : Nat} {w : Warp} {r : VReg} (hw : fget s.warps u = some w)
    (hr : fget w.regs n = some r) (hline : r.line = none) (hst : w.st = .ready)
    (hx : ctxXlate s w .read (regVa s w n) = .ok a) (hlost : lineRead s u w a = .error .lost) :
    fillReg s u n = purgeKey s w.fn w.reqtag 0x110 := by
  have hgo : ¬(r.line.isSome || w.st = .parked || w.st = .saved || w.st = .ended) = true := by simp [hline, hst]
  simp only [fillReg, hw, hr, if_neg hgo, hx, hlost, ctxWait]

/-! ## The state -/

/-- Tables of the PF, whose root lies at 0: the root's first entry names the table at 4096, whose first names the one at
8192, whose first is a leaf with V, R, W, KIND = 1, HS = 2, its last part present and, as its home, frame 63 of die 3: the
last frame of the module. -/
def borderTables : List Host.Cell :=
  [(0, 1), (1, 0x10), (4096, 1), (4097, 0x20), (8192, 0x07), (8193, 0x09), (8194, 0x3F), (8196, 0x03), (8203, 0x80)]

/-- The last 64 bytes of the page at VA 0. -/
def borderVa : Nat := pageSize - 64

/-- The last 64 bytes of the module's last frame, which the page at VA 0 has as its home. -/
def borderAddr : Nat := frameBase + 2 ^ 29 - 64

/-- A register whose line the core does not hold. -/
def absentReg : VReg := { tag := .b32, line := none, pois := 0, slot := 0 }

/-- A ready kernel warp of the launch below, its v0 absent. -/
def borderWarp : Warp := { newSupervisor 0 with kind := .kernel, st := .ready, slot := 0, regs := [(0, absentReg)] }

/-- The module after a cold start with those tables and a launch of the PF whose CTXB is no multiple of 128, so that the line
of v0 begins 64 bytes before the end of the module. -/
def borderState : State :=
  let cold : State := { State.reset with mem := borderTables, next := 0 }
  { enqueueLaunch cold 0 false { parseRec [] with ctxb := borderVa - 0x1000 } 0 with warps := [(0, borderWarp)] }

theorem regVa_borderState : regVa borderState borderWarp 0 = borderVa := by decide

theorem ctxXlate_borderState : ctxXlate borderState borderWarp .read borderVa = .ok borderAddr := by decide +kernel

theorem ctxHere_borderWarp : ctxHere borderWarp borderAddr = true := by decide

/-- R401, R408: the first granule of module 1, to which no route leads. -/
theorem farBytes_borderState : farBytes borderState borderWarp.fn borderWarp.reqtag (Reader.context 0) (borderAddr + 64) 64 =
    .lost (farUsed borderState 0 [granule (borderAddr + 64)]) := by
  have hgran : (([(borderAddr + 64, 64)] : List (Nat × Nat)).flatMap fun e =>
      if isLocal e.1 then [] else granulesOf e.1 e.2) = [granule (borderAddr + 64)] := by decide
  have hnone : ∀ g, farHas borderState 0 g = none := fun g => rfl
  have hroute : routeNow borderState (partOf borderState borderWarp.fn)
      (homeModule (64 * granule (borderAddr + 64))) = none := by decide
  simp only [farBytes, farPieces, Reader.context, hgran, hnone]
  simp [hroute]

/-- R401: the line's second half lies on module 1, to which no route leads. -/
theorem lineRead_borderState : lineRead borderState 0 borderWarp borderAddr = .error .lost := by
  have hfirst : ∀ n, ctxRead borderState 0 borderWarp borderAddr n =
      .ok (borderState, rdBytes borderState.mem borderAddr n, poisonedIn borderState.pois borderAddr n) :=
    fun n => if_pos ctxHere_borderWarp
  have hsecond : ctxRead borderState 0 borderWarp (borderAddr + 64) 64 = .error .lost := by
    rw [ctxRead, if_neg (by decide), if_neg (by decide), farBytes_borderState]
  simp only [lineRead, hfirst, hsecond]
  rfl

theorem fillReg_borderState : fillReg borderState 0 0 = purgeKey borderState 0 0 0x110 :=
  fillReg_lost (w := borderWarp) (r := absentReg) rfl rfl rfl rfl
    (by rw [regVa_borderState]; exact ctxXlate_borderState) lineRead_borderState

theorem fget_purge_borderState : fget (purgeKey borderState 0 0 0x110).warps 0 = none := by decide

end Sys2Proof.Machine

namespace Sys2Proof.Proofs

open Sys2Proof.Machine

/-- Refutes O41: the first clause says that a fill brings in the line of every register whose slot address translates to this
module, but it asks that of the line's first byte alone. In `borderState` CTXB is no multiple of 128, and the line of v0
begins in the last 64 bytes of the module: its second half lies on module 1, no route leads there, and the fill ends the
launch (R408) and brings in nothing. Admission (R34, R224) takes no such CTXB, but no clause of the statement keeps such
states out. -/
theorem not_coreEvents : ¬ Obligations.CoreEvents := by
  unfold Obligations.CoreEvents
  intro ⟨hrink, _⟩
  obtain ⟨hfill, _⟩ := hrink borderState 0 0 borderWarp rfl
  obtain ⟨hline, _⟩ := hfill 0 absentReg rfl rfl (by decide) (by decide) (by decide)
  have hva : slotVa borderState borderWarp + 0x1000 + 128 * 0 = borderVa := regVa_borderState
  obtain ⟨t, hexec, w', ht, _⟩ := hline borderAddr (by rw [hva]; exact ctxXlate_borderState) ctxHere_borderWarp
  rw [exec_registerFill, execRegisterFill, fillReg_borderState, Host.Outcome.next.injEq] at hexec
  have hgone := fget_purge_borderState
  rw [hexec, ht, fget_putWarp] at hgone
  cases hgone

end Sys2Proof.Proofs

/-! # Encoding and decoding (O1, O2) -/

namespace Sys2Proof.Machine

/-! ## The fields of an encoded S-stream word (R67)

A form's encoding is a constant c, which holds the major opcode and what else selects the form, and its operands at the
places of its format. One lemma per format reads the fields back. The bounds on the operands are found by `omega` where a
lemma is used. -/

theorem add_place_zero (x lo : Nat) : x + place 0 lo = x := by simp [place]

theorem fields_SA {c d a b w : Nat} (h : c + place d 19 + place a 13 + place b 7 = w)
    (hc : c < 2 ^ 32 ∧ c % 2 ^ 25 < 2 ^ 7 := by decide)
    (hd : d < 64 := by omega) (ha : a < 64 := by omega) (hb : b < 64 := by omega) :
    w < 2 ^ 32 ∧ fld w 31 25 = c / 2 ^ 25 ∧ fld w 24 19 = d ∧ fld w 18 13 = a ∧ fld w 12 7 = b ∧
      fld w 6 0 = c % 2 ^ 7 := by
  unfold place at h; unfold fld; omega

theorem fields_SI {c d a imm w : Nat} (h : c + place d 19 + place a 13 + imm = w)
    (hc : c < 2 ^ 32 ∧ c % 2 ^ 12 = 0 ∧ c % 2 ^ 25 < 2 ^ 13 := by decide)
    (hd : d < 64 := by omega) (ha : a < 64 := by omega) (hi : imm < 4096 := by omega) :
    w < 2 ^ 32 ∧ fld w 31 25 = c / 2 ^ 25 ∧ fld w 24 19 = d ∧ fld w 18 13 = a ∧ fld w 12 12 = c / 2 ^ 12 % 2 ∧
      fld w 11 0 = imm := by
  unfold place at h; unfold fld; omega

theorem fields_SI_shift {c d a sh w : Nat} (h : c + place d 19 + place a 13 + sh = w)
    (hc : c < 2 ^ 32 ∧ c % 2 ^ 25 = 0 := by decide)
    (hd : d < 64 := by omega) (ha : a < 64 := by omega) (hs : sh < 64 := by omega) :
    w < 2 ^ 32 ∧ fld w 31 25 = c / 2 ^ 25 ∧ fld w 24 19 = d ∧ fld w 18 13 = a ∧ fld w 12 12 = 0 ∧ fld w 11 6 = 0 ∧
      fld w 5 0 = sh := by
  unfold place at h; unfold fld; omega

theorem fields_SU {c d pos imm w : Nat} (h : c + place d 19 + place pos 16 + imm = w)
    (hc : c < 2 ^ 32 ∧ c % 2 ^ 18 = 0 ∧ c % 2 ^ 25 < 2 ^ 19 := by decide)
    (hd : d < 64 := by omega) (hp : pos < 4 := by omega) (hi : imm < 65536 := by omega) :
    w < 2 ^ 32 ∧ fld w 31 25 = c / 2 ^ 25 ∧ fld w 24 19 = d ∧ fld w 18 18 = c / 2 ^ 18 % 2 ∧ fld w 17 16 = pos ∧
      fld w 15 0 = imm := by
  unfold place at h; unfold fld; omega

theorem fields_SJ {c n off w : Nat} (h : c + place n 19 + off = w) (hc : c < 2 ^ 32 ∧ c % 2 ^ 25 = 0 := by decide)
    (hn : n < 64 := by omega) (ho : off < 524288 := by omega) :
    w < 2 ^ 32 ∧ fld w 31 25 = c / 2 ^ 25 ∧ fld w 24 19 = n ∧ fld w 18 0 = off := by
  unfold place at h; unfold fld; omega

theorem fields_SB {c a b off w : Nat} (h : c + place a 19 + place b 13 + off = w)
    (hc : c < 2 ^ 32 ∧ c % 2 ^ 25 = 0 := by decide)
    (ha : a < 64 := by omega) (hb : b < 64 := by omega) (ho : off < 8192 := by omega) :
    w < 2 ^ 32 ∧ fld w 31 25 = c / 2 ^ 25 ∧ fld w 24 19 = a ∧ fld w 18 13 = b ∧ fld w 12 0 = off := by
  unfold place at h; unfold fld; omega

theorem fields_SD {c kn toff joff w : Nat} (h : c + place kn 21 + place toff 11 + joff = w)
    (hc : c < 2 ^ 32 ∧ c % 2 ^ 25 = 0 := by decide)
    (hk : kn < 16 := by omega) (ht : toff < 1024 := by omega) (hj : joff < 2048 := by omega) :
    w < 2 ^ 32 ∧ fld w 31 25 = c / 2 ^ 25 ∧ fld w 24 21 = kn ∧ fld w 20 11 = toff ∧ fld w 10 0 = joff := by
  unfold place at h; unfold fld; omega

theorem fields_SK {c d a b n w : Nat} (h : c + place d 21 + place a 17 + place b 13 + place n 7 = w)
    (hc : c < 2 ^ 32 ∧ c % 2 ^ 25 < 2 ^ 7 := by decide)
    (hd : d < 16 := by omega) (ha : a < 16 := by omega) (hb : b < 16 := by omega) (hn : n < 64 := by omega) :
    w < 2 ^ 32 ∧ fld w 31 25 = c / 2 ^ 25 ∧ fld w 24 21 = d ∧ fld w 20 17 = a ∧ fld w 16 13 = b ∧ fld w 12 7 = n ∧
      fld w 6 0 = c % 2 ^ 7 := by
  unfold place at h; unfold fld; omega

theorem fields_SV {c n vn l w : Nat} (h : c + place n 19 + place vn 8 + place l 3 = w)
    (hc : c < 2 ^ 32 ∧ c % 2 ^ 25 < 2 ^ 3 := by decide)
    (hn : n < 64 := by omega) (hv : vn < 2048 := by omega) (hl : l < 32 := by omega) :
    w < 2 ^ 32 ∧ fld w 31 25 = c / 2 ^ 25 ∧ fld w 24 19 = n ∧ fld w 18 8 = vn ∧ fld w 7 3 = l ∧
      fld w 2 0 = c % 2 ^ 3 := by
  unfold place at h; unfold fld; omega

/-- WAITF, whose upper fields are one reserved field. -/
theorem fields_SW_mask {c mask w : Nat} (h : c + mask = w) (hc : c < 2 ^ 32 ∧ c % 2 ^ 25 = 0 := by decide)
    (hm : mask < 4096 := by omega) :
    w < 2 ^ 32 ∧ fld w 31 25 = c / 2 ^ 25 ∧ fld w 24 12 = 0 ∧ fld w 11 0 = mask := by
  unfold fld; omega

/-- WAITC, whose lower fields are one reserved field. -/
theorem fields_SW_ctr {c a ctr w : Nat} (h : c + place a 19 + place ctr 16 = w)
    (hc : c < 2 ^ 32 ∧ c % 2 ^ 25 = 0 := by decide) (ha : a < 64 := by omega) (hk : ctr < 8 := by omega) :
    w < 2 ^ 32 ∧ fld w 31 25 = c / 2 ^ 25 ∧ fld w 24 19 = a ∧ fld w 18 16 = ctr ∧ fld w 15 0 = 0 := by
  unfold place at h; unfold fld; omega

theorem fields_SG {c n scope a w : Nat} (h : c + place n 20 + place scope 17 + place a 9 = w)
    (hc : c < 2 ^ 32 ∧ c % 2 ^ 15 = 0 ∧ c % 2 ^ 25 < 2 ^ 17 := by decide)
    (hn : n < 32 := by omega) (hs : scope < 8 := by omega) (ha : a < 64 := by omega) :
    w < 2 ^ 32 ∧ fld w 31 25 = c / 2 ^ 25 ∧ fld w 24 20 = n ∧ fld w 19 17 = scope ∧ fld w 16 15 = c / 2 ^ 15 % 4 ∧
      fld w 14 9 = a ∧ fld w 8 0 = 0 ∧ fld w 16 0 = c % 2 ^ 17 + place a 9 := by
  unfold place at h ⊢; unfold fld; omega

theorem fields_SL {c vn cnt w : Nat} (h : c + place vn 14 + place cnt 3 = w)
    (hc : c < 2 ^ 32 ∧ c % 2 ^ 25 < 2 ^ 3 := by decide) (hv : vn < 2048 := by omega) (hn : cnt < 2048 := by omega) :
    w < 2 ^ 32 ∧ fld w 31 25 = c / 2 ^ 25 ∧ fld w 24 14 = vn ∧ fld w 13 3 = cnt ∧ fld w 2 0 = c % 2 ^ 3 := by
  unfold place at h; unfold fld; omega

theorem fields_SY {c d a imm w : Nat} (h : c + place d 19 + place a 13 + place imm 5 = w)
    (hc : c < 2 ^ 32 ∧ c % 2 ^ 25 < 2 ^ 5 := by decide)
    (hd : d < 64 := by omega) (ha : a < 64 := by omega) (hi : imm < 256 := by omega) :
    w < 2 ^ 32 ∧ fld w 31 25 = c / 2 ^ 25 ∧ fld w 24 19 = d ∧ fld w 18 13 = a ∧ fld w 12 5 = imm ∧
      fld w 4 0 = c % 2 ^ 5 := by
  unfold place at h; unfold fld; omega

/-! ## The S-stream decoder on an encoded word -/

/-- R67 to R72: the word of a well-formed S-stream instruction has 32 bits and decodes to it. Each case stands for the forms
of one format that use the same of its fields. -/
theorem decodeS_of_encodeS {i : Instr} {w : Nat} (hwf : wellFormed i = true) (he : encodeS i = some w) :
    w < 2 ^ 32 ∧ decodeS w = .ok i := by
  cases i
  all_goals
    simp only [wellFormed, encodeS, Bool.and_eq_true, decide_eq_true_eq, Option.some.injEq, reduceCtorEq] at hwf he
  case nop | join | exit | mark | shClose | rets | retsSkip | retsDecline | wdogKick | halt =>
    subst he
    exact ⟨by decide, rfl⟩
  case add d a b | sub d a b | mul d a b | mulhI64 d a b | mulhN64 d a b | divI64 d a b | divN64 d a b | remI64 d a b |
      remN64 d a b | and d a b | or d a b | xor d a b | andn d a b | shl d a b | shr d a b | sra d a b | ror d a b |
      minI64 d a b | minN64 d a b | maxI64 d a b | maxN64 d a b | sltI64 d a b | sltN64 d a b =>
    obtain ⟨hlt, fm, fd, fa, fb, ff⟩ := fields_SA he
    exact ⟨hlt, by simp [decodeS, decodeLow, decodeAlu2, fm, fd, fa, fb, ff]⟩
  case clz d a | popc d a | sextI8 d a | sextI16 d a | sextI32 d a | zextN8 d a | zextN16 d a | zextN32 d a | brev d a =>
    obtain ⟨hlt, fm, fd, fa, fb, ff⟩ := fields_SA (b := 0) (by simpa only [add_place_zero] using he)
    exact ⟨hlt, by simp [decodeS, decodeLow, decodeAlu1, accept, fm, fd, fa, fb, ff]⟩
  case addi d a imm | andi d a imm | ori d a imm | xori d a imm | sltiI64 d a imm | sltiN64 d a imm =>
    obtain ⟨hlt, fm, fd, fa, fv, fi⟩ := fields_SI he
    exact ⟨hlt, by simp [decodeS, decodeLow, accept, fm, fd, fa, fv, fi]⟩
  case shli d a sh | shri d a sh | srai d a sh =>
    obtain ⟨hlt, fm, fd, fa, fv, fz, fs⟩ := fields_SI_shift he
    exact ⟨hlt, by simp [decodeS, decodeLow, accept, fm, fd, fa, fv, fz, fs]⟩
  case ldi d pos imm | ldiK d pos imm =>
    obtain ⟨hlt, fm, fd, fk, fp, fi⟩ := fields_SU he
    exact ⟨hlt, by simp [decodeS, decodeLow, fm, fd, fk, fp, fi]⟩
  case b off =>
    obtain ⟨hlt, fm, fn, fo⟩ := fields_SJ (n := 0) (by simpa only [add_place_zero] using he)
    exact ⟨hlt, by simp [decodeS, decodeMid, accept, fm, fn, fo]⟩
  case call n off | runc n off =>
    obtain ⟨hlt, fm, fn, fo⟩ := fields_SJ he
    exact ⟨hlt, by simp [decodeS, decodeMid, fm, fn, fo]⟩
  case ret a =>
    obtain ⟨hlt, fm, fd, fa, fo⟩ := fields_SB (a := 0) (off := 0) (by simpa only [add_place_zero, Nat.add_zero] using he)
    exact ⟨hlt, by simp [decodeS, decodeMid, accept, fm, fd, fa, fo]⟩
  case loop a off =>
    obtain ⟨hlt, fm, fa, fb, fo⟩ := fields_SB (b := 0) (by simpa only [add_place_zero] using he)
    exact ⟨hlt, by simp [decodeS, decodeMid, accept, fm, fa, fb, fo]⟩
  case beq a b off | bne a b off | blt a b off | bge a b off | bltu a b off | bgeu a b off =>
    obtain ⟨hlt, fm, fa, fb, fo⟩ := fields_SB he
    exact ⟨hlt, by simp [decodeS, decodeMid, fm, fa, fb, fo]⟩
  case brd kn toff joff =>
    obtain ⟨hlt, fm, fk, ft, fj⟩ := fields_SD he
    have hpos : joff ≠ 0 := by omega
    exact ⟨hlt, by simp [decodeS, decodeMid, accept, fm, fk, ft, fj, hpos]⟩
  case kand d a b | kor d a b | kxor d a b | kandn d a b =>
    obtain ⟨hlt, fm, fd, fa, fb, fn, ff⟩ := fields_SK (n := 0) (by simpa only [add_place_zero] using he)
    have hpos : d ≠ 0 := by omega
    exact ⟨hlt, by simp [decodeS, decodeMid, decodeKop, accept, fm, fd, fa, fb, fn, ff, hpos]⟩
  case knot d a | kmov d a =>
    obtain ⟨hlt, fm, fd, fa, fb, fn, ff⟩ := fields_SK (b := 0) (n := 0) (by simpa only [add_place_zero] using he)
    have hpos : d ≠ 0 := by omega
    exact ⟨hlt, by simp [decodeS, decodeMid, decodeKop, accept, fm, fd, fa, fb, fn, ff, hpos]⟩
  case ksetx d n =>
    obtain ⟨hlt, fm, fd, fa, fb, fn, ff⟩ := fields_SK (a := 0) (b := 0) (by simpa only [add_place_zero] using he)
    have hpos : d ≠ 0 := by omega
    exact ⟨hlt, by simp [decodeS, decodeMid, decodeKop, accept, fm, fd, fa, fb, fn, ff, hpos]⟩
  case kgetx n a =>
    obtain ⟨hlt, fm, fd, fa, fb, fn, ff⟩ := fields_SK (d := 0) (b := 0) (by simpa only [add_place_zero] using he)
    exact ⟨hlt, by simp [decodeS, decodeMid, decodeKop, accept, fm, fd, fa, fb, fn, ff]⟩
  case vget n vn l | vput n vn l =>
    obtain ⟨hlt, fm, fn, fv, fl, ff⟩ := fields_SV he
    exact ⟨hlt, by simp [decodeS, decodeMid, accept, fm, fn, fv, fl, ff, hwf]⟩
  case waitf mask =>
    obtain ⟨hlt, fm, fr, fu⟩ := fields_SW_mask he
    exact ⟨hlt, by simp [decodeS, decodeMid, accept, fm, fr, fu]⟩
  case waitc a ctr =>
    obtain ⟨hlt, fm, fa, fc, fr⟩ := fields_SW_ctr he
    exact ⟨hlt, by simp [decodeS, decodeMid, accept, fm, fa, fc, fr, hwf]⟩
  case barArrive n a | barSync n a =>
    obtain ⟨hlt, fm, fn, fs, fb, fa, fr, _⟩ := fields_SG (scope := 0) (by simpa only [add_place_zero] using he)
    exact ⟨hlt, by simp [decodeS, decodeMid, decodeBar, accept, fm, fn, fs, fb, fa, fr]⟩
  case barWait n =>
    obtain ⟨hlt, fm, fn, fs, fb, fa, fr, _⟩ := fields_SG (scope := 0) (a := 0) (by simpa only [add_place_zero] using he)
    exact ⟨hlt, by simp [decodeS, decodeMid, decodeBar, accept, fm, fn, fs, fb, fa, fr]⟩
  case lbarArrive scope | lbarWait scope | lbarSync scope =>
    obtain ⟨⟨_, hlow⟩, hhigh⟩ := hwf
    obtain ⟨hlt, fm, fn, fs, fb, fa, fr, _⟩ := fields_SG (n := 0) (a := 0) (by simpa only [add_place_zero] using he)
    exact ⟨hlt, by simp [decodeS, decodeMid, decodeLbar, accept, fm, fn, fs, fb, fa, fr, hlow, hhigh]⟩
  case fence scope =>
    obtain ⟨hlt, fm, fn, fs, _, _, _, fr⟩ := fields_SG (n := 0) (a := 0) (by simpa only [add_place_zero] using he)
    exact ⟨hlt, by simp [decodeS, decodeMid, accept, place, fm, fn, fs, fr, hwf]⟩
  case claim d a b =>
    obtain ⟨hlt, fm, fd, fa, fb, ff⟩ := fields_SA he
    exact ⟨hlt, by simp [decodeS, decodeMid, accept, fm, fd, fa, fb, ff]⟩
  case poison a b =>
    obtain ⟨hlt, fm, fd, fa, fb, ff⟩ := fields_SA (d := 0) (by simpa only [add_place_zero] using he)
    exact ⟨hlt, by simp [decodeS, decodeMid, accept, fm, fd, fa, fb, ff]⟩
  case liveDead vn cnt | liveHot vn cnt =>
    obtain ⟨hlt, fm, fv, fn, ff⟩ := fields_SL he
    exact ⟨hlt, by simp [decodeS, decodeMid, accept, fm, fv, fn, ff, hwf]⟩
  case launch d a =>
    obtain ⟨hlt, fm, fd, fa, fb, ff⟩ := fields_SA (b := 0) (by simpa only [add_place_zero] using he)
    exact ⟨hlt, by simp [decodeS, accept, fm, fd, fa, fb, ff]⟩
  case mma d a b | mmaZ d a b | amv d a b | amvT d a b =>
    obtain ⟨hlt, fm, fd, fa, fb, ff⟩ := fields_SA he
    exact ⟨hlt, by simp [decodeS, decodeEngine, fm, fd, fa, fb, ff]⟩
  case accAlloc d a | trec d a =>
    obtain ⟨hlt, fm, fd, fa, fb, ff⟩ := fields_SA (b := 0) (by simpa only [add_place_zero] using he)
    exact ⟨hlt, by simp [decodeS, decodeEngine, accept, fm, fd, fa, fb, ff, hwf]⟩
  case accFree a | accZero a =>
    obtain ⟨hlt, fm, fd, fa, fb, ff⟩ := fields_SA (d := 0) (b := 0) (by simpa only [add_place_zero] using he)
    exact ⟨hlt, by simp [decodeS, decodeEngine, accept, fm, fd, fa, fb, ff]⟩
  case accDrain a b =>
    obtain ⟨hlt, fm, fd, fa, fb, ff⟩ := fields_SA (d := 0) (by simpa only [add_place_zero] using he)
    exact ⟨hlt, by simp [decodeS, decodeEngine, accept, fm, fd, fa, fb, ff]⟩
  case shCopy d a b | shFill d a b | shGather d a b | collAllreduce d a b | collAllgather d a b |
      collReducescatter d a b | collAlltoall d a b =>
    obtain ⟨hlt, fm, fd, fa, fb, ff⟩ := fields_SA he
    exact ⟨hlt, by simp [decodeS, decodeEngine, accept, fm, fd, fa, fb, ff, hwf]⟩
  case trap code | brk code =>
    obtain ⟨hlt, fm, fd, fa, fi, ff⟩ := fields_SY (d := 0) (a := 0) (by simpa only [add_place_zero] using he)
    exact ⟨hlt, by simp [decodeS, decodeSys, accept, fm, fd, fa, fi, ff]⟩
  case sysrd d a reg | syswr d a reg =>
    obtain ⟨hlt, fm, fd, fa, fi, ff⟩ := fields_SY he
    exact ⟨hlt, by simp [decodeS, decodeSys, fm, fd, fa, fi, ff]⟩
  case tlbiAll scope =>
    obtain ⟨hlt, fm, fd, fa, fi, ff⟩ := fields_SY (d := 0) (a := 0) (by simpa only [add_place_zero] using he)
    exact ⟨hlt, by simp [decodeS, decodeSys, accept, fm, fd, fa, fi, ff, hwf]⟩
  case tlbiVa d a scope =>
    obtain ⟨hlt, fm, fd, fa, fi, ff⟩ := fields_SY he
    exact ⟨hlt, by simp [decodeS, decodeSys, accept, fm, fd, fa, fi, ff, hwf]⟩
  case tlbiAsid a scope | tlbiVmid a scope =>
    obtain ⟨hlt, fm, fd, fa, fi, ff⟩ := fields_SY (d := 0) (by simpa only [add_place_zero] using he)
    exact ⟨hlt, by simp [decodeS, decodeSys, accept, fm, fd, fa, fi, ff, hwf]⟩
  case ctxfl d a | quiesce d a | retsave d a | retload d a | inject d a =>
    obtain ⟨hlt, fm, fd, fa, fi, ff⟩ := fields_SY (imm := 0) (by simpa only [add_place_zero] using he)
    exact ⟨hlt, by simp [decodeS, decodeSys, accept, fm, fd, fa, fi, ff]⟩
  case ctxld a | wdogSet a =>
    obtain ⟨hlt, fm, fd, fa, fi, ff⟩ := fields_SY (d := 0) (imm := 0) (by simpa only [add_place_zero] using he)
    exact ⟨hlt, by simp [decodeS, decodeSys, accept, fm, fd, fa, fi, ff]⟩
  case gtime d =>
    obtain ⟨hlt, fm, fd, fa, fi, ff⟩ := fields_SY (a := 0) (imm := 0) (by simpa only [add_place_zero] using he)
    exact ⟨hlt, by simp [decodeS, decodeSys, accept, fm, fd, fa, fi, ff]⟩

/-! ## The lane decoder on an encoded word -/

/-- R73: every field of a raw lane word is as narrow as its place in the word. -/
structure RawLane.Fits (r : RawLane) : Prop where
  op : r.op < 2 ^ 10
  dst : r.dst < 2 ^ 11
  a : r.a < 2 ^ 11
  b : r.b < 2 ^ 11
  c : r.c < 2 ^ 11
  rnd : r.rnd < 2 ^ 3
  fmt : r.fmt < 2 ^ 5
  k : r.k < 2 ^ 4
  wn : r.wn < 2
  flag : r.flag < 2 ^ 4
  sat : r.sat < 2
  mods : r.mods < 2 ^ 24

theorem laneFields_laneWord {r : RawLane} (h : r.Fits) : laneFields (laneWord r) = r := by
  obtain ⟨hop, hdst, ha, hb, hc, hrnd, hfmt, hk, hwn, hflag, hsat, hmods⟩ := h
  cases r
  simp only [laneFields, laneWord, fld, RawLane.mk.injEq] at *
  omega

theorem rawOf_fits {op : Nat} {o : LaneOp} (hop : op < 2 ^ 10) (h : laneOperandsWf o = true) : (rawOf op o).Fits := by
  simp only [laneOperandsWf, Bool.and_eq_true, decide_eq_true_eq] at h
  obtain ⟨⟨⟨⟨⟨⟨⟨hd, ha⟩, hb⟩, hc⟩, hr⟩, hk⟩, hf⟩, hm⟩ := h
  have hdst : o.dst.getD 0 < 2 ^ 11 := by
    cases hn : o.dst with
    | none => decide
    | some d => have : d < 1536 := by simpa [hn] using hd
                exact lt_trans this (by decide)
  have hflag : o.flag.getD 15 < 2 ^ 4 := by
    cases hn : o.flag with
    | none => decide
    | some f => have : f < 12 := by simpa [hn] using hf
                exact lt_trans this (by decide)
  have hbit (b : Bool) : b2n b < 2 := by cases b <;> decide
  exact ⟨hop, hdst, Laws.srcCode_lt ha, Laws.srcCode_lt hb, Laws.srcCode_lt hc, hr, Laws.fmtCode_lt o.fmt, hk, hbit _,
    hflag, hbit _, hm⟩

theorem srcOf_srcCode {x : Src} (h : srcWf x = true) : srcOf (srcCode x) = some x := by
  cases x with
  | imm => rfl
  | _ n =>
    simp only [srcWf, decide_eq_true_eq] at h
    grind [srcOf, srcCode]

theorem fmtOf_fmtCode (f : Fmt) : fmtOf (fmtCode f) = f := by cases f <;> rfl

/-- R73: the fields of a lane instruction are found again in the raw fields of its word. -/
theorem opOf_rawOf {op : Nat} {o : LaneOp} (h : laneOperandsWf o = true) : opOf (rawOf op o) = o := by
  simp only [laneOperandsWf, Bool.and_eq_true, decide_eq_true_eq] at h
  obtain ⟨⟨⟨⟨⟨⟨⟨_, ha⟩, hb⟩, hc⟩, _⟩, _⟩, hf⟩, _⟩ := h
  have hdst : (if b2n o.dst.isSome = 1 then some (o.dst.getD 0) else none) = o.dst := by cases o.dst <;> rfl
  have hflag : (if o.flag.getD 15 = 15 then none else some (o.flag.getD 15)) = o.flag := by
    cases hn : o.flag with
    | none => rfl
    | some f => have : f < 12 := by simpa [hn] using hf
                exact if_neg (by simp; omega)
  have hsat : decide (b2n o.sat = 1) = o.sat := by cases o.sat <;> rfl
  show LaneOp.mk (if b2n o.dst.isSome = 1 then some (o.dst.getD 0) else none) ((srcOf (srcCode o.a)).getD .imm)
    ((srcOf (srcCode o.b)).getD .imm) ((srcOf (srcCode o.c)).getD .imm) o.rnd (fmtOf (fmtCode o.fmt)) o.k
    (if o.flag.getD 15 = 15 then none else some (o.flag.getD 15)) (decide (b2n o.sat = 1)) o.mods = o
  rw [hdst, hflag, hsat, srcOf_srcCode ha, srcOf_srcCode hb, srcOf_srcCode hc, fmtOf_fmtCode]
  rfl

/-- R80: a lane instruction is well-formed by the rules of its opcode, and its opcode names it. -/
theorem laneParts_row {i : Instr} {op : Nat} {o : LaneOp} (h : laneParts i = some (op, o)) :
    wellFormed i = laneWf op o ∧ op < 2 ^ 10 ∧ laneInstr op o = some i := by
  cases i
  all_goals simp only [laneParts, Option.some.injEq, Prod.mk.injEq, reduceCtorEq] at h
  all_goals
    obtain ⟨rfl, rfl⟩ := h
    exact ⟨rfl, by decide, rfl⟩

theorem laneParts_of_encodeLane {i : Instr} {w : Nat} (h : encodeLane i = some w) :
    ∃ op o, laneParts i = some (op, o) ∧ laneWord (rawOf op o) = w := by
  unfold encodeLane at h
  split at h
  · next op o hparts => exact ⟨op, o, hparts, Option.some.inj h⟩
  · cases h

theorem decodeLane_ok {decl : Option (Nat × Nat)} {w : Nat} {r : RawLane} {i : Instr} (hr : laneFields w = r)
    (hf : laneFault decl r = none) (hi : laneInstr r.op (opOf r) = some i) : decodeLane decl w = .ok i := by
  subst hr
  simp only [decodeLane, hf, hi]

/-- R73 to R76, R80: the word of a well-formed lane instruction has 96 bits and decodes to it. -/
theorem decodeLane_of_encodeLane {i : Instr} {w : Nat} (hwf : wellFormed i = true) (he : encodeLane i = some w) :
    w < 2 ^ 96 ∧ decodeLane none w = .ok i := by
  obtain ⟨op, o, hparts, rfl⟩ := laneParts_of_encodeLane he
  obtain ⟨hrow, hop, hinstr⟩ := laneParts_row hparts
  rw [hrow, laneWf, Bool.and_eq_true, Option.isNone_iff_eq_none] at hwf
  obtain ⟨hoperands, hfault⟩ := hwf
  refine ⟨Laws.laneWord_lt hop hoperands, decodeLane_ok (laneFields_laneWord (rawOf_fits hop hoperands)) hfault ?_⟩
  rw [opOf_rawOf hoperands]
  exact hinstr

/-! ## Both streams -/

theorem encode_of_encodeS {i : Instr} {w : Nat} (h : encodeS i = some w) : encode i = some (32, w) := by
  simp only [encode, h]

/-- R65: an encoding is one of the S stream or one of a clause. -/
theorem encode_cases {i : Instr} {n w : Nat} (h : encode i = some (n, w)) :
    n = 32 ∧ encodeS i = some w ∨ n = 96 ∧ encodeLane i = some w := by
  unfold encode at h
  split at h
  · next hs => cases h; exact .inl ⟨rfl, hs⟩
  · split at h
    · next hl => cases h; exact .inr ⟨rfl, hl⟩
    · cases h

theorem decodeTableWord_32 {w : Nat} (hw : w < 2 ^ 32) : decodeTableWord 32 w = (decodeS w).toOption := by
  rw [decodeTableWord, if_pos rfl, Nat.mod_eq_of_lt hw]

theorem decodeTableWord_96 {w : Nat} (hw : w < 2 ^ 96) : decodeTableWord 96 w = (decodeLane none w).toOption := by
  rw [decodeTableWord, if_neg (by decide), if_pos rfl, Nat.mod_eq_of_lt hw]

end Sys2Proof.Machine

namespace Sys2Proof.Proofs

open Sys2Proof.Machine

/-- Settles O1: the fields of an encoded word are the operands that were put there, in the S stream format by format
(`decodeS_of_encodeS`) and in a clause by the one lane format (`decodeLane_of_encodeLane`). -/
theorem decodeOfEncode : Obligations.DecodeOfEncode := by
  unfold Obligations.DecodeOfEncode
  intro i n w hwf he
  rcases encode_cases he with ⟨rfl, hs⟩ | ⟨rfl, hl⟩
  · obtain ⟨hlt, hdec⟩ := decodeS_of_encodeS hwf hs
    rw [decodeTableWord_32 hlt, hdec]; rfl
  · obtain ⟨hlt, hdec⟩ := decodeLane_of_encodeLane hwf hl
    rw [decodeTableWord_96 hlt, hdec]; rfl

end Sys2Proof.Proofs

namespace Sys2Proof.Machine

/-! ## A word and its fields (R67)

A word of 32 bits is the sum of its fields at their places, in every format, and each field has the width of its place. -/

theorem word_bare {w : Nat} (hw : w < 2 ^ 32) : w = place (fld w 31 25) 25 + fld w 24 0 := by
  unfold place fld; omega

theorem word_SA {w : Nat} (hw : w < 2 ^ 32) :
    w = place (fld w 31 25) 25 + place (fld w 24 19) 19 + place (fld w 18 13) 13 + place (fld w 12 7) 7 + fld w 6 0 ∧
      fld w 24 19 < 64 ∧ fld w 18 13 < 64 ∧ fld w 12 7 < 64 := by
  unfold place fld; omega

theorem word_SI {w : Nat} (hw : w < 2 ^ 32) :
    w = place (fld w 31 25) 25 + place (fld w 24 19) 19 + place (fld w 18 13) 13 + place (fld w 12 12) 12 + fld w 11 0 ∧
      fld w 11 0 = place (fld w 11 6) 6 + fld w 5 0 ∧
      fld w 24 19 < 64 ∧ fld w 18 13 < 64 ∧ fld w 12 12 < 2 ∧ fld w 11 0 < 4096 ∧ fld w 5 0 < 64 := by
  unfold place fld; omega

theorem word_SU {w : Nat} (hw : w < 2 ^ 32) :
    w = place (fld w 31 25) 25 + place (fld w 24 19) 19 + place (fld w 18 18) 18 + place (fld w 17 16) 16 + fld w 15 0 ∧
      fld w 24 19 < 64 ∧ fld w 18 18 < 2 ∧ fld w 17 16 < 4 ∧ fld w 15 0 < 65536 := by
  unfold place fld; omega

theorem word_SJ {w : Nat} (hw : w < 2 ^ 32) :
    w = place (fld w 31 25) 25 + place (fld w 24 19) 19 + fld w 18 0 ∧ fld w 24 19 < 64 ∧ fld w 18 0 < 524288 := by
  unfold place fld; omega

theorem word_SB {w : Nat} (hw : w < 2 ^ 32) :
    w = place (fld w 31 25) 25 + place (fld w 24 19) 19 + place (fld w 18 13) 13 + fld w 12 0 ∧
      fld w 24 19 < 64 ∧ fld w 18 13 < 64 ∧ fld w 12 0 < 8192 := by
  unfold place fld; omega

theorem word_SD {w : Nat} (hw : w < 2 ^ 32) :
    w = place (fld w 31 25) 25 + place (fld w 24 21) 21 + place (fld w 20 11) 11 + fld w 10 0 ∧
      fld w 24 21 < 16 ∧ fld w 20 11 < 1024 ∧ fld w 10 0 < 2048 := by
  unfold place fld; omega

theorem word_SK {w : Nat} (hw : w < 2 ^ 32) :
    w = place (fld w 31 25) 25 + place (fld w 24 21) 21 + place (fld w 20 17) 17 + place (fld w 16 13) 13 +
        place (fld w 12 7) 7 + fld w 6 0 ∧
      fld w 24 21 < 16 ∧ fld w 20 17 < 16 ∧ fld w 16 13 < 16 ∧ fld w 12 7 < 64 := by
  unfold place fld; omega

theorem word_SV {w : Nat} (hw : w < 2 ^ 32) :
    w = place (fld w 31 25) 25 + place (fld w 24 19) 19 + place (fld w 18 8) 8 + place (fld w 7 3) 3 + fld w 2 0 ∧
      fld w 24 19 < 64 ∧ fld w 7 3 < 32 := by
  unfold place fld; omega

theorem word_SW {w : Nat} (hw : w < 2 ^ 32) :
    w = place (fld w 31 25) 25 + place (fld w 24 19) 19 + place (fld w 18 16) 16 + fld w 15 0 ∧
      w = place (fld w 31 25) 25 + place (fld w 24 12) 12 + fld w 11 0 ∧ fld w 24 19 < 64 ∧ fld w 11 0 < 4096 := by
  unfold place fld; omega

theorem word_SG {w : Nat} (hw : w < 2 ^ 32) :
    w = place (fld w 31 25) 25 + place (fld w 24 20) 20 + place (fld w 19 17) 17 + fld w 16 0 ∧
      fld w 16 0 = place (fld w 16 15) 15 + place (fld w 14 9) 9 + fld w 8 0 ∧
      fld w 24 20 < 32 ∧ fld w 19 17 < 8 ∧ fld w 14 9 < 64 := by
  unfold place fld; omega

theorem word_SL {w : Nat} (hw : w < 2 ^ 32) :
    w = place (fld w 31 25) 25 + place (fld w 24 14) 14 + place (fld w 13 3) 3 + fld w 2 0 ∧
      fld w 24 14 < 2048 ∧ fld w 13 3 < 2048 := by
  unfold place fld; omega

theorem word_SY {w : Nat} (hw : w < 2 ^ 32) :
    w = place (fld w 31 25) 25 + place (fld w 24 19) 19 + place (fld w 18 13) 13 + place (fld w 12 5) 5 + fld w 4 0 ∧
      fld w 24 19 < 64 ∧ fld w 18 13 < 64 ∧ fld w 12 5 < 256 := by
  unfold place fld; omega

/-! ## What the S-stream decoder answers is encoded by its word -/

/-- Whatever a decoder answers for the word is a well-formed instruction that the word encodes. -/
def DecodeSound (w : Nat) (r : Except Nat Instr) : Prop := ∀ i, r = .ok i → wellFormed i = true ∧ encodeS i = some w

theorem decodeSound_ok {w : Nat} {i : Instr} : DecodeSound w (.ok i) ↔ wellFormed i = true ∧ encodeS i = some w :=
  ⟨fun h => h i rfl, fun h j hj => by cases hj; exact h⟩

theorem decodeSound_error {w d : Nat} : DecodeSound w (.error d) := fun _ h => nomatch h

/-- R82: an instruction is answered only where no reserved field is set and every value is assigned. -/
theorem decodeSound_accept {w : Nat} {r a : Bool} {i : Instr} :
    DecodeSound w (accept r a i) ↔ (r = true → a = true → wellFormed i = true ∧ encodeS i = some w) := by
  cases r <;> cases a <;> simp [accept, decodeSound_ok, decodeSound_error]

theorem decodeSound_unassigned {w : Nat} {r : Bool} {i : Instr} : DecodeSound w (accept r false i) :=
  decodeSound_accept.mpr fun _ h => nomatch h

section

variable {w : Nat} (hw : w < 2 ^ 32)
include hw

theorem decodeSound_alu2 (hm : fld w 31 25 = 0x02) :
    DecodeSound w (decodeAlu2 (fld w 6 0) (fld w 24 19) (fld w 18 13) (fld w 12 7)) := by
  have hword := word_SA hw
  unfold decodeAlu2
  split
  case h_24 => exact decodeSound_error
  all_goals
    simp only [decodeSound_ok, wellFormed, encodeS, place, Bool.and_eq_true, decide_eq_true_eq, Option.some.injEq] at hword ⊢
    omega

theorem decodeSound_alu1 (hm : fld w 31 25 = 0x02) :
    DecodeSound w (decodeAlu1 (fld w 6 0) (fld w 24 19) (fld w 18 13) (fld w 12 7)) := by
  have hword := word_SA hw
  unfold decodeAlu1
  split
  case h_10 => exact decodeSound_error
  all_goals
    simp only [decodeSound_accept, wellFormed, encodeS, place, Bool.and_eq_true, decide_eq_true_eq,
      Option.some.injEq] at hword ⊢
    omega

theorem decodeSound_kop (hm : fld w 31 25 = 0x20) : DecodeSound w (decodeKop w) := by
  have hword := word_SK hw
  dsimp only [decodeKop]
  split
  case h_9 => exact decodeSound_error
  all_goals
    simp only [decodeSound_accept, wellFormed, encodeS, place, Bool.and_eq_true, decide_eq_true_eq,
      Option.some.injEq] at hword ⊢
    omega

theorem decodeSound_bar (hm : fld w 31 25 = 0x28) : DecodeSound w (decodeBar w) := by
  have hword := word_SG hw
  dsimp only [decodeBar]
  split
  case h_4 => exact decodeSound_unassigned
  all_goals
    simp only [decodeSound_accept, wellFormed, encodeS, place, Bool.and_eq_true, decide_eq_true_eq,
      Option.some.injEq] at hword ⊢
    omega

theorem decodeSound_lbar (hm : fld w 31 25 = 0x29) : DecodeSound w (decodeLbar w) := by
  have hword := word_SG hw
  dsimp only [decodeLbar]
  split
  case h_4 => exact decodeSound_unassigned
  all_goals
    simp only [decodeSound_accept, wellFormed, encodeS, place, Bool.and_eq_true, decide_eq_true_eq,
      Option.some.injEq] at hword ⊢
    omega

theorem decodeSound_engine :
    DecodeSound w (decodeEngine (fld w 31 25) (fld w 6 0) (fld w 24 19) (fld w 18 13) (fld w 12 7)) := by
  have hword := word_SA hw
  unfold decodeEngine
  split
  case h_18 => exact decodeSound_error
  all_goals
    simp only [decodeSound_accept, decodeSound_ok, wellFormed, encodeS, place, Bool.and_eq_true, decide_eq_true_eq,
      Option.some.injEq, true_and] at hword ⊢
    omega

theorem decodeSound_sys (hm : fld w 31 25 = 0x60) : DecodeSound w (decodeSys w) := by
  have hword := word_SY hw
  dsimp only [decodeSys]
  split
  case h_20 => exact decodeSound_error
  case h_2 =>
    split
    case h_4 => exact decodeSound_error
    all_goals
      simp only [decodeSound_accept, wellFormed, encodeS, place, Bool.and_eq_true, decide_eq_true_eq,
        Option.some.injEq, true_and] at hword ⊢
      omega
  all_goals
    simp only [decodeSound_accept, decodeSound_ok, wellFormed, encodeS, place, Bool.and_eq_true, decide_eq_true_eq,
      Option.some.injEq, true_and] at hword ⊢
    omega

theorem decodeSound_low {m : Nat} (hm : fld w 31 25 = m) : DecodeSound w (decodeLow m w) := by
  dsimp only [decodeLow]
  split
  case h_12 => exact decodeSound_error
  case h_1 =>
    have hword := word_bare hw
    simp only [decodeSound_accept, wellFormed, encodeS, place, decide_eq_true_eq, Option.some.injEq, true_and] at hword ⊢
    omega
  case h_2 =>
    split
    · exact decodeSound_alu2 hw hm
    · exact decodeSound_alu1 hw hm
  case h_10 =>
    have hword := word_SI hw
    split
    all_goals
      simp only [decodeSound_ok, wellFormed, encodeS, place, Bool.and_eq_true, decide_eq_true_eq,
        Option.some.injEq] at hword ⊢
      omega
  case h_11 =>
    have hword := word_SU hw
    split
    all_goals
      simp only [decodeSound_ok, wellFormed, encodeS, place, Bool.and_eq_true, decide_eq_true_eq,
        Option.some.injEq] at hword ⊢
      omega
  all_goals
    have hword := word_SI hw
    simp only [decodeSound_accept, wellFormed, encodeS, place, Bool.and_eq_true, decide_eq_true_eq,
      Option.some.injEq] at hword ⊢
    omega

theorem decodeSound_mid {m : Nat} (hm : fld w 31 25 = m) : DecodeSound w (decodeMid m w) := by
  dsimp only [decodeMid]
  split
  case h_26 => exact decodeSound_error
  case h_14 => exact decodeSound_kop hw hm
  case h_19 => exact decodeSound_bar hw hm
  case h_20 => exact decodeSound_lbar hw hm
  case h_1 | h_2 | h_16 =>
    have hword := word_SJ hw
    simp only [decodeSound_accept, decodeSound_ok, wellFormed, encodeS, place, Bool.and_eq_true, decide_eq_true_eq,
      Option.some.injEq] at hword ⊢
    omega
  case h_4 =>
    have hword := word_SD hw
    simp only [decodeSound_accept, wellFormed, encodeS, place, Bool.and_eq_true, decide_eq_true_eq,
      Option.some.injEq] at hword ⊢
    omega
  case h_5 | h_7 | h_24 =>
    have hword := word_bare hw
    simp only [decodeSound_accept, wellFormed, encodeS, place, decide_eq_true_eq, Option.some.injEq, true_and] at hword ⊢
    omega
  case h_15 =>
    have hword := word_SV hw
    split_ifs
    case neg => exact decodeSound_error
    all_goals
      simp only [decodeSound_accept, wellFormed, encodeS, place, Bool.and_eq_true, decide_eq_true_eq,
        Option.some.injEq] at hword ⊢
      omega
  case h_17 | h_18 =>
    have hword := word_SW hw
    simp only [decodeSound_accept, wellFormed, encodeS, place, Bool.and_eq_true, decide_eq_true_eq,
      Option.some.injEq] at hword ⊢
    omega
  case h_21 =>
    have hword := word_SG hw
    simp only [decodeSound_accept, wellFormed, encodeS, place, Bool.and_eq_true, decide_eq_true_eq,
      Option.some.injEq] at hword ⊢
    omega
  case h_22 | h_25 =>
    have hword := word_SA hw
    simp only [decodeSound_accept, wellFormed, encodeS, place, Bool.and_eq_true, decide_eq_true_eq,
      Option.some.injEq] at hword ⊢
    omega
  case h_23 =>
    have hword := word_SL hw
    split_ifs
    case neg => exact decodeSound_error
    all_goals
      simp only [decodeSound_accept, wellFormed, encodeS, place, Bool.and_eq_true, decide_eq_true_eq,
        Option.some.injEq] at hword ⊢
      omega
  all_goals
    have hword := word_SB hw
    simp only [decodeSound_accept, decodeSound_ok, wellFormed, encodeS, place, Bool.and_eq_true, decide_eq_true_eq,
      Option.some.injEq] at hword ⊢
    omega

/-- R69: the decoder of a word, by its major opcode. -/
theorem decodeSound_decodeS : DecodeSound w (decodeS w) := by
  dsimp only [decodeS]
  split_ifs with hlow hmid hlaunch hsys hengine
  · exact decodeSound_low hw rfl
  · exact decodeSound_mid hw rfl
  · have hword := word_SA hw
    simp only [decodeSound_accept, wellFormed, encodeS, place, Bool.and_eq_true, decide_eq_true_eq,
      Option.some.injEq] at hword ⊢
    omega
  · exact decodeSound_sys hw hsys
  · exact decodeSound_engine hw
  · exact decodeSound_error

end

end Sys2Proof.Machine

namespace Sys2Proof.Proofs

open Sys2Proof.Machine

/-- Settles O2: every arm of the decoder checks the fields that its form does not use (`decodeSound_decodeS`), so the word is
the sum of the fields that the encoder puts together. -/
theorem encodeOfDecode : Obligations.EncodeOfDecode := by
  unfold Obligations.EncodeOfDecode
  intro w i hw hdec
  obtain ⟨hwf, henc⟩ := decodeSound_decodeS hw i hdec
  exact ⟨hwf, encode_of_encodeS henc⟩

end Sys2Proof.Proofs

/-! # The forms that write a lane mask (O6) -/

namespace Sys2Proof.Machine

/-- R111: a form that writes a mask, on a live path. -/
theorem runs_kop {i : Instr} {s : State} {w : Warp} {d : Nat} {f : Warp → W32} (hw : actsOn s w)
    (hi : exec i s = kop s d f) : runs i s fun t => maskStep s t w d (f w) (nextPc s w) := by
  obtain ⟨t, ht, hstep⟩ := retire_wk s w d (f w)
  exact ⟨t, by rw [hi, kop, onPath_live s w hw, ht], hstep⟩

theorem decodeS_kop {v : Nat} (hm : fld v 31 25 = 0x20) : decodeS v = decodeKop v := by
  simp [decodeS, decodeMid, hm]

/-- R82: a value that is not assigned raises 0.1, and 0.5 where a reserved field is set. -/
theorem accept_unassigned (r : Bool) (i : Instr) : accept r false i = .error 1 ∨ accept r false i = .error 5 := by
  cases r
  · exact .inr rfl
  · exact .inl rfl

/-- R71: kd = 0 is unassigned in the forms 0 to 6, which write kd. -/
theorem decodeKop_noDest {v : Nat} (hd : fld v 24 21 = 0) (hf : fld v 6 0 ≤ 6) :
    decodeKop v = .error 1 ∨ decodeKop v = .error 5 := by
  have hno : decide (fld v 24 21 ≠ 0) = false := decide_eq_false (not_not_intro hd)
  dsimp only [decodeKop]
  rw [hno]
  generalize fld v 6 0 = f at hf ⊢
  interval_cases f
  all_goals exact accept_unassigned _ _

/-- R71: a well-formed form that writes a mask names one of k1 to k15. -/
theorem dest_of_wellFormed {i : Instr} {d a b n : Nat} (hi : i = .ksetx d n ∨ i ∈ (Claims.maskForms d a b).map (·.1))
    (hwf : wellFormed i = true) : 1 ≤ d ∧ d ≤ 15 := by
  simp only [Claims.maskForms, List.map_cons, List.map_nil, List.mem_cons, List.not_mem_nil, or_false] at hi
  rcases hi with rfl | rfl | rfl | rfl | rfl | rfl | rfl
  all_goals
    simp only [wellFormed, Bool.and_eq_true, decide_eq_true_eq] at hwf
    omega

end Sys2Proof.Machine

namespace Sys2Proof.Proofs

open Sys2Proof.Machine Sys2Proof.Claims

theorem maskWrites : MaskWrites := by
  intro s w d a b n hw
  refine ⟨fun e he => ?_, runs_kop hw (exec_ksetx d n s)⟩
  simp only [maskForms, List.mem_cons, List.not_mem_nil, or_false] at he
  rcases he with rfl | rfl | rfl | rfl | rfl | rfl
  · exact runs_kop hw (exec_kand d a b s)
  · exact runs_kop hw (exec_kor d a b s)
  · exact runs_kop hw (exec_kxor d a b s)
  · exact runs_kop hw (exec_kandn d a b s)
  · exact runs_kop hw (exec_knot d a s)
  · exact runs_kop hw (exec_kmov d a s)

theorem maskWords : MaskWords := by
  refine ⟨fun v f hf => ⟨?_, fun hv hmajor hfunc hdest => ?_⟩, fun v d a b n hv ⟨i, hdec, hi⟩ => ?_⟩
  · interval_cases f <;> rfl
  · have hm : fld v 31 25 = 0x20 := by unfold fld; omega
    have hd : fld v 24 21 = 0 := hdest
    have hfld : fld v 6 0 = f := by unfold fld; omega
    rw [decodeS_kop hm]
    exact decodeKop_noDest hd (hfld.trans_le hf)
  · obtain ⟨hwf, _⟩ := decodeSound_decodeS hv i hdec
    exact dest_of_wellFormed hi hwf

/-- Settles O6: every form is one write of kd on the live path (`runs_kop`), kd = 0 is refused in each arm of the decoder
(`decodeKop_noDest`), and what decodes is well-formed (`decodeSound_decodeS`). -/
theorem maskResults : Obligations.MaskResults := by
  unfold Obligations.MaskResults
  exact ⟨maskWrites, maskWords⟩

end Sys2Proof.Proofs

/-! # Words that the spec writes out (O3) -/

namespace Sys2Proof.Proofs

open Sys2Proof.Machine

/-- Settles O3: each word is evaluated by the decoder. -/
theorem specWordsDecode : Obligations.SpecWordsDecode := by
  unfold Obligations.SpecWordsDecode
  exact ⟨rfl, rfl, rfl, rfl, rfl, rfl⟩

end Sys2Proof.Proofs

/-! # A step and the instruction that it runs (O58) -/

namespace Sys2Proof.Machine

/-! ## What follows from a step -/

/-- R410: no result is checked where none waits for its check. -/
theorem settleChecked_eq_self {c : Choice} {s t : State}
    (h : ∀ v x, fget s.warps v = some x → x.a.last = none ∧ x.b.last = none) : settleChecked c s t = t := by
  have hnone (u : Nat) (v w : Warp) (hv : fget s.warps u = some v) :
      ((v.a.last.isNone && v.b.last.isNone) || !hasIssued c v w) = true := by simp [h u v hv]
  cases c with
  | issue u pf | lane u pf =>
    dsimp only [settleChecked]
    split
    · next v w hv _ => exact if_pos (hnone u v w hv)
    · rfl
  | _ => rfl

/-- R249: no duplicate ends where there is none. -/
theorem pruneDups_eq_self {s : State} (h : s.mgmt.dups = []) : pruneDups s = s := if_pos (by rw [h]; rfl)

theorem settle_eq_self {c : Choice} {s t : State} (hd : t.mgmt.dups = [])
    (hl : ∀ v x, fget s.warps v = some x → x.a.last = none ∧ x.b.last = none) : settle c s t = t := by
  rw [settle, settleChecked_eq_self hl, pruneDups_eq_self hd]

theorem step_agenda {s : State} {c : Choice} {rest : List Choice} (h : s.agenda = c :: rest) :
    step s = runChoice c { s with turn := s.turn + 1, agenda := rest } := by
  rw [step, h]

/-! ## What a choice runs -/

theorem leNat_lt (b : List Byte) : leNat b < 256 ^ b.length := by
  induction b with
  | nil => decide
  | cons x r ih =>
    have hx : x.toNat < 256 := x.isLt
    rw [leNat, List.length_cons, Nat.pow_succ]
    omega

theorem rdLe_lt (m : List Host.Cell) (a n : Nat) : rdLe m a n < 256 ^ n := by
  have h := leNat_lt (rdBytes m a n)
  rwa [length_rdBytes] at h

/-- R81: a word that decodes as a row of the table is run as that row. -/
theorem decodeWord_of_decodeTableWord {v : Nat} {i : Instr} (hv : v < 2 ^ 32) (h : decodeTableWord 32 v = some i) :
    decodeWord v = i := by
  rw [decodeTableWord_32 hv] at h
  unfold decodeWord
  cases hd : decodeS v with
  | error d => rw [hd] at h; cases h
  | ok j => rw [hd] at h; exact Option.some.inj h

/-- R340: a word of this module at a path's S-PC is fetched and run. -/
theorem fetchAndRun_local {s : State} {w : Warp} {p : Path} {a : Nat} {i : Instr} (hw : fget s.warps s.cur.warp = some w)
    (ht : translate s (fetchReq s w p.priv) p.pc.toNat = .ok a) (hl : isLocal a = true)
    (hi : decodeTableWord 32 (rdLe s.mem (fromCopy s w.die a) 4) = some i) : fetchAndRun s w p = exec i s := by
  have hlocal : ∀ x ∈ [a], isLocal x = true := fun x hx => List.mem_singleton.mp hx ▸ hl
  have hdec := decodeWord_of_decodeTableWord (rdLe_lt s.mem _ 4) hi
  rw [fetchAndRun, ht]
  exact (withWords_local _ hw hlocal).trans (by rw [← hdec]; rfl)

/-- R97: a path that may issue fetches its word. -/
theorem issueStep_mayIssue {s : State} {u : Nat} {pf : Bool} {w : Warp} (hw : fget s.warps u = some w)
    (hctx : hasContext w = true) (hpend : (w.path pf).pend = none) (hdue : watchdogDue w = false)
    (hmay : mayIssue s w (w.path pf) = true) : issueStep u pf s = fetchAndRun (withCur s u pf) w (w.path pf) := by
  simp [issueStep, hw, hctx, hpend, hdue, hmay]

/-- R73, R78: a path whose clause has started runs the clause's next word. -/
theorem laneStep_started {s : State} {u : Nat} {pf : Bool} {w : Warp} {c : Clause} {h : Hdr} {i : Instr}
    (hw : fget s.warps u = some w) (hmay : mayLane s w (w.path pf) = true) (hc : headClause (w.path pf) = some c)
    (hh : c.hdr = some h) (hs : c.started = true)
    (hi : decodeLane (some (h.setA, h.setB)) (c.body.getD (c.idx - 1) 0) = .ok i) :
    laneStep u pf s = exec i (withCur s u pf) := by
  simp only [laneStep, laneAct, runLaneWord, hw, hmay, hc, hh, hs, hi, if_true]

theorem eventStep_event {s : State} {i : Instr} (h : isEvent i = true) : eventStep i s = exec i s := if_pos h

end Sys2Proof.Machine

namespace Sys2Proof.Proofs

open Sys2Proof.Machine

/-- Settles O58: a step carries out the first choice of the agenda (`step_agenda`), and an issue, a lane action and an event
each run one instruction (`issueStep_mayIssue`, `fetchAndRun_local`, `laneStep_started`, `eventStep_event`). -/
theorem stepRunsDecoded : Obligations.StepRunsDecoded := by
  unfold Obligations.StepRunsDecoded
  intro s u pf w rest hw s0 s1 p ran
  have hran {c : Choice} {i : Instr} {x : State} (ha : s.agenda = c :: rest) (hc : doChoice c s0 = exec i x) : ran c i x := by
    show step s = _
    rw [step_agenda ha, ← hc]
    rfl
  refine ⟨fun c t hd hl => settle_eq_self hd hl, fun a i ha hctx hpend hdue hmay ht hl hi => hran ha ?_,
    fun c h i ha hmay hc hh hs hi => hran ha ?_, fun i ha hev => hran ha (eventStep_event hev)⟩
  · have hissue : issueStep u pf s0 = fetchAndRun s1 w p := issueStep_mayIssue hw hctx hpend hdue hmay
    exact hissue.trans (fetchAndRun_local hw ht hl hi)
  · exact laneStep_started (s := s0) hw hmay hc hh hs hi

end Sys2Proof.Proofs

/-! # Scalar arithmetic (O4, O5) -/

namespace Sys2Proof.Machine

/-! ## The shared forms on a live path -/

/-- R99: a form of two sources, with its result as the caller writes it. -/
theorem runs_alu2 {i : Instr} {s : State} {w : Warp} {d a b : Nat} {f : W64 → W64 → W64} {v : W64} (hw : actsOn s w)
    (hi : exec i s = alu2 s d a b f) (hv : f (rx w s.cur.path a) (rx w s.cur.path b) = v) :
    runs i s fun t => scalarStep s t w d v (nextPc s w) := by
  obtain ⟨t, ht, hstep⟩ := retire_wx s w d v
  exact ⟨t, by rw [hi, alu2, onPath_live s w hw, hv, ht], hstep⟩

/-- R99, R101: a form of one source. -/
theorem runs_alu1 {i : Instr} {s : State} {w : Warp} {d a : Nat} {f : W64 → W64} {v : W64} (hw : actsOn s w)
    (hi : exec i s = alu1 s d a f) (hv : f (rx w s.cur.path a) = v) :
    runs i s fun t => scalarStep s t w d v (nextPc s w) := by
  obtain ⟨t, ht, hstep⟩ := retire_wx s w d v
  exact ⟨t, by rw [hi, alu1, onPath_live s w hw, hv, ht], hstep⟩

/-- R102: an instruction that only goes on: a write to x0. -/
theorem retire_scalarStep (s : State) (w : Warp) :
    ∃ t, retire s w = .next t ∧ scalarStep s t w 0 0 (nextPc s w) := by
  have h := retire_wx s w 0 0
  rwa [wx_zero] at h

/-! ## Division (R100) -/

theorem toInt_w64_tdiv {x y : W64} (h : ¬(x = BitVec.intMin 64 ∧ y = BitVec.allOnes 64)) :
    (w64 (x.toInt.tdiv y.toInt)).toInt = x.toInt.tdiv y.toInt := by
  have hne : x ≠ BitVec.intMin 64 ∨ y ≠ -1#64 := by
    rw [BitVec.neg_one_eq_allOnes]
    exact not_and_or.mp h
  have hdiv := BitVec.toInt_sdiv_of_ne_or_ne x y hne
  rw [w64, ← hdiv, BitVec.ofInt_toInt, hdiv]

theorem toInt_w64_tmod (x y : W64) : (w64 (x.toInt.tmod y.toInt)).toInt = x.toInt.tmod y.toInt := by
  rw [w64, ← BitVec.toInt_srem, BitVec.ofInt_toInt]

theorem tmod_nonpos {a b : Int} (h : a ≤ 0) : a.tmod b ≤ 0 := by
  have hneg : 0 ≤ (-a).tmod b := Int.tmod_nonneg b (by omega)
  rw [Int.neg_tmod] at hneg
  omega

theorem toNat_n64_of_le {n : Nat} {x : W64} (h : n ≤ x.toNat) : (n64 n).toNat = n :=
  (BitVec.toNat_ofNat n 64).trans (Nat.mod_eq_of_lt (lt_of_le_of_lt h x.isLt))

/-! ## Fields of a word as bit vectors -/

/-- R64: sext as the value of a bit vector. -/
theorem sext_eq_toInt (n x : Nat) : sext n x = (BitVec.ofNat n x).toInt := by
  rw [BitVec.toInt_eq_toNat_cond, BitVec.toNat_ofNat, sext]
  push_cast
  split <;> split <;> omega

theorem w64_sext (n x : Nat) : w64 (sext n x) = (BitVec.ofNat n x).signExtend 64 := by
  rw [sext_eq_toInt]; rfl

theorem w64_sext_toNat (n : Nat) (x : W64) : w64 (sext n x.toNat) = (x.setWidth n).signExtend 64 := by
  rw [w64_sext, BitVec.ofNat_toNat]

/-- R101: the immediate of an SI form. -/
theorem imm12_eq_immWord (imm : Nat) : imm12 imm = Claims.immWord imm := w64_sext 12 imm

theorem n64_mod (n : Nat) (x : W64) : n64 (x.toNat % 2 ^ n) = (x.setWidth n).setWidth 64 := by
  apply BitVec.eq_of_toNat_eq
  simp [n64]

theorem bitAt_toNat (x : W64) (i : Nat) : bitAt x.toNat i = x.getLsbD i := bitAt_eq_testBit _ _

/-! ## Products (R99) -/

theorem mulh_signed (x y : W64) :
    w64 (x.toInt * y.toInt / 2 ^ 64) = (x.signExtend 128 * y.signExtend 128).extractLsb' 64 64 := by
  have hx : (x.signExtend 128).toInt = x.toInt := BitVec.toInt_signExtend_of_le (by decide)
  have hy : (y.signExtend 128).toInt = y.toInt := BitVec.toInt_signExtend_of_le (by decide)
  have hp : x.signExtend 128 * y.signExtend 128 = BitVec.ofInt 128 (x.toInt * y.toInt) := by
    rw [BitVec.ofInt_mul, ← hx, ← hy, BitVec.ofInt_toInt, BitVec.ofInt_toInt]
  rw [hp]
  apply BitVec.eq_of_toNat_eq
  rw [BitVec.extractLsb'_toNat, w64, BitVec.toNat_ofInt, BitVec.toNat_ofInt, Nat.shiftRight_eq_div_pow]
  omega

theorem mulh_unsigned (x y : W64) :
    n64 (x.toNat * y.toNat / 2 ^ 64) = (x.setWidth 128 * y.setWidth 128).extractLsb' 64 64 := by
  have hlt : x.toNat * y.toNat < 2 ^ 128 :=
    calc x.toNat * y.toNat < 2 ^ 64 * 2 ^ 64 := Nat.mul_lt_mul'' x.isLt y.isLt
      _ = 2 ^ 128 := by norm_num
  have hx := Nat.mod_eq_of_lt (lt_trans x.isLt (by norm_num : 2 ^ 64 < 2 ^ 128))
  have hy := Nat.mod_eq_of_lt (lt_trans y.isLt (by norm_num : 2 ^ 64 < 2 ^ 128))
  apply BitVec.eq_of_toNat_eq
  rw [BitVec.extractLsb'_toNat, BitVec.toNat_mul, BitVec.toNat_setWidth, BitVec.toNat_setWidth, hx, hy,
    Nat.mod_eq_of_lt hlt, Nat.shiftRight_eq_div_pow, n64, BitVec.toNat_ofNat]

/-! ## Comparisons (R99) -/

theorem min_signed (x y : W64) : (if x.toInt ≤ y.toInt then x else y) = if y.slt x then y else x := by
  simp only [BitVec.slt, decide_eq_true_eq, ← not_le, ite_not]

theorem min_unsigned (x y : W64) : (if x.toNat ≤ y.toNat then x else y) = if y.ult x then y else x := by
  simp only [BitVec.ult, decide_eq_true_eq, ← not_le, ite_not]

/-- Where the operands are equal, either is the greater. -/
theorem max_signed (x y : W64) : (if x.toInt ≤ y.toInt then y else x) = if x.slt y then y else x := by
  by_cases h : x = y
  · simp [h]
  · have hne : x.toInt ≠ y.toInt := fun e => h (BitVec.eq_of_toInt_eq e)
    simp only [BitVec.slt, decide_eq_true_eq, hne.le_iff_lt]

theorem max_unsigned (x y : W64) : (if x.toNat ≤ y.toNat then y else x) = if x.ult y then y else x := by
  by_cases h : x = y
  · simp [h]
  · have hne : x.toNat ≠ y.toNat := fun e => h (BitVec.eq_of_toNat_eq e)
    simp only [BitVec.ult, decide_eq_true_eq, hne.le_iff_lt]

/-! ## Counts and reversal (R99) -/

theorem popN_eq_length (x n : Nat) : popN x n = ((List.range n).filter fun i => bitAt x i).length := by
  induction n with
  | zero => rfl
  | succ n ih =>
    rw [popN, ih, List.range_succ, List.filter_append, List.length_append, Nat.add_comm]
    cases h : bitAt x n <;> simp [h, b2n]

theorem clzN_eq {x n : Nat} (h : x < 2 ^ n) : clzN x n = if x = 0 then n else n - 1 - Nat.log2 x := by
  induction n with
  | zero => simp [clzN, show x = 0 by omega]
  | succ n ih =>
    rw [clzN, bitAt_eq_testBit]
    by_cases hbit : x.testBit n = true
    · have hge : 2 ^ n ≤ x := Nat.ge_two_pow_of_testBit hbit
      have hpos : x ≠ 0 := by have := Nat.two_pow_pos n; omega
      have hlog : Nat.log2 x = n := (Nat.log2_eq_iff hpos).mpr ⟨hge, h⟩
      simp [hbit, hpos, hlog]
    · have hlt : x < 2 ^ n := by
        by_contra hge
        exact hbit (Nat.testBit_of_two_pow_le_and_two_pow_add_one_gt (by omega) h)
      rw [if_neg hbit, ih hlt]
      by_cases hx : x = 0
      · simp [hx]; omega
      · have hlog := (Nat.log2_lt hx).mpr hlt
        simp only [hx, if_false]; omega

theorem clz_result (x : W64) :
    n64 (clzN x.toNat 64) = BitVec.ofNat 64 (if x = 0 then 64 else 63 - Nat.log2 x.toNat) := by
  have hzero : x.toNat = 0 ↔ x = 0 := by rw [← BitVec.toNat_inj]; rfl
  rw [clzN_eq x.isLt, n64]
  simp only [hzero]

theorem popc_result (x : W64) :
    n64 (popN x.toNat 64) = BitVec.ofNat 64 ((List.range 64).filter fun i => x.getLsbD i).length := by
  rw [popN_eq_length]
  simp only [bitAt_toNat, n64]

theorem revN_lt (x n : Nat) : revN x n < 2 ^ n := by
  induction n generalizing x with
  | zero => exact Nat.one_pos
  | succ n ih =>
    have h := ih (x / 2)
    have hx := Nat.mul_le_mul_right (2 ^ n) (show x % 2 ≤ 1 by omega)
    rw [revN, Nat.pow_succ]
    omega

theorem testBit_revN (x n i : Nat) : (revN x n).testBit i = (decide (i < n) && x.testBit (n - 1 - i)) := by
  induction n generalizing x with
  | zero => simp [revN]
  | succ n ih =>
    rw [revN, Nat.mul_comm, Nat.testBit_two_pow_mul_add _ (revN_lt _ _)]
    rcases Nat.lt_trichotomy i n with hi | rfl | hi
    · have hidx : n + 1 - 1 - i = n - 1 - i + 1 := by omega
      rw [if_pos hi, ih, hidx, Nat.testBit_succ]
      simp [hi, Nat.lt_succ_of_lt hi]
    · simp
    · have hbit : x % 2 < 2 ^ (i - n) :=
        lt_of_lt_of_le (Nat.mod_lt _ (by decide)) (Nat.le_self_pow (by omega) 2)
      rw [if_neg (by omega), Nat.testBit_lt_two_pow hbit]
      simp; omega

theorem revN_eq_reverse (x : W64) : n64 (revN x.toNat 64) = x.reverse := by
  apply BitVec.eq_of_getLsbD_eq
  intro i hi
  rw [n64, BitVec.getLsbD_ofNat, testBit_revN, BitVec.getLsbD_reverse, BitVec.getMsbD]
  simp [hi, BitVec.getLsbD]

/-! ## LDI (R68) -/

theorem getLsbD_ldi (pos imm : Nat) {i : Nat} (hi : i < 64) :
    (n64 (imm % 2 ^ 16) <<< (16 * pos)).getLsbD i =
      if 16 * pos ≤ i ∧ i < 16 * pos + 16 then imm.testBit (i - 16 * pos) else false := by
  rw [BitVec.getLsbD_shiftLeft, n64, BitVec.getLsbD_ofNat, Nat.testBit_mod_two_pow]
  by_cases hlow : i < 16 * pos
  · simp [hlow, show ¬16 * pos ≤ i by omega]
  · by_cases hhigh : i < 16 * pos + 16
    · simp [hi, hlow, hhigh, show 16 * pos ≤ i by omega, show i - 16 * pos < 16 by omega, show i - 16 * pos < 64 by omega]
    · simp [hlow, hhigh, show ¬i - 16 * pos < 16 by omega]

/-- R68: the places that LDI.K writes. -/
theorem getLsbD_ldiMask (pos : Nat) {i : Nat} (hi : i < 64) :
    (n64 0xFFFF <<< (16 * pos)).getLsbD i = decide (16 * pos ≤ i ∧ i < 16 * pos + 16) := by
  have h := getLsbD_ldi pos 0xFFFF hi
  rw [show (0xFFFF : Nat) % 2 ^ 16 = 0xFFFF from rfl] at h
  rw [h]
  split
  · next hin =>
    have hone : (0xFFFF : Nat).testBit (i - 16 * pos) = true := by
      rw [show (0xFFFF : Nat) = 2 ^ 16 - 1 from rfl, Nat.testBit_two_pow_sub_one]
      exact decide_eq_true (by omega)
    rw [hone, decide_eq_true hin]
  · next hout => rw [decide_eq_false hout]

theorem getLsbD_ldiK (x : W64) (pos imm : Nat) {i : Nat} (hi : i < 64) :
    ((x &&& ~~~(n64 0xFFFF <<< (16 * pos))) ||| (n64 (imm % 2 ^ 16) <<< (16 * pos))).getLsbD i =
      if 16 * pos ≤ i ∧ i < 16 * pos + 16 then imm.testBit (i - 16 * pos) else x.getLsbD i := by
  rw [BitVec.getLsbD_or, BitVec.getLsbD_and, BitVec.getLsbD_not, getLsbD_ldi pos imm hi, getLsbD_ldiMask pos hi]
  split
  · next hin => simp [hin]
  · next hout => simp [hi, hout]

/-! ## Words (R101, R102) -/

/-- R102: NOP has one word. -/
theorem decodeS_nop_iff {v : Nat} (hv : v < 2 ^ 32) : decodeS v = .ok .nop ↔ v = 0x02000000 := by
  refine ⟨fun h => ?_, fun h => by subst h; rfl⟩
  obtain ⟨_, henc⟩ := decodeSound_decodeS hv .nop h
  exact (Option.some.inj henc).symm

/-- R101: bits 11 to 6 of a shift by an immediate are reserved. -/
theorem decodeS_shift_reserved {v : Nat} (hlow : 7 ≤ v / 2 ^ 25) (hhigh : v / 2 ^ 25 ≤ 9) (hres : v / 2 ^ 6 % 2 ^ 6 ≠ 0) :
    decodeS v = .error 5 := by
  have hm : fld v 31 25 = v / 2 ^ 25 := Nat.mod_eq_of_lt (by omega)
  have hr : fld v 11 6 ≠ 0 := hres
  rw [decodeS, hm, if_pos (by omega)]
  generalize v / 2 ^ 25 = m at hlow hhigh ⊢
  interval_cases m
  all_goals simp [decodeLow, accept, hr]

end Sys2Proof.Machine

namespace Sys2Proof.Proofs

open Sys2Proof.Machine Sys2Proof.Claims

/-- Settles O4: each of the four is one form of two sources (`runs_alu2`); the signed quotient is exact but for −2^63 / −1
(`toInt_w64_tdiv`), and the remainder always (`toInt_w64_tmod`). -/
theorem divisionResults : Obligations.DivisionResults := by
  unfold Obligations.DivisionResults
  intro s w d a b hw x y
  refine ⟨_, _, _, _, runs_alu2 hw (exec_divI64 d a b s) rfl, runs_alu2 hw (exec_remI64 d a b s) rfl,
    runs_alu2 hw (exec_divN64 d a b s) rfl, runs_alu2 hw (exec_remN64 d a b s) rfl, fun hy => ?_, fun hxy => ?_,
    fun hy hxy => ?_, fun hy => ?_⟩
  all_goals change W64 at x y
  · exact ⟨if_pos hy, if_pos hy, if_pos hy, if_pos hy⟩
  · obtain ⟨hx, hy⟩ := hxy
    change (if y = 0 then _ else w64 (x.toInt.tdiv y.toInt)) = _ ∧ (if y = 0 then x else w64 (x.toInt.tmod y.toInt)) = _
    rw [hx, hy]
    decide
  · change (if y = 0 then _ else w64 (x.toInt.tdiv y.toInt)).toInt = _ ∧
      (if y = 0 then x else w64 (x.toInt.tmod y.toInt)).toInt =
        x.toInt - y.toInt * (if y = 0 then _ else w64 (x.toInt.tdiv y.toInt)).toInt ∧
      (_ → 0 ≤ (if y = 0 then x else w64 (x.toInt.tmod y.toInt)).toInt) ∧
      (_ → (if y = 0 then x else w64 (x.toInt.tmod y.toInt)).toInt ≤ 0)
    rw [if_neg hy, if_neg hy, toInt_w64_tdiv hxy, toInt_w64_tmod]
    exact ⟨rfl, Int.tmod_def _ _, Int.tmod_nonneg _, tmod_nonpos⟩
  · change (if y = 0 then _ else n64 (x.toNat / y.toNat)).toNat = _ ∧ (if y = 0 then x else n64 (x.toNat % y.toNat)).toNat = _
    rw [if_neg hy, if_neg hy]
    exact ⟨toNat_n64_of_le (Nat.div_le_self _ _), toNat_n64_of_le (Nat.mod_le _ _)⟩

theorem twoSourceResults : TwoSourceResults := by
  intro s w d a b hw e he
  simp only [twoSource, List.mem_cons, List.not_mem_nil, or_false] at he
  rcases he with rfl | rfl | rfl | rfl | rfl | rfl | rfl | rfl | rfl | rfl | rfl | rfl | rfl | rfl | rfl | rfl | rfl | rfl | rfl
  · exact runs_alu2 hw (exec_add d a b s) rfl
  · exact runs_alu2 hw (exec_sub d a b s) rfl
  · exact runs_alu2 hw (exec_mul d a b s) rfl
  · exact runs_alu2 hw (exec_mulhI64 d a b s) (mulh_signed _ _)
  · exact runs_alu2 hw (exec_mulhN64 d a b s) (mulh_unsigned _ _)
  · exact runs_alu2 hw (exec_and d a b s) rfl
  · exact runs_alu2 hw (exec_or d a b s) rfl
  · exact runs_alu2 hw (exec_xor d a b s) rfl
  · exact runs_alu2 hw (exec_andn d a b s) rfl
  · exact runs_alu2 hw (exec_shl d a b s) rfl
  · exact runs_alu2 hw (exec_shr d a b s) rfl
  · exact runs_alu2 hw (exec_sra d a b s) rfl
  · exact runs_alu2 hw (exec_ror d a b s) rfl
  · exact runs_alu2 hw (exec_minI64 d a b s) (min_signed _ _)
  · exact runs_alu2 hw (exec_minN64 d a b s) (min_unsigned _ _)
  · exact runs_alu2 hw (exec_maxI64 d a b s) (max_signed _ _)
  · exact runs_alu2 hw (exec_maxN64 d a b s) (max_unsigned _ _)
  · exact runs_alu2 hw (exec_sltI64 d a b s) rfl
  · exact runs_alu2 hw (exec_sltN64 d a b s) rfl

theorem oneSourceResults : OneSourceResults := by
  intro s w d a imm hw e he
  simp only [oneSource, List.mem_cons, List.not_mem_nil, or_false] at he
  rcases he with rfl | rfl | rfl | rfl | rfl | rfl | rfl | rfl | rfl | rfl | rfl | rfl | rfl | rfl | rfl | rfl | rfl | rfl
  · exact runs_alu1 hw (exec_clz d a s) (clz_result _)
  · exact runs_alu1 hw (exec_popc d a s) (popc_result _)
  · exact runs_alu1 hw (exec_brev d a s) (revN_eq_reverse _)
  · exact runs_alu1 hw (exec_sextI8 d a s) (w64_sext_toNat 8 _)
  · exact runs_alu1 hw (exec_sextI16 d a s) (w64_sext_toNat 16 _)
  · exact runs_alu1 hw (exec_sextI32 d a s) (w64_sext_toNat 32 _)
  · exact runs_alu1 hw (exec_zextN8 d a s) (n64_mod 8 _)
  · exact runs_alu1 hw (exec_zextN16 d a s) (n64_mod 16 _)
  · exact runs_alu1 hw (exec_zextN32 d a s) (n64_mod 32 _)
  · exact runs_alu1 hw (exec_addi d a imm s) (by rw [imm12_eq_immWord])
  · exact runs_alu1 hw (exec_andi d a imm s) (by rw [imm12_eq_immWord])
  · exact runs_alu1 hw (exec_ori d a imm s) (by rw [imm12_eq_immWord])
  · exact runs_alu1 hw (exec_xori d a imm s) (by rw [imm12_eq_immWord])
  · exact runs_alu1 hw (exec_shli d a imm s) rfl
  · exact runs_alu1 hw (exec_shri d a imm s) rfl
  · exact runs_alu1 hw (exec_srai d a imm s) rfl
  · exact runs_alu1 hw (exec_sltiI64 d a imm s) (by rw [imm12_eq_immWord]; rfl)
  · exact runs_alu1 hw (exec_sltiN64 d a imm s) (by rw [imm12_eq_immWord]; rfl)

theorem loadImmediateResults : LoadImmediateResults := by
  intro s w d pos imm n hw _ _
  refine ⟨⟨_, ?_, fun i hi => getLsbD_ldi pos imm hi⟩,
    ⟨_, runs_alu1 hw (exec_ldiK d pos imm s) rfl, fun i hi => getLsbD_ldiK _ pos imm hi⟩, ?_, ?_⟩
  · obtain ⟨t, ht, hstep⟩ := retire_wx s w d (n64 (imm % 2 ^ 16) <<< (16 * pos))
    exact ⟨t, by rw [exec_ldi, execLdi, onPath_live s w hw, ht], hstep⟩
  · obtain ⟨t, ht, hstep⟩ := retire_scalarStep s w
    exact ⟨t, by rw [exec_nop, execNop, onPath_live s w hw, ht], hstep⟩
  · obtain ⟨t, ht, hstep⟩ := retire_wx s w d ((rk w s.cur.path n).setWidth 64)
    exact ⟨t, by rw [exec_kgetx, execKgetx, onPath_live s w hw, ht], hstep⟩

theorem immediateWords : ImmediateWords :=
  ⟨rfl, fun _ hv => decodeS_nop_iff hv, fun _ => decodeS_shift_reserved⟩

/-- Settles O5: each form is one write of xd on the live path (`runs_alu2`, `runs_alu1`), and the lemmas on products, counts,
comparisons and fields of a word say that it writes the result of the table. -/
theorem scalarResults : Obligations.ScalarResults := by
  unfold Obligations.ScalarResults
  exact ⟨twoSourceResults, oneSourceResults, loadImmediateResults, immediateWords⟩

end Sys2Proof.Proofs

/-! # Branches, waits and clauses (O7, O11 to O14, O17) -/

namespace Sys2Proof.Machine

/-! ## Branches (R103) -/

/-- R68: the target of a branch. -/
theorem target_eq (s : State) (w : Warp) (n off : Nat) : target (actPath s w).pc n off = branchTarget s w n off := by
  rw [target, branchTarget, w64, mul_comm, BitVec.ofInt_mul]
  exact congrArg (fun v : W64 => (actPath s w).pc + v * 4) (w64_sext n off)

/-- R103: a branch that writes no register. -/
theorem taken_scalarStep (s : State) (w : Warp) (tgt : W64) :
    ∃ t, taken s w tgt = .next t ∧ scalarStep s t w 0 0 tgt := by
  have h := taken_wx s w 0 0 tgt
  rwa [wx_zero] at h

theorem fell_scalarStep (s : State) (w : Warp) : ∃ t, fell s w = .next t ∧ scalarStep s t w 0 0 (nextPc s w) := by
  have h := fell_wx s w 0 0
  rwa [wx_zero] at h

/-- R103: a compare-and-branch form, with its condition as the caller writes it. -/
theorem runs_cmpBranch {i : Instr} {s : State} {w : Warp} {a b off : Nat} {f : W64 → W64 → Bool} {c : Bool}
    (hw : actsOn s w) (hi : exec i s = cmpBranch s a b off f) (hc : f (rx w s.cur.path a) (rx w s.cur.path b) = c) :
    runs i s fun t => scalarStep s t w 0 0 (if c then branchTarget s w 13 off else nextPc s w) := by
  rw [runs, hi, cmpBranch, onPath_live s w hw, hc, target_eq]
  cases c
  · exact fell_scalarStep s w
  · exact taken_scalarStep s w _

/-- R103: RET but for RET x0 in restore state. -/
theorem execRet_eq {s : State} {w : Warp} {a : Nat} (hw : actsOn s w) (h : (w.restore && a == 0) = false) :
    execRet a s = if (rx w s.cur.path a).toNat % 4 ≠ 0 then trapS s 0x0A else taken s w (rx w s.cur.path a) := by
  rw [execRet, onPath_live s w hw]
  exact if_neg (by simpa using h)

/-! ## Waits for flags and counters (R113, R114) -/

/-- R29: a flag that no outstanding operation names is 0. -/
theorem flagPending_of_unnamed {s : State} {u f : Nat} {pf : Bool} (h : ∀ o ∈ s.ops, o.flag ≠ some f) :
    flagPending s u pf f = false := by
  have hnone : (s.ops.filter fun o => owns o u pf && o.flag = some f) = [] := by simpa using fun o ho _ => h o ho
  rw [flagPending, flagCount, hnone]; rfl

/-- R113: WAITF on a live path. -/
theorem execWaitf_eq {s : State} {w : Warp} {mask : Nat} (hw : actsOn s w) :
    execWaitf mask s = if (allIssued (actPath s w) &&
      (List.range 12).all fun f => !bitAt mask f || !flagPending s s.cur.warp s.cur.path f) = true
      then retire s w else stall s := onPath_live s w hw _

theorem waitfReady_iff (s : State) (p : Path) (mask : Nat) :
    (allIssued p && (List.range 12).all fun f => !bitAt mask f || !flagPending s s.cur.warp s.cur.path f) = true ↔
      allIssued p = true ∧ ∀ f, f < 12 → mask.testBit f = true → flagPending s s.cur.warp s.cur.path f = false := by
  simp [bitAt_eq_testBit, or_iff_not_imp_left]

/-- R29, R113: the word of WAITF is its mask above the opcode. -/
theorem word_of_decode_waitf {v mask : Nat} (hv : v < 2 ^ 32) (h : decodeTableWord 32 v = some (.waitf mask)) :
    v = 0x46000000 + mask := by
  rw [decodeTableWord_32 hv] at h
  cases hdec : decodeS v with
  | error d => rw [hdec] at h; cases h
  | ok i =>
    rw [hdec] at h
    cases h
    obtain ⟨_, henc⟩ := decodeSound_decodeS hv _ hdec
    exact (Option.some.inj henc).symm

/-! ## The open batch (R179) -/

/-- The warp with the open batch of a path closed. -/
def batchless (w : Warp) (pf : Bool) : Warp := w.modPath pf fun p => { p with batch := [] }

/-- The state with the open batch of a path of w among the outstanding operations; an empty one issues nothing. -/
def batchIssued (s : State) (u : Nat) (pf : Bool) (w : Warp) : State :=
  if (w.path pf).batch = [] then s else issueOp s u pf w.block none (.batch (w.path pf).batch)

theorem batchless_path (w : Warp) (pf : Bool) : (batchless w pf).path pf = { w.path pf with batch := [] } :=
  path_modPath _ _ _

theorem batchless_of_empty {w : Warp} {pf : Bool} (h : (w.path pf).batch = []) : batchless w pf = w := by
  have hp : { w.path pf with batch := [] } = w.path pf := by rw [← h]
  rw [batchless, Warp.modPath, hp]
  exact modPath_id w pf

theorem batchIssued_of_empty {s : State} {u : Nat} {pf : Bool} {w : Warp} (h : (w.path pf).batch = []) :
    batchIssued s u pf w = s := if_pos h

theorem batchIssued_of_open {s : State} {u : Nat} {pf : Bool} {w : Warp} (h : (w.path pf).batch ≠ []) :
    batchIssued s u pf w = issueOp s u pf w.block none (.batch (w.path pf).batch) := if_neg h

theorem batchIssued_frame (s : State) (u : Nat) (pf : Bool) (w : Warp) :
    batchIssued s u pf w = { s with ops := (batchIssued s u pf w).ops, next := (batchIssued s u pf w).next } := by
  unfold batchIssued
  split <;> rfl

@[simp] theorem batchIssued_mem (s : State) (u : Nat) (pf : Bool) (w : Warp) : (batchIssued s u pf w).mem = s.mem := by
  rw [batchIssued_frame]

/-- What closing the open batch of warp u leaves: the operation, and the warp without the batch. -/
theorem closeBatch_cases {s : State} {u : Nat} {pf : Bool} {w : Warp} (hw : fget s.warps u = some w) :
    (w.path pf).batch = [] ∧ closeBatch s u pf = s ∨
      (w.path pf).batch ≠ [] ∧ closeBatch s u pf = putWarp (batchIssued s u pf w) u (batchless w pf) := by
  simp only [closeBatch, hw]
  by_cases h : (w.path pf).batch = []
  · exact .inl ⟨h, if_pos (by rw [h]; rfl)⟩
  · refine .inr ⟨h, ?_⟩
    rw [if_neg (by simpa using h), batchIssued_of_open h]
    rfl

theorem modWarp_eq {s : State} {u : Nat} {w : Warp} (hw : fget s.warps u = some w) (f : Warp → Warp) :
    modWarp s u f = putWarp s u (f w) := by
  simp only [modWarp, putWarp, fmod, hw]

theorem fget_closeBatch {s : State} {u : Nat} {pf : Bool} {w : Warp} (hw : fget s.warps u = some w) :
    fget (closeBatch s u pf).warps u = some (batchless w pf) := by
  rcases closeBatch_cases (pf := pf) hw with ⟨hb, hc⟩ | ⟨_, hc⟩
  · rw [hc, hw, batchless_of_empty hb]
  · rw [hc, fget_putWarp]

theorem putWarp_closeBatch {s : State} {u : Nat} {pf : Bool} {w : Warp} (hw : fget s.warps u = some w) (x : Warp) :
    putWarp (closeBatch s u pf) u x = putWarp (batchIssued s u pf w) u x := by
  rcases closeBatch_cases (pf := pf) hw with ⟨hb, hc⟩ | ⟨_, hc⟩
  · rw [hc, batchIssued_of_empty hb]
  · rw [hc, putWarp_putWarp]

theorem modWarp_closeBatch {s : State} {u : Nat} {pf : Bool} {w : Warp} (hw : fget s.warps u = some w) (f : Warp → Warp) :
    modWarp (closeBatch s u pf) u f = putWarp (batchIssued s u pf w) u (f (batchless w pf)) := by
  rw [modWarp_eq (fget_closeBatch hw), putWarp_closeBatch hw]

/-- R30: a closed batch counts on sh. -/
theorem counter_batchIssued {s : State} {u : Nat} {pf : Bool} {w : Warp} (h : (w.path pf).batch ≠ []) :
    counter (batchIssued s u pf w) u pf .sh = counter s u pf .sh + 1 := by
  rw [batchIssued_of_open h, counter, issueOp, List.filter_append, List.length_append]
  cases pf <;> simp [owns, countsOn, counter]

/-- A batch that closes is an outstanding operation, whatever becomes of the owners of the operations at once (R31). -/
theorem batchClosed_of_ops {s t : State} {w w' : Warp} {g : Op → Op} (hb : (actPath s w).batch ≠ [])
    (hops : t.ops = (batchIssued s s.cur.warp s.cur.path w).ops.map g)
    (hg : ∀ o, (g o).id = o.id ∧ (g o).warp = o.warp ∧ (g o).body = o.body)
    (hnext : t.next = (batchIssued s s.cur.warp s.cur.path w).next) (hmem : t.mem = s.mem)
    (hpath : (actPath s w').batch = []) : Claims.batchClosed s t w w' := by
  rw [batchIssued_of_open hb] at hops hnext
  have hnew : ∃ o ∈ (issueOp s s.cur.warp s.cur.path w.block none (.batch (actPath s w).batch)).ops,
      o.id = s.next ∧ o.warp = s.cur.warp ∧ o.body = .batch (actPath s w).batch :=
    ⟨_, List.mem_append_right _ (List.mem_singleton_self _), rfl, rfl, rfl⟩
  obtain ⟨o, ho, hid, hwarp, hbody⟩ := hnew
  obtain ⟨gid, gwarp, gbody⟩ := hg o
  exact ⟨⟨g o, hops ▸ List.mem_map_of_mem ho, gid.trans hid, gwarp.trans hwarp, gbody.trans hbody⟩, hnext, hmem, hpath⟩

/-- R114: WAITC on a live path whose clauses have issued. -/
theorem execWaitc_eq {s : State} {w : Warp} {a ctr : Nat} (hw : actsOn s w) (hi : allIssued (actPath s w) = true) :
    execWaitc a ctr s =
      if ctrOf ctr = .sh ∧ (actPath s w).batch ≠ [] then
        if counter s s.cur.warp s.cur.path .sh < 255 then
          .next (modWarp (closeBatch s s.cur.warp s.cur.path) s.cur.warp endRegion)
        else stall s
      else if 255 ≤ (rx w s.cur.path a).toNat ∨ counter s s.cur.warp s.cur.path (ctrOf ctr) ≤ (rx w s.cur.path a).toNat
      then retire (if ctrOf ctr = .sh then l1DropCore s (coreKey w) else s) w
      else stall s := by
  rw [execWaitc, onPath_live s w hw]
  by_cases hc : ctrOf ctr = .sh
  · by_cases hb : (actPath s w).batch = []
    · simp [hi, hc, hb, mayClose]
    · by_cases hn : counter s s.cur.warp s.cur.path .sh < 255
      · simp [hi, hc, hb, hn, mayClose]
      · simp [hi, hc, hb, hn, mayClose]
  · simp [hi, hc]

end Sys2Proof.Machine

namespace Sys2Proof.Proofs

open Sys2Proof.Machine Sys2Proof.Claims

theorem compareBranches : CompareBranches := by
  intro s w a b off hw e he
  simp only [branchForms, List.mem_cons, List.not_mem_nil, or_false] at he
  rcases he with rfl | rfl | rfl | rfl | rfl | rfl
  · exact runs_cmpBranch hw (exec_beq a b off s) rfl
  · exact runs_cmpBranch hw (exec_bne a b off s) (by simp only [bne, beq_eq_decide, decide_not])
  · exact runs_cmpBranch hw (exec_blt a b off s) rfl
  · exact runs_cmpBranch hw (exec_bge a b off s) (by simp only [BitVec.slt, ← not_lt, decide_not])
  · exact runs_cmpBranch hw (exec_bltu a b off s) rfl
  · exact runs_cmpBranch hw (exec_bgeu a b off s) (by simp only [BitVec.ult, ← not_lt, decide_not])

theorem transfers : Transfers := by
  intro s w n a off hw
  refine ⟨?_, ?_, ?_, fun hr hal => ?_, fun hr hal => ?_⟩
  · rw [runs, exec_b, execB, onPath_live s w hw, target_eq]
    exact taken_scalarStep s w _
  · rw [runs, exec_call, execCall, onPath_live s w hw, target_eq]
    exact taken_wx s w n _ _
  · rw [runs, exec_loop, execLoop, onPath_live s w hw, target_eq]
    dsimp only
    split
    · exact taken_wx s w a _ _
    · exact fell_wx s w a _
  · rw [runs, exec_ret, execRet_eq hw hr, if_neg (not_not_intro hal)]
    exact taken_scalarStep s w _
  · exact trapS_live _ s w _ hw ((exec_ret a s).trans ((execRet_eq hw hr).trans (if_pos hal)))

theorem restoreReturn : RestoreReturn := by
  intro s w hw hr
  rw [runs, exec_ret, execRet, onPath_live s w hw, if_pos (by simp [hr])]
  exact taken_scalarStep s { w with restore := false } w.markAddr

/-- Settles O7: every form is one branch of the live path, taken (`taken_wx`) or not (`fell_wx`), at the target of its offset
(`target_eq`). -/
theorem controlTransfers : Obligations.ControlTransfers := by
  unfold Obligations.ControlTransfers
  exact ⟨compareBranches, transfers, restoreReturn⟩

/-- Settles O13: WAITF goes on when nothing that it waits for is left (`waitfReady_iff`), a pending flag has an operation
(`flagPending_of_unnamed`), and what decodes to WAITF is its encoding. -/
theorem waitFlags : Obligations.WaitFlags := by
  unfold Obligations.WaitFlags
  refine ⟨rfl, fun v mask hv => word_of_decode_waitf hv, fun s u pf f => flagPending_of_unnamed, fun s w mask hw => ?_⟩
  rw [runs, waits, exec_waitf, execWaitf_eq hw]
  refine ⟨fun hready => ?_, fun hnot => if_neg fun h => hnot ((waitfReady_iff s _ mask).mp h)⟩
  rw [if_pos ((waitfReady_iff s _ mask).mpr hready)]
  exact retire_scalarStep s w

/-- Settles O14: WAITC closes a batch, goes on or waits (`execWaitc_eq`); the closed batch is one operation more on sh
(`counter_batchIssued`). -/
theorem waitCounter : Obligations.WaitCounter := by
  unfold Obligations.WaitCounter
  intro s w a ctr hw hi c n goes
  have hopen (hc : c ≠ .sh) : ¬(c = .sh ∧ (actPath s w).batch ≠ []) := fun h => hc h.1
  have hempty (hb : (actPath s w).batch = []) : ¬(c = .sh ∧ (actPath s w).batch ≠ []) := fun h => h.2 hb
  rw [runs, runs, runs, waits, exec_waitc, execWaitc_eq hw hi]
  refine ⟨fun hc hgo => ?_, fun hc hgo => ?_, fun hc hb hgo => ?_, fun hc hb hn => ?_, fun hc hb hgo => ?_, fun hc hb hn => ?_⟩
  · rw [if_neg (hopen hc), if_pos hgo, if_neg hc]
    exact retire_scalarStep s w
  · rw [if_neg (hopen hc), if_neg hgo]; rfl
  · rw [if_neg (hempty hb), if_pos hgo, if_pos hc]
    exact retire_scalarStep (l1DropCore s (coreKey w)) w
  · have hfull : ¬counter s s.cur.warp s.cur.path .sh < 255 := by rw [← hc]; exact Nat.not_lt.mpr hn
    rw [if_pos ⟨hc, hb⟩, if_neg hfull]; rfl
  · rw [if_neg (hempty hb), if_neg hgo]; rfl
  · have hroom : counter s s.cur.warp s.cur.path .sh < 255 := by rw [← hc]; exact hn
    have hcount : n = counter s s.cur.warp s.cur.path .sh := congrArg (counter s s.cur.warp s.cur.path) hc
    rw [if_pos ⟨hc, hb⟩, if_pos hroom, modWarp_closeBatch hw.1, hcount]
    refine ⟨_, rfl, counter_batchIssued hb, batchIssued_mem .., _, fget_putWarp .., ?_, rfl, ?_⟩
    · exact congrArg Path.batch (batchless_path w s.cur.path)
    · exact (congrArg Path.pc (batchless_path w s.cur.path) : (actPath s (batchless w s.cur.path)).pc = _)

end Sys2Proof.Proofs

/-! # Lane and scalar transfer, RUNC, LIVE and MARK (O11, O12, O17) -/

namespace Sys2Proof.Machine

/-! ## Going on (R235) -/

/-- A path that goes on: everything of the warp but the paths and the watchdog count stays. -/
theorem goto_frame (w : Warp) (pf : Bool) (pc : W64) : { goto w pf pc with a := w.a, b := w.b, wdc := w.wdc } = w := by
  unfold goto countIssue
  cases pf <;> split <;> rfl

theorem goto_path (w : Warp) (pf : Bool) (pc : W64) :
    (goto w pf pc).path pf = { w.path pf with pc := pc, issued := (w.path pf).pc } := by
  rw [goto, countIssue_path, path_modPath]

theorem goto_path_other (w : Warp) (pf : Bool) (pc : W64) : (goto w pf pc).path (!pf) = w.path (!pf) := by
  rw [goto, countIssue_path, path_modPath_other]

/-- R235: an instruction that retires into warp x goes on at A + 4. -/
theorem wentOn_advance {s : State} {w x : Warp} (hd : x.wdc = w.wdc) (hk : x.kind = w.kind)
    (hpc : (actPath s x).pc = (actPath s w).pc) (ho : x.path (!s.cur.path) = w.path (!s.cur.path)) :
    wentOn s (putWarp s s.cur.warp (advance x s.cur.path)) w (advance x s.cur.path) (nextPc s w) := by
  have hnext : nextPc s w = (x.path s.cur.path).pc + 4 := congrArg (· + 4) hpc.symm
  rw [advance, ← hnext]
  exact wentOn_goto s w x (nextPc s w) hd hk hpc ho

/-- R235: an instruction that retires into a warp whose paths are as before. -/
theorem retire_pathsKept {s : State} {w x : Warp} (ha : x.a = w.a) (hb : x.b = w.b) (hd : x.wdc = w.wdc)
    (hk : x.kind = w.kind) : ∃ t w', retire s x = .next t ∧ wentOn s t w w' (nextPc s w) ∧
      { actPath s w' with pc := (actPath s w).pc, issued := (actPath s w).issued } = actPath s w ∧
      { w' with a := w.a, b := w.b, wdc := w.wdc } = x := by
  have hpath : ∀ pf, x.path pf = w.path pf := fun pf => by cases pf <;> assumption
  refine ⟨_, _, rfl, wentOn_advance hd hk (congrArg Path.pc (hpath _)) (hpath _), ?_, ?_⟩
  · rw [actPath, advance, goto_path, hpath]; rfl
  · rw [← ha, ← hb, ← hd]
    exact goto_frame _ _ _

/-! ## Lane and scalar transfer (R112) -/

theorem getLsbD_laneBit {l i : Nat} (hl : l < 32) : (laneBit l).getLsbD i = decide (i = l) := by
  rw [laneBit, n32, BitVec.getLsbD_ofNat, Nat.testBit_two_pow]
  by_cases h : i = l
  · simp [h, hl]
  · simp [h, Ne.symm h]

/-- R112: VGET on a live path. -/
theorem execVget_eq {s : State} {w : Warp} {n vn l : Nat} (hw : actsOn s w) :
    execVget n vn l s =
      if w.vregs ≤ vn then trapS s 0x81
      else if (!transferReady s (actPath s w) vn 1 || missing w vn) = true then stall s
      else if wordPoisoned w vn (laneBit l) then trapS s 0x121
      else retire s (wx w s.cur.path n ((lane (vread w vn) l).setWidth 64)) := onPath_live s w hw _

/-- R112: VPUT on a live path. -/
theorem execVput_eq {s : State} {w : Warp} {n vn l : Nat} (hw : actsOn s w) :
    execVput n vn l s =
      if w.vregs ≤ vn then trapS s 0x81
      else if (!(actPath s w).k0.getLsbD l) = true then trapS s 0x25
      else if (!transferReady s (actPath s w) vn 1 || missing w vn) = true then stall s
      else retire s (vwrite w vn (laneBit l) (mkLanes fun _ => (rx w s.cur.path n).setWidth 32) (vtag w vn)) :=
  onPath_live s w hw _

/-- R39, R97: a transfer waits. -/
theorem transferWaits_iff (s : State) (w : Warp) (p : Path) (vn : Nat) :
    (!transferReady s p vn 1 || missing w vn) = true ↔ ¬(transferReady s p vn 1 = true ∧ missing w vn = false) := by
  cases transferReady s p vn 1 <;> simp

/-- R39, R112: one lane of a register written. -/
theorem retire_vwrite_lane {s : State} {w : Warp} {vn l : Nat} (hl : l < 32) (v : W32) (tag : Fmt) :
    ∃ t, retire s (vwrite w vn (laneBit l) (mkLanes fun _ => v) tag) = .next t ∧
      regStep s t w vn tag (fun i => if i = l then v else lane (vread w vn) i) (nextPc s w) := by
  obtain ⟨t, w', ht, hon, hpath, hframe⟩ := retire_pathsKept (s := s) (w := w)
    (x := vwrite w vn (laneBit l) (mkLanes fun _ => v) tag) rfl rfl rfl rfl
  have hregs : w'.regs = (vwrite w vn (laneBit l) (mkLanes fun _ => v) tag).regs := (congrArg Warp.regs hframe :)
  refine ⟨t, ht, w', hon, congrArg (fun x : Warp => { x with regs := w.regs }) hframe, hpath, fun n hn => ?_, ?_, ?_,
    fun i hi => ?_⟩
  · rw [hregs, fget_vwrite_other _ _ _ _ hn]
  · rw [vtag, hregs]
    exact vtag_vwrite ..
  · rw [missing, hregs]
    simp [vwrite]
  · rw [vread, hregs]
    refine (congrArg (lane · i) (vread_vwrite ..)).trans ?_
    rw [lane_mergeLanes _ _ _ hi, getLsbD_laneBit hl, lane_mkLanes, if_pos hi]
    simp only [decide_eq_true_eq]

/-! ## Tables of a path's registers -/

theorem fget_filter_key {α : Type} (m : FMap α) (q : Nat → Bool) (k : Nat) :
    fget (m.filter fun e => q e.1) k = if q k then fget m k else none := by
  induction m with
  | nil => simp
  | cons e r ih =>
    obtain ⟨i, v⟩ := e
    by_cases hik : i = k
    · subst hik
      cases hq : q i <;> simp [hq, fget_cons, ih]
    · cases hq : q i <;> simp [hq, fget_cons, hik, ih]

theorem fget_append {α : Type} (m n : FMap α) (k : Nat) : fget (m ++ n) k = (fget m k).or (fget n k) := by
  induction m with
  | nil => rfl
  | cons e r ih =>
    obtain ⟨i, v⟩ := e
    rw [List.cons_append, fget_cons, fget_cons, ih]
    split <;> rfl

theorem fget_map_shift {α : Type} (m : FMap α) (c k : Nat) :
    fget (m.map fun e => (e.1 + c, e.2)) k = if c ≤ k then fget m (k - c) else none := by
  induction m with
  | nil => simp
  | cons e r ih =>
    obtain ⟨i, v⟩ := e
    rw [List.map_cons, fget_cons, fget_cons, ih]
    by_cases hk : c ≤ k
    · simp only [hk, if_true, show i + c = k ↔ i = k - c by omega]
    · simp only [hk, if_false, show ¬i + c = k by omega]

/-! ## RUNC (R110) -/

/-- R19, R33, R110: the values that a clause captures are what the register numbers read as. -/
theorem fgetD_captureX (w : Warp) (pf : Bool) {r : Nat} (hpos : 0 < r) (hlt : r < 64) :
    (fgetD 0 (captureX w (w.path pf)) r : W64) = rx w pf r := by
  unfold captureX rx fgetD
  rw [if_neg (show r ≠ 0 by omega)]
  by_cases hpriv : (w.path pf).priv = 0
  · simp [hpriv]
  · rw [if_pos hpriv, fget_append, fget_filter_key _ fun i => decide (i < 48), fget_map_shift,
      fget_filter_key _ fun i => decide (i < 16)]
    by_cases h48 : 48 ≤ r
    · have hsup : (w.path pf).priv ≠ 0#2 := hpriv
      simp [hsup, h48, show ¬r < 48 by omega, show r - 48 < 16 by omega]
    · simp [h48, show r < 48 by omega]

/-- R110: RUNC on a live path. -/
theorem execRunc_eq {s : State} {w : Warp} {n off : Nat} (hw : actsOn s w) (hoff : off < 2 ^ 19) :
    let p := actPath s w
    let a := p.lbase + rx w s.cur.path n + BitVec.ofNat 64 (4 * off)
    let q := liveQueue s s.cur.warp s.cur.path p
    execRunc n off s =
      if a.toNat % 4 ≠ 0 then trapS s 0x0A
      else if 16 ≤ q.length then stall s
      else retire s (breakSpin (w.setPath s.cur.path { p with queue := q ++ [newClause w p a], nextSeq := p.nextSeq + 1 })
        s.cur.path) := by
  intro p a q
  have h := onPath_live s w hw
  rw [execRunc, h, Nat.mod_eq_of_lt hoff]
  rfl

/-- R233: an instruction that retires into warp w with the acting path replaced by p. -/
theorem wentOn_breakSpin {s : State} {w : Warp} {p : Path} (hpc : p.pc = (actPath s w).pc) :
    let w' := advance (breakSpin (w.setPath s.cur.path p) s.cur.path) s.cur.path
    wentOn s (putWarp s s.cur.warp w') w w' (nextPc s w) ∧ warpKept w w' ∧ w'.xs = w.xs ∧
      actPath s w' = { p with spin := { p.spin with count := 0 }, pc := p.pc + 4, issued := p.pc } := by
  intro w'
  refine ⟨wentOn_advance ?_ ?_ ?_ ?_, ?_, ?_, ?_⟩
  · rw [breakSpin, modPath_wdc, setPath_wdc]
  · rw [breakSpin, modPath_kind, setPath_kind]
  · rw [actPath, breakSpin, path_modPath, path_setPath, hpc]
  · rw [breakSpin, path_modPath_other, path_setPath_other]
  · exact warpKept_trans (warpKept_trans (warpKept_trans (setPath_kept _ _ _) (modPath_kept _ _ _)) (modPath_kept _ _ _))
      (countIssue_kept _)
  · simp only [w', advance, goto, breakSpin, countIssue_xs, modPath_xs, setPath_xs]
  · simp only [w', advance, actPath, goto_path, breakSpin, path_modPath, path_setPath]

/-! ## LIVE and MARK (R115, R116) -/

theorem execLiveDead_eq {s : State} {w : Warp} {vn cnt : Nat} (hw : actsOn s w) :
    execLiveDead vn cnt s =
      if w.vregs ≤ vn + cnt then trapS s 0x81
      else if w.div then trapS s 0xA2
      else if (!transferReady s (actPath s w) vn (cnt + 1)) = true then stall s
      else retire s { w with regs := ffilter w.regs fun r _ => !(vn ≤ r && r ≤ vn + cnt) } := onPath_live s w hw _

theorem execLiveHot_eq {s : State} {w : Warp} {vn cnt : Nat} (hw : actsOn s w) :
    execLiveHot vn cnt s =
      if w.vregs ≤ vn + cnt then trapS s 0x81
      else retire s { w with hot := (List.range (cnt + 1)).map (vn + ·) } := onPath_live s w hw _

/-- R116: what a MARK records does not hang on the paths. -/
theorem recordMark_setPath (w : Warp) (pf : Bool) (p : Path) (a : W64) :
    recordMark (w.setPath pf p) a = (recordMark w a).setPath pf p := by
  unfold recordMark
  cases pf <;> by_cases h : (w.div || !w.dstack.isEmpty) = true <;> simp [Warp.setPath, h]

theorem recordMark_path (w : Warp) (a : W64) (pf : Bool) : (recordMark w a).path pf = w.path pf := by
  unfold recordMark
  cases pf <;> split <;> rfl

/-- R116: the mark is recorded while the warp is whole. -/
theorem recordMark_whole {w : Warp} {a : W64} (hdiv : w.div = false) (hstack : w.dstack = []) :
    recordMark w a = { w with markAddr := a, markv := true, nidem := false, runOn := false, mpend := w.pend, maph := w.aph,
                              mlpend := w.lpend, mlaph := w.laph } := if_neg (by simp [hdiv, hstack])

theorem recordMark_open {w : Warp} {a : W64} (h : ¬(w.div = false ∧ w.dstack = [])) : recordMark w a = w := by
  refine if_pos ?_
  cases hdiv : w.div
  · simpa using fun hstack => h ⟨hdiv, hstack⟩
  · rfl

/-- R116, R235: the warp after a MARK: its path's age queue is cleared, and the path goes on. -/
def markWarp (w : Warp) (pf : Bool) : Warp :=
  { advance ((recordMark w (w.path pf).pc).setPath pf
      (({ w.path pf with age := clearAge (w.path pf).age } : Path).lift true)) pf with wdc := 0 }

theorem execMark_eq {s : State} {w : Warp} (hw : actsOn s w) :
    execMark s = if (!allDone s s.cur.warp s.cur.path (actPath s w)) = true then stall s
      else .next (putWarp s s.cur.warp (markWarp w s.cur.path)) := by
  rw [execMark, onPath_live s w hw, markWarp, ← recordMark_setPath]
  rfl

theorem markWarp_path (w : Warp) (pf : Bool) : (markWarp w pf).path pf =
    { ({ w.path pf with age := clearAge (w.path pf).age } : Path).lift true with
      pc := (w.path pf).pc + 4, issued := (w.path pf).pc } := by
  have hwdc (x : Warp) : ({ x with wdc := 0 } : Warp).path pf = x.path pf := by cases pf <;> rfl
  rw [markWarp, hwdc, advance, goto_path, path_setPath, lift_pc]

theorem markWarp_path_other (w : Warp) (pf : Bool) : (markWarp w pf).path (!pf) = w.path (!pf) := by
  have hwdc (x : Warp) : ({ x with wdc := 0 } : Warp).path (!pf) = x.path (!pf) := by cases pf <;> rfl
  rw [markWarp, hwdc, advance, goto_path_other, path_setPath_other, recordMark_path]

/-- R116: but for its paths and its watchdog count, the warp after a MARK is the one that the mark is recorded in. -/
theorem markWarp_frame (w : Warp) (pf : Bool) :
    { markWarp w pf with a := w.a, b := w.b, wdc := w.wdc } = recordMark w (w.path pf).pc := by
  have hback (p : Path) (a : W64) :
      { (recordMark w a).setPath pf p with a := w.a, b := w.b, wdc := w.wdc } = recordMark w a := by
    unfold recordMark
    cases pf <;> split <;> rfl
  exact (congrArg (fun v : Warp => { v with a := w.a, b := w.b, wdc := w.wdc }) (goto_frame _ pf _)).trans (hback _ _)

end Sys2Proof.Machine

namespace Sys2Proof.Proofs

open Sys2Proof.Machine Sys2Proof.Claims

/-- Settles O11: VGET and VPUT are a chain of checks (`execVget_eq`, `execVput_eq`), and then one write of a scalar register or
of one lane (`retire_vwrite_lane`). -/
theorem laneScalarTransfer : Obligations.LaneScalarTransfer := by
  unfold Obligations.LaneScalarTransfer
  intro s w n vn l hw hl ready
  have hget := execVget_eq (n := n) (vn := vn) (l := l) hw
  have hput := execVput_eq (n := n) (vn := vn) (l := l) hw
  have hwaits := transferWaits_iff s w (actPath s w) vn
  rw [← exec_vget] at hget
  rw [← exec_vput] at hput
  refine ⟨fun hv => ⟨?_, ?_⟩, fun hv hk => ?_, fun hv hr => ⟨?_, fun hk => ?_⟩, fun hv hr hp => ?_, fun hv hr hp => ?_,
    fun hv hr hk => ?_⟩
  · exact trapS_live _ s w _ hw (hget.trans (if_pos hv))
  · exact trapS_live _ s w _ hw (hput.trans (if_pos hv))
  all_goals rw [if_neg (Nat.not_le.mpr hv)] at hget hput
  · exact trapS_live _ s w _ hw (hput.trans (if_pos (by simp [hk])))
  · exact hget.trans (if_pos (hwaits.mpr hr))
  · rw [if_neg (by simp [hk]), if_pos (hwaits.mpr hr)] at hput
    exact hput
  all_goals rw [if_neg fun h => hwaits.mp h hr] at hget
  · exact trapS_live _ s w _ hw (hget.trans (if_pos hp))
  · rw [if_neg (by simp [hp])] at hget
    rw [runs, hget]
    exact retire_wx s w n _
  · rw [if_neg (by simp [hk]), if_neg fun h => hwaits.mp h hr] at hput
    rw [runs, hput]
    exact retire_vwrite_lane hl _ _

/-- Settles O12: RUNC is two checks and then one clause more in the queue (`execRunc_eq`), with the values that the register
numbers read as (`fgetD_captureX`). -/
theorem runClause : Obligations.RunClause := by
  unfold Obligations.RunClause
  intro s w n off hw hoff p a q
  have hexec := execRunc_eq (n := n) hw hoff
  rw [← exec_runc] at hexec
  refine ⟨fun hal => ?_, fun hal hfull => ?_, fun hal hroom => ?_⟩
  · exact trapS_live _ s w _ hw (hexec.trans (if_pos hal))
  · exact (hexec.trans (if_neg (not_not_intro hal))).trans (if_pos hfull)
  · rw [runs, hexec, if_neg (not_not_intro hal), if_neg (Nat.not_le.mpr hroom)]
    obtain ⟨hon, hkept, hxs, hpath⟩ := wentOn_breakSpin (s := s) (w := w)
      (p := { p with queue := q ++ [newClause w p a], nextSeq := p.nextSeq + 1 }) rfl
    exact ⟨_, rfl, _, newClause w p a, hon, hkept, hxs, (congrArg Path.queue hpath :), (congrArg Path.x hpath :),
      (congrArg Path.k hpath :), (congrArg Path.age hpath :), rfl, rfl, rfl, rfl, rfl,
      fun r hpos hlt => fgetD_captureX w s.cur.path hpos hlt⟩

theorem liveRegisters : LiveRegisters := by
  intro s w vn cnt hw
  have hdead := execLiveDead_eq (vn := vn) (cnt := cnt) hw
  have hhot := execLiveHot_eq (vn := vn) (cnt := cnt) hw
  rw [← exec_liveDead] at hdead
  rw [← exec_liveHot] at hhot
  refine ⟨fun hv => ⟨?_, ?_⟩, fun hv hdiv => ?_, fun hv hdiv hr => ?_, fun hv hdiv hr => ?_, fun hv => ?_⟩
  · exact trapS_live _ s w _ hw (hdead.trans (if_pos hv))
  · exact trapS_live _ s w _ hw (hhot.trans (if_pos hv))
  all_goals rw [if_neg (Nat.not_le.mpr hv)] at hdead hhot
  · exact trapS_live _ s w _ hw (hdead.trans (if_pos hdiv))
  · rw [if_neg (by simp [hdiv]), if_pos (by simp [hr])] at hdead
    exact hdead
  · rw [if_neg (by simp [hdiv]), if_neg (by simp [hr])] at hdead
    obtain ⟨t, w', ht, hon, hpath, hframe⟩ := retire_pathsKept (s := s) (w := w)
      (x := { w with regs := ffilter w.regs fun r _ => !(vn ≤ r && r ≤ vn + cnt) }) rfl rfl rfl rfl
    refine ⟨t, hdead.trans ht, w', hon, congrArg (fun x : Warp => { x with regs := w.regs }) hframe, hpath, fun r => ?_⟩
    have hregs : w'.regs = ffilter w.regs fun r _ => !(vn ≤ r && r ≤ vn + cnt) := (congrArg Warp.regs hframe :)
    rw [hregs, ffilter, fget_filter_key _ fun r => !(decide (vn ≤ r) && decide (r ≤ vn + cnt))]
    by_cases hr : vn ≤ r ∧ r ≤ vn + cnt
    · simp [hr]
    · rw [if_neg hr, if_pos (by simp; omega)]
  · obtain ⟨t, w', ht, hon, hpath, hframe⟩ := retire_pathsKept (s := s) (w := w)
      (x := { w with hot := (List.range (cnt + 1)).map (vn + ·) }) rfl rfl rfl rfl
    exact ⟨t, hhot.trans ht, w', hon, congrArg (fun x : Warp => { x with hot := w.hot }) hframe, hpath,
      (congrArg Warp.hot hframe :)⟩

theorem markRecords : MarkRecords := by
  intro s w hw ready whole
  have hexec := execMark_eq hw
  rw [← exec_mark] at hexec
  refine ⟨fun hr => hexec.trans (if_pos (by simpa using hr)), fun hr => ?_⟩
  have hpath := markWarp_path w s.cur.path
  have hframe := markWarp_frame w s.cur.path
  rw [if_neg (by simpa using hr)] at hexec
  refine ⟨_, hexec, markWarp w s.cur.path, rfl, rfl, congrArg Path.pc hpath, ?_, ?_, ?_, markWarp_path_other .., ?_⟩
  · exact (congrArg Path.age hpath).trans (by rw [lift_frame]; rfl)
  · exact (congrArg Path.x hpath).trans (lift_x _ _)
  · exact (congrArg Path.k hpath).trans (lift_k _ _)
  by_cases hwhole : whole
  · rw [recordMark_whole hwhole.1 hwhole.2] at hframe
    exact ⟨(congrArg Warp.regs hframe :), (congrArg Warp.xs hframe :), (congrArg Warp.dstack hframe :),
      fun _ => ⟨(congrArg Warp.markAddr hframe :), (congrArg Warp.markv hframe :), (congrArg Warp.nidem hframe :),
        (congrArg Warp.mpend hframe :), (congrArg Warp.maph hframe :)⟩, fun h => absurd hwhole h⟩
  · rw [recordMark_open hwhole] at hframe
    exact ⟨(congrArg Warp.regs hframe :), (congrArg Warp.xs hframe :), (congrArg Warp.dstack hframe :), fun h => absurd h hwhole,
      fun _ => ⟨(congrArg Warp.markAddr hframe :), (congrArg Warp.markv hframe :), (congrArg Warp.nidem hframe :)⟩⟩

/-- Settles O17: LIVE is its checks and then a change of one field (`retire_pathsKept`); MARK records where the warp is whole
(`recordMark_whole`) and changes nothing else but its path (`markWarp_frame`). -/
theorem liveAndMark : Obligations.LiveAndMark := by
  unfold Obligations.LiveAndMark
  exact ⟨liveRegisters, markRecords⟩

end Sys2Proof.Proofs

/-! # Divergence: BRD (O8) -/

namespace Sys2Proof.Machine

open Sys2Proof.Claims

/-! ## Changes of the active lanes (R104 to R109) -/

theorem fgetD_withK0 (p : Path) (m : W32) (r : Nat) :
    (fgetD 0 (p.withK0 m).k r : W32) = if r = 0 then m else fgetD 0 p.k r := fgetD_fputD _ _ _ _ _

@[simp] theorem withK0_k0 (p : Path) (m : W32) : (p.withK0 m).k0 = m := fgetD_fputD_same _ _ _ _

/-- A warp x that has another stack, another age queue and other active lanes than w goes on at pc. -/
theorem divStep_goto {s : State} {w x : Warp} {k0 : W32} {stack : List DEntry} {age : List AgeEntry} {k : FMap W32} {pc : W64}
    (hpath : actPath s x = { actPath s w with age := age, k := k })
    (hmasks : ∀ r, (fgetD 0 k r : W32) = if r = 0 then k0 else rk w s.cur.path r)
    (hother : x.path (!s.cur.path) = w.path (!s.cur.path)) (hstack : x.dstack = stack)
    (hframe : { x with a := w.a, b := w.b, dstack := w.dstack, nidem := w.nidem } = w) :
    divStep s (putWarp s s.cur.warp (goto x s.cur.path pc)) w k0 stack age pc := by
  have hgo := goto_frame x s.cur.path pc
  have hgopath : actPath s (goto x s.cur.path pc) = { actPath s x with pc := pc, issued := (actPath s x).pc } :=
    goto_path x s.cur.path pc
  rw [hpath] at hgopath
  refine ⟨_, wentOn_goto s w x pc (congrArg Warp.wdc hframe :) (congrArg Warp.kind hframe :) (congrArg Path.pc hpath :) hother,
    (congrArg Warp.dstack hgo :).trans hstack, (congrArg Path.age hgopath :), ?_, fun r => ?_, ?_⟩
  · exact (congrArg (fun v : Warp => { v with a := w.a, b := w.b, wdc := w.wdc, dstack := w.dstack, nidem := w.nidem })
      hgo).trans ((congrArg (fun v : Warp => { v with wdc := w.wdc }) hframe))
  · exact (congrArg (fun p : Path => (fgetD 0 p.k r : W32)) hgopath).trans (hmasks r)
  · exact congrArg (fun p : Path => { p with pc := (actPath s w).pc, issued := (actPath s w).issued, k := (actPath s w).k,
                                             age := (actPath s w).age }) hgopath

/-- An instruction that retires into a warp with another stack, another age queue and other active lanes. -/
theorem divStep_retire {s : State} {w x : Warp} {k0 : W32} {stack : List DEntry} {age : List AgeEntry} {k : FMap W32}
    (hpath : actPath s x = { actPath s w with age := age, k := k })
    (hmasks : ∀ r, (fgetD 0 k r : W32) = if r = 0 then k0 else rk w s.cur.path r)
    (hother : x.path (!s.cur.path) = w.path (!s.cur.path)) (hstack : x.dstack = stack)
    (hframe : { x with a := w.a, b := w.b, dstack := w.dstack, nidem := w.nidem } = w) :
    ∃ t, retire s x = .next t ∧ divStep s t w k0 stack age (nextPc s w) := by
  have h := divStep_goto (pc := nextPc s w) hpath hmasks hother hstack hframe
  have hpc : nextPc s w = (x.path s.cur.path).pc + 4 := congrArg (· + 4) (congrArg Path.pc hpath :).symm
  rw [hpc] at h ⊢
  exact ⟨_, rfl, h⟩

theorem withStack_path (w : Warp) (stack : List DEntry) (pf : Bool) : ({ w with dstack := stack } : Warp).path pf = w.path pf := by
  cases pf <;> rfl

@[simp] theorem modPath_dstack (w : Warp) (pf : Bool) (f : Path → Path) : (w.modPath pf f).dstack = w.dstack := by
  cases pf <;> rfl

/-! ## Room for a batch (R30, R179) -/

theorem mayClose_full {s : State} {u : Nat} {pf : Bool} {p : Path} (hb : p.batch ≠ []) (hn : 255 ≤ counter s u pf .sh) :
    mayClose s u pf p = false := by
  simp [mayClose, hb, hn]

theorem mayClose_room {s : State} {u : Nat} {pf : Bool} {p : Path} (hn : counter s u pf .sh < 255) :
    mayClose s u pf p = true := by
  simp [mayClose, hn]

theorem mayClose_empty {s : State} {u : Nat} {pf : Bool} {p : Path} (hb : p.batch = []) : mayClose s u pf p = true := by
  simp [mayClose, hb]

/-! ## The divergence stack (R105) -/

/-- R105: the signed distance of an entry back to the taken target. -/
theorem takenTarget_eq {s : State} {w : Warp} {e : DEntry} {toff joff : Nat} (hj : joff < 2048)
    (ha : e.jaddr = (actPath s w).pc + BitVec.ofNat 64 (4 * joff)) (he : e.toff = BitVec.ofInt 13 (sext 10 toff - joff)) :
    takenTarget e = branchTarget s w 10 toff := by
  have hlo : -512 ≤ sext 10 toff ∧ sext 10 toff < 512 := by
    unfold sext; dsimp only; split <;> omega
  have hoff : (BitVec.ofInt 13 (sext 10 toff - joff)).toInt = sext 10 toff - joff :=
    BitVec.toInt_ofInt_eq_self (by decide) (by omega) (by omega)
  have hdist : BitVec.ofNat 64 (4 * joff) + BitVec.ofInt 64 (sext 10 toff - joff) * 4 = BitVec.ofInt 64 (4 * sext 10 toff) := by
    rw [show (4 : W64) = BitVec.ofInt 64 4 from rfl, ← BitVec.ofInt_mul, ← BitVec.ofInt_natCast, ← BitVec.ofInt_add]
    congr 1
    push_cast
    ring
  rw [takenTarget, ha, he, BitVec.signExtend, hoff, ← target_eq, target, w64, add_assoc, hdist]

/-- R104: an open divergence of a path. -/
theorem openAt_iff (w : Warp) (pf : Bool) (j : W64) : openAt w pf j = true ↔ divergenceOpen w pf j := by
  simp only [openAt, entriesOf, divergenceOpen, Bool.or_eq_true, List.any_eq_true, List.mem_reverse, List.mem_filter,
    decide_eq_true_eq, Bool.and_eq_true, and_assoc]

/-! ## BRD (R104) -/

/-- R105: the entry that a nested BRD at the acting path's address pushes. -/
def nestedEntry (p : Path) (pf : Bool) (toff joff : Nat) : DEntry :=
  { jaddr := p.pc + BitVec.ofNat 64 (4 * joff), mask := p.k0, state := false, path := pf,
    toff := BitVec.ofInt 13 (sext 10 toff - joff) }

theorem putWarp_splitOps_closeBatch {s : State} {u : Nat} {pf : Bool} {w : Warp} (hw : fget s.warps u = some w) (x : Warp) :
    putWarp (splitOps (closeBatch s u pf) u) u x = putWarp (splitOps (batchIssued s u pf w) u) u x :=
  congrArg (splitOps · u) (putWarp_closeBatch hw x)

theorem execBrd_eq {s : State} {w : Warp} {kn toff joff : Nat} (hw : actsOn s w) :
    let p := actPath s w
    let t := p.k0 &&& rk w s.cur.path kn
    let j := p.pc + BitVec.ofNat 64 (4 * joff)
    execBrd kn toff joff s =
      if t = 0 then fell s w
      else if t = p.k0 then taken s w (branchTarget s w 10 toff)
      else if !w.div then
        if !allDone s s.cur.warp s.cur.path p || !mayClose s s.cur.warp s.cur.path p then stall s
        else .next (putWarp (splitOps (batchIssued s s.cur.warp s.cur.path w) s.cur.warp) s.cur.warp
          (splitWarp (batchless w s.cur.path) t (branchTarget s w 10 toff) j))
      else if openAt w s.cur.path j then trapS s 0xA1
      else if 32 ≤ w.dstack.length then trapS s 0xA0
      else retire s (({ w with dstack := w.dstack ++ [nestedEntry p s.cur.path toff joff] } : Warp).modPath s.cur.path
        fun p => p.withK0 (p.k0 &&& ~~~ t)) := by
  intro p t j
  rw [execBrd, onPath_live s w hw, target_eq]
  have hput (x : Warp) := putWarp_splitOps_closeBatch (pf := s.cur.path) hw.1 x
  simp only [fget_closeBatch hw.1, hput]
  rfl

theorem countIssue_frame (w : Warp) : countIssue w = { w with wdc := (countIssue w).wdc } := by
  unfold countIssue
  split <;> rfl

/-- R31: an operation at a split of warp u. -/
def splitOp (u : Nat) (o : Op) : Op := if o.warp = u && o.ownA then { o with ownB := true } else o

theorem splitOp_keeps (u : Nat) (o : Op) :
    (splitOp u o).id = o.id ∧ (splitOp u o).warp = o.warp ∧ (splitOp u o).body = o.body := by
  unfold splitOp
  split <;> exact ⟨rfl, rfl, rfl⟩

/-- R31: a split counts the operations of path A on path A as before. -/
theorem counter_splitOps (s : State) (u : Nat) (c : Ctr) : counter (splitOps s u) u false c = counter s u false c := by
  simp only [counter, splitOps, List.filter_map, List.length_map]
  congr 1
  refine List.filter_congr fun o _ => ?_
  simp only [Function.comp]
  split <;> rfl

/-- R31: after a split every operation of path A is one of path B too. -/
theorem ownB_of_splitOps {s : State} {u : Nat} {o : Op} (ho : o ∈ (splitOps s u).ops) (hw : o.warp = u) (ha : o.ownA = true) :
    o.ownB = true := by
  obtain ⟨o', _, rfl⟩ := List.mem_map.mp ho
  by_cases h : (o'.warp = u && o'.ownA) = true
  · rw [if_pos h]
  · rw [if_neg h] at hw ha
    exact absurd (by simp [hw, ha]) h

/-- R104: the warp after a split. -/
theorem splitWarp_eq (w : Warp) (t : W32) (tgt j : W64) : splitWarp w t tgt j =
    { w with div := true, recon := j, wdc := (splitWarp w t tgt j).wdc,
             a := ({ w.a with pc := w.a.pc + 4 } : Path).withK0 (w.a.k0 &&& ~~~ t),
             b := ({ w.a with pc := tgt, queue := [], batch := [], held := none, pend := none, more := [], wait := .none,
                              residue := false, dropPkt := false, synced := none } : Path).withK0 t } :=
  countIssue_frame _

end Sys2Proof.Machine

namespace Sys2Proof.Proofs

open Sys2Proof.Machine Sys2Proof.Claims

theorem branchDivergence : BranchDivergence := by
  intro s w kn toff joff hw k0 t j
  have hexec := execBrd_eq (kn := kn) (toff := toff) (joff := joff) hw
  rw [← exec_brd] at hexec
  refine ⟨fun ht => ?_, fun ht hk => ?_, fun ht hk hdiv hopen => ?_, fun ht hk hdiv hopen hfull => ?_,
    fun ht hk hdiv hopen hroom htoff hjoff => ?_⟩
  · rw [runs, hexec, if_pos ht]
    exact fell_scalarStep s w
  all_goals dsimp only at hexec; rw [if_neg ht] at hexec
  · rw [runs, hexec, if_pos hk]
    exact taken_scalarStep s w _
  all_goals rw [if_neg hk, if_neg (by simp [hdiv])] at hexec
  · rw [if_pos ((openAt_iff w _ _).mpr hopen)] at hexec
    exact trapS_live _ s w _ hw hexec
  all_goals rw [if_neg fun h => hopen ((openAt_iff w _ _).mp h)] at hexec
  · exact trapS_live _ s w _ hw (hexec.trans (if_pos hfull))
  · rw [if_neg (Nat.not_le.mpr hroom)] at hexec
    have hpath : actPath s (({ w with dstack := w.dstack ++ [nestedEntry (actPath s w) s.cur.path toff joff] } : Warp).modPath
        s.cur.path fun p => p.withK0 (p.k0 &&& ~~~ t)) = (actPath s w).withK0 (k0 &&& ~~~ t) := by
      rw [actPath, path_modPath, withStack_path]; rfl
    obtain ⟨u, hu, hstep⟩ := divStep_retire hpath (fgetD_withK0 _ _)
      (by rw [path_modPath_other, withStack_path]) (modPath_dstack ..) (by cases s.cur.path <;> rfl)
    refine ⟨u, hexec.trans hu, nestedEntry (actPath s w) s.cur.path toff joff, rfl, rfl, rfl, rfl,
      takenTarget_eq hjoff rfl rfl, hstep⟩

theorem branchSplits : BranchSplits := by
  intro s w kn toff joff hw hcur hdiv t ht hk
  have hpath : actPath s w = w.a := by rw [actPath, hcur]; rfl
  have hexec := execBrd_eq (kn := kn) (toff := toff) (joff := joff) hw
  rw [← exec_brd] at hexec
  dsimp only at hexec
  rw [hpath, hcur, if_neg ht, if_neg hk, if_pos (by simp [hdiv]), splitWarp_eq] at hexec
  have ha : (batchless w false).a = { w.a with batch := [] } := rfl
  refine ⟨fun hd => ?_, fun hb hn => ?_, fun hb hn hd => ?_, fun hb hd => ?_⟩
  · exact hexec.trans (if_pos (by simp [hd]))
  · exact hexec.trans (if_pos (by simp [mayClose_full hb hn]))
  · rw [if_neg (by simp [hd, mayClose_room hn])] at hexec
    refine ⟨_, hexec, _, fget_putWarp .., ?_, rfl, rfl, ?_, ?_, rfl, rfl⟩
    · refine batchClosed_of_ops (g := splitOp s.cur.warp) (by rwa [hpath]) (by rw [hcur]; rfl) (splitOp_keeps _) (by rw [hcur]; rfl)
        (batchIssued_mem ..) ?_
      rw [actPath, hcur]; rfl
    · exact withK0_k0 ..
    · exact withK0_k0 ..
  · rw [if_neg (by simp [hd, mayClose_empty hb]), batchless_of_empty (pf := false) hb, batchIssued_of_empty (pf := false) hb] at hexec
    have hlive : w.a.live = true := hpath ▸ hw.2
    refine ⟨_, hexec, _, rfl, rfl, rfl, withK0_k0 .., withK0_k0 .., rfl, rfl, hlive, hlive, rfl, rfl, rfl, rfl,
      fun r => ⟨rfl, rfl⟩, fun r hr => ?_, rfl, rfl, rfl, rfl, rfl, fun c => counter_splitOps .., fun o ho ho1 ho2 => ?_⟩
    · exact ⟨(fgetD_withK0 _ _ r).trans (if_neg hr), (fgetD_withK0 _ _ r).trans (if_neg hr)⟩
    · exact ownB_of_splitOps ho ho1 ho2

/-- Settles O8: BRD is a chain of checks (`execBrd_eq`), and each case of the statement picks one of its ends. -/
theorem divergence : Obligations.Divergence := by
  unfold Obligations.Divergence
  exact ⟨branchDivergence, branchSplits⟩

end Sys2Proof.Proofs

/-! # Reconvergence: JOIN (O9) -/

namespace Sys2Proof.Machine

open Sys2Proof.Claims

/-! ## The innermost entry (R105) -/

theorem innerIdx_skip {pf : Bool} {l : List DEntry} (hl : ∀ x ∈ l, x.path ≠ pf) (r : List DEntry) :
    innerIdx pf (l ++ r) = (innerIdx pf r).map fun f => (f.1, l ++ f.2) := by
  induction l with
  | nil => simp
  | cons x l ih =>
    obtain ⟨hx, hl⟩ := List.forall_mem_cons.mp hl
    simp only [List.cons_append, innerIdx, if_neg hx, ih hl]
    cases innerIdx pf r <;> rfl

theorem setInner_skip {pf : Bool} {l : List DEntry} (hl : ∀ x ∈ l, x.path ≠ pf) (f : DEntry → DEntry) (r : List DEntry) :
    setInner pf f (l ++ r) = l ++ setInner pf f r := by
  induction l with
  | nil => rfl
  | cons x l ih =>
    obtain ⟨hx, hl⟩ := List.forall_mem_cons.mp hl
    simp only [List.cons_append, setInner, if_neg hx, ih hl]

theorem popEntry_innermost {w : Warp} {pf : Bool} {e : DEntry} {rest : List DEntry} (h : innermost w.dstack pf e rest) :
    popEntry w pf = some (e, rest) := by
  obtain ⟨pre, post, hstack, rfl, he, hpost⟩ := h
  have hskip : ∀ x ∈ post.reverse, x.path ≠ pf := fun x hx => hpost x (List.mem_reverse.mp hx)
  simp [popEntry, hstack, innerIdx_skip hskip, innerIdx, he]

theorem popEntry_noEntry {w : Warp} {pf : Bool} (h : noEntry w.dstack pf) : popEntry w pf = none := by
  have hskip := innerIdx_skip (fun x hx => h x (List.mem_reverse.mp hx)) (pf := pf) []
  rw [List.append_nil] at hskip
  rw [popEntry, hskip]
  rfl

/-- Changing the innermost entry leaves the stack's height and the entries around it. -/
theorem modEntry_innermost {w : Warp} {pf : Bool} {e : DEntry} {rest : List DEntry} {f : DEntry → DEntry}
    (h : innermost w.dstack pf e rest) (hf : (f e).path = e.path) :
    (modEntry w pf f).length = w.dstack.length ∧ innermost (modEntry w pf f) pf (f e) rest := by
  obtain ⟨pre, post, hstack, rfl, he, hpost⟩ := h
  have hskip : ∀ x ∈ post.reverse, x.path ≠ pf := fun x hx => hpost x (List.mem_reverse.mp hx)
  have hmod : modEntry w pf f = pre ++ f e :: post := by
    simp [modEntry, hstack, setInner_skip hskip, setInner, he]
  exact ⟨by simp [hmod, hstack], pre, post, hmod, rfl, hf.trans he, hpost⟩

/-- R105: the model's word arithmetic. -/
theorem entryTarget_eq (e : DEntry) : entryTarget e = takenTarget e := by
  rw [entryTarget, takenTarget, w64, BitVec.signExtend, mul_comm, BitVec.ofInt_mul]
  rfl

/-! ## The merge (R31, R107, R157) -/

/-- R31: an operation at a merge of warp u. -/
def mergeOp (u : Nat) (o : Op) : Op := if o.warp = u then { o with ownA := true, ownB := false } else o

theorem mergeOp_keeps (u : Nat) (o : Op) :
    (mergeOp u o).id = o.id ∧ (mergeOp u o).warp = o.warp ∧ (mergeOp u o).body = o.body := by
  unfold mergeOp
  split <;> exact ⟨rfl, rfl, rfl⟩

/-- R157: a path that does not wait at a barrier is left alone. -/
theorem breakBarrier_of_none {s : State} {u : Nat} {w : Warp} {pf : Bool} (h : (w.path pf).wait = .none) :
    breakBarrier (putWarp s u w) u pf = putWarp s u w := by
  simp only [breakBarrier, fget_putWarp, h]

/-- R106, R107: a path waits at the JOIN, or has ended. -/
def arrived (p : Path) : Bool := p.wait = .join || !p.live

theorem tryMerge_eq (s : State) (u : Nat) (w : Warp) :
    tryMerge (putWarp s u w) u =
      if w.div && arrived w.a && arrived w.b && (w.a.live || w.b.live) then
        putWarp (mergeOps s u) u (mergeWarp w w.recon)
      else putWarp s u w := by
  simp only [tryMerge, fget_putWarp]
  split
  · exact (putWarp_putWarp (mergeOps s u) u w _).trans (if_pos ‹_›).symm
  · exact (if_neg ‹_›).symm

/-- R106: the other path of a diverged warp runs on. -/
theorem tryMerge_alone {s : State} {u : Nat} {w : Warp} {pf : Bool} (hlive : (w.path (!pf)).live = true)
    (hwait : (w.path (!pf)).wait = .none) : tryMerge (putWarp s u w) u = putWarp s u w := by
  have hother : arrived (w.path (!pf)) = false := by simp [arrived, hlive, hwait]
  rw [tryMerge_eq, if_neg]
  cases pf <;> simp_all [Warp.path]

/-- R107: one path waits, and the other one does too or has ended. -/
theorem tryMerge_both {s : State} {u : Nat} {w : Warp} {pf : Bool} (hdiv : w.div = true) (hlive : (w.path pf).live = true)
    (hwait : (w.path pf).wait = .join) (hother : (w.path (!pf)).live = false ∨ (w.path (!pf)).wait = .join) :
    tryMerge (putWarp s u w) u = putWarp (mergeOps s u) u (mergeWarp w w.recon) := by
  rw [tryMerge_eq, if_pos]
  cases pf <;> simp_all [Warp.path, arrived, or_comm]

/-- R107: the path that carries a merged warp on is whichever lives, path A first. -/
def survivor (w : Warp) : Path := if w.a.live then w.a else w.b

theorem mergeWarp_path (w : Warp) (j : W64) : { (mergeWarp w j).a with k := (survivor w).k } =
    { survivor w with pc := j + 4, wait := .none, age := clearAge (survivor w).age } := by
  unfold mergeWarp survivor
  cases w.a.live <;> rfl

theorem mergeWarp_mask (w : Warp) (j : W64) {r : Nat} (hr : r ≠ 0) :
    (fgetD 0 (mergeWarp w j).a.k r : W32) = fgetD 0 (survivor w).k r := by
  unfold mergeWarp survivor
  cases w.a.live
  · rfl
  · exact (fgetD_withK0 _ _ r).trans (if_neg hr)

/-- R107: k0 is the OR of the lanes of the paths that live. -/
theorem mergeWarp_k0 (w : Warp) (j : W64) : (mergeWarp w j).a.k0 =
    if w.a.live then w.a.k0 ||| (if w.b.live then w.b.k0 else 0) else w.b.k0 := by
  unfold mergeWarp
  cases w.a.live
  · rfl
  · exact withK0_k0 ..

theorem survivor_live {w : Warp} {pf : Bool} (h : (w.path pf).live = true) : (survivor w).live = true := by
  unfold survivor
  split
  · assumption
  · cases pf with
    | false => exact absurd h ‹_›
    | true => exact h

theorem survivor_alone {w : Warp} {pf : Bool} (h : (w.path pf).live = true) (ho : (w.path (!pf)).live = false) :
    survivor w = w.path pf := by
  cases pf with
  | false => exact if_pos h
  | true => exact if_neg (ne_true_of_eq_false ho)

/-- R107: the lanes of a path that is alone stay. -/
theorem mergeWarp_k0_alone {w : Warp} {pf : Bool} (h : (w.path pf).live = true) (ho : (w.path (!pf)).live = false) (j : W64) :
    (mergeWarp w j).a.k0 = (w.path pf).k0 := by
  rw [mergeWarp_k0]
  cases pf with
  | false => exact (if_pos h).trans ((congrArg (w.a.k0 ||| ·) (if_neg (ne_true_of_eq_false ho))).trans BitVec.or_zero)
  | true => exact if_neg (ne_true_of_eq_false ho)

/-- R107: the lanes of both paths. -/
theorem mergeWarp_k0_both {w : Warp} (ha : w.a.live = true) (hb : w.b.live = true) (j : W64) :
    (mergeWarp w j).a.k0 = w.a.k0 ||| w.b.k0 := by
  rw [mergeWarp_k0, if_pos ha, if_pos hb]

theorem valid_of_mem_clearAge {l : List AgeEntry} : ∀ x ∈ clearAge l, x.valid = 0 := by
  intro x hx
  obtain ⟨y, _, rfl⟩ := List.mem_map.mp hx
  rfl

/-- R107: the warp after a merge is whole, and goes on behind the JOIN with its age queue empty. -/
theorem mergeWarp_whole {w : Warp} {pf : Bool} (h : (w.path pf).live = true) (j : W64) :
    (mergeWarp w j).a.live = true ∧ (mergeWarp w j).a.pc = j + 4 ∧ ∀ x ∈ (mergeWarp w j).a.age, x.valid = 0 := by
  have hpath := mergeWarp_path w j
  have hage : (mergeWarp w j).a.age = clearAge (survivor w).age := (congrArg Path.age hpath :)
  exact ⟨(congrArg Path.live hpath :).trans (survivor_live h), (congrArg Path.pc hpath :), hage ▸ valid_of_mem_clearAge⟩

theorem mergeWarp_batch {w : Warp} {pf : Bool} (h : (w.path pf).live = true) (hb : (w.path pf).batch = []) (j : W64) :
    ((mergeWarp w j).path pf).batch = [] := by
  cases pf with
  | false =>
    have hsurv : survivor w = w.path false := if_pos h
    exact (congrArg Path.batch (mergeWarp_path w j) :).trans ((congrArg Path.batch hsurv).trans hb)
  | true => rfl

theorem live_both {w : Warp} {pf : Bool} (h : (w.path pf).live = true) (ho : (w.path (!pf)).live = true) (q : Bool) :
    (w.path q).live = true := by
  by_cases hq : q = pf
  · rwa [hq]
  · rwa [Bool.eq_not.mpr hq]

theorem mergeWarp_wait (w : Warp) (j : W64) (pf : Bool) : ((mergeWarp w j).path pf).wait = .none := by
  cases pf <;> rfl

/-! ## Waiting at the JOIN (R106) -/

/-- The path with its age queue cleared. -/
def ageless (w : Warp) (pf : Bool) : Warp := w.modPath pf fun p => { p with age := clearAge p.age }

/-- R106: the path of a warp at the reconvergence JOIN, its open batch closed. -/
def atJoin (w : Warp) (pf : Bool) : Warp :=
  countIssue (w.modPath pf fun p => { p with age := clearAge p.age, batch := [], wait := .join })

theorem modPath_modPath (w : Warp) (pf : Bool) (f g : Path → Path) :
    (w.modPath pf f).modPath pf g = w.modPath pf fun p => g (f p) := by
  cases pf <;> rfl

theorem modPath_frame (w : Warp) (pf : Bool) (f : Path → Path) : { w.modPath pf f with a := w.a, b := w.b } = w := by
  cases pf <;> rfl

theorem atJoin_path (w : Warp) (pf : Bool) :
    (atJoin w pf).path pf = { w.path pf with age := clearAge (w.path pf).age, batch := [], wait := .join } := by
  rw [atJoin, countIssue_path, path_modPath]

theorem atJoin_other (w : Warp) (pf : Bool) : (atJoin w pf).path (!pf) = w.path (!pf) := by
  rw [atJoin, countIssue_path, path_modPath_other]

/-- Both paths of a warp at the JOIN are as before but for the ages, the batch and the wait. -/
theorem atJoin_kept (w : Warp) (pf q : Bool) : { (atJoin w pf).path q with
    age := (w.path q).age, batch := (w.path q).batch, wait := (w.path q).wait } = w.path q := by
  by_cases hq : q = pf
  · rw [hq, atJoin_path]
  · rw [Bool.eq_not.mpr hq, atJoin_other]

theorem rx_of_eq {v w : Warp} {p q : Bool} (hx : (v.path p).x = (w.path q).x) (hpriv : (v.path p).priv = (w.path q).priv)
    (hxs : v.xs = w.xs) (r : Nat) : rx v p r = rx w q r := by
  simp only [rx, hx, hpriv, hxs]

theorem countedModPath_frame (w : Warp) (pf : Bool) (f : Path → Path) :
    { countIssue (w.modPath pf f) with a := w.a, b := w.b, wdc := w.wdc } = w := by
  rw [countIssue_frame]
  exact congrArg (fun x : Warp => { x with wdc := w.wdc }) (modPath_frame w pf f)

/-- R107: what the warp holds after the merge of two paths: the scalar registers and masks of path A. -/
theorem mergeWarp_atJoin_both {w : Warp} {pf : Bool} (hlive : ∀ q, (w.path q).live = true) (j : W64) :
    (mergeWarp (atJoin w pf) j).a.k0 = w.a.k0 ||| w.b.k0 ∧
      (∀ r, rx (mergeWarp (atJoin w pf) j) false r = rx w false r) ∧
      ∀ r, r ≠ 0 → rk (mergeWarp (atJoin w pf) j) false r = rk w false r := by
  have ha := atJoin_kept w pf false
  have hb := atJoin_kept w pf true
  have hal : (atJoin w pf).a.live = true := (congrArg Path.live ha :).trans (hlive false)
  have hbl : (atJoin w pf).b.live = true := (congrArg Path.live hb :).trans (hlive true)
  have hsurv : survivor (atJoin w pf) = (atJoin w pf).a := if_pos hal
  have hpath := mergeWarp_path (atJoin w pf) j
  rw [hsurv] at hpath
  have hx : ((mergeWarp (atJoin w pf) j).path false).x = (w.path false).x :=
    (congrArg Path.x hpath :).trans (congrArg Path.x ha :)
  have hpriv : ((mergeWarp (atJoin w pf) j).path false).priv = (w.path false).priv :=
    (congrArg Path.priv hpath :).trans (congrArg Path.priv ha :)
  have hxs : (mergeWarp (atJoin w pf) j).xs = w.xs :=
    (congrArg Warp.xs (countedModPath_frame w pf fun p => { p with age := clearAge p.age, batch := [], wait := .join }) :)
  refine ⟨?_, rx_of_eq hx hpriv hxs, fun r hr => ?_⟩
  · exact (mergeWarp_k0_both hal hbl _).trans (congrArg₂ (· ||| ·) (congrArg Path.k0 ha :) (congrArg Path.k0 hb :))
  · refine (mergeWarp_mask _ _ hr).trans ?_
    rw [hsurv]
    exact (congrArg (fun p : Path => (fgetD 0 p.k r : W32)) ha :)

/-- R107: what the warp holds after the merge where the other path has ended. -/
theorem mergeWarp_atJoin_alone {w : Warp} {pf : Bool} (hlive : (w.path pf).live = true) (ho : (w.path (!pf)).live = false)
    (j : W64) : (mergeWarp (atJoin w pf) j).a.k0 = (w.path pf).k0 ∧
      (∀ r, r ≠ 0 → rk (mergeWarp (atJoin w pf) j) false r = rk w pf r) ∧
      (mergeWarp (atJoin w pf) j).a.x = (w.path pf).x := by
  have hlive' : ((atJoin w pf).path pf).live = true := (congrArg Path.live (atJoin_path w pf)).trans hlive
  have ho' : ((atJoin w pf).path (!pf)).live = false := (congrArg Path.live (atJoin_other w pf)).trans ho
  have hsurv : survivor (atJoin w pf) = _ := (survivor_alone hlive' ho').trans (atJoin_path ..)
  refine ⟨?_, fun r hr => ?_, ?_⟩
  · rw [mergeWarp_k0_alone hlive' ho', atJoin_path]; rfl
  · refine (mergeWarp_mask _ _ hr).trans ?_
    rw [hsurv]; rfl
  · refine (congrArg Path.x (mergeWarp_path _ j) :).trans ?_
    rw [hsurv]

theorem putWarp_batchIssued_putWarp (s : State) (u : Nat) (pf : Bool) (w x y : Warp) :
    putWarp (batchIssued (putWarp s u x) u pf w) u y = putWarp (batchIssued s u pf w) u y := by
  unfold batchIssued
  split
  · exact putWarp_putWarp ..
  · exact putWarp_putWarp (issueOp s u pf w.block none (.batch (w.path pf).batch)) u x y

theorem batchIssued_ageless (s : State) (u : Nat) (pf : Bool) (w : Warp) :
    batchIssued s u pf (ageless w pf) = batchIssued s u pf w := by
  cases pf <;> rfl

theorem waitJoin_eq (s : State) (u : Nat) (pf : Bool) (w : Warp) :
    waitJoin (putWarp s u (ageless w pf)) u pf =
      breakBarrier (tryMerge (putWarp (batchIssued s u pf w) u (atJoin w pf)) u) u (!pf) := by
  rw [waitJoin, modWarp_closeBatch (fget_putWarp ..), putWarp_batchIssued_putWarp, batchIssued_ageless]
  simp only [batchless, ageless, modPath_modPath]
  rfl

/-- R106: the other path runs on: the path waits. -/
theorem waitJoin_alone {s : State} {u : Nat} {pf : Bool} {w : Warp} (hlive : (w.path (!pf)).live = true)
    (hwait : (w.path (!pf)).wait = .none) :
    waitJoin (putWarp s u (ageless w pf)) u pf = putWarp (batchIssued s u pf w) u (atJoin w pf) := by
  rw [← atJoin_other w pf] at hlive hwait
  rw [waitJoin_eq, tryMerge_alone hlive hwait, breakBarrier_of_none hwait]

/-- R107: the other path waits already, or has ended: the warp is whole again. -/
theorem waitJoin_both {s : State} {u : Nat} {pf : Bool} {w : Warp} (hdiv : w.div = true) (hlive : (w.path pf).live = true)
    (hother : (w.path (!pf)).live = false ∨ (w.path (!pf)).wait = .join) :
    waitJoin (putWarp s u (ageless w pf)) u pf =
      putWarp (mergeOps (batchIssued s u pf w) u) u (mergeWarp (atJoin w pf) w.recon) := by
  have hframe := countedModPath_frame w pf fun p => { p with age := clearAge p.age, batch := [], wait := .join }
  have hdiv' : (atJoin w pf).div = true := (congrArg Warp.div hframe :).trans hdiv
  have hrecon : (atJoin w pf).recon = w.recon := (congrArg Warp.recon hframe :)
  rw [← atJoin_other w pf] at hother
  have hlive' : ((atJoin w pf).path pf).live = true := by rw [atJoin_path]; exact hlive
  have hwait : ((atJoin w pf).path pf).wait = .join := by rw [atJoin_path]
  rw [waitJoin_eq, tryMerge_both hdiv' hlive' hwait hother, breakBarrier_of_none (mergeWarp_wait ..), hrecon]

/-! ## JOIN (R106) -/

/-- R106: the warp of a nested JOIN: cleared ages, another stack, and other active lanes. -/
def rejoined (w : Warp) (pf : Bool) (stack : List DEntry) (f : W32 → W32) : Warp :=
  ({ ageless w pf with dstack := stack } : Warp).modPath pf fun p => p.withK0 (f p.k0)

/-- R106: the innermost entry of a path in its second state. -/
def taking (e : DEntry) : DEntry := { e with state := true }

/-- R106: JOIN of a path with an entry, its clauses completed. -/
theorem execJoin_entry {s : State} {w : Warp} {e : DEntry} {rest : List DEntry} (hw : actsOn s w)
    (hd : allDone s s.cur.warp s.cur.path (actPath s w) = true) (hin : innermost w.dstack s.cur.path e rest) :
    execJoin s =
      if e.jaddr = (actPath s w).pc && !e.state then
        .next (putWarp s s.cur.warp (goto (rejoined w s.cur.path (modEntry w s.cur.path taking) (e.mask &&& ~~~ ·)) s.cur.path
          (takenTarget e)))
      else if e.jaddr = (actPath s w).pc then retire s (rejoined w s.cur.path rest fun _ => e.mask)
      else if openAt w s.cur.path (actPath s w).pc then trapS s 0xA1
      else retire s (ageless w s.cur.path) := by
  have hmod : modEntry (ageless w s.cur.path) s.cur.path taking = modEntry w s.cur.path taking := by
    rw [modEntry, ageless, modPath_dstack, modEntry]
  rw [execJoin, onPath_live s w hw]
  dsimp only
  rw [if_neg (by simpa [actPath] using hd), popEntry_innermost hin, ← entryTarget_eq, ← hmod]
  rfl

/-- R106: JOIN of a path without an entry, its clauses completed. -/
theorem execJoin_noEntry {s : State} {w : Warp} (hw : actsOn s w) (hd : allDone s s.cur.warp s.cur.path (actPath s w) = true)
    (hno : noEntry w.dstack s.cur.path) :
    execJoin s =
      if w.div && w.recon = (actPath s w).pc then
        if (actPath s w).wait = .join || !mayClose s s.cur.warp s.cur.path (actPath s w) then stall s
        else .next (waitJoin (putWarp s s.cur.warp (ageless w s.cur.path)) s.cur.warp s.cur.path)
      else retire s (ageless w s.cur.path) := by
  rw [execJoin, onPath_live s w hw]
  dsimp only
  rw [if_neg (by simpa [actPath] using hd), popEntry_noEntry hno]
  rfl

theorem rejoined_path (s : State) (w : Warp) (stack : List DEntry) (f : W32 → W32) :
    actPath s (rejoined w s.cur.path stack f) = { actPath s w with
      age := agesCleared s w, k := ((actPath s w).withK0 (f (actPath s w).k0)).k } := by
  rw [actPath, rejoined, path_modPath, withStack_path, ageless, path_modPath]
  rfl

theorem rejoined_other (w : Warp) (pf : Bool) (stack : List DEntry) (f : W32 → W32) :
    (rejoined w pf stack f).path (!pf) = w.path (!pf) := by
  rw [rejoined, path_modPath_other, withStack_path, ageless, path_modPath_other]

theorem rejoined_frame (w : Warp) (pf : Bool) (stack : List DEntry) (f : W32 → W32) :
    { rejoined w pf stack f with a := w.a, b := w.b, dstack := w.dstack, nidem := w.nidem } = w := by
  cases pf <;> rfl

theorem divStep_rejoined_goto (s : State) (w : Warp) (stack : List DEntry) (f : W32 → W32) (pc : W64) :
    divStep s (putWarp s s.cur.warp (goto (rejoined w s.cur.path stack f) s.cur.path pc)) w (f (actPath s w).k0) stack
      (agesCleared s w) pc :=
  divStep_goto (rejoined_path ..) (fgetD_withK0 _ _) (rejoined_other ..) (modPath_dstack ..) (rejoined_frame ..)

theorem divStep_rejoined_retire (s : State) (w : Warp) (stack : List DEntry) (f : W32 → W32) :
    ∃ t, retire s (rejoined w s.cur.path stack f) = .next t ∧
      divStep s t w (f (actPath s w).k0) stack (agesCleared s w) (nextPc s w) :=
  divStep_retire (rejoined_path ..) (fgetD_withK0 _ _) (rejoined_other ..) (modPath_dstack ..) (rejoined_frame ..)

/-- R106: a JOIN that matches nothing. -/
theorem divStep_ageless_retire (s : State) (w : Warp) : ∃ t, retire s (ageless w s.cur.path) = .next t ∧
    divStep s t w (actPath s w).k0 w.dstack (agesCleared s w) (nextPc s w) := by
  refine divStep_retire (k := (actPath s w).k) (path_modPath ..) (fun r => ?_) (path_modPath_other ..) (modPath_dstack ..)
    (congrArg (fun x : Warp => { x with dstack := w.dstack, nidem := w.nidem }) (modPath_frame ..))
  split
  · rw [‹r = 0›]; rfl
  · rfl

end Sys2Proof.Machine

namespace Sys2Proof.Proofs

open Sys2Proof.Machine Sys2Proof.Claims

theorem joinEntries : JoinEntries := by
  intro s w e rest hw
  dsimp only
  refine ⟨fun hd => ?_, fun hd => ⟨fun hin hj hst => ?_, fun hin hj hst => ?_, fun hin hj ho => ?_, fun hin hj ho => ?_,
    fun hno hrec => ?_⟩⟩
  · rw [waits, exec_join, execJoin, onPath_live s w hw]
    exact if_pos (by simpa using hd)
  · have hmod := modEntry_innermost (f := taking) hin rfl
    rw [runs, exec_join, execJoin_entry hw hd hin, if_pos (by simp [hj, hst])]
    exact ⟨_, rfl, _, hmod.1, hmod.2, divStep_rejoined_goto ..⟩
  · rw [runs, exec_join, execJoin_entry hw hd hin, if_neg (by simp [hst]), if_pos hj]
    exact divStep_rejoined_retire s w rest fun _ => e.mask
  · refine trapS_live _ s w _ hw ?_
    rw [exec_join, execJoin_entry hw hd hin, if_neg (by simp [hj]), if_neg hj, if_pos ((openAt_iff ..).mpr ho)]
  · rw [runs, exec_join, execJoin_entry hw hd hin, if_neg (by simp [hj]), if_neg hj,
      if_neg fun h => ho ((openAt_iff ..).mp h)]
    exact divStep_ageless_retire s w
  · rw [runs, exec_join, execJoin_noEntry hw hd hno, if_neg (by simpa using hrec)]
    exact divStep_ageless_retire s w


theorem joinMerges : JoinMerges := by
  intro s w hw hdiv hrec hno hd hwait
  dsimp only
  have hexec : exec .join s = if !mayClose s s.cur.warp s.cur.path (actPath s w) then stall s
      else .next (waitJoin (putWarp s s.cur.warp (ageless w s.cur.path)) s.cur.warp s.cur.path) := by
    rw [exec_join, execJoin_noEntry hw hd hno, if_pos (by simp [hdiv, hrec]), hwait]
    rfl
  have halone (hclose : mayClose s s.cur.warp s.cur.path (actPath s w) = true)
      (hlive : (w.path (!s.cur.path)).live = true) (ho : (w.path (!s.cur.path)).wait = .none) : exec .join s =
        .next (putWarp (batchIssued s s.cur.warp s.cur.path w) s.cur.warp (atJoin w s.cur.path)) := by
    rw [hexec, if_neg (by simp [hclose]), waitJoin_alone hlive ho]
  have hboth (hclose : mayClose s s.cur.warp s.cur.path (actPath s w) = true)
      (ho : (w.path (!s.cur.path)).live = false ∨ (w.path (!s.cur.path)).wait = .join) : exec .join s =
        .next (putWarp (mergeOps (batchIssued s s.cur.warp s.cur.path w) s.cur.warp) s.cur.warp
          (mergeWarp (atJoin w s.cur.path) w.recon)) := by
    rw [hexec, if_neg (by simp [hclose]), waitJoin_both hdiv hw.2 ho]
  have hpath : actPath s (atJoin w s.cur.path) = _ := atJoin_path w s.cur.path
  have hframe := countedModPath_frame w s.cur.path fun p => { p with age := clearAge p.age, batch := [], wait := .join }
  have hkept : warpKept w (atJoin w s.cur.path) := (congrArg (fun x : Warp => { x with xs := w.xs }) hframe :)
  have hregs : (atJoin w s.cur.path).regs = w.regs := (congrArg Warp.regs hframe :)
  have hxs : (atJoin w s.cur.path).xs = w.xs := (congrArg Warp.xs hframe :)
  have hstack : (atJoin w s.cur.path).dstack = w.dstack := (congrArg Warp.dstack hframe :)
  have hlive : ((atJoin w s.cur.path).path s.cur.path).live = true :=
    (congrArg Path.live (atJoin_path w s.cur.path)).trans hw.2
  obtain ⟨halive, hapc, haage⟩ := mergeWarp_whole hlive w.recon
  refine ⟨fun hb hn => ?_, fun hb hn holive ho => ?_, fun hb hn ho => ?_, fun hb holive => ?_, fun hb holive ho => ?_,
    fun hb holive ho => ?_⟩
  · exact hexec.trans (if_pos (by simp [mayClose_full hb hn]))
  · refine ⟨_, halone (mayClose_room hn) holive ho, _, fget_putWarp .., ?_, ?_, ?_, atJoin_other .., ?_, hkept⟩
    · refine batchClosed_of_ops (g := id) hb (List.map_id _).symm (fun o => ⟨rfl, rfl, rfl⟩) rfl (batchIssued_mem ..) ?_
      rw [hpath]
    · rw [hpath]
    · rw [hpath]; rfl
    · exact (congrArg Warp.div hkept :).trans hdiv
  · refine ⟨_, hboth (mayClose_room hn) ho, _, fget_putWarp .., ?_, rfl, halive, rfl, hapc⟩
    refine batchClosed_of_ops (g := mergeOp s.cur.warp) hb rfl (mergeOp_keeps _) rfl (batchIssued_mem ..) ?_
    exact mergeWarp_batch hlive (congrArg Path.batch (atJoin_path w s.cur.path)) _
  · have h := hboth (mayClose_empty hb) (.inl holive)
    rw [batchIssued_of_empty hb] at h
    obtain ⟨hk0, hk, hx⟩ := mergeWarp_atJoin_alone hw.2 holive w.recon
    exact ⟨_, h, _, rfl, rfl, halive, rfl, hapc, hk0, hk, hx, haage, hregs, hxs, hstack⟩
  · have h := halone (mayClose_empty hb) holive ho
    rw [batchIssued_of_empty hb] at h
    refine ⟨_, h, _, rfl, ?_, ?_, atJoin_other .., ?_, hkept⟩
    · rw [hpath]
    · rw [hpath]; rfl
    · exact (congrArg Warp.div hkept :).trans hdiv
  · have h := hboth (mayClose_empty hb) (.inr ho)
    rw [batchIssued_of_empty hb] at h
    obtain ⟨hk0, hx, hk⟩ := mergeWarp_atJoin_both (pf := s.cur.path) (live_both hw.2 holive) w.recon
    exact ⟨_, h, _, rfl, rfl, halive, rfl, hapc, hk0, hx, hk, haage, hregs, hxs, hstack⟩

/-- Settles O9: JOIN of a path with an entry (`execJoin_entry`) works on the stack, and one without (`execJoin_noEntry`) waits
at the reconvergence JOIN (`waitJoin_alone`) or merges (`waitJoin_both`). -/
theorem joins : Obligations.Joins := by
  unfold Obligations.Joins
  exact ⟨joinEntries, joinMerges⟩

end Sys2Proof.Proofs

/-! # EXIT (O10) -/

namespace Sys2Proof.Machine

open Sys2Proof.Claims

/-! ## The entries of a path that exits (R109) -/

/-- R109: an entry of the path loses the lanes that end. -/
def lanesLeft (pf : Bool) (gone : W32) (e : DEntry) : DEntry :=
  if e.path = pf then { e with mask := e.mask &&& ~~~gone } else e

/-- R109: what takes over when lanes of a path end, and the stack that is left, innermost first. -/
def takeover (w : Warp) (pf : Bool) : Option (DEntry × Bool) × List DEntry :=
  exitLoop pf (w.dstack.map (lanesLeft pf (w.path pf).k0)).reverse

theorem lanesLeft_path (pf : Bool) (gone : W32) (e : DEntry) : (lanesLeft pf gone e).path = e.path := by
  unfold lanesLeft
  split <;> rfl

theorem lanesLeft_state (pf : Bool) (gone : W32) (e : DEntry) : (lanesLeft pf gone e).state = e.state := by
  unfold lanesLeft
  split <;> rfl

theorem lanesLeft_jaddr (pf : Bool) (gone : W32) (e : DEntry) : (lanesLeft pf gone e).jaddr = e.jaddr := by
  unfold lanesLeft
  split <;> rfl

theorem takenTarget_lanesLeft (pf : Bool) (gone : W32) (e : DEntry) : takenTarget (lanesLeft pf gone e) = takenTarget e := by
  unfold lanesLeft
  split <;> rfl

theorem noEntry_lanesLeft {stack : List DEntry} {pf : Bool} (h : noEntry stack pf) (gone : W32) :
    noEntry (stack.map (lanesLeft pf gone)) pf := by
  intro x hx
  obtain ⟨y, hy, rfl⟩ := List.mem_map.mp hx
  rw [lanesLeft_path]
  exact h y hy

theorem map_lanesLeft_of_noEntry {stack : List DEntry} {pf : Bool} (h : noEntry stack pf) (gone : W32) :
    stack.map (lanesLeft pf gone) = stack :=
  (List.map_congr_left fun x hx => if_neg (h x hx)).trans (List.map_id _)

theorem exitLoop_skip {pf : Bool} {l : List DEntry} (hl : ∀ x ∈ l, x.path ≠ pf) (r : List DEntry) :
    exitLoop pf (l ++ r) = ((exitLoop pf r).1, l ++ (exitLoop pf r).2) := by
  induction l with
  | nil => rfl
  | cons x l ih =>
    obtain ⟨hx, hl⟩ := List.forall_mem_cons.mp hl
    simp only [List.cons_append, exitLoop, if_pos hx, ih hl]

/-- The loop reaches the innermost entry of the path. -/
theorem takeover_cons {w : Warp} {pf : Bool} {e : DEntry} {pre post : List DEntry} (hstack : w.dstack = pre ++ e :: post)
    (hpost : noEntry post pf) :
    let left := lanesLeft pf (w.path pf).k0
    let found := exitLoop pf (left e :: (pre.map left).reverse)
    takeover w pf = (found.1, (post.map left).reverse ++ found.2) := by
  have hskip : ∀ x ∈ (post.map (lanesLeft pf (w.path pf).k0)).reverse, x.path ≠ pf :=
    fun x hx => noEntry_lanesLeft hpost _ x (List.mem_reverse.mp hx)
  dsimp only
  rw [← exitLoop_skip hskip, takeover, hstack]
  simp

theorem takeover_noEntry {w : Warp} {pf : Bool} (h : noEntry w.dstack pf) : takeover w pf = (none, w.dstack.reverse) := by
  have hskip := exitLoop_skip (pf := pf) (fun x hx => h x (List.mem_reverse.mp hx)) []
  rw [List.append_nil] at hskip
  rw [takeover, map_lanesLeft_of_noEntry h, hskip, exitLoop, List.append_nil]

/-- R109: an entry in its first state has its lanes take over. -/
theorem takeover_first {w : Warp} {pf : Bool} {e : DEntry} {rest : List DEntry} (h : innermost w.dstack pf e rest)
    (hst : e.state = false) :
    let left := lanesLeft pf (w.path pf).k0
    ∃ stack, takeover w pf = (some (left e, false), stack.reverse) ∧ stack.length = w.dstack.length ∧
      innermost stack pf (taking (left e)) (rest.map left) := by
  obtain ⟨pre, post, hstack, rfl, he, hpost⟩ := h
  intro left
  refine ⟨pre.map left ++ taking (left e) :: post.map left, ?_, by simp [hstack], pre.map left, post.map left, rfl,
    List.map_append, (lanesLeft_path ..).trans he, noEntry_lanesLeft hpost _⟩
  have hloop : exitLoop pf (left e :: (pre.map left).reverse) = (some (left e, false), taking (left e) :: (pre.map left).reverse) := by
    rw [exitLoop, if_neg (not_not_intro ((lanesLeft_path ..).trans he)), if_pos (by simp [left, lanesLeft_state, hst])]
    rfl
  rw [takeover_cons hstack hpost, hloop]
  simp [left]

/-- R109: an entry in its second state restores its lanes and leaves the stack. -/
theorem takeover_second {w : Warp} {pf : Bool} {e : DEntry} {rest : List DEntry} (h : innermost w.dstack pf e rest)
    (hst : e.state = true) (hm : (lanesLeft pf (w.path pf).k0 e).mask ≠ 0) :
    let left := lanesLeft pf (w.path pf).k0
    takeover w pf = (some (left e, true), (rest.map left).reverse) := by
  obtain ⟨pre, post, hstack, rfl, he, hpost⟩ := h
  intro left
  have hloop : exitLoop pf (left e :: (pre.map left).reverse) = (some (left e, true), (pre.map left).reverse) := by
    rw [exitLoop, if_neg (not_not_intro ((lanesLeft_path ..).trans he)), if_neg (by simp [left, lanesLeft_state, hst]), if_pos hm]
  rw [takeover_cons hstack hpost, hloop]
  simp [left]

/-- R109: an entry without lanes left is as if it were not there. -/
theorem takeover_popped {w : Warp} {pf : Bool} {e : DEntry} {rest : List DEntry} (h : innermost w.dstack pf e rest)
    (hst : e.state = true) (hm : (lanesLeft pf (w.path pf).k0 e).mask = 0) :
    takeover w pf = takeover { w with dstack := rest } pf := by
  obtain ⟨pre, post, hstack, rfl, he, hpost⟩ := h
  have hskip : ∀ x ∈ (post.map (lanesLeft pf (w.path pf).k0)).reverse, x.path ≠ pf :=
    fun x hx => noEntry_lanesLeft hpost _ x (List.mem_reverse.mp hx)
  have hloop : exitLoop pf (lanesLeft pf (w.path pf).k0 e :: (pre.map (lanesLeft pf (w.path pf).k0)).reverse) =
      exitLoop pf (pre.map (lanesLeft pf (w.path pf).k0)).reverse := by
    rw [exitLoop, if_neg (not_not_intro ((lanesLeft_path ..).trans he)), if_neg (by simp [lanesLeft_state, hst]),
      if_neg (not_not_intro hm)]
  rw [takeover_cons hstack hpost, hloop, ← exitLoop_skip hskip, takeover, withStack_path w (pre ++ post) pf]
  simp

/-! ## The warp after EXIT -/

/-- R98, R109: a warp whose path changes by f, with the entries that are left and the region ended. -/
def leaving (w : Warp) (pf : Bool) (stack : List DEntry) (f : Path → Path) : Warp :=
  countIssue { w.modPath pf f with dstack := stack, nidem := true }

/-- R109: a path that ends. -/
def endedPath (p : Path) : Path := ({ p with batch := [], live := false, queue := [], wait := .none } : Path).withK0 0

/-- R109: the last path of a warp stops issuing. -/
def waitingExit (p : Path) : Path := { p with batch := [], wait := .exit }

theorem leaving_path (w : Warp) (pf : Bool) (stack : List DEntry) (f : Path → Path) :
    (leaving w pf stack f).path pf = f (w.path pf) := by
  rw [leaving, countIssue_path]
  cases pf <;> rfl

theorem leaving_other (w : Warp) (pf : Bool) (stack : List DEntry) (f : Path → Path) :
    (leaving w pf stack f).path (!pf) = w.path (!pf) := by
  rw [leaving, countIssue_path]
  cases pf <;> rfl

theorem leaving_frame (w : Warp) (pf : Bool) (stack : List DEntry) (f : Path → Path) :
    { leaving w pf stack f with a := w.a, b := w.b, wdc := w.wdc } = { w with dstack := stack, nidem := true } := by
  rw [leaving, countIssue_frame]
  cases pf <;> rfl

theorem leaving_withStack (w : Warp) (pf : Bool) (stack stack' : List DEntry) (f : Path → Path) :
    leaving { w with dstack := stack' } pf stack f = leaving w pf stack f := by
  cases pf <;> rfl

theorem batchIssued_withStack (s : State) (u : Nat) (pf : Bool) (w : Warp) (stack : List DEntry) :
    batchIssued s u pf { w with dstack := stack } = batchIssued s u pf w := by
  cases pf <;> rfl

/-- R109, R179: an open batch closes as the path leaves. -/
theorem modWarp_closeBatch_leaving {s : State} {u : Nat} {pf : Bool} {w : Warp} (stack : List DEntry) (f g : Path → Path)
    (hg : ∀ p, g p = f { p with batch := [] }) :
    modWarp (closeBatch (putWarp s u (endRegion w)) u pf) u (fun w => countIssue { w.modPath pf f with dstack := stack }) =
      putWarp (batchIssued s u pf w) u (leaving w pf stack g) := by
  have hw : countIssue { (batchless (endRegion w) pf).modPath pf f with dstack := stack } = leaving w pf stack g := by
    rw [batchless, modPath_modPath, leaving, funext hg]
    cases pf <;> rfl
  have hb : batchIssued s u pf (endRegion w) = batchIssued s u pf w := by cases pf <;> rfl
  rw [modWarp_closeBatch (fget_putWarp ..), putWarp_batchIssued_putWarp, hb, hw]

/-! ## EXIT (R109) -/

/-- R109: the warp whose next lanes take over. -/
def retaken (w : Warp) (pf : Bool) (stack : List DEntry) (m : W32) : Warp :=
  ({ w with dstack := stack, nidem := true } : Warp).modPath pf fun p => p.withK0 m

theorem divStep_retaken_goto (s : State) (w : Warp) (stack : List DEntry) (m : W32) (pc : W64) :
    divStep s (putWarp s s.cur.warp (goto (retaken w s.cur.path stack m) s.cur.path pc)) w m stack (actPath s w).age pc := by
  have hpath : actPath s (retaken w s.cur.path stack m) = (actPath s w).withK0 m := by
    simp only [actPath, retaken, path_modPath]
    cases s.cur.path <;> rfl
  refine divStep_goto hpath (fgetD_withK0 _ _) ?_ (modPath_dstack ..) ?_
  · rw [retaken, path_modPath_other]
    cases s.cur.path <;> rfl
  · cases s.cur.path <;> rfl

theorem execExit_found {s : State} {w : Warp} {e : DEntry} {second : Bool} {rest : List DEntry} (hw : actsOn s w)
    (h : takeover w s.cur.path = (some (e, second), rest.reverse)) :
    execExit s = .next (putWarp s s.cur.warp (goto (retaken w s.cur.path rest e.mask) s.cur.path
      (if second then e.jaddr + 4 else takenTarget e))) := by
  have hloop : exitLoop s.cur.path (w.dstack.map fun x => if x.path = s.cur.path
      then { x with mask := x.mask &&& ~~~(actPath s w).k0 } else x).reverse = (some (e, second), rest.reverse) := h
  rw [execExit, onPath_live s w hw, ← entryTarget_eq]
  simp only [hloop, List.reverse_reverse]
  rfl

theorem execExit_none {s : State} {w : Warp} {rest : List DEntry} (hw : actsOn s w)
    (h : takeover w s.cur.path = (none, rest.reverse)) :
    execExit s =
      if w.div then
        if !allDone s s.cur.warp s.cur.path (actPath s w) || !mayClose s s.cur.warp s.cur.path (actPath s w) then stall s
        else .next (breakBarrier (tryMerge (putWarp (batchIssued s s.cur.warp s.cur.path w) s.cur.warp
          (leaving w s.cur.path rest endedPath)) s.cur.warp) s.cur.warp (!s.cur.path))
      else if (actPath s w).wait = .exit || !allDone s s.cur.warp s.cur.path (actPath s w) ||
          !mayClose s s.cur.warp s.cur.path (actPath s w) then stall s
      else .next (putWarp (batchIssued s s.cur.warp s.cur.path w) s.cur.warp (leaving w s.cur.path rest waitingExit)) := by
  have hloop : exitLoop s.cur.path (w.dstack.map fun x => if x.path = s.cur.path
      then { x with mask := x.mask &&& ~~~(actPath s w).k0 } else x).reverse = (none, rest.reverse) := h
  rw [execExit, onPath_live s w hw]
  simp only [hloop, List.reverse_reverse, endPath]
  rw [modWarp_closeBatch_leaving _ _ endedPath fun p => rfl, modWarp_closeBatch_leaving _ _ waitingExit fun p => rfl]

/-- R109: a path of a diverged warp ends while the other one runs on. -/
theorem execExit_ends {s : State} {w : Warp} (hw : actsOn s w) (hno : noEntry w.dstack s.cur.path) (hdiv : w.div = true)
    (hd : allDone s s.cur.warp s.cur.path (actPath s w) = true)
    (hclose : mayClose s s.cur.warp s.cur.path (actPath s w) = true) (hlive : (w.path (!s.cur.path)).live = true)
    (hwait : (w.path (!s.cur.path)).wait = .none) :
    execExit s = .next (putWarp (batchIssued s s.cur.warp s.cur.path w) s.cur.warp
      (leaving w s.cur.path w.dstack endedPath)) := by
  rw [← leaving_other w s.cur.path w.dstack endedPath] at hlive hwait
  rw [execExit_none hw (takeover_noEntry hno), if_pos hdiv, if_neg (by simp [hd, hclose]), tryMerge_alone hlive hwait,
    breakBarrier_of_none hwait]

/-- R109: the last path of a warp stops issuing. -/
theorem execExit_last {s : State} {w : Warp} (hw : actsOn s w) (hno : noEntry w.dstack s.cur.path) (hdiv : w.div = false)
    (hd : allDone s s.cur.warp s.cur.path (actPath s w) = true)
    (hclose : mayClose s s.cur.warp s.cur.path (actPath s w) = true) (hwait : (actPath s w).wait = .none) :
    execExit s = .next (putWarp (batchIssued s s.cur.warp s.cur.path w) s.cur.warp
      (leaving w s.cur.path w.dstack waitingExit)) := by
  rw [execExit_none hw (takeover_noEntry hno), if_neg (ne_true_of_eq_false hdiv), if_neg (by simp [hd, hclose, hwait])]

/-- R109: a path that has to wait for its clauses or for room for its batch. -/
theorem execExit_stalls {s : State} {w : Warp} (hw : actsOn s w) (hno : noEntry w.dstack s.cur.path)
    (h : allDone s s.cur.warp s.cur.path (actPath s w) = false ∨ mayClose s s.cur.warp s.cur.path (actPath s w) = false) :
    execExit s = .next s := by
  rw [execExit_none hw (takeover_noEntry hno)]
  split
  · exact if_pos (by simpa using h)
  · exact if_pos (by rcases h with h | h <;> simp [h])

/-- R109: a warp without a used-up entry exits like the warp with it, unless it has to wait. -/
theorem execExit_popped {s : State} {w : Warp} {e : DEntry} {rest : List DEntry} (hw : actsOn s w)
    (h : innermost w.dstack s.cur.path e rest) (hst : e.state = true)
    (hm : (lanesLeft s.cur.path (actPath s w).k0 e).mask = 0) :
    let popped := putWarp s s.cur.warp { w with dstack := rest }
    execExit popped ≠ .next popped → execExit s = execExit popped := by
  intro popped hwaits
  have hw' : actsOn popped { w with dstack := rest } :=
    ⟨fget_putWarp .., (congrArg Path.live (withStack_path w rest s.cur.path)).trans hw.2⟩
  have htake := takeover_popped h hst hm
  have hpath : actPath popped { w with dstack := rest } = actPath s w := withStack_path w rest s.cur.path
  have hput (x : Warp) : putWarp (batchIssued popped popped.cur.warp popped.cur.path { w with dstack := rest })
      popped.cur.warp x = putWarp (batchIssued s s.cur.warp s.cur.path w) s.cur.warp x := by
    exact (putWarp_batchIssued_putWarp ..).trans (congrArg (putWarp · s.cur.warp x) (batchIssued_withStack ..))
  rcases htaken : takeover w s.cur.path with ⟨found, left⟩
  rw [← left.reverse_reverse] at htaken
  have htaken' : takeover { w with dstack := rest } popped.cur.path = _ := htake.symm.trans htaken
  rcases found with _ | ⟨e', second⟩
  · have hexec := execExit_none hw htaken
    have hexec' := execExit_none hw' htaken'
    rw [hpath, leaving_withStack w _ _ rest endedPath, leaving_withStack w _ _ rest waitingExit, hput, hput] at hexec'
    by_cases hdiv : w.div = true
    · rw [if_pos hdiv] at hexec hexec'
      by_cases hstall : (!allDone s s.cur.warp s.cur.path (actPath s w) || !mayClose s s.cur.warp s.cur.path (actPath s w)) = true
      · exact absurd (hexec'.trans (if_pos hstall)) hwaits
      · exact (hexec.trans (if_neg hstall)).trans (hexec'.trans (if_neg hstall)).symm
    · rw [if_neg hdiv] at hexec hexec'
      by_cases hstall : ((actPath s w).wait = .exit || !allDone s s.cur.warp s.cur.path (actPath s w) ||
          !mayClose s s.cur.warp s.cur.path (actPath s w)) = true
      · exact absurd (hexec'.trans (if_pos hstall)) hwaits
      · exact (hexec.trans (if_neg hstall)).trans (hexec'.trans (if_neg hstall)).symm
  · have hretaken : retaken { w with dstack := rest } s.cur.path left.reverse e'.mask = retaken w s.cur.path left.reverse e'.mask := by
      cases s.cur.path <;> rfl
    rw [execExit_found hw htaken, execExit_found hw' htaken']
    exact congrArg Host.Outcome.next ((congrArg (fun x => putWarp s s.cur.warp (goto x s.cur.path _)) hretaken.symm).trans
      (putWarp_putWarp ..).symm)

end Sys2Proof.Machine

namespace Sys2Proof.Proofs

open Sys2Proof.Machine Sys2Proof.Claims

/-- Settles O10: what takes over (`takeover`) is the innermost entry, in its first or its second state, or nothing; then the path
ends (`execExit_ends`) or the warp stops issuing (`execExit_last`), with its open batch closed. -/
theorem exitLanes : Obligations.ExitLanes := by
  unfold Obligations.ExitLanes
  intro s w e rest hw
  dsimp only
  refine ⟨fun hin hst => ?_, fun hin hst hm => ?_, execExit_popped hw, fun hno hb hn => ?_,
    fun hno hb hn hd => ⟨fun hdiv hlive hwait => ?_, fun hdiv hwait => ?_⟩, fun hno hdiv hd => ?_,
    fun hno hdiv hd hb hlive hwait => ?_, fun hno hdiv hd => ?_, fun hno hdiv hd hwait hb => ?_⟩
  · obtain ⟨stack, htake, hlen, hinner⟩ := takeover_first hin hst
    refine ⟨_, execExit_found hw htake, stack, hlen, hinner, ?_⟩
    rw [if_neg (by decide), takenTarget_lanesLeft]
    exact divStep_retaken_goto ..
  · refine ⟨_, execExit_found hw (takeover_second hin hst hm), ?_⟩
    rw [if_pos rfl, lanesLeft_jaddr]
    exact divStep_retaken_goto ..
  · exact execExit_stalls hw hno (.inr (mayClose_full hb hn))
  · have hframe := leaving_frame w s.cur.path w.dstack endedPath
    have hpath := leaving_path w s.cur.path w.dstack endedPath
    refine ⟨_, execExit_ends hw hno hdiv hd (mayClose_room hn) hlive hwait, _, fget_putWarp .., ?_,
      (congrArg Path.live hpath :), leaving_other .., (congrArg Warp.div hframe :).trans hdiv, (congrArg Warp.nidem hframe :)⟩
    exact batchClosed_of_ops (g := id) hb (List.map_id _).symm (fun o => ⟨rfl, rfl, rfl⟩) rfl (batchIssued_mem ..)
      (congrArg Path.batch hpath :)
  · have hframe := leaving_frame w s.cur.path w.dstack waitingExit
    have hpath := leaving_path w s.cur.path w.dstack waitingExit
    refine ⟨_, execExit_last hw hno hdiv hd (mayClose_room hn) hwait, _, fget_putWarp .., ?_,
      (congrArg Path.wait hpath :), (congrArg Warp.nidem hframe :), (congrArg Path.pc hpath :), (congrArg Path.x hpath :)⟩
    exact batchClosed_of_ops (g := id) hb (List.map_id _).symm (fun o => ⟨rfl, rfl, rfl⟩) rfl (batchIssued_mem ..)
      (congrArg Path.batch hpath :)
  · exact execExit_stalls hw hno (.inl hd)
  · have hframe := leaving_frame w s.cur.path w.dstack endedPath
    have hpath := leaving_path w s.cur.path w.dstack endedPath
    have hexec := execExit_ends hw hno hdiv hd (mayClose_empty hb) hlive hwait
    rw [batchIssued_of_empty hb] at hexec
    exact ⟨_, hexec, _, rfl, (congrArg Path.live hpath :), (congrArg Warp.div hframe :).trans hdiv, leaving_other ..,
      (congrArg Warp.dstack hframe :), (congrArg Warp.nidem hframe :), (congrArg Warp.regs hframe :)⟩
  · exact execExit_stalls hw hno (.inl hd)
  · have hframe := leaving_frame w s.cur.path w.dstack waitingExit
    have hpath := leaving_path w s.cur.path w.dstack waitingExit
    have hexec := execExit_last hw hno hdiv hd (mayClose_empty hb) hwait
    rw [batchIssued_of_empty hb] at hexec
    exact ⟨_, hexec, _, rfl, (congrArg Path.wait hpath :), (congrArg Warp.nidem hframe :), (congrArg Path.k hpath :),
      (congrArg Path.x hpath :), (congrArg Path.pc hpath :), (congrArg Warp.regs hframe :), (congrArg Warp.xs hframe :)⟩

end Sys2Proof.Proofs

/-! # Launches from the device: LAUNCH (O19) -/

namespace Sys2Proof.Machine

open Sys2Proof.Claims

/-! ## Reading a structure of this module -/

/-- R401: pieces of memory that lie on this module are read where they lie. -/
theorem farPieces_local {s : State} {w : Warp} {l : List Nat} (fn tag n : Nat) (hw : fget s.warps s.cur.warp = some w)
    (hl : ∀ x ∈ l, isLocal x = true) :
    farPieces s fn tag (Reader.of s.cur.warp s.cur.path) (l.map fun a => (a, n)) =
      .ok s (l.flatMap fun x => rdBytes s.mem (fromCopy s w.die x) n) (l.any fun x => poisonedIn s.pois (fromCopy s w.die x) n) := by
  have hat : readerAt s (Reader.of s.cur.warp s.cur.path) = fromCopy s w.die := by
    funext a; simp [readerAt, Reader.of, hw]
  have hnone : ((l.map fun a => (a, n)).flatMap fun e => if isLocal e.1 then [] else granulesOf e.1 e.2) = [] := by
    simpa [List.flatMap_map] using fun a ha h => absurd (hl a ha) (by simp [h])
  simp only [farPieces, hnone, hat, List.isEmpty_nil, if_true, List.flatMap_map, List.any_map]
  rfl

/-- R262: a structure waits for the path's accesses to its granules. -/
theorem withBytes_pending {s : State} {w : Warp} {q : XReq} {va n : Nat} {k : State → List Byte → Out} {l : List Nat}
    (hx : xlateAll s q ((List.range (n / 64)).map fun i => va + 64 * i) = .ok l)
    (hp : ∃ x ∈ l, bytesOut s s.cur.warp s.cur.path false w.block x 64 = true) : withBytes s w q va n k = stall s := by
  simp only [withBytes, hx]
  exact if_pos (List.any_eq_true.mpr hp)

/-- R152, R262: a structure of this module is read at its home, and poison in it is consumed. -/
theorem withBytes_local {s : State} {w : Warp} {q : XReq} {va n : Nat} {k : State → List Byte → Out} {l : List Nat}
    (hw : fget s.warps s.cur.warp = some w) (hx : xlateAll s q ((List.range (n / 64)).map fun i => va + 64 * i) = .ok l)
    (hp : ¬∃ x ∈ l, bytesOut s s.cur.warp s.cur.path false w.block x 64 = true) (hl : ∀ x ∈ l, isLocal x = true) :
    withBytes s w q va n k =
      if l.any fun x => poisonedIn s.pois (fromCopy s w.die x) 64 then trapS s 0x120
      else k (readHome s (coreKey w) l) (l.flatMap fun x => rdBytes s.mem (fromCopy s w.die x) 64) := by
  have hfree : ¬(l.any fun a => bytesOut s s.cur.warp s.cur.path false w.block a 64) = true :=
    fun h => hp (List.any_eq_true.mp h)
  simp only [withBytes, hx, if_neg hfree, farPieces_local _ _ _ hw hl]

/-- R262: what a core holds of some granules is forgotten; nothing else changes but the marks of its loads. -/
theorem readHome_frame (s : State) (core : Nat) (l : List Nat) :
    readHome s core l = { s with cores := (readHome s core l).cores, ops := (readHome s core l).ops } := by
  induction l generalizing s with
  | nil => rfl
  | cons a r ih => exact ih (l1Forget s core (granule a))

/-! ## LAUNCH (R117) -/

/-- A write of a scalar register as a region ends (R98). -/
theorem endRegion_wx (w : Warp) (pf : Bool) (d : Nat) (v : W64) : endRegion (wx w pf d v) = wx (endRegion w) pf d v := by
  have hpriv : ((endRegion w).path pf).priv = (w.path pf).priv := by cases pf <;> rfl
  rw [wx_eq, wx_eq, hpriv]
  split
  · rfl
  · split <;> cases pf <;> rfl

/-- R117: the warp whose path no longer holds a record. -/
def recordless (w : Warp) (pf : Bool) : Warp := { w.setPath pf { w.path pf with read := none } with nidem := true }

theorem recordless_path (w : Warp) (pf : Bool) : (recordless w pf).path pf = { w.path pf with read := none } := by
  cases pf <;> rfl

/-- R117: the launch that a LAUNCH enqueues. -/
def queuedLaunch (s : State) (fn id : Nat) (r : LaunchRec) : Launch :=
  { id := BitVec.ofNat 64 id, fn := fn, dev := true, lrec := r, sub := s.next, xd := funcXlate s fn, st := .queued, cause := 0,
    gate := [], placedN := [], back := [], endedN := 0, tadm := 0, recWritten := false, recWaits := false, lbars := [] }

/-- R117: the state with a device launch on its function's queue. -/
def launched (s : State) (fn seq id : Nat) (r : LaunchRec) : State :=
  modFunc { s with launches := fput s.launches s.next (queuedLaunch s fn id r), next := s.next + 1 } fn
    fun f => { f with devSeq := seq + 1 }

/-- R117: a record is enqueued, or the path holds it until the function has a place. -/
theorem launchRead_eq {s : State} {w : Warp} {d seq : Nat} {b : List Byte} (hw : actsOn s w) :
    launchRead d seq s b =
      if 1024 ≤ devQueued s w.fn then
        if (actPath s w).read.isSome then stall s
        else .next (putWarp s s.cur.warp (w.setPath s.cur.path { actPath s w with read := some b }))
      else
        let r := callerRec s w (actPath s w) (parseRec b)
        let id := r.tag * 2 ^ 48 + seq
        retire (launched s w.fn seq id r) (wx (recordless w s.cur.path) s.cur.path d (BitVec.ofNat 64 id)) := by
  rw [launchRead, onPath_live s w hw]
  dsimp only
  rw [endRegion_wx]
  rfl

/-- R117: a function with a place takes the record under a new identifier. -/
theorem launchRead_room {s : State} {w : Warp} {d : Nat} {f : Func} {l : Launch} {b : List Byte} (hw : actsOn s w)
    (hf : fget s.funcs w.fn = some f) (hl : warpLaunch s w = some l) (hroom : devQueued s w.fn < 1024) :
    ∃ t, launchRead d f.devSeq s b = .next t ∧ ∃ q : Launch,
      let id := BitVec.ofNat 64 (q.lrec.tag * 2 ^ 48 + f.devSeq)
      q.id = id ∧ q.fn = w.fn ∧ q.dev = true ∧ q.st = .queued ∧
      ((actPath s w).priv ≠ 0 → q.lrec = parseRec b) ∧
      ((actPath s w).priv = 0 → q.lrec = { parseRec b with tag := w.reqtag, prio := min (parseRec b).prio l.lrec.prio }) ∧
      t.launches = fput s.launches s.next q ∧ t.next = s.next + 1 ∧
      (fget t.funcs w.fn).map (·.devSeq) = some (f.devSeq + 1) ∧
      scalarStep { s with launches := t.launches, next := t.next, funcs := t.funcs } t (recordless w s.cur.path) d id
        (nextPc s w) := by
  let r := callerRec s w (actPath s w) (parseRec b)
  let id := r.tag * 2 ^ 48 + f.devSeq
  obtain ⟨t, ht, hstep⟩ := retire_wx (launched s w.fn f.devSeq id r) (recordless w s.cur.path) d (BitVec.ofNat 64 id)
  have hput : ∃ w', t = putWarp (launched s w.fn f.devSeq id r) s.cur.warp w' := by
    obtain ⟨w', ⟨hput, _⟩, _⟩ := hstep
    exact ⟨w', hput⟩
  obtain ⟨w', rfl⟩ := hput
  have hpc : nextPc (launched s w.fn f.devSeq id r) (recordless w s.cur.path) = nextPc s w :=
    (congrArg (fun p : Path => p.pc + 4) (recordless_path w s.cur.path) :)
  rw [hpc] at hstep
  refine ⟨_, ?_, queuedLaunch s w.fn id r, rfl, rfl, rfl, rfl, fun hp => if_neg hp, fun hp => ?_, rfl, rfl, ?_, hstep⟩
  · rw [launchRead_eq hw, if_neg (Nat.not_le.mpr hroom)]
    exact ht
  · exact (if_pos hp).trans (by rw [hl]; rfl)
  · refine (congrArg (Option.map Func.devSeq) (fget_fmod ..)).trans ?_
    rw [if_pos rfl]
    exact congrArg (fun o : Option Func => (o.map fun f' => { f' with devSeq := f.devSeq + 1 }).map Func.devSeq) hf

/-- R117: LAUNCH waits for what the path has issued. -/
theorem launchWaits_iff (a b c : Bool) : (!a || b || !c) = true ↔ ¬(a = true ∧ b = false ∧ c = true) := by
  cases a <;> cases b <;> simp

/-- R117: LAUNCH on a live path: its checks, the record that the path holds already, and the read of the record. -/
theorem execLaunch_eq {s : State} {w : Warp} {d a : Nat} {f : Func} (hw : actsOn s w) (hf : fget s.funcs w.fn = some f) :
    execLaunch d a s =
      if (rx w s.cur.path a).toNat % 64 ≠ 0 then trapS s 0x14E
      else if 2 ^ 47 - 1 < f.devSeq then trapS s 0x14D
      else (actPath s w).read.elim
        (if !allIssued (actPath s w) || acquireOut s s.cur.warp s.cur.path || !performedAll s s.cur.warp s.cur.path false
         then stall s
         else withBytes s w (warpReq s w ((actPath s w).priv == 0) .read none) (rx w s.cur.path a).toNat 192
           fun t b => launchRead d f.devSeq t b)
        fun b => launchRead d f.devSeq s b := by
  rw [execLaunch, onPath_live s w hw, hf]
  cases (actPath s w).read <;> rfl

end Sys2Proof.Machine

namespace Sys2Proof.Proofs

open Sys2Proof.Machine Sys2Proof.Claims

/-- Settles O19: LAUNCH is a chain of checks (`execLaunch_eq`), a read at the home (`withBytes_local`), which changes nothing of the
warp, the launches and the functions (`readHome_frame`), and the enqueueing (`launchRead_room`). -/
theorem deviceLaunch : Obligations.DeviceLaunch := by
  unfold Obligations.DeviceLaunch
  intro s w d a f l addrs hw hf hl
  dsimp only
  have hexec := execLaunch_eq (d := d) (a := a) hw hf
  rw [← exec_launch] at hexec
  refine ⟨fun hal => ?_, fun hal hseq => ?_, fun hal hseq hread => ?_, fun b hal hseq hread => ?_⟩
  · exact trapS_live _ s w _ hw (hexec.trans (if_pos hal))
  · rw [if_neg (not_not_intro hal), if_pos hseq] at hexec
    exact trapS_live _ s w _ hw hexec
  all_goals rw [if_neg (not_not_intro hal), if_neg (Nat.not_lt.mpr hseq), hread] at hexec; dsimp only [Option.elim] at hexec
  · refine ⟨fun hnot => hexec.trans (if_pos ((launchWaits_iff ..).mpr hnot)), fun hiss hready hx => ?_⟩
    rw [if_neg fun h => (launchWaits_iff ..).mp h ⟨hiss, hready⟩] at hexec
    refine ⟨fun hpend => hexec.trans (withBytes_pending hx hpend), fun hpend hloc => ?_⟩
    rw [withBytes_local hw.1 hx hpend hloc] at hexec
    refine ⟨fun hpois => trapS_live _ s w _ hw (hexec.trans (if_pos (List.any_eq_true.mpr hpois))), fun hpois hroom => ?_,
      fun hpois hroom => ?_⟩
    all_goals
      obtain ⟨cores, ops, hhome⟩ : ∃ cores ops, readHome s (coreKey w) addrs = { s with cores := cores, ops := ops } :=
        ⟨_, _, readHome_frame ..⟩
      rw [if_neg fun h => hpois (List.any_eq_true.mp h), hhome] at hexec
      rw [hhome]
    · rw [runs, hexec]
      exact launchRead_room (s := { s with cores := cores, ops := ops }) hw hf hl hroom
    · rw [launchRead_eq (s := { s with cores := cores, ops := ops }) hw] at hexec
      refine hexec.trans ((if_pos (Nat.not_lt.mp hroom)).trans (if_neg ?_))
      exact ne_true_of_eq_false (congrArg Option.isSome hread)
  · refine ⟨fun hroom => ?_, fun hroom => ?_⟩
    · rw [runs, hexec]
      exact launchRead_room hw hf hl hroom
    · rw [launchRead_eq hw, if_pos (Nat.not_lt.mp hroom), hread] at hexec
      exact hexec

end Sys2Proof.Proofs

/-! # Traps between instructions, and the end of a warp (O40) -/

namespace Sys2Proof.Machine

open Sys2Proof.Claims

/-! ## Translation does not look at the warps (R340) -/

section Frame

variable (s : State) (u : Nat) (w : Warp)

theorem tblLe_putWarp : tblLe (putWarp s u w) = tblLe s := rfl
theorem tblHere_putWarp : tblHere (putWarp s u w) = tblHere s := rfl
theorem homeNoSd_putWarp : homeNoSd (putWarp s u w) = homeNoSd s := rfl
theorem homeGone_putWarp : homeGone (putWarp s u w) = homeGone s := rfl
theorem pairOn_putWarp : pairOn (putWarp s u w) = pairOn s := rfl
theorem ptagOf_putWarp : ptagOf (putWarp s u w) = ptagOf s := rfl
theorem fromCopy_putWarp : fromCopy (putWarp s u w) = fromCopy s := rfl
theorem readLeaf_putWarp : readLeaf (putWarp s u w) = readLeaf s := rfl
theorem tlbHit_putWarp : tlbHit (putWarp s u w) = tlbHit s := rfl

theorem leafBad_putWarp : leafBad (putWarp s u w) = leafBad s := by
  unfold leafBad
  rw [homeNoSd_putWarp, homeGone_putWarp, pairOn_putWarp]

theorem stage2_putWarp : stage2 (putWarp s u w) = stage2 s := by
  unfold stage2
  rw [tblLe_putWarp, tblHere_putWarp, leafBad_putWarp]

theorem tableAddr_putWarp : tableAddr (putWarp s u w) = tableAddr s := by
  unfold tableAddr
  rw [stage2_putWarp]

theorem leafChecks_putWarp : leafChecks (putWarp s u w) = leafChecks s := by
  unfold leafChecks
  rw [stage2_putWarp, leafBad_putWarp, ptagOf_putWarp]

theorem findLeaf_putWarp : findLeaf (putWarp s u w) = findLeaf s := by
  unfold findLeaf
  rw [tableAddr_putWarp, tblLe_putWarp, tblHere_putWarp]

theorem translate_putWarp : translate (putWarp s u w) = translate s := by
  unfold translate walk
  rw [tlbHit_putWarp, findLeaf_putWarp, leafChecks_putWarp, readLeaf_putWarp]

end Frame

/-- R189: an entry of the handler table of a warp with other paths. -/
theorem handlerEntry_putWarp (s : State) (u : Nat) (w : Warp) (pf : Bool) (f : Path → Path) (cls : Nat) :
    handlerEntry (putWarp s u (w.modPath pf f)) (w.modPath pf f) cls = handlerEntry s w cls := by
  have hreq : warpReq (putWarp s u (w.modPath pf f)) (w.modPath pf f) false .read none = warpReq s w false .read none := by
    cases pf <;> rfl
  have hfn : (w.modPath pf f).fn = w.fn := by cases pf <;> rfl
  have hdie : (w.modPath pf f).die = w.die := by cases pf <;> rfl
  unfold handlerEntry
  rw [hreq, translate_putWarp, fromCopy_putWarp, hfn, hdie]
  rfl

/-- R84, R193: the record of a trap at its delivery keeps all but the address to resume at. -/
theorem delivered_frame (p : Path) (t : Trap) : delivered p t = { t with resume := (delivered p t).resume } := by
  unfold delivered
  split <;> rfl

theorem delivered_cause (p : Path) (t : Trap) : (delivered p t).cause = t.cause := by rw [delivered_frame]

/-- R190: a handler-table entry on this module is read at once. -/
theorem handlerRead_here {s : State} {u : Nat} {pf : Bool} {w : Warp} {t : Trap} {e : HEntry}
    (h : handlerEntry s w (t.cause / 16) = e) (he : e = .none ∨ ∃ pc lbase, e = .entry pc lbase) :
    handlerRead s u pf w t = (s, e) := by
  rcases he with rfl | ⟨pc, lbase, rfl⟩ <;> simp only [handlerRead, h]

/-- R192: a trap that may enter does, where the table has an entry for its class. -/
theorem enterTrap_entry {s : State} {u : Nat} {pf : Bool} {w : Warp} {t : Trap} {pc lbase : W64} (hw : fget s.warps u = some w)
    (hheld : trapsHeld w = false) (hpriv : (w.path pf).priv = 0) (hwaits : trapWaits w pf = false)
    (h : handlerEntry s w (t.cause / 16) = .entry pc lbase) :
    enterTrap s u pf t = putWarp s u (enterHandler w pf (delivered (w.path pf) t) pc lbase) := by
  have hread : handlerRead s u pf w (delivered (w.path pf) t) = _ :=
    handlerRead_here ((congrArg (fun c => handlerEntry s w (c / 16)) (delivered_cause ..)).trans h) (.inr ⟨pc, lbase, rfl⟩)
  simp only [enterTrap, hw, hheld, hpriv, hwaits, hread, Bool.false_eq_true, if_false, ne_eq, not_true_eq_false]

/-- R196: a trap that may enter takes the default action where the table has no entry. -/
theorem enterTrap_none {s : State} {u : Nat} {pf : Bool} {w : Warp} {t : Trap} (hw : fget s.warps u = some w)
    (hheld : trapsHeld w = false) (hpriv : (w.path pf).priv = 0) (hwaits : trapWaits w pf = false)
    (h : handlerEntry s w (t.cause / 16) = .none) : enterTrap s u pf t = defaultAction s u t.cause := by
  have hread : handlerRead s u pf w (delivered (w.path pf) t) = _ :=
    handlerRead_here ((congrArg (fun c => handlerEntry s w (c / 16)) (delivered_cause ..)).trans h) (.inl rfl)
  have hexec : enterTrap s u pf t = defaultAction s u (delivered (w.path pf) t).cause := by
    simp only [enterTrap, hw, hheld, hpriv, hwaits, hread, Bool.false_eq_true, if_false, ne_eq, not_true_eq_false]
  rw [hexec, delivered_cause]

/-- R194: a trap at supervisor level is a double fault. -/
theorem enterTrap_double {s : State} {u : Nat} {pf : Bool} {w : Warp} {t : Trap} (hw : fget s.warps u = some w)
    (hheld : trapsHeld w = false) (hpriv : (w.path pf).priv ≠ 0) :
    enterTrap s u pf t = doubleFault s u pf (delivered (w.path pf) t) w := by
  unfold enterTrap
  rw [hw]
  exact (if_neg (ne_true_of_eq_false hheld)).trans (if_pos hpriv)

/-- R192: a warp that runs takes its traps. -/
theorem trapsHeld_of_running {w : Warp} (hsave : w.saving = false) (hreload : w.reload = false)
    (hst : w.st = .ready ∨ w.st = .rink ∨ w.st = .blocked) : trapsHeld w = false := by
  rcases hst with h | h | h <;> simp [trapsHeld, hsave, hreload, h]

theorem resident_of_running {w : Warp} (hst : w.st = .ready ∨ w.st = .rink ∨ w.st = .blocked) : resident w = true := by
  rcases hst with h | h | h <;> rw [resident, h]

theorem trapWaits_free {w : Warp} {pf : Bool} (hpend : (w.path pf).pend = none) (hheld : (w.path (!pf)).held = none)
    (h : trapsHeld w = false) : trapWaits w pf = false := by
  simp [trapWaits, hpend, hheld, h]

/-! ## TRAP_ENTRY (R192) -/

/-- The warp with no trap pending on a path. -/
def unpended (w : Warp) (pf : Bool) : Warp := w.modPath pf fun p => { p with pend := none }

theorem unpended_path (w : Warp) (pf : Bool) : (unpended w pf).path pf = { w.path pf with pend := none } := path_modPath ..

theorem unpended_frame (w : Warp) (pf : Bool) : { unpended w pf with a := w.a, b := w.b } = w := modPath_frame ..

theorem execTrapEntry_eq {s : State} {u : Nat} {pf : Bool} {w : Warp} {tr : Trap} (hw : fget s.warps u = some w)
    (htr : (w.path pf).pend = some tr) (hst : w.st = .ready ∨ w.st = .rink ∨ w.st = .blocked)
    (hstop : (w.path pf).stopped = false) (hfirst : pf = true → w.a.pend = none) (hwaits : trapWaits (unpended w pf) pf = false) :
    execTrapEntry u pf s = .next (enterTrap (putWarp s u (unpended w pf)) u pf tr) := by
  have hb : (pf && w.a.pend.isSome) = false := by
    cases pf with
    | false => rfl
    | true => rw [hfirst rfl]; rfl
  rw [unpended] at hwaits
  simp only [execTrapEntry, hw, htr, resident_of_running hst, hstop, hb, hwaits]
  rfl

/-- R192, R193: the entry of a handler is the same whether the trap was pending on the path. -/
theorem tookTrap_of_unpended {w w' : Warp} {pf : Bool} {t : Trap} {pc lbase : W64}
    (h : tookTrap (unpended w pf) w' pf t pc lbase) : tookTrap w w' pf t pc lbase := by
  obtain ⟨hpriv, hpc, hlbase, hqueue, hpend, hwait, hage, hx, hk, hheld, h0, h1, h2, h3, h4, hrest, hother, hframe⟩ := h
  have hframe' := congrArg (fun x : Warp => { x with a := w.a, b := w.b }) hframe
  cases pf <;>
    exact ⟨hpriv, hpc, hlbase, hqueue, hpend, hwait, hage, hx, hk, hheld, h0, h1, h2, h3, h4, hrest, hother, hframe'⟩

/-! ## The warp in a handler (R192, R193) -/

section Handler

variable (w : Warp) (pf : Bool) (t : Trap) (pc lbase : W64)

theorem enterHandler_path : { (enterHandler w pf t pc lbase).path pf with held := (w.path pf).held, k := (w.path pf).k } =
    { w.path pf with pend := none, age := clearAge (w.path pf).age, priv := 1, lbase := lbase, pc := pc, queue := [],
                     wait := .none, read := none } := by
  unfold enterHandler
  dsimp only
  split <;> cases pf <;> rfl

theorem enterHandler_masks (r : Nat) : rk (enterHandler w pf t pc lbase) pf r =
    if r = 0 then (if t.lane then t.lmask else (w.path pf).k0) else rk w pf r := by
  have hk : ((enterHandler w pf t pc lbase).path pf).k =
      ((w.path pf).withK0 (if t.lane then t.lmask else (w.path pf).k0)).k := by
    unfold enterHandler
    dsimp only
    split <;> cases pf <;> rfl
  rw [rk, hk]
  exact fgetD_withK0 ..

theorem enterHandler_other : (enterHandler w pf t pc lbase).path (!pf) =
    if bothPaths w pf t then { w.path (!pf) with stopped := true, wait := .none } else w.path (!pf) := by
  unfold enterHandler
  dsimp only
  split <;> cases pf <;> rfl

theorem enterHandler_frame : { enterHandler w pf t pc lbase with a := w.a, b := w.b, xs := w.xs, wdc := w.wdc } = w := by
  unfold enterHandler
  dsimp only
  split <;> cases pf <;> rfl

theorem enterHandler_wdc : (enterHandler w pf t pc lbase).wdc = if t.cause = 0xB0 then 0 else w.wdc := by
  unfold enterHandler
  dsimp only
  split <;> cases pf <;> rfl

/-- R193: the trap record. -/
theorem enterHandler_xs (n : Nat) : (fgetD 0 (enterHandler w pf t pc lbase).xs n : W64) =
    if n = 4 then (w.path pf).k0.setWidth 64 else if n = 3 then t.va
    else if n = 2 then (if t.lane then t.clauseAddr else if bothPaths w pf t then w.b.pc else 0)
    else if n = 1 then t.resume else if n = 0 then trapWord t pf (bothPaths w pf t) else fgetD 0 w.xs n := by
  have hk0 : n64 (w.path pf).k0.toNat = (w.path pf).k0.setWidth 64 := by
    apply BitVec.eq_of_toNat_eq
    simp [n64]
  have hxs : (enterHandler w pf t pc lbase).xs = fputD 0 (fputD 0 (fputD 0 (fputD 0 (fputD 0 w.xs 0
      (trapWord t pf (bothPaths w pf t))) 1 t.resume) 2 (if t.lane then t.clauseAddr else if bothPaths w pf t then w.b.pc else 0))
      3 t.va) 4 (n64 (w.path pf).k0.toNat) := by
    unfold enterHandler
    dsimp only
    split <;> cases pf <;> rfl
  rw [hxs, hk0]
  simp only [fgetD_fputD]

end Handler

theorem enterHandler_wdc_kept {w : Warp} {pf : Bool} {t : Trap} {pc lbase : W64} (h : t.cause / 16 ≠ 11) :
    (enterHandler w pf t pc lbase).wdc = w.wdc :=
  (enterHandler_wdc ..).trans (if_neg fun hc => h (by rw [hc]))

theorem delivered_eq (p : Path) (t : Trap) : delivered p t =
    if (t.lane = true ∨ t.impr = true) ∧ ¬(t.cause = 0x20 ∧ t.lane = false) then { t with resume := p.pc } else t :=
  if_congr (by cases t.lane <;> simp) rfl rfl

/-! ## WATCHDOG_EXPIRY (R203, R235) -/

theorem watchdogDue_of_early {w : Warp} (h : w.wdc < w.wdlim) : watchdogDue w = false := by
  simp [watchdogDue, h]

theorem watchdogDue_of_late {w : Warp} (hk : w.kind = .kernel) (hwd : w.wdlim ≤ w.wdc) (hpend : w.a.pend = none)
    (hmore : w.a.more = []) (hb : ∀ tr ∈ w.b.pend.toList ++ w.b.more, tr.cause ≠ 0xB0)
    (hst : w.st = .ready ∨ w.st = .rink ∨ w.st = .blocked) : watchdogDue w = true := by
  have htold : ([w.a, w.b].any fun p => (p.pend.toList ++ p.more).any fun t => decide (t.cause = 0xB0)) = false := by
    simp only [List.any_cons, List.any_nil, hpend, hmore, Option.toList, List.append_nil, Bool.or_false, Bool.false_or,
      List.any_eq_false, decide_eq_true_eq]
    exact hb
  unfold watchdogDue
  dsimp only
  rw [htold, hk]
  rcases hst with h | h | h <;> simp [h, hwd]

/-- R235: 11.0 is raised on path A while that lives and path B is in no handler. -/
theorem execWatchdogExpiry_due {s : State} {u : Nat} {w : Warp} (hw : fget s.warps u = some w) (hdue : watchdogDue w = true)
    (hlive : w.a.live = true) (hb : w.b.held = none) :
    execWatchdogExpiry u s = .next (enterTrap s u false (sTrap w.a 0xB0)) := by
  have hpath : (if w.a.held.isSome then false else if w.b.held.isSome then true else !w.a.live) = false := by
    simp [hb, hlive]
  have hraise : raiseTrap s u false (sTrap w.a 0xB0) = enterTrap s u false (sTrap w.a 0xB0) := by
    unfold raiseTrap
    rw [hw]
    rfl
  unfold execWatchdogExpiry
  rw [hw]
  dsimp only
  rw [hpath, if_neg (by simp [hdue])]
  exact (if_pos hlive).trans (congrArg _ hraise)

/-- R194: the record of 11.0 in a handler. -/
def watchdogRec (w : Warp) (u : Nat) : FRec := { warpRec w 0x132 w.a.pc (.warp u) with orig := 0xB0 }

theorem doubleFault_watchdog {s : State} {u : Nat} {w : Warp} (hk : w.kind = .kernel) :
    doubleFault s u false (sTrap w.a 0xB0) w =
      pushRec (park (putWarp s u { w with dblPath := false }) u) w.fn (watchdogRec w u) := by
  unfold doubleFault
  rw [hk]
  rfl

theorem parkedWith_pushRec_park {s : State} {u : Nat} {w x : Warp} {f : Func} (r : FRec) (hf : fget s.funcs w.fn = some f) :
    parkedWith s (pushRec (park (putWarp s u x) u) w.fn r) u w r := by
  refine ⟨?_, f, _, hf, ?_, rfl⟩
  · simp [pushRec, modFunc, fget_fmod]
  · simp [pushRec, modFunc, hf, fget_fmod]

/-- R192, R193: a handler of class 11 on path A stops path B. -/
theorem enterHandler_watchdog (w : Warp) (pc lbase : W64) :
    let w' := enterHandler w false (sTrap w.a 0xB0) pc lbase
    w'.wdc = 0 ∧ w'.a.priv = 1 ∧ w'.a.pc = pc ∧ w'.a.lbase = lbase ∧ w'.a.queue = [] ∧ w'.a.x = w.a.x ∧
      (∀ r, rk w' false r = rk w false r) ∧ (fgetD 0 w'.xs 0 : W64) = causeWord 0xB0 false w.b.live w.a.k0 ∧
      (fgetD 0 w'.xs 1 : W64) = w.a.pc ∧
      (fgetD 0 w'.xs 2 : W64) = (if w.b.live then w.b.pc else 0) ∧ (fgetD 0 w'.xs 3 : W64) = 0 ∧
      (fgetD 0 w'.xs 4 : W64) = w.a.k0.setWidth 64 ∧
      (∀ n, 5 ≤ n → (fgetD 0 w'.xs n : W64) = fgetD 0 w.xs n) ∧
      w'.b = (if w.b.live then { w.b with stopped := true, wait := .none } else w.b) ∧
      { w' with a := w.a, b := w.b, xs := w.xs, wdc := w.wdc } = w := by
  have hpath := enterHandler_path w false (sTrap w.a 0xB0) pc lbase
  have hxs := enterHandler_xs w false (sTrap w.a 0xB0) pc lbase
  have hother := enterHandler_other w false (sTrap w.a 0xB0) pc lbase
  have hboth : bothPaths w false (sTrap w.a 0xB0) = w.b.live := by simp [bothPaths, sTrap, Warp.path]
  rw [hboth] at hxs hother
  refine ⟨enterHandler_wdc .., (congrArg Path.priv hpath :), (congrArg Path.pc hpath :), (congrArg Path.lbase hpath :),
    (congrArg Path.queue hpath :), (congrArg Path.x hpath :), fun r => ?_, ?_, hxs 1, hxs 2, hxs 3, hxs 4, fun n hn => ?_,
    hother, enterHandler_frame ..⟩
  · rw [enterHandler_masks]
    split
    · rw [‹r = 0›]; rfl
    · rfl
  · refine (hxs 0).trans ?_
    simp [trapWord, sTrap, causeWord, b2n, n64]
  · rw [hxs, if_neg (by omega), if_neg (by omega), if_neg (by omega), if_neg (by omega), if_neg (by omega)]

/-! ## Tables with rising keys -/

theorem mem_of_fget_eq_some {α : Type} {m : FMap α} {k : Nat} {v : α} (h : fget m k = some v) : (k, v) ∈ m := by
  induction m with
  | nil => cases h
  | cons e r ih =>
    obtain ⟨i, u⟩ := e
    rw [fget_cons] at h
    split at h
    · cases h
      rw [‹i = k›]
      exact List.mem_cons_self
    · exact List.mem_cons_of_mem _ (ih h)

theorem fget_of_mem {α : Type} {m : FMap α} {k : Nat} {v : α} (hm : rising m = true) (h : (k, v) ∈ m) : fget m k = some v := by
  induction m with
  | nil => cases h
  | cons e r ih =>
    obtain ⟨i, u⟩ := e
    rw [fget_cons]
    rcases List.mem_cons.mp h with heq | hr
    · cases heq
      exact if_pos rfl
    · rw [if_neg (Nat.ne_of_lt (rising_head hm _ hr))]
      exact ih (rising_tail hm) hr

/-- What a filter of a table keeps. -/
theorem fget_ffilter_eq_some {α : Type} {m : FMap α} {p : Nat → α → Bool} {k : Nat} {v : α} (hm : rising m = true) :
    fget (ffilter m p) k = some v ↔ fget m k = some v ∧ p k v = true := by
  constructor
  · intro h
    obtain ⟨hmem, hp⟩ := List.mem_filter.mp (mem_of_fget_eq_some h)
    exact ⟨fget_of_mem hm hmem, hp⟩
  · rintro ⟨h, hp⟩
    exact fget_of_mem (rising_ffilter p hm) (List.mem_filter.mpr ⟨mem_of_fget_eq_some h, hp⟩)

theorem fget_ffilter_eq_none {α : Type} {m : FMap α} {p : Nat → α → Bool} {k : Nat} {v : α} (hm : rising m = true)
    (hk : fget m k = some v) (hp : p k v = false) : fget (ffilter m p) k = none := by
  refine Option.eq_none_iff_forall_ne_some.mpr fun x hx => ?_
  obtain ⟨hkx, hpx⟩ := (fget_ffilter_eq_some hm).mp hx
  rw [hk] at hkx
  cases hkx
  rw [hp] at hpx
  cases hpx

/-! ## What a purge leaves (R364, R414) -/

/-- The warps and the launches are the same. -/
def workKept (s t : State) : Prop := t.warps = s.warps ∧ t.launches = s.launches

theorem workKept.trans {s t u : State} (h : workKept s t) (h' : workKept t u) : workKept s u :=
  ⟨h'.1.trans h.1, h'.2.trans h.2⟩

theorem workKept_foldl {α : Type} {f : State → α → State} (hf : ∀ s a, workKept s (f s a)) (l : List α) (s : State) :
    workKept s (l.foldl f s) := by
  induction l generalizing s with
  | nil => exact ⟨rfl, rfl⟩
  | cons a r ih => exact (hf s a).trans (ih (f s a))

theorem workKept_setCells (s : State) (space : Space) (b : Nat) (m : List Host.Cell) (p : List Nat) :
    workKept s (setCells s space b m p) := by
  unfold setCells
  split <;> exact ⟨rfl, rfl⟩

theorem workKept_accWrite (s : State) (key : Nat) (m : LaneMem) (a : LaneAcc) : workKept s (accWrite s key m a) := by
  have h := workKept_setCells s m.space m.block
    (wrBytes (cellsOf s m.space m.block) a.addr (leBytes a.size a.data.toNat)) (poisOf s m.space m.block)
  unfold accWrite
  dsimp only
  split
  · exact h
  · exact h

theorem workKept_performStore (s : State) (key : Nat) (m : LaneMem) (lanes : W32) :
    workKept s (performStore s key m lanes) := by
  have hwrite (t : State) (a : LaneAcc) : workKept t
      (if !lanes.getLsbD a.lane then t else if isLocal a.addr then accWrite t key m a else accSend t key a) := by
    split
    · exact ⟨rfl, rfl⟩
    · split
      · exact workKept_accWrite ..
      · exact ⟨rfl, rfl⟩
  have hclear (t : State) (g : Nat) : workKept t
      (let u := setCells t m.space m.block (cellsOf t m.space m.block) (delPois (poisOf t m.space m.block) g)
       if m.space = .sp then u else l1Clear u key g) := by
    have h := workKept_setCells t m.space m.block (cellsOf t m.space m.block) (delPois (poisOf t m.space m.block) g)
    dsimp only
    split
    · exact h
    · exact h
  unfold performStore
  dsimp only
  split
  · exact (workKept_foldl hwrite ..).trans (workKept_foldl hclear ..)
  · exact workKept_foldl hwrite ..

theorem workKept_accAtom (s : State) (key : Nat) (m : LaneMem) (oper : Nat) (a : LaneAcc) :
    workKept s (accAtom s key m oper a).1 := by
  have h (old : Nat) := workKept_setCells s m.space m.block (wrLe (cellsOf s m.space m.block) a.addr 4 old)
    (poisOf s m.space m.block)
  unfold accAtom
  dsimp only
  split
  · exact h _
  · exact h _

theorem workKept_performAtom (s : State) (key : Nat) (m : LaneMem) (oper : Nat) (lanes : W32) :
    workKept s (performAtom s key m oper lanes).1 := by
  unfold performAtom
  generalize m.got = got
  induction m.accs generalizing s got with
  | nil => exact ⟨rfl, rfl⟩
  | cons a r ih =>
    rw [List.foldl_cons]
    split
    · exact (workKept_accAtom s key m oper a).trans (ih _ _)
    · exact ih _ _

theorem workKept_l1FillLanes (s : State) (die core key uid : Nat) (m : LaneMem) (lanes : W32) :
    workKept s (l1FillLanes s die core key uid m lanes) := by
  unfold l1FillLanes
  split
  · exact ⟨rfl, rfl⟩
  · refine workKept_foldl (fun t a => ?_) ..
    split <;> exact ⟨rfl, rfl⟩

theorem workKept_meterWarp (s : State) (w : Warp) (i n : Nat) : workKept s (meterWarp s w i n) := by
  rw [meterWarp_frame]
  exact ⟨rfl, rfl⟩

theorem workKept_meterLanes (s : State) (w : Warp) (m : LaneMem) (n lanes : Nat) : workKept s (meterLanes s w m n lanes) := by
  unfold meterLanes
  dsimp only
  split
  · exact workKept_meterWarp ..
  · exact (workKept_meterWarp ..).trans (workKept_meterWarp ..)
  · exact (workKept_meterWarp ..).trans (workKept_meterWarp ..)

/-- R364: performing what a stopped warp has issued changes no warp and no launch. -/
theorem workKept_flushOp (s : State) (o : Op) : workKept s (flushOp s o) := by
  unfold flushOp
  split
  · refine workKept.trans ?_ (workKept_meterLanes ..)
    split
    · exact workKept_performStore ..
    · exact workKept_performAtom ..
    · exact workKept_l1FillLanes ..
  · exact workKept_meterWarp ..
  · exact workKept_meterWarp ..
  · exact ⟨rfl, rfl⟩

/-- R364: the warps that leave the module. -/
theorem removeWarps_work (s : State) (gone : Nat → Warp → Bool) :
    (removeWarps s gone).warps = ffilter s.warps (fun u w => !gone u w) ∧ (removeWarps s gone).launches = s.launches := by
  obtain ⟨hwarps, hlaunches⟩ := workKept_foldl workKept_flushOp
    (s.ops.filter fun o => (fget s.warps o.warp).elim false (gone o.warp)) s
  exact ⟨congrArg (fun m => ffilter m fun u w => !gone u w) hwarps, hlaunches⟩

/-- R414: a launch that a purge of a (function, request tag) meets. -/
def purgeHits (fn tag : Nat) (l : Launch) : Bool := launchOpen l && (decide (l.fn = fn) && decide (l.lrec.tag = tag))

/-- R414: what a purge leaves of a launch. -/
def purgedLaunch (fn tag cause : Nat) (l : Launch) : Launch :=
  if purgeHits fn tag l then { l with st := .purged, cause := cause, back := [], recWritten := false, lbars := [] } else l

/-- R414: the warps that a purge concerns. -/
def purgeStops (s : State) (fn tag : Nat) (w : Warp) : Bool :=
  decide (w.kind = .kernel) && (fget s.launches w.launch).elim false (purgeHits fn tag)

theorem purgeKey_warps (s : State) (fn tag cause : Nat) :
    (purgeKey s fn tag cause).warps = ffilter s.warps fun _ w => !purgeStops s fn tag w :=
  (removeWarps_work s fun _ w => purgeStops s fn tag w).1

theorem fget_purgeKey_launches (s : State) (fn tag cause n : Nat) :
    fget (purgeKey s fn tag cause).launches n = (fget s.launches n).map (purgedLaunch fn tag cause) := by
  have hmap : (purgeKey s fn tag cause).launches =
      fmap (removeWarps s fun _ w => purgeStops s fn tag w).launches fun n l =>
        if (fget s.launches n).elim false (purgeHits fn tag)
        then { l with st := .purged, cause := cause, back := [], recWritten := false, lbars := [] } else l := rfl
  rw [hmap, (removeWarps_work ..).2, fget_fmap]
  cases h : fget s.launches n with
  | none => rfl
  | some l => rfl

/-- R196, R414: the purge of the launch of a warp. -/
theorem purgedFor_purgeKey {s : State} {u : Nat} {w x : Warp} (cause : Nat) (hx : { x with a := w.a, b := w.b } = w)
    (hk : w.kind = .kernel) : purgedFor s (purgeKey (putWarp s u x) x.fn x.reqtag cause) u w cause := by
  have hfn : x.fn = w.fn := (congrArg Warp.fn hx :)
  have htag : x.reqtag = w.reqtag := (congrArg Warp.reqtag hx :)
  have hlaunch : x.launch = w.launch := (congrArg Warp.launch hx :)
  have hkind : x.kind = .kernel := (congrArg Warp.kind hx :).trans hk
  have hlaunches (n : Nat) : fget (purgeKey (putWarp s u x) x.fn x.reqtag cause).launches n =
      (fget s.launches n).map (purgedLaunch w.fn w.reqtag cause) := by
    rw [fget_purgeKey_launches, hfn, htag]
    rfl
  refine ⟨fun l hrise hl hlfn hltag hopen => ?_, fun n l hl hother => ?_⟩
  · have hhit : purgeHits w.fn w.reqtag l = true := by simp [purgeHits, hopen, hlfn, hltag]
    rw [warpLaunch] at hl
    refine ⟨?_, { l with st := .purged, cause := cause, back := [], recWritten := false, lbars := [] }, ?_, rfl, rfl⟩
    · have hstops : purgeStops (putWarp s u x) x.fn x.reqtag x = true := by
        have hl' : fget (putWarp s u x).launches x.launch = some l := by rw [hlaunch]; exact hl
        rw [purgeStops, hkind, hl', hfn, htag]
        exact hhit
      rw [purgeKey_warps]
      exact fget_ffilter_eq_none (rising_fput u x hrise) (fget_putWarp ..) (by rw [hstops]; rfl)
    · rw [hlaunches, hl]
      exact congrArg some (if_pos hhit)
  · have hmiss : ¬purgeHits w.fn w.reqtag l = true := by
      simp only [purgeHits, Bool.and_eq_true, decide_eq_true_eq]
      exact fun h => hother h.2
    rw [hlaunches, hl]
    exact congrArg some (if_neg hmiss)

end Sys2Proof.Machine

namespace Sys2Proof.Proofs

open Sys2Proof.Machine Sys2Proof.Claims

theorem trapEvents : TrapEvents := by
  intro s u w hw hkind hsave hreload
  refine ⟨fun pf tr htr hst hstop hpriv hother hfirst hcls => ?_, fun hwd => ?_,
    fun hwd hpend hmore hb hst hlive hbheld => ⟨fun pc lbase hheld hpriv hentry => ?_, fun hheld hpriv hf => ?_⟩⟩
  · have hframe := unpended_frame w pf
    have hheld : trapsHeld (unpended w pf) = false :=
      trapsHeld_of_running ((congrArg Warp.saving hframe :).trans hsave) ((congrArg Warp.reload hframe :).trans hreload)
        (by rw [(congrArg Warp.st hframe :)]; exact hst)
    have hwaits : trapWaits (unpended w pf) pf = false :=
      trapWaits_free (by rw [unpended_path]) (by rw [unpended, path_modPath_other]; exact hother) hheld
    have hexec := execTrapEntry_eq hw htr hst hstop hfirst hwaits
    have hpriv' : ((unpended w pf).path pf).priv = 0 := by rw [unpended_path]; exact hpriv
    refine ⟨fun pc lbase hentry => ?_, fun hentry => ?_⟩
    · have henter := enterTrap_entry (fget_putWarp s u _) hheld hpriv' hwaits ((handlerEntry_putWarp ..).trans hentry)
      have hnow := delivered_eq ((unpended w pf).path pf) tr
      have hcls' : (delivered ((unpended w pf).path pf) tr).cause / 16 ≠ 11 := by rwa [delivered_cause]
      rw [unpended_path] at hnow hcls' henter
      rw [putWarp_putWarp] at henter
      dsimp only at hnow ⊢
      rw [← hnow]
      exact ⟨_, hexec.trans (congrArg _ henter), _, rfl, tookTrap_of_unpended (enterHandler_took _ _ _ _ _ hcls'),
        (enterHandler_wdc_kept hcls').trans (modPath_wdc ..)⟩
    · have henter := enterTrap_none (fget_putWarp s u _) hheld hpriv' hwaits ((handlerEntry_putWarp ..).trans hentry)
      refine ⟨_, hexec.trans (congrArg _ henter), ?_⟩
      rw [defaultAction, fget_putWarp]
      dsimp only
      rw [if_pos ((congrArg Warp.kind hframe :).trans hkind)]
      exact purgedFor_purgeKey _ hframe hkind
  · rw [waits, exec_watchdogExpiry, execWatchdogExpiry, hw]
    exact if_pos (by rw [watchdogDue_of_early hwd]; rfl)
  · have hexec := execWatchdogExpiry_due hw (watchdogDue_of_late hkind hwd hpend hmore hb hst) hlive hbheld
    have htake := trapsHeld_of_running hsave hreload hst
    have hclass : (sTrap w.a 0xB0).cause / 16 = 11 := by simp [sTrap]
    rw [← hclass] at hentry
    rw [enterTrap_entry (pf := false) hw htake hpriv (trapWaits_free (pf := false) hpend hbheld htake) hentry] at hexec
    exact ⟨_, hexec, _, rfl, enterHandler_watchdog w pc lbase⟩
  · have hexec := execWatchdogExpiry_due hw (watchdogDue_of_late hkind hwd hpend hmore hb hst) hlive hbheld
    rw [enterTrap_double (pf := false) hw (trapsHeld_of_running hsave hreload hst) hpriv] at hexec
    obtain ⟨f, hf⟩ := Option.isSome_iff_exists.mp hf
    have hdouble : exec (.watchdogExpiry u) s = _ := hexec.trans (congrArg _ (doubleFault_watchdog hkind))
    exact ⟨_, hdouble, watchdogRec w u, parkedWith_pushRec_park _ hf, rfl, rfl, rfl⟩

end Sys2Proof.Proofs

/-! # The end of a warp (O40) -/

namespace Sys2Proof.Machine

open Sys2Proof.Claims

/-! ## WARP_END (R109) -/

/-- R109: a warp that has ended. -/
def endedWarp (w : Warp) : Warp :=
  { w with st := .ended, regs := [], saving := false, runOn := false,
           a := { w.a with live := false, queue := [], wait := .none }, b := { w.b with live := false, queue := [], wait := .none } }

/-- R109: the state in which warp u has ended, its block still there. -/
def warpEnded (s : State) (u : Nat) (w : Warp) : State := l1DropWarp (putWarp s u (endedWarp w)) u

theorem fget_warpEnded (s : State) (u : Nat) (w : Warp) (v : Nat) :
    fget (warpEnded s u w).warps v = if v = u then some (endedWarp w) else fget s.warps v := fget_fput ..

/-- R109: the paths are at their EXIT, and no clause of them is left. -/
def pathsDone (s : State) (u : Nat) (w : Warp) : Prop :=
  ∀ pf, ((w.path pf).live = false ∨ (w.path pf).wait = .exit) ∧ (w.path pf).pend = none ∧ liveQueue s u pf (w.path pf) = []

theorem atEnd_iff (w : Warp) : atEnd w = true ↔
    ∀ pf, ((w.path pf).live = false ∨ (w.path pf).wait = .exit) ∧ (w.path pf).pend = none := by
  simp only [atEnd, Bool.forall_bool, Warp.path, Bool.and_eq_true, Bool.or_eq_true, Bool.not_eq_true', decide_eq_true_eq,
    Option.isNone_iff_eq_none, Bool.false_eq_true, if_false, if_true]
  tauto

theorem pathsDone_iff (s : State) (u : Nat) (w : Warp) :
    pathsDone s u w ↔ atEnd w = true ∧ liveQueue s u false w.a = [] ∧ liveQueue s u true w.b = [] := by
  rw [atEnd_iff]
  simp only [pathsDone, Bool.forall_bool, Warp.path, Bool.false_eq_true, if_false, if_true]
  tauto

/-- R109: WARP_END goes on once the paths are done and no operation is outstanding. -/
theorem warpEnd_goes_iff {s : State} {u : Nat} {w : Warp} (hk : w.kind = .kernel) (hres : resident w = true) :
    (w.kind = .supervisor || !resident w || !atEnd w || s.ops.any (fun o => o.warp = u) ||
      !(liveQueue s u false w.a).isEmpty || !(liveQueue s u true w.b).isEmpty) = false ↔
    pathsDone s u w ∧ ¬∃ o ∈ s.ops, o.warp = u := by
  have hout : s.ops.any (fun o => decide (o.warp = u)) = false ↔ ¬∃ o ∈ s.ops, o.warp = u := by simp
  rw [pathsDone_iff, ← hout, hk, hres]
  simp only [Bool.or_eq_false_iff, Bool.not_eq_false', List.isEmpty_iff, decide_eq_false_iff_not, reduceCtorEq, not_false_eq_true,
    true_and, and_assoc]
  tauto

/-- R159: a warp whose launch has reached no level barrier passes none. -/
theorem levelExit_unbarred {s : State} {w : Warp} {l : Launch} (hl : fget s.launches w.launch = some l) (hb : l.lbars = []) :
    levelExit s w = s := by
  refine List.foldl_fixed' (fun scope => ?_) _
  have hfresh : barState s w { level := true, n := scope, arrives := false, waits := false, count := 0 } = Bar.fresh := by
    simp [barState, warpLaunch, hl, hb, fgetD]
  dsimp only
  rw [hfresh]
  rfl

theorem execWarpEnd_ends {s : State} {u : Nat} {w : Warp} {l : Launch} (hw : fget s.warps u = some w) (hk : w.kind = .kernel)
    (hres : resident w = true) (hl : fget s.launches w.launch = some l) (hb : l.lbars = []) (hdone : pathsDone s u w)
    (hout : ¬∃ o ∈ s.ops, o.warp = u) : execWarpEnd u s = .next (endBlock (warpEnded s u w) w.block) := by
  have hlevel : levelExit (warpEnded s u w) w = warpEnded s u w := levelExit_unbarred hl hb
  have hgo := (warpEnd_goes_iff hk hres).mpr ⟨hdone, hout⟩
  unfold execWarpEnd
  rw [hw]
  dsimp only
  rw [if_neg (ne_true_of_eq_false hgo), if_pos hk]
  exact congrArg (fun t => Host.Outcome.next (endBlock t w.block)) hlevel

theorem execWarpEnd_waits {s : State} {u : Nat} {w : Warp} (hw : fget s.warps u = some w) (hk : w.kind = .kernel)
    (hres : resident w = true) (h : ¬(pathsDone s u w ∧ ¬∃ o ∈ s.ops, o.warp = u)) : execWarpEnd u s = .next s := by
  rw [← warpEnd_goes_iff hk hres, Bool.not_eq_false] at h
  unfold execWarpEnd
  rw [hw]
  exact if_pos h

/-- R228: every other warp of the block has ended. -/
def lastOfBlock (s : State) (u : Nat) (w : Warp) : Prop :=
  ∀ v x, v ≠ u → fget s.warps v = some x → x.block = w.block → x.kind = .kernel → x.st = .ended

theorem blockWarps_ended_iff {s : State} {u : Nat} {w : Warp} (hr : rising s.warps = true) :
    ((blockWarps (warpEnded s u w) w.block).all fun e => e.2.st = .ended) = true ↔ lastOfBlock s u w := by
  have hr' : rising (warpEnded s u w).warps = true := rising_fput u (endedWarp w) hr
  simp only [blockWarps, List.all_eq_true, List.mem_filter, Bool.and_eq_true, decide_eq_true_eq, and_imp]
  constructor
  · intro h v x hv hx hblock hkind
    refine h (v, x) (mem_of_fget_eq_some ?_) hblock hkind
    rw [fget_warpEnded, if_neg hv]
    exact hx
  · intro h e he hblock hkind
    have hget := fget_of_mem hr' he
    rw [fget_warpEnded] at hget
    split at hget
    · rw [← Option.some.inj hget]
      rfl
    · exact h e.1 e.2 ‹_› hget hblock hkind

/-- R228: the block stays while another warp of it runs. -/
theorem endBlock_stays {s : State} {u : Nat} {w : Warp} {k : Block} (hr : rising s.warps = true)
    (hk : fget s.blocks w.block = some k) (h : ¬lastOfBlock s u w) : endBlock (warpEnded s u w) w.block = warpEnded s u w := by
  have hk' : fget (warpEnded s u w).blocks w.block = some k := hk
  unfold endBlock
  rw [hk']
  exact if_neg fun hall => h ((blockWarps_ended_iff hr).mp hall)

/-- R228: the block ends with its last warp. -/
theorem endBlock_ends {s : State} {u : Nat} {w : Warp} {k : Block} (hr : rising s.warps = true)
    (hk : fget s.blocks w.block = some k) (h : lastOfBlock s u w) :
    endBlock (warpEnded s u w) w.block = { warpEnded s u w with
      blocks := fdel s.blocks w.block, banks := ffilter s.banks (fun _ x => x.block ≠ w.block),
      warps := ffilter (warpEnded s u w).warps (fun _ x => !(x.block = w.block && x.kind = .kernel)),
      launches := fmod s.launches k.launch (fun l => { l with endedN := l.endedN + 1 }) } := by
  have hk' : fget (warpEnded s u w).blocks w.block = some k := hk
  unfold endBlock
  rw [hk']
  exact if_pos ((blockWarps_ended_iff hr).mpr h)

end Sys2Proof.Machine

namespace Sys2Proof.Proofs

open Sys2Proof.Machine Sys2Proof.Claims

theorem warpEnds : WarpEnds := by
  intro s u w k l htables hw hk hkl hl hbars hkind hst
  dsimp only
  have hres := resident_of_running hst
  have hwarps : rising s.warps = true := by
    simp only [tablesRising, Bool.and_eq_true, and_assoc] at htables
    exact htables.1
  refine ⟨fun h => execWarpEnd_waits hw hkind hres ?_, fun hdone hout hlast => ?_, fun hdone hout hlast => ?_⟩
  · rintro ⟨hdone, hout⟩
    exact h.elim (fun hnot => hnot hdone) hout
  · refine ⟨_, (execWarpEnd_ends hw hkind hres hl hbars hdone hout).trans (congrArg _ (endBlock_stays hwarps hk hlast)), rfl, rfl,
      rfl, fun v hv => ?_, endedWarp w, ?_, rfl, rfl, rfl, rfl⟩
    · rw [fget_warpEnded, if_neg hv]
    · rw [fget_warpEnded, if_pos rfl]
  · refine ⟨_, (execWarpEnd_ends hw hkind hres hl hbars hdone hout).trans (congrArg _ (endBlock_ends hwarps hk hlast)), ?_, rfl,
      fun b hb => ?_, ?_, fun v x hx => ?_, fun n b hb => ?_⟩
    · exact (fget_fdel ..).trans (if_pos rfl)
    · exact (fget_fdel ..).trans (if_neg hb)
    · refine (fget_fmod ..).trans ?_
      rw [hkl, if_pos rfl, hl]
      rfl
    · obtain ⟨_, hp⟩ := List.mem_filter.mp (mem_of_fget_eq_some hx)
      simpa [imp_iff_not_or] using hp
    · obtain ⟨_, hp⟩ := List.mem_filter.mp (mem_of_fget_eq_some hb)
      simpa using hp

/-- Settles O40: a trap enters by `enterTrap` (`enterTrap_entry`, `enterTrap_none`, `enterTrap_double`), a purge leaves what
`purgedFor_purgeKey` says, and WARP_END ends the warp (`execWarpEnd_ends`) and then its block (`endBlock_ends`). -/
theorem warpEvents : Obligations.WarpEvents := by
  unfold Obligations.WarpEvents
  exact ⟨trapEvents, warpEnds⟩

end Sys2Proof.Proofs

/-! # Lane arithmetic: masks, elements and the result of a form (O31 to O34) -/

namespace Sys2Proof.Machine

/-! ## Masks and fields -/

theorem fld_low (x hi : Nat) : fld x hi 0 = x % 2 ^ (hi + 1) := by
  rw [fld, Nat.pow_zero, Nat.div_one, Nat.sub_zero]

/-- The bits of a mask are the digits of its sum. -/
theorem getLsbD_maskOf (p : Nat → Bool) {i : Nat} (hi : i < 32) : (maskOf p).getLsbD i = p i := by
  have hsum : (List.range 32).foldl (fun m l => if p l then m + 2 ^ l else m) 0 =
      (List.range 32).foldl (fun m l => m + b2n (p l) % 2 * 2 ^ l) 0 := by
    congr 1
    funext m l
    cases p l <;> simp [b2n]
  obtain ⟨-, hdigit⟩ := packDigits 2 (by decide) (fun l => b2n (p l)) 32
  rw [maskOf, hsum, n32, BitVec.getLsbD_ofNat, ← bitAt_eq_testBit, bitAt, hdigit i hi, decide_eq_true hi]
  cases p i <;> rfl

theorem lanesOf_any (m : W32) (p : Nat → Bool) :
    (lanesOf m).any p = (List.range 32).any fun l => m.getLsbD l && p l := by
  rw [lanesOf, List.any_filter]

theorem nodup_lanesOf (m : W32) : (lanesOf m).Nodup := List.nodup_range.filter _

/-- R24: a word with one element replaced. -/
theorem elem_setElem (f : Fmt) (w : W32) (j v : Nat) {e : Nat} (he : e < fmtCount f) :
    elem f (setElem f w j v) e = if e = j then v % 2 ^ fmtWidth f else elem f w e := by
  rw [setElem, elem_packElems f _ he]
  split
  · rfl
  · exact Nat.mod_eq_of_lt (elem_lt f w e)

/-! ## The forms of one word per lane -/

/-- R119: a form that computes one word per lane, with no flag, has that word in every lane of act. -/
theorem laneDoes_perLane {s : State} {w : Warp} {o : LaneOp} {i : Instr} {rok : Bool} {srcs : List (Src × Fmt)}
    {tag : LIn → Fmt} {g : LIn → Nat → W32} {post : LIn → LRes → Prop} (ha : actsOn s w)
    (hi : exec i s = laneRun s o rok srcs fun x => perLane x (tag x) (g x))
    (hp : ∀ x r, r.tag = tag x → r.fl = 0 → r.kd = none →
      (∀ l, x.c.act.getLsbD l = true → lane r.res l = g x l) → post x r) : laneDoes s w o i rok srcs post :=
  laneRun_does s w o i rok srcs _ post ha hi fun x _ _ _ _ => hp x _ rfl rfl rfl fun _ hl => perLane_lane x _ _ hl

end Sys2Proof.Machine

/-! # Lane forms with one word per lane (O31) -/

namespace Sys2Proof.Machine

/-! ## Counts, reversal and sums of a word (R135, R136) -/

theorem ofNat_popN {n : Nat} (a : BitVec n) :
    BitVec.ofNat n (popN a.toNat n) = BitVec.ofNat n ((List.range n).filter fun i => a.getLsbD i).length := by
  rw [popN_eq_length]
  simp only [bitAt_eq_testBit, BitVec.testBit_toNat]

theorem ofNat_clzN {n : Nat} (a : BitVec n) :
    BitVec.ofNat n (clzN a.toNat n) = BitVec.ofNat n (if a = 0#n then n else n - 1 - Nat.log2 a.toNat) := by
  have hzero : a.toNat = 0 ↔ a = 0#n := by rw [← BitVec.toNat_inj]; rfl
  rw [clzN_eq a.isLt]
  simp only [hzero]

theorem ofNat_revN {n : Nat} (a : BitVec n) : BitVec.ofNat n (revN a.toNat n) = a.reverse := by
  apply BitVec.eq_of_getLsbD_eq
  intro i hi
  rw [BitVec.getLsbD_ofNat, testBit_revN, BitVec.getLsbD_reverse, BitVec.getMsbD]
  simp [hi, BitVec.getLsbD]

theorem foldl_add_eq_sum {α : Type} [AddCommMonoid α] (f : Nat → α) (l : List Nat) :
    l.foldl (fun t e => t + f e) 0 = (l.map f).sum := by
  rw [List.sum_eq_foldl, List.foldl_map]

/-- R136: bit i of BOOL3 is the bit of the truth table that the three source bits select. -/
theorem getLsbD_bool3Of (m : Nat) (a b c : W32) {i : Nat} (hi : i < 32) : (bool3Of (m % 256) a b c).getLsbD i =
    m.testBit (4 * b2n (c.getLsbD i) + 2 * b2n (b.getLsbD i) + b2n (a.getLsbD i)) := by
  have hb : ∀ v : Bool, b2n v ≤ 1 := by decide
  have hlt : 4 * b2n (c.getLsbD i) + 2 * b2n (b.getLsbD i) + b2n (a.getLsbD i) < 8 := by
    have := hb (c.getLsbD i); have := hb (b.getLsbD i); have := hb (a.getLsbD i); omega
  rw [bool3Of, getLsbD_maskOf _ hi, bitAt_eq_testBit, show 256 = 2 ^ 8 from rfl, Nat.testBit_mod_two_pow,
    decide_eq_true hlt, Bool.true_and]

end Sys2Proof.Machine

namespace Sys2Proof.Proofs

open Sys2Proof.Machine Sys2Proof.Claims

/-- R119: what the statement says of a form of `wordForms`: the tag and the words of the lanes of act, and no flag. -/
def HasWords (tag : LIn → Fmt) (g : LIn → Nat → W32) (x : LIn) (r : LRes) : Prop :=
  r.tag = tag x ∧ r.fl = 0 ∧ r.kd = none ∧ ∀ l, x.c.act.getLsbD l = true → lane r.res l = g x l

/-! ## The shapes of the forms with one word per lane -/

section

variable {s : State} {w : Warp} {o : LaneOp} {i : Instr} {g : LIn → Nat → W32}

theorem laneDoes_words {srcs : List (Src × Fmt)} {tag tag' : LIn → Fmt} {f : LIn → Nat → W32} (ha : actsOn s w)
    (hi : exec i s = laneRun s o false srcs fun x => perLane x (tag x) (f x))
    (htag : ∀ x, tag x = tag' x) (hg : ∀ x l, f x l = g x l) : laneDoes s w o i false srcs (HasWords tag' g) :=
  laneDoes_perLane ha hi fun x _ ht hf hk hl => ⟨ht.trans (htag x), hf, hk, fun l h => (hl l h).trans (hg x l)⟩

theorem laneDoes_bit1 {tag : Fmt} {f : W32 → W32} (ha : actsOn s w) (hi : exec i s = bit1 s o tag f)
    (hg : ∀ x l, f (x.at 0 l) = g x l) :
    laneDoes s w o i false [(o.a, .b32)] (HasWords (fun _ => tag) g) :=
  laneDoes_words ha hi (fun _ => rfl) hg

theorem laneDoes_bit2 {fa tag : Fmt} {f : W32 → W32 → W32} (ha : actsOn s w) (hi : exec i s = bit2 s o fa tag f)
    (hg : ∀ x l, f (x.at 0 l) (x.at 1 l) = g x l) :
    laneDoes s w o i false [(o.a, fa), (o.b, .b32)] (HasWords (fun _ => tag) g) :=
  laneDoes_words ha hi (fun _ => rfl) hg

theorem laneDoes_bit3 {f : W32 → W32 → W32 → W32} (ha : actsOn s w) (hi : exec i s = bit3 s o f)
    (hg : ∀ x l, f (x.at 0 l) (x.at 1 l) (x.at 2 l) = g x l) :
    laneDoes s w o i false [(o.a, .b32), (o.b, .b32), (o.c, .b32)] (HasWords (fun _ => .b32) g) :=
  laneDoes_words ha hi (fun _ => rfl) hg

/-- R139: the tag of a shuffle, with its condition over the lanes of act. -/
theorem laneDoes_shuffle {src : LIn → Nat → Nat} (ha : actsOn s w) (hi : exec i s = shuffle s o src) :
    laneDoes s w o i false [(o.a, .b32), (o.b, .b32), (o.c, .b32)] (HasWords
      (fun x => if ((List.range 32).any fun l => x.c.act.getLsbD l && !x.c.act.getLsbD (src x l)) && x.tag 2 ≠ x.tag 0
        then .b32 else x.tag 0)
      fun x l => if x.c.act.getLsbD (src x l) then x.at 0 (src x l) else x.at 2 l) :=
  laneDoes_words ha hi (fun x => by rw [lanesOf_any]) fun _ _ => rfl

end

/-- R132: UNPACK extends the element at its position. -/
theorem laneDoes_unpack {s : State} {w : Warp} {o : LaneOp} (ha : actsOn s w) :
    laneDoes s w o (.unpack o) false [(o.a, .b32)] (HasWords (fun _ => if o.mods.testBit 3 then .i32 else .n32)
      fun x l =>
        let e := elem o.fmt (x.at 0 l) (o.mods % 8)
        if o.mods.testBit 3 then BitVec.ofInt 32 (sext (fmtWidth o.fmt) e) else BitVec.ofNat 32 e) := by
  have hpos : fld o.mods 2 0 = o.mods % 8 := fld_low _ _
  rw [← bitAt_eq_testBit, ← hpos]
  exact laneDoes_words ha (exec_unpack o s) (fun _ => rfl) fun _ _ => rfl

theorem laneWordResults : LaneWordResults := by
  intro s w o ha
  show ∀ e ∈ wordForms o, laneDoes s w o e.1 false e.2.1 (HasWords e.2.2.1 e.2.2.2)
  simp only [wordForms, List.forall_mem_cons]
  exact ⟨laneDoes_bit2 ha (exec_andB32 o s) fun _ _ => rfl, laneDoes_bit2 ha (exec_orB32 o s) fun _ _ => rfl,
    laneDoes_bit2 ha (exec_xorB32 o s) fun _ _ => rfl, laneDoes_bit1 ha (exec_notB32 o s) fun _ _ => rfl,
    laneDoes_bit2 ha (exec_shlB32 o s) fun _ _ => rfl, laneDoes_bit2 ha (exec_shrN32 o s) fun _ _ => rfl,
    laneDoes_bit2 ha (exec_sraI32 o s) fun _ _ => rfl, laneDoes_bit1 ha (exec_popcB32 o s) fun _ _ => ofNat_popN _,
    laneDoes_bit1 ha (exec_clzB32 o s) fun _ _ => ofNat_clzN _,
    laneDoes_bit1 ha (exec_brevB32 o s) fun _ _ => ofNat_revN _,
    laneDoes_words ha (exec_sel o s) (fun _ => rfl) fun _ _ => rfl, laneDoes_bit2 ha (exec_bfe o s) fun _ _ => rfl,
    laneDoes_bit3 ha (exec_perm o s) fun _ _ => rfl, laneDoes_words ha (exec_mov o s) (fun _ => rfl) fun _ _ => rfl,
    laneDoes_shuffle ha (exec_shfl o s), laneDoes_shuffle ha (exec_shflx o s), laneDoes_shuffle ha (exec_bcst o s),
    laneDoes_words ha (exec_rng o s) (fun _ => rfl) fun _ _ => rfl,
    laneDoes_words ha (exec_isad o s) (fun _ => rfl) fun _ _ => by rw [foldl_add_eq_sum, n32],
    laneDoes_unpack ha, fun _ he => absurd he List.not_mem_nil⟩

theorem laneFieldResults : LaneFieldResults := by
  intro s w o ha srcs word pos sgn
  refine ⟨laneDoes_perLane ha (by rw [exec_bool3, execBool3, bit3]) ?_,
    laneDoes_perLane ha (by rw [exec_bfi, execBfi, bit3]) ?_, laneDoes_perLane ha (exec_pack o s) ?_⟩
  · refine fun x r ht hf hk hl => ⟨⟨ht, hf, hk⟩, fun l i h hi => ?_⟩
    rw [hl l h, getLsbD_bool3Of _ _ _ _ hi]
  · refine fun x r ht hf hk hl => ⟨⟨ht, hf, hk⟩, fun l i h hi => ?_⟩
    rw [hl l h, bfiOf, getLsbD_maskOf _ hi]
    simp only [Bool.and_eq_true, decide_eq_true_eq]
  · have hpos : fld o.mods 2 0 = pos := fld_low _ _
    have hsgn : bitAt o.mods 3 = sgn := bitAt_eq_testBit _ _
    refine fun x r ht hf hk hl => ⟨⟨ht.trans (by rw [hsgn]), hf, hk⟩, fun l e h he => ?_⟩
    rw [hl l h, elem_setElem _ _ _ _ he, elem_setElem _ _ _ _ he, hpos, hsgn]

/-- Settles O31: each form computes one word per lane (`laneDoes_perLane`); the counts, the reversal and the fields are the
words that the statement names (`ofNat_popN`, `ofNat_clzN`, `ofNat_revN`, `getLsbD_bool3Of`, `elem_setElem`). -/
theorem laneWords : Obligations.LaneWords := by
  unfold Obligations.LaneWords
  exact ⟨laneWordResults, laneFieldResults⟩

end Sys2Proof.Proofs

/-! # Lane integer forms (O32) -/

namespace Sys2Proof.Machine

/-! ## Narrowing (R55) -/

theorem intCode_mod (w : Nat) (v : Int) : ((intCode w v % 2 ^ w : Nat) : Int) = v % 2 ^ w := by
  have hpos : (0 : Int) < 2 ^ w := by positivity
  have hcode : ((intCode w v : Nat) : Int) = v % 2 ^ w := Int.toNat_of_nonneg (Int.emod_nonneg v hpos.ne')
  rw [Int.natCast_mod, hcode]
  push_cast
  exact Int.emod_emod_of_dvd v dvd_rfl

theorem intRange_le (f : Fmt) : (intRange f).1 ≤ (intRange f).2 := by cases f <;> decide

/-- R46: the code of an integer of the format's range has that integer as its value. -/
theorem intVal_intCode {f : Fmt} {v : Int} (hlo : (intRange f).1 ≤ v) (hhi : v ≤ (intRange f).2) :
    intVal f (intCode (fmtWidth f) v % 2 ^ fmtWidth f) = v := by
  have hcode := intCode_mod (fmtWidth f) v
  unfold intVal
  split
  · next hs =>
    rw [intRange, if_pos hs] at hlo hhi
    have hw : fmtWidth f ≠ 0 := by cases f <;> decide
    obtain ⟨n, hn⟩ := Nat.exists_eq_succ_of_ne_zero hw
    rw [hn] at hcode hlo hhi ⊢
    rw [Nat.succ_sub_one] at hlo hhi
    rw [sext_eq_toInt, BitVec.toInt_ofNat', hcode]
    have hmod : (2 : Int) ^ n.succ = ((2 ^ n.succ : Nat) : Int) := by push_cast; rfl
    rw [hmod, Int.emod_bmod]
    have hhalf : ((2 ^ n.succ : Nat) : Int) = 2 * 2 ^ n := by push_cast; rw [pow_succ]; ring
    exact Int.bmod_eq_of_le (by omega) (by omega)
  · next hs =>
    rw [intRange, if_neg hs] at hlo hhi
    rw [Nat.mod_mod, hcode, Int.emod_eq_of_lt hlo (by simp only at hhi; omega)]

/-- R55: a narrowed integer: modulo the width without sat, the nearest value of the format with it. -/
theorem narrow_wraps (f : Fmt) (v : Int) : ((narrow f false v % 2 ^ fmtWidth f : Nat) : Int) = v % 2 ^ fmtWidth f :=
  intCode_mod _ _

theorem narrow_saturates (f : Fmt) (v : Int) :
    intVal f (narrow f true v % 2 ^ fmtWidth f) = max (intRange f).1 (min (intRange f).2 v) :=
  intVal_intCode (le_max_left _ _) (max_le (intRange_le f) (min_le_left _ _))

end Sys2Proof.Machine

namespace Sys2Proof.Proofs

open Sys2Proof.Machine Sys2Proof.Claims

/-- R55: what the statement says of an element with the exact value v: it wraps, or it saturates. -/
def Narrowed (f : Fmt) (sat : Bool) (code : Nat) (v : Int) : Prop :=
  (sat = false → ((code : Nat) : Int) = v % 2 ^ fmtWidth f) ∧
  (sat = true → intVal f code = max (intBounds f).1 (min (intBounds f).2 v))

theorem narrowed_narrow (f : Fmt) (sat : Bool) (v : Int) : Narrowed f sat (narrow f sat v % 2 ^ fmtWidth f) v := by
  cases sat
  · exact ⟨fun _ => narrow_wraps f v, nofun⟩
  · exact ⟨nofun, fun _ => narrow_saturates f v⟩

/-- R119, R55: a form of R135 has its exact results, narrowed. -/
theorem laneDoes_intForm {s : State} {w : Warp} {o : LaneOp} {i : Instr} {srcs : List Src} {v : LIn → Nat → Nat → Int}
    (ha : actsOn s w) (hi : exec i s = intForm s o srcs v) :
    laneDoes s w o i false (srcs.map fun x => (x, o.fmt)) fun x r => r.tag = o.fmt ∧ r.fl = 0 ∧ r.kd = none ∧
      ∀ l e, x.c.act.getLsbD l = true → e < fmtCount o.fmt →
        Narrowed o.fmt o.sat (elem o.fmt (lane r.res l) e) (v x l e) := by
  refine laneRun_does s w o i false _ _ _ ha hi fun x _ _ _ _ => ⟨rfl, perElem_noFlag x _ _, rfl, fun l e hl he => ?_⟩
  rw [perElem_elem x _ _ hl he]
  exact narrowed_narrow o.fmt o.sat _

theorem execImulh_fdiv (o : LaneOp) (s : State) :
    execImulh o s = intForm s o [o.a, o.b] fun x l e => (x.int 0 l e * x.int 1 l e).fdiv (2 ^ 32) := by
  simp only [Int.fdiv_eq_ediv_of_nonneg _ (show (0 : Int) ≤ 2 ^ 32 by decide)]
  rfl

/-- R138: the exact result of a packed dot in an integer format. -/
def dotExact (f : Fmt) (x : LIn) (l : Nat) : Int :=
  intVal f (x.at 2 l).toNat + ((List.range (fmtCount x.o.fmt)).map fun e => x.int 0 l e * x.int 1 l e).sum

theorem dotInt_eq (x : LIn) (l : Nat) :
    dotInt x l = narrow (dotFmt x.o.fmt) x.o.sat (dotExact (dotFmt x.o.fmt) x l) := by
  rw [dotInt, dotExact, foldl_add_eq_sum, add_comm]

/-- R138: the integer formats of the packed dots. -/
theorem dotFmt_int {f : Fmt} (h : f ∈ [Fmt.i8, .n8, .i4, .n4]) :
    dotFmt f = (if isSigned f then .i32 else .n32) ∧ dotFmt f ≠ .f32 ∧ fmtCount (dotFmt f) = 1 := by
  revert f
  decide

theorem laneDoes_dotInt {s : State} {w : Warp} {o : LaneOp} {i : Instr} (ha : actsOn s w) (hi : exec i s = dotForm s o)
    (hne : dotFmt o.fmt ≠ .f32) (hcount : fmtCount (dotFmt o.fmt) = 1) :
    laneDoes s w o i false [(o.a, o.fmt), (o.b, o.fmt), (o.c, dotFmt o.fmt)] fun x r =>
      r.tag = dotFmt o.fmt ∧ r.fl = 0 ∧ r.kd = none ∧ ∀ l, x.c.act.getLsbD l = true →
        Narrowed (dotFmt o.fmt) o.sat (elem (dotFmt o.fmt) (lane r.res l) 0) (dotExact (dotFmt o.fmt) x l) := by
  refine laneRun_does s w o i false _ _ _ ha hi fun x _ ho _ _ => ?_
  rw [if_neg hne]
  refine ⟨rfl, perElem_noFlag x _ _, rfl, fun l hl => ?_⟩
  rw [perElem_elem x _ _ hl (by omega), dotInt_eq, ho]
  exact narrowed_narrow _ o.sat _

theorem exec_dotForm {o : LaneOp} {i : Instr} (hi : i ∈ [Instr.dp4 o, .dp8 o]) (s : State) : exec i s = dotForm s o := by
  simp only [List.mem_cons, List.not_mem_nil, or_false] at hi
  obtain rfl | rfl := hi
  · exact exec_dp4 o s
  · exact exec_dp8 o s

/-- Settles O32: every element is a narrowed exact integer (`narrowed_narrow`): it wraps (`narrow_wraps`) or
saturates (`narrow_saturates`). -/
theorem laneIntegerResults : Obligations.LaneIntegerResults := by
  unfold Obligations.LaneIntegerResults
  intro s w o ha _ _
  constructor
  · show ∀ e ∈ intForms o, laneDoes s w o e.1 false (e.2.1.map fun x => (x, o.fmt)) fun x r => r.tag = o.fmt ∧ r.fl = 0 ∧
      r.kd = none ∧ ∀ l j, x.c.act.getLsbD l = true → j < fmtCount o.fmt →
        Narrowed o.fmt o.sat (elem o.fmt (lane r.res l) j) (e.2.2 x l j)
    simp only [intForms, List.forall_mem_cons]
    exact ⟨laneDoes_intForm ha (exec_iadd o s), laneDoes_intForm ha (exec_isub o s), laneDoes_intForm ha (exec_imul o s),
      laneDoes_intForm ha (exec_imad o s), laneDoes_intForm ha ((exec_imulh o s).trans (execImulh_fdiv o s)),
      laneDoes_intForm ha (exec_imin o s), laneDoes_intForm ha (exec_imax o s), laneDoes_intForm ha (exec_iabs o s),
      fun _ he => absurd he List.not_mem_nil⟩
  · intro hfmt i hi f
    obtain ⟨hf, hne, hcount⟩ := dotFmt_int hfmt
    have hdot : f = dotFmt o.fmt := hf.symm
    rw [hdot]
    exact laneDoes_dotInt ha (exec_dotForm hi s) hne hcount

end Sys2Proof.Proofs

/-! # Lane float forms (O33) -/

namespace Sys2Proof.Proofs

open Sys2Proof.Machine Sys2Proof.Claims

theorem dotFmt_float {f : Fmt} (h : isIntFmt f = false) : dotFmt f = .f32 := by
  cases f <;> (revert h; decide)

/-- R138: a packed dot in a float format is its one rounded element per lane. -/
theorem dotForm_float {o : LaneOp} (hf : dotFmt o.fmt = .f32) (s : State) : dotForm s o =
    laneRun s o false [(o.a, o.fmt), (o.b, o.fmt), (o.c, .f32)] fun x => perElem x .f32 fun l _ => dotFloat x l := by
  simp only [dotForm, hf, if_true]

/-- R119: what the statement says of a form of `floatForms`: its elements, and the flags of the lanes of act. -/
def HasElems (tag : Fmt) (g : LIn → Nat → Nat → Coded) (x : LIn) (r : LRes) : Prop :=
  r.tag = tag ∧ r.kd = none ∧
    (∀ l e, x.c.act.getLsbD l = true → e < fmtCount tag →
      elem tag (lane r.res l) e = (g x l e).code % 2 ^ fmtWidth tag) ∧
    ∀ b, r.fl.testBit b = true ↔
      ∃ l e, x.c.act.getLsbD l = true ∧ e < fmtCount tag ∧ (g x l e).fl.testBit b = true

/-! ## The shapes of the forms with one result per element -/

section

variable {s : State} {w : Warp} {o : LaneOp} {i : Instr} {rok : Bool}

theorem laneDoes_elems {srcs : List (Src × Fmt)} {tag : Fmt} {g : LIn → Nat → Nat → Coded} (ha : actsOn s w)
    (hi : exec i s = laneRun s o rok srcs fun x => perElem x tag (g x)) :
    laneDoes s w o i rok srcs (HasElems tag g) :=
  laneRun_does s w o i rok srcs _ _ ha hi fun x _ _ _ _ =>
    ⟨rfl, rfl, fun _ _ hl he => perElem_elem x tag (g x) hl he, perElem_flag x tag (g x)⟩

theorem laneDoes_float1 {f : RMode → Machine.Num → Coded} (ha : actsOn s w) (hi : exec i s = float1 s o rok f) :
    laneDoes s w o i rok [(o.a, o.fmt)] (HasElems o.fmt fun x l e => f (x.mode l e) (x.num 0 l e)) :=
  laneDoes_elems ha hi

theorem laneDoes_float2 {f : RMode → Machine.Num → Machine.Num → Coded} (ha : actsOn s w)
    (hi : exec i s = float2 s o rok f) : laneDoes s w o i rok [(o.a, o.fmt), (o.b, o.fmt)]
      (HasElems o.fmt fun x l e => f (x.mode l e) (x.num 0 l e) (x.num 1 l e)) :=
  laneDoes_elems ha hi

end

/-- Settles O33: every form computes its result element by element with the function that the statement names
(`laneDoes_elems`). -/
theorem laneFloatResults : Obligations.LaneFloatResults := by
  unfold Obligations.LaneFloatResults
  intro s w o ha gives
  constructor
  · show ∀ e ∈ floatForms o, laneDoes s w o e.1 e.2.1 e.2.2.1 (HasElems e.2.2.2.1 e.2.2.2.2)
    simp only [floatForms, List.forall_mem_cons]
    exact ⟨laneDoes_float2 ha (exec_fadd o s), laneDoes_float2 ha (exec_fsub o s), laneDoes_float2 ha (exec_fmul o s),
      laneDoes_elems ha (exec_ffma o s), laneDoes_elems ha (exec_fmin o s), laneDoes_elems ha (exec_fmax o s),
      laneDoes_elems ha (exec_fabs o s), laneDoes_elems ha (exec_fneg o s), laneDoes_elems ha (exec_fcpys o s),
      laneDoes_float1 ha (exec_frcp o s), laneDoes_float1 ha (exec_frsq o s), laneDoes_float1 ha (exec_fsqrt o s),
      laneDoes_float1 ha (exec_flog2 o s), laneDoes_float1 ha (exec_ftanh o s), laneDoes_float1 ha (exec_fexpf o s),
      laneDoes_float2 ha (exec_fscale o s), laneDoes_float1 ha (exec_frint o s), laneDoes_elems ha (exec_fclass o s),
      laneDoes_elems ha (by rw [exec_dqnt, execDqnt, fld_low]; rfl), fun _ he => absurd he List.not_mem_nil⟩
  · intro hfmt i hi
    exact laneDoes_elems ha ((exec_dotForm hi s).trans (dotForm_float (dotFmt_float hfmt) s))

end Sys2Proof.Proofs

/-! # Lane compares and conversions (O34) -/

namespace Sys2Proof.Machine

/-! ## Compares (R130) -/

theorem flIf_flNV_ne_zero (c : Bool) : decide (flIf c flNV ≠ 0) = c := by cases c <;> rfl

theorem sigFlags_pair (a b : Num) : decide (sigFlags [a, b] ≠ 0) = (a.isSig || b.isSig) := by
  rw [sigFlags, flIf_flNV_ne_zero, List.any_cons, List.any_cons, List.any_nil, Bool.or_false]

theorem ballot_isBallot (x : LIn) (test : Nat → Bool) (fl : Nat) : Claims.isBallot x (ballot x test fl) test := by
  refine ⟨maskOf fun l => x.c.act.getLsbD l && test l, fun j hj => getLsbD_maskOf _ hj, rfl, fun l hl => ?_, ?_⟩
  · simp only [ballot, lane_mkLanes, if_pos (getLsbD_lt hl), if_pos hl]
  · rfl

/-! ## Conversions (R131, R133) -/

theorem cvtSrc_eq (o : LaneOp) : cvtSrc o = fmtOf (o.mods % 32) := congrArg fmtOf (fld_low _ _)

/-- R133: the elements of a result that replaces one element of a source. -/
theorem elem_perLane_setElem (x : LIn) (f : Fmt) (b : Nat → W32) (j : Nat) (v : Nat → Nat) {l e : Nat}
    (hl : x.c.act.getLsbD l = true) (he : e < fmtCount f) :
    elem f (lane (perLane x f fun l => setElem f (b l) j (v l)).res l) e =
      if e = j then v l % 2 ^ fmtWidth f else elem f (b l) e := by
  rw [perLane_lane x f _ hl, elem_setElem f _ j _ he]

/-! ## Folds (R140) -/

/-- R140: the accumulator after lane j. -/
def foldNext (x : LIn) (op : Nat) (acc : Option W32) (j : Nat) : W32 :=
  match acc with
  | none => x.at 0 j
  | some v => (foldStep x op j v (x.at 0 j)).1

/-- R140: what lane j reads. -/
def foldSeen (x : LIn) (op : Nat) (excl : Bool) (acc : Option W32) (j : Nat) : W32 :=
  if excl then acc.getD (foldIdentity x.o.fmt op) else foldNext x op acc j

/-- R140: what each lane reads, in the order of the lanes. -/
def foldTable (x : LIn) (op : Nat) (excl : Bool) : List Nat → Option W32 → FMap W32
  | [], _ => []
  | j :: r, acc => (j, foldSeen x op excl acc j) :: foldTable x op excl r (some (foldNext x op acc j))

theorem foldLanes_cons (x : LIn) (op : Nat) (excl : Bool) (j : Nat) (r : List Nat) (acc : Option W32)
    (out : List (Nat × W32)) (fl : Nat) : ∃ fl', foldLanes x op excl (j :: r) acc out fl =
      foldLanes x op excl r (some (foldNext x op acc j)) ((j, foldSeen x op excl acc j) :: out) fl' := by
  cases acc <;> exact ⟨_, rfl⟩

/-- R140: the last accumulator, and what the lanes have read. -/
theorem foldLanes_eq (x : LIn) (op : Nat) (excl : Bool) (l : List Nat) (acc : Option W32) (out : List (Nat × W32))
    (fl : Nat) : (foldLanes x op excl l acc out fl).1 = l.foldl (fun a j => some (foldNext x op a j)) acc ∧
      (foldLanes x op excl l acc out fl).2.1.reverse = out.reverse ++ foldTable x op excl l acc := by
  induction l generalizing acc out fl with
  | nil => simp [foldLanes, foldTable]
  | cons j r ih =>
    obtain ⟨fl', hcons⟩ := foldLanes_cons x op excl j r acc out fl
    obtain ⟨hacc, hout⟩ := ih (some (foldNext x op acc j)) ((j, foldSeen x op excl acc j) :: out) fl'
    rw [hcons]
    exact ⟨hacc, by rw [hout]; simp [foldTable]⟩

/-- The accumulator from the second lane on is the left fold of the steps. -/
theorem foldl_foldNext (x : LIn) (op : Nat) (l : List Nat) (v : W32) :
    l.foldl (fun a j => some (foldNext x op a j)) (some v) =
      some (l.foldl (fun acc j => (foldStep x op j acc (x.at 0 j)).1) v) := by
  induction l generalizing v with
  | nil => rfl
  | cons j r ih => exact ih _

theorem fget_foldTable (x : LIn) (op : Nat) (excl : Bool) (pre : List Nat) (l : Nat) (rest : List Nat) (acc : Option W32)
    (h : l ∉ pre) : fget (foldTable x op excl (pre ++ l :: rest) acc) l =
      some (foldSeen x op excl (pre.foldl (fun a j => some (foldNext x op a j)) acc) l) := by
  induction pre generalizing acc with
  | nil => exact if_pos rfl
  | cons j r ih =>
    rw [List.mem_cons, not_or] at h
    exact (if_neg (Ne.symm h.1)).trans (ih _ h.2)

/-- R140: what RED gives every lane of act. -/
theorem red_lane (x : LIn) (op : Nat) {first : Nat} {rest : List Nat} (h : lanesOf x.c.act = first :: rest) :
    (foldLanes x op false (lanesOf x.c.act) none [] 0).1.getD 0 =
      rest.foldl (fun acc j => (foldStep x op j acc (x.at 0 j)).1) (x.at 0 first) := by
  rw [(foldLanes_eq x op false _ none [] 0).1, h, List.foldl_cons, foldl_foldNext]
  rfl

/-- R140: what SCAN gives a lane of act. -/
theorem scan_lane (x : LIn) (op : Nat) (excl : Bool) {pre rest : List Nat} {l : Nat}
    (h : lanesOf x.c.act = pre ++ l :: rest) :
    (fget (foldLanes x op excl (lanesOf x.c.act) none [] 0).2.1.reverse l).getD 0 =
      foldSeen x op excl (pre.foldl (fun a j => some (foldNext x op a j)) none) l := by
  have hnodup := nodup_lanesOf x.c.act
  rw [h, List.nodup_append] at hnodup
  have hnot : l ∉ pre := fun hl => hnodup.2.2 l hl l List.mem_cons_self rfl
  rw [(foldLanes_eq x op excl _ none [] 0).2, List.reverse_nil, List.nil_append, h,
    fget_foldTable x op excl pre l rest none hnot]
  rfl

end Sys2Proof.Machine

namespace Sys2Proof.Proofs

open Sys2Proof.Machine Sys2Proof.Claims

theorem laneCompares : LaneCompares := by
  intro s w o ha el un bad holds
  have hcond : ∀ u c, condOf (fld o.mods 3 0) u c = holds u c := fun u c => by
    rw [fld_low]
    rfl
  refine ⟨laneRun_does s w o _ false _ _ _ ha (exec_icmp o s) fun x _ _ _ _ => ⟨rfl, ?_⟩,
    laneRun_does s w o _ false _ _ _ ha (exec_fcmp o s) fun x _ _ _ _ => ⟨?_, ?_⟩⟩
  · simp only [hcond]
    exact ballot_isBallot x _ _
  · simp only [hcond]
    exact ballot_isBallot x _ _
  · simp only [ballot, sigFlags_pair, lanesOf_any, bitAt_eq_testBit]
    rfl

theorem laneConversions : LaneConversions := by
  intro s w o ha
  have hpos : o.mods % 8 = fld o.mods 2 0 := (fld_low o.mods 2).symm
  simp only [← bitAt_eq_testBit, ← cvtSrc_eq, hpos]
  refine ⟨laneRun_does s w o _ true _ _ _ ha (exec_cvt o s) fun x _ _ _ _ => ?_,
    laneRun_does s w o _ true _ _ _ ha (exec_qnt o s) fun x _ _ _ _ => ?_,
    laneRun_does s w o _ true _ _ _ ha (exec_red o s) fun x _ _ _ _ => ?_,
    laneRun_does s w o _ true _ _ _ ha (exec_scan o s) fun x _ ho _ _ => ?_⟩
  · by_cases hsrc : cvtSrc o = .b32
    · rw [if_pos hsrc]
      exact ⟨rfl, rfl, fun _ => ⟨rfl, fun l hl => perLane_lane x _ _ hl⟩, fun h => absurd hsrc h⟩
    · rw [if_neg hsrc]
      exact ⟨rfl, rfl, fun h => absurd h hsrc, fun _ l e hl he => perElem_elem x _ _ hl he⟩
  · cases bitAt o.mods 4
    · simp only [Bool.false_eq_true, if_false]
      refine ⟨rfl, rfl, fun l e hl he => ?_⟩
      rw [elem_perLane_setElem x _ _ _ _ hl he]
      exact ite_congr rfl (fun hj => by rw [hj]) fun _ => rfl
    · simp only [if_true]
      refine ⟨rfl, rfl, fun l e hl he => ?_⟩
      rw [elem_perLane_setElem x _ _ _ _ hl he]
  · refine ⟨rfl, rfl, fun first rest h l hl => ?_⟩
    dsimp only
    rw [perLane_lane x _ _ hl, red_lane x _ h]
  · refine ⟨rfl, rfl, fun first rest h => ?_, fun first pre l rest h => ?_⟩
    · have hl : x.c.act.getLsbD first = true := (mem_lanesOf _ _).mp (by simp [h])
      dsimp only
      rw [perLane_lane x _ _ hl, scan_lane x _ _ (pre := []) h, ← ho]
      rfl
    · have hl : x.c.act.getLsbD l = true := (mem_lanesOf _ _).mp (by simp [h])
      dsimp only
      rw [perLane_lane x _ _ hl, scan_lane x _ _ (pre := first :: pre) h, List.foldl_cons, foldl_foldNext]
      rfl

/-- Settles O34: FCMP and ICMP deliver a ballot (`ballot_isBallot`); CVT and QNT are made element by element; RED and SCAN read
the fold over the lanes of act (`red_lane`, `scan_lane`). -/
theorem laneComparesAndConversions : Obligations.LaneComparesAndConversions := by
  unfold Obligations.LaneComparesAndConversions
  exact ⟨laneCompares, laneConversions⟩

end Sys2Proof.Proofs

/-! # FENCE (O16) -/

namespace Sys2Proof.Machine

open Sys2Proof.Claims

/-! ## The wait of FENCE (R154) -/

/-- R154: the accesses of a path that FENCE waits for, operation by operation. -/
theorem performedAll_iff (s : State) (u : Nat) (pf wide : Bool) :
    performedAll s u pf wide = true ↔
      (∀ o ∈ s.ops, owns o u pf = true → ∀ m, o.body = .mem m → memPerformed m wide = true) ∧
      ∀ o ∈ s.ops, owns o u pf = true → (∃ m, o.body = .mem m) ∨ (∃ l, o.body = .batch l) ∨ (∃ c, o.body = .coll c) ∨
        ∃ va n, o.body = .pois va n [] [] := by
  rw [performedAll, List.all_eq_true]
  refine Iff.trans (forall₂_congr fun o _ => ?_) forall₂_and
  cases hown : owns o u pf with
  | false => simp
  | true => cases hbody : o.body <;> simp

theorem fenceReady_iff (s : State) (u : Nat) (pf : Bool) (scope : Nat) :
    fenceReady s u pf scope = true ↔ performedAll s u pf (5 ≤ scope) = true ∧ (5 ≤ scope → counter s u pf .fb = 0) := by
  by_cases h : 5 ≤ scope
  · simp [fenceReady, h, not_lt.mpr h]
  · simp [fenceReady, h, not_le.mp h]

/-- R154, R233: an instruction that breaks a spin and goes on. -/
theorem retire_breakSpin (s : State) (w : Warp) :
    ∃ t, retire s (breakSpin w s.cur.path) = .next t ∧ scalarStep s t w 0 0 (nextPc s w) := by
  have h := scalarStep_goto s w 0 0 (nextPc s w) (fun p => { p with spin := { p.spin with count := 0 } }) fun _ => rfl
  rw [wx_zero] at h
  have hpc : ((breakSpin w s.cur.path).path s.cur.path).pc + 4 = nextPc s w := by rw [breakSpin, path_modPath]; rfl
  refine ⟨_, rfl, ?_⟩
  rw [advance, hpc]
  exact h

/-- R154: FENCE on a live path whose clauses have issued. -/
theorem execFence_eq {s : State} {w : Warp} {scope : Nat} (hw : actsOn s w) (hi : allIssued (actPath s w) = true) :
    execFence scope s =
      if scope = 6 ∧ (actPath s w).batch ≠ [] then
        if counter s s.cur.warp s.cur.path .sh < 255 then
          .next (modWarp (closeBatch s s.cur.warp s.cur.path) s.cur.warp endRegion)
        else stall s
      else if fenceReady s s.cur.warp s.cur.path scope = true ∧ (scope = 6 → counter s s.cur.warp s.cur.path .sh = 0)
      then retire (if scope = 0 then s else l1DropCore s (coreKey w)) (breakSpin w s.cur.path)
      else stall s := by
  rw [execFence, onPath_live s w hw]
  by_cases hleft : scope = 6 ∧ (actPath s w).batch ≠ []
  · obtain ⟨hscope, hb⟩ := hleft
    by_cases hn : counter s s.cur.warp s.cur.path .sh < 255 <;> simp [hi, hscope, hb, hn, mayClose]
  · rw [if_neg hleft]
    have hgo : ¬(scope = 6 ∧ mayClose s s.cur.warp s.cur.path (actPath s w) = false) := by
      rintro ⟨hscope, hm⟩
      rw [mayClose_empty (not_not.mp fun hb => hleft ⟨hscope, hb⟩)] at hm
      cases hm
    have hclosed : ¬(scope = 6 ∧ ¬(actPath s w).batch = []) := hleft
    simp [hi, hgo, hclosed, or_iff_not_imp_left]

/-- R154, R179, R255: a batch that FENCE closes at FABRIC: the region of the warp ends, and FENCE issues again. -/
theorem fenceClosed (s : State) (w : Warp) (hw : actsOn s w) (hb : (actPath s w).batch ≠ []) :
    let w' := endRegion (batchless w s.cur.path)
    let t := modWarp (closeBatch s s.cur.warp s.cur.path) s.cur.warp endRegion
    fget t.warps s.cur.warp = some w' ∧ batchClosed s t w w' ∧ w'.nidem = true ∧ (actPath s w').pc = (actPath s w).pc ∧
      (actPath s w').x = (actPath s w).x ∧ w'.regs = w.regs := by
  intro w' t
  have ht : t = putWarp (batchIssued s s.cur.warp s.cur.path w) s.cur.warp w' := modWarp_closeBatch hw.1 _
  have hpath : actPath s w' = { actPath s w with batch := [] } := batchless_path w s.cur.path
  rw [ht, hpath]
  refine ⟨fget_putWarp .., ?_, rfl, rfl, rfl, modPath_regs ..⟩
  exact batchClosed_of_ops (g := id) hb (List.map_id _).symm (fun _ => ⟨rfl, rfl, rfl⟩) rfl (batchIssued_mem ..)
    (congrArg Path.batch hpath)

end Sys2Proof.Machine

namespace Sys2Proof.Proofs

open Sys2Proof.Machine Sys2Proof.Claims

/-- Settles O16: FENCE closes a batch, goes on or waits (`execFence_eq`), by what `performedAll_iff` says of the path's
operations. -/
theorem fenceWaits : Obligations.FenceWaits := by
  unfold Obligations.FenceWaits
  intro s w scope hw hscope hi left performed others done
  have hdone : done ↔ fenceReady s s.cur.warp s.cur.path scope = true ∧
      (scope = 6 → counter s s.cur.warp s.cur.path .sh = 0) := by
    rw [fenceReady_iff, performedAll_iff, and_assoc, and_assoc]
  rw [waits, runs, runs, exec_fence, execFence_eq hw hi]
  refine ⟨fun hl hn => ?_, fun hl hn => ?_, fun hl hd => ?_, fun hl hd => ?_⟩
  · rw [if_pos hl, if_neg (not_lt.mpr hn)]; rfl
  · rw [if_pos hl, if_pos hn]
    exact ⟨_, rfl, _, fenceClosed s w hw hl.2⟩
  · rw [if_neg hl, if_pos (hdone.mp hd)]
    by_cases h0 : scope = 0
    · rw [if_pos h0]
      exact retire_breakSpin s w
    · rw [if_neg h0]
      exact retire_breakSpin (l1DropCore s (coreKey w)) w
  · rw [if_neg hl, if_neg (mt hdone.mpr hd)]; rfl

end Sys2Proof.Proofs

/-! # Lane loads, stores and atomics at issue (O35) -/

namespace Sys2Proof.Machine

open Sys2Proof.Claims

/-! ## Addresses (R143) -/

theorem effAddr_eq (c : LCtx) (o : LaneOp) (a : W32) (unit : Nat) : effAddr c o a unit = laneAddress c o a unit := by
  have hbase : BitVec.ofInt 64 (memBase c o) =
      (if o.mods / 2 ^ 18 % 64 = 0 then 0 else fgetD 0 c.x (o.mods / 2 ^ 18 % 64) : W64) := by
    rw [BitVec.ofInt_natCast, memBase]
    show BitVec.ofNat 64 (if o.mods / 2 ^ 18 % 64 = 0 then 0 else (fgetD 0 c.x (o.mods / 2 ^ 18 % 64) : W64).toNat) = _
    split
    · rfl
    · exact BitVec.ofNat_toNat ..
  have hoff : BitVec.ofInt 64 (if bitAt o.mods 17 then a.toInt else (a.toNat : Int)) =
      if o.mods.testBit 17 then a.signExtend 64 else a.setWidth 64 := by
    rw [bitAt_eq_testBit]
    split
    · rfl
    · rw [BitVec.ofInt_natCast]; exact BitVec.ofNat_toNat ..
  have himm : BitVec.ofInt 64 (sext 8 (fld o.mods 7 0)) = (BitVec.ofNat 8 o.mods).signExtend 64 := by
    have hlow : BitVec.ofNat 8 (o.mods % 2 ^ 8) = BitVec.ofNat 8 o.mods := by
      apply BitVec.eq_of_toNat_eq
      simp
    rw [fld_low, ← hlow]
    exact w64_sext 8 _
  simp only [effAddr, laneAddress, w64]
  rw [BitVec.ofInt_add, BitVec.ofInt_add, BitVec.ofInt_mul, hbase, hoff, himm, BitVec.ofInt_natCast]

/-- R143: the addresses of an instruction do not depend on the sources that it has read. -/
theorem effAddr_lctx {s : State} {w : Warp} {o : LaneOp} {c : LCtx} {v : List Lanes}
    (hc : c = { lctx s w (actPath s w) o with srcs := v }) : effAddr c o = laneAddress (lctx s w (actPath s w) o) o := by
  funext a unit
  rw [effAddr_eq, hc]
  rfl

/-! ## Room (R29, R30) -/

theorem issueRoom_iff {s : State} {c : LCtx} {o : LaneOp} {space : Space} (hu : c.uid = s.cur.warp) (hp : c.pf = s.cur.path) :
    issueRoom s c (spaceCtr space) o.flag = true ↔ memRoom s o space := by
  rw [issueRoom, memRoom, hu, hp]
  cases o.flag <;> simp

theorem mem_remoteLanes (m : LaneMem) {l : Nat} (hl : l < 32) :
    (remoteLanes m).getLsbD l = true ↔ m.space ≠ .sp ∧ ∃ a ∈ m.accs, a.lane = l ∧ isLocal a.addr = false := by
  rw [remoteLanes, getLsbD_maskOf _ hl, List.any_eq_true]
  simp only [Bool.and_eq_true, decide_eq_true_eq, Bool.not_eq_true']
  exact ⟨fun ⟨a, ha, ⟨hal, hfar⟩, hsp⟩ => ⟨hsp, a, ha, hal, hfar⟩, fun ⟨hsp, a, ha, hal, hfar⟩ => ⟨a, ha, ⟨hal, hfar⟩, hsp⟩⟩

/-- R30: an operation has lanes on another module. -/
theorem remoteLanes_ne_zero {m : LaneMem} (hlane : ∀ a ∈ m.accs, a.lane < 32) :
    remoteLanes m ≠ 0 ↔ m.space ≠ .sp ∧ ∃ a ∈ m.accs, isLocal a.addr = false := by
  constructor
  · intro hne
    have hbit : ∃ l, l < 32 ∧ (remoteLanes m).getLsbD l = true := by
      by_contra hno
      refine hne (BitVec.eq_of_getLsbD_eq fun l hl => ?_)
      exact (Bool.eq_false_iff.mpr fun h => hno ⟨l, hl, h⟩).trans BitVec.getLsbD_zero.symm
    obtain ⟨l, hl, h⟩ := hbit
    obtain ⟨hsp, a, ha, -, hfar⟩ := (mem_remoteLanes m hl).mp h
    exact ⟨hsp, a, ha, hfar⟩
  · rintro ⟨hsp, a, ha, hfar⟩ hzero
    have h := (mem_remoteLanes m (hlane a ha)).mpr ⟨hsp, a, ha, rfl, hfar⟩
    rw [hzero] at h
    exact absurd h (by simp)

/-! ## Accesses (R146) -/

/-- The accesses of the lanes of act, each at its home. -/
theorem mem_laneAccs {act : W32} {f : Nat → LaneAcc} {a : LaneAcc} :
    a ∈ (lanesOf act).map f ↔ ∃ l, act.getLsbD l = true ∧ a = f l := by
  simp only [List.mem_map, mem_lanesOf, eq_comm]

/-- R146: of lanes that write to one address, the highest writes. -/
theorem mem_storeAccs {act : W32} {home : Nat → Nat} {size : Nat} {d : Nat → W32} {a : LaneAcc} :
    a ∈ storeAccs ((lanesOf act).map fun l => laneAcc l (home l) size (d l) 0) ↔
      ∃ l, act.getLsbD l = true ∧ a = laneAcc l (home l) size (d l) 0 ∧
        ∀ j, l < j → act.getLsbD j = true → home j ≠ home l := by
  have hany : ∀ l, (((lanesOf act).map fun j => laneAcc j (home j) size (d j) 0).any fun b =>
      (laneAcc l (home l) size (d l) 0).lane < b.lane && (laneAcc l (home l) size (d l) 0).addr = b.addr) = true ↔
      ∃ j, l < j ∧ act.getLsbD j = true ∧ home j = home l := by
    intro l
    simp only [List.any_eq_true, mem_laneAccs, Bool.and_eq_true, decide_eq_true_eq]
    exact ⟨fun ⟨_, ⟨j, hj, rfl⟩, hlt, heq⟩ => ⟨j, hlt, hj, heq.symm⟩,
      fun ⟨j, hlt, hj, heq⟩ => ⟨_, ⟨j, hj, rfl⟩, hlt, heq.symm⟩⟩
  simp only [storeAccs, List.mem_filter, mem_laneAccs, Bool.not_eq_true', Bool.eq_false_iff]
  constructor
  · rintro ⟨⟨l, hl, rfl⟩, hno⟩
    exact ⟨l, hl, rfl, fun j hlt hj heq => hno ((hany l).mpr ⟨j, hlt, hj, heq⟩)⟩
  · rintro ⟨l, hl, rfl, hno⟩
    exact ⟨⟨l, hl, rfl⟩, fun h => by obtain ⟨j, hlt, hj, heq⟩ := (hany l).mp h; exact hno j hlt hj heq⟩

/-- R146: what some lane of act stores to an address, the highest such lane stores there. -/
theorem exists_highest {act : W32} (home : Nat → Nat) {l : Nat} (hl : act.getLsbD l = true) :
    ∃ h, act.getLsbD h = true ∧ home h = home l ∧ ∀ j, h < j → act.getLsbD j = true → home j ≠ home h := by
  let P := fun j => act.getLsbD j = true ∧ home j = home l
  have hspec : P (Nat.findGreatest P 32) := Nat.findGreatest_spec (getLsbD_lt hl).le ⟨hl, rfl⟩
  refine ⟨Nat.findGreatest P 32, hspec.1, hspec.2, fun j hlt hj heq => ?_⟩
  exact Nat.findGreatest_is_greatest hlt (getLsbD_lt hj).le ⟨hj, heq.trans hspec.2⟩

/-! ## Homes (R145) -/

theorem fget_laneTable {α : Type} (g : Nat → α) {ls : List Nat} {l : Nat} (hl : l ∈ ls) :
    fget (ls.map fun j => (j, g j)) l = some (g l) := by
  induction ls with
  | nil => cases hl
  | cons j r ih =>
    rw [List.map_cons, fget_cons]
    by_cases hj : j = l
    · rw [if_pos hj, hj]
    · rw [if_neg hj, ih ((List.mem_cons.mp hl).resolve_left (Ne.symm hj))]

theorem fgetD_laneTable {α : Type} (dflt : α) (g : Nat → α) {act : W32} {l : Nat} (hl : act.getLsbD l = true) :
    fgetD dflt ((lanesOf act).map fun j => (j, g j)) l = g l := by
  rw [fgetD, fget_laneTable g ((mem_lanesOf _ _).mpr hl)]
  rfl

theorem firstCause_none {act : W32} {f : Nat → Option Nat} (h : ∀ l, act.getLsbD l = true → f l = none) :
    firstCause act f = none := by
  have hfind : (lanesOf act).find? (fun l => (f l).isSome) = none := by
    rw [List.find?_eq_none]
    intro l hl
    simp [h l ((mem_lanesOf _ _).mp hl)]
  rw [firstCause, hfind]

/-- R145: every lane of act translates. -/
theorem placeLanes_ok {s : State} {c : LCtx} {space : Space} {acc : Acc} {eas home : Nat → Nat}
    (h : ∀ l, c.act.getLsbD l = true → laneXlate s c space acc (laneVa s c.w space l (eas l)) = .ok (home l)) :
    placeLanes s c space acc eas = .ok ((lanesOf c.act).map fun l => (l, home l)) := by
  have hres : ((lanesOf c.act).map fun l => (l, laneXlate s c space acc (laneVa s c.w space l (eas l)))) =
      (lanesOf c.act).map fun l => (l, XRes.ok (home l)) :=
    List.map_congr_left fun l hl => by rw [h l ((mem_lanesOf _ _).mp hl)]
  simp only [placeLanes]
  rw [hres, firstCause_none, List.find?_eq_none.mpr]
  · simp [Function.comp_def]
  · simp
  · exact fun l hl => by rw [fgetD_laneTable _ _ hl]

theorem trapsLaneAt_lctx {i : Instr} {s : State} {w : Warp} {o : LaneOp} {c : LCtx} {v : List Lanes} {cause : Nat} {m : W32}
    {va : W64} (hc : c = { lctx s w (actPath s w) o with srcs := v }) (hi : exec i s = trapL s c cause m va) :
    trapsLaneAt i s (lctx s w (actPath s w) o) cause m va := by
  have h := trapsLaneAt_trapL i s c cause m va hi
  rw [hc] at h
  exact h

/-- R145: what the checks of an access do, and how the access goes on with the homes of its lanes. -/
theorem checkLanes_checked {i : Instr} {s : State} {w : Warp} {o : LaneOp} {c : LCtx} {v : List Lanes} {space : Space} {acc : Acc}
    {size : Nat} {ea : Nat → Nat} {k : FMap Nat → Out} {P : (Nat → Nat) → Prop}
    (hc : c = { lctx s w (actPath s w) o with srcs := v }) (hi : exec i s = checkLanes s c space acc size ea k)
    (hk : ∀ h home, (∀ l, (lctx s w (actPath s w) o).act.getLsbD l = true → fgetD 0 h l = home l) → exec i s = k h → P home) :
    laneChecked i s (lctx s w (actPath s w) o) space acc size ea P := by
  have hact : c.act = (lctx s w (actPath s w) o).act := (congrArg LCtx.act hc :)
  have hw : c.w = (lctx s w (actPath s w) o).w := (congrArg LCtx.w hc :)
  rw [checkLanes, hact, hw] at hi
  refine ⟨fun e m l hal => ?_, fun hal => ⟨fun e m l hbo => ?_, fun hbo => ⟨fun hsp => ?_, fun hsp home hok => ?_⟩⟩⟩
  · rw [hal] at hi
    exact trapsLaneAt_lctx hc hi
  all_goals rw [hal] at hi; dsimp only at hi; rw [hbo] at hi; dsimp only at hi
  · exact trapsLaneAt_lctx hc hi
  · rw [if_pos hsp] at hi
    exact hk _ _ (fun l hl => fgetD_laneTable 0 ea hl) hi
  · have hplace : placeLanes s c space acc ea = .ok ((lanesOf c.act).map fun l => (l, home l)) := by
      rw [hc]
      exact placeLanes_ok hok
    rw [if_neg hsp, hplace, hact] at hi
    exact hk _ _ (fun l hl => fgetD_laneTable 0 home hl) hi

/-! ## The end of a lane instruction that has issued an operation (R147) -/

/-- R98, R233: a warp whose path has issued a memory instruction: a spin is broken, and the region ends when `ends` says so. -/
def issuedWarp (w : Warp) (pf ends : Bool) : Warp := { breakSpin w pf with nidem := ends || w.nidem }

theorem breakSpin_eq_issuedWarp (w : Warp) (pf : Bool) : breakSpin w pf = issuedWarp w pf false := by cases pf <;> rfl

theorem issuedWarp_path (w : Warp) (pf ends : Bool) :
    (issuedWarp w pf ends).path pf = { w.path pf with spin := { (w.path pf).spin with count := 0 } } := by
  cases pf <;> rfl

theorem issuedWarp_path_other (w : Warp) (pf ends : Bool) : (issuedWarp w pf ends).path (!pf) = w.path (!pf) := by
  cases pf <;> rfl

theorem issuedWarp_frame (w : Warp) (pf ends : Bool) : { issuedWarp w pf ends with a := w.a, b := w.b, nidem := w.nidem } = w := by
  cases pf <;> rfl

theorem issuedWarp_block (w : Warp) (pf ends : Bool) : (issuedWarp w pf ends).block = w.block := by cases pf <;> rfl

section

variable {s : State} (c : LCtx) (x : Warp) (res : Lanes) (tag : Fmt) (pend : Option Nat) (fl : Nat)

theorem laneEndWarp_actPath_of (hp : c.pf = s.cur.path) :
    actPath s (laneEndWarp c x res tag pend fl) = nextWord c (laneAged c (actPath s x) res tag pend) := by
  rw [actPath, actPath, ← hp]
  exact laneEndWarp_path ..

theorem laneEndWarp_other_of (hp : c.pf = s.cur.path) :
    (laneEndWarp c x res tag pend fl).path (!s.cur.path) = x.path (!s.cur.path) := by
  rw [← hp]
  exact laneEndWarp_other ..

theorem laneEnd_next_of {u : State} (hu : c.uid = s.cur.warp) (hp : c.pf = s.cur.path) (hr : (actPath s x).residue = false) :
    laneEnd u c x res tag pend fl = .next (pushReplay (putWarp u s.cur.warp (laneEndWarp c x res tag pend fl)) c) := by
  rw [laneEnd_next u c x res tag pend fl (by rw [hp]; exact hr), hu]

end

section

variable (s : State) (w : Warp) (o : LaneOp) (v : List Lanes) (ends : Bool) (tag : Fmt) (pend : Option Nat)

/-- The warp after the end of a memory instruction at issue. -/
def memEndWarp : Warp :=
  laneEndWarp { lctx s w (actPath s w) o with srcs := v } (issuedWarp w s.cur.path ends) zeroLanes tag pend 0

theorem memEndWarp_path : actPath s (memEndWarp s w o v ends tag pend) =
    nextWord (lctx s w (actPath s w) o) (laneAged (lctx s w (actPath s w) o)
      { actPath s w with spin := { (actPath s w).spin with count := 0 } } zeroLanes tag pend) := by
  have h := laneEndWarp_actPath_of { lctx s w (actPath s w) o with srcs := v } (issuedWarp w s.cur.path ends) zeroLanes tag
    pend 0 (lctx_pf s w (actPath s w) o)
  exact h.trans (congrArg (fun p => nextWord _ (laneAged _ p zeroLanes tag pend)) (issuedWarp_path w s.cur.path ends))

theorem memEndWarp_other : (memEndWarp s w o v ends tag pend).path (!s.cur.path) = w.path (!s.cur.path) :=
  (laneEndWarp_other_of { lctx s w (actPath s w) o with srcs := v } _ _ _ _ _ (lctx_pf s w (actPath s w) o)).trans
    (issuedWarp_path_other w s.cur.path ends)

theorem memEndWarp_frame : { memEndWarp s w o v ends tag pend with a := w.a, b := w.b, nidem := w.nidem } = w ∧
    (memEndWarp s w o v ends tag pend).nidem = (ends || w.nidem) := by
  have hframe := laneEndWarp_frame { lctx s w (actPath s w) o with srcs := v } (issuedWarp w s.cur.path ends) zeroLanes tag
    pend 0
  have hmode : (memEndWarp s w o v ends tag pend).wmode = (issuedWarp w s.cur.path ends).wmode := by
    rw [memEndWarp, laneEndWarp_wmode, raiseFlags]
    exact BitVec.or_zero
  change { memEndWarp s w o v ends tag pend with
    a := (issuedWarp w s.cur.path ends).a, b := (issuedWarp w s.cur.path ends).b,
    wmode := (issuedWarp w s.cur.path ends).wmode } = _ at hframe
  rw [← hmode] at hframe
  have hkept : { memEndWarp s w o v ends tag pend with a := w.a, b := w.b, nidem := w.nidem } =
      { issuedWarp w s.cur.path ends with a := w.a, b := w.b, nidem := w.nidem } :=
    congrArg (fun x : Warp => { x with a := w.a, b := w.b, nidem := w.nidem }) hframe
  exact ⟨hkept.trans (issuedWarp_frame w s.cur.path ends), congrArg Warp.nidem hframe⟩

theorem memEndWarp_age : (actPath s (memEndWarp s w o v ends tag pend)).age =
    shiftAge (actPath s w).age (lctx s w (actPath s w) o).act zeroLanes tag pend := by
  rw [memEndWarp_path, nextWord_frame]
  rfl

theorem memEndWarp_nextWordOf :
    nextWordOf s w (memEndWarp s w o v ends tag pend) (lctx s w (actPath s w) o) (lctx s w (actPath s w) o).k :=
  nextWordOf_lctx s w _ o none _ (memEndWarp_path s w o v ends tag pend) rfl

theorem memEndWarp_ended {u : State} (hu : u = { s with free := u.free, parts := u.parts, ops := u.ops, next := u.next }) :
    laneEnded s (pushReplay (putWarp u s.cur.warp (memEndWarp s w o v ends tag pend)) { lctx s w (actPath s w) o with srcs := v })
      w (memEndWarp s w o v ends tag pend) := by
  refine ⟨?_, ?_, ?_, ?_, memEndWarp_other .., ?_⟩
  · rw [hu]; rfl
  · rw [hu]; rfl
  · rw [hu]; rfl
  · rw [hu]; rfl
  · rw [memEndWarp_path, nextWord_frame]; rfl

/-- R119: where no residue mismatch is armed, the end of a memory instruction leaves that warp. -/
theorem laneEnd_memEndWarp (u : State) (hr : (actPath s w).residue = false) :
    laneEnd u { lctx s w (actPath s w) o with srcs := v } (issuedWarp w s.cur.path ends) zeroLanes tag pend 0 =
      .next (pushReplay (putWarp u s.cur.warp (memEndWarp s w o v ends tag pend)) { lctx s w (actPath s w) o with srcs := v }) := by
  refine laneEnd_next_of _ _ _ _ _ _ (lctx_uid s w _ o) (lctx_pf s w _ o) ?_
  rw [actPath, issuedWarp_path]
  exact hr

theorem fget_pushReplay_putWarp (u : State) (c : LCtx) (x : Warp) (n : Nat) :
    fget (pushReplay (putWarp u n x) c).warps n = some x := fget_putWarp ..

/-- R13: a memory instruction whose act is empty. -/
theorem emptyMem_runs {i : Instr} {x : LIn} {space : Space} (hc : x.c = { lctx s w (actPath s w) o with srcs := v })
    (ho : x.o = o) (h0 : (lctx s w (actPath s w) o).act = 0)
    (hi : exec i s = emptyMem s x space (issuedWarp w s.cur.path ends) tag) :
    (¬memRoom s o space → waits i s) ∧ (memRoom s o space → (actPath s w).residue = false →
      runs i s fun t => laneEmpty s t w (lctx s w (actPath s w) o) ends) := by
  have hroom : issueRoom s x.c (spaceCtr space) x.o.flag = true ↔ memRoom s o space := by
    rw [hc, ho]
    exact issueRoom_iff (lctx_uid ..) (lctx_pf ..)
  rw [emptyMem] at hi
  refine ⟨fun hno => ?_, fun hyes hr => ?_⟩
  · rw [waits, hi, if_pos (by simpa using mt hroom.mp hno)]; rfl
  · rw [if_neg (by simpa using hroom.mpr hyes), hc, laneEnd_memEndWarp _ _ _ _ _ _ _ _ hr] at hi
    obtain ⟨q, hq, hold, -, hkeep⟩ := shiftAge_pushed (actPath s w).age (lctx s w (actPath s w) o).act zeroLanes tag none
    obtain ⟨hframe, hnidem⟩ := memEndWarp_frame s w o v ends tag none
    refine ⟨_, hi, _, memEndWarp_ended s w o v ends tag none rfl, rfl, rfl, hframe, hnidem,
      ⟨q, (memEndWarp_age ..).trans hq, fun old rest h => ?_⟩, memEndWarp_nextWordOf ..⟩
    obtain ⟨hvalid, htag, hpend⟩ := hkeep h0 old rest h
    refine ⟨hvalid, htag, hpend, fun l hl => ?_⟩
    rw [(hold old rest h).2 l hl, h0]
    simp

/-- R147: the issue of an operation; `far` says that it has lanes to write on another module. -/
theorem issueMem_runs {i : Instr} {x : LIn} {m : LaneMem} {pends : Bool} {far : Prop}
    (hc : x.c = { lctx s w (actPath s w) o with srcs := v }) (ho : x.o = o)
    (hfar : far ↔ storesOrAtom m = true ∧ remoteLanes m ≠ 0)
    (hi : exec i s = issueMem s x (issuedWarp w s.cur.path ends) m tag pends) :
    (¬memRoom s o m.space → waits i s) ∧ (far → 255 ≤ fbDue s s.cur.warp s.cur.path → waits i s) ∧
    (memRoom s o m.space → (far → fbDue s s.cur.warp s.cur.path < 255) → (actPath s w).residue = false →
      runs i s fun t => (fget t.warps s.cur.warp).map (·.nidem) = some (ends || w.nidem) ∧
        memIssued s t w (lctx s w (actPath s w) o) o m tag pends) := by
  have hroom : issueRoom s x.c (spaceCtr m.space) x.o.flag = true ↔ memRoom s o m.space := by
    rw [hc, ho]
    exact issueRoom_iff (lctx_uid ..) (lctx_pf ..)
  have hfb : fbRoom s x.c m = true ↔ (far → fbDue s s.cur.warp s.cur.path < 255) := by
    rw [hfar, fbRoom, hc]
    dsimp only
    rw [lctx_uid, lctx_pf]
    cases storesOrAtom m <;> simp [or_iff_not_imp_left]
  rw [issueMem] at hi
  refine ⟨fun hno => ?_, fun hf hfull => ?_, fun hyes hdue hr => ?_⟩
  · rw [waits, hi, if_pos (by rw [Bool.eq_false_iff.mpr (mt hroom.mp hno)]; rfl)]; rfl
  · have hnot : fbRoom s x.c m = false := Bool.eq_false_iff.mpr fun h => Nat.not_lt.mpr hfull (hfb.mp h hf)
    rw [waits, hi, if_pos (by rw [hnot, Bool.not_false, Bool.or_true])]; rfl
  · rw [if_neg (by rw [hroom.mpr hyes, hfb.mpr hdue]; decide), hc, ho, laneEnd_memEndWarp _ _ _ _ _ _ _ _ hr] at hi
    obtain ⟨q, hq, hold, hnew, -⟩ := shiftAge_pushed (actPath s w).age (lctx s w (actPath s w) o).act zeroLanes tag
      (if pends then some s.next else none)
    obtain ⟨hframe, hnidem⟩ := memEndWarp_frame s w o v ends tag (if pends then some s.next else none)
    refine ⟨_, hi, ?_, ?_, rfl, _, memEndWarp_ended s w o v ends tag _ rfl, hframe, ?_, memEndWarp_nextWordOf ..⟩
    · rw [fget_pushReplay_putWarp, Option.map_some, hnidem]
    · dsimp only
      rw [lctx_uid, lctx_pf, issuedWarp_block]
      rfl
    · refine ⟨q, (memEndWarp_age ..).trans hq, fun old rest h => ⟨(hold old rest h).1, fun l hl => ?_⟩, hnew⟩
      rw [(hold old rest h).2 l hl, zeroLanes, lane, List.getD_replicate _ hl]

end

/-! ## Accesses on other modules (R30) -/

/-- R30: an operation whose accesses are those of the lanes of act, or the highest for each address, has lanes on another
module when some lane of act has its home there. -/
theorem memOp_remote {x : LIn} {kind : MemKind} {space : Space} {accs : List LaneAcc} {eas home : Nat → Nat} {s : State}
    {act : W32} {acc : Nat → LaneAcc} {only : Prop} (hacc : ∀ l, (acc l).lane = l ∧ (acc l).addr = home l)
    (hmem : ∀ a, a ∈ accs ↔ ∃ l, act.getLsbD l = true ∧ a = acc l ∧
      (only → ∀ j, l < j → act.getLsbD j = true → home j ≠ home l)) :
    remoteLanes (memOp x kind space accs eas s) ≠ 0 ↔
      space ≠ .sp ∧ ∃ l, act.getLsbD l = true ∧ isLocal (home l) = false := by
  have hlane : ∀ a ∈ accs, a.lane < 32 := by
    intro a ha
    obtain ⟨l, hl, rfl, -⟩ := (hmem a).mp ha
    rw [(hacc l).1]
    exact getLsbD_lt hl
  refine (remoteLanes_ne_zero hlane).trans (and_congr_right fun _ => ⟨?_, ?_⟩)
  · rintro ⟨a, ha, hfar⟩
    obtain ⟨l, hl, rfl, -⟩ := (hmem a).mp ha
    rw [(hacc l).2] at hfar
    exact ⟨l, hl, hfar⟩
  · rintro ⟨l, hl, hfar⟩
    obtain ⟨h, hh, heq, hmax⟩ := exists_highest home hl
    exact ⟨acc h, (hmem _).mpr ⟨h, hh, rfl, fun _ => hmax⟩, by rw [(hacc h).2, heq, hfar]⟩

/-! ## The shared frame of memory instructions (R82) -/

theorem laneGuard_empty {x : LIn} {tag : Fmt} {k : Out} (h0 : x.c.act = 0) (hq : x.qbad = false) (hr : x.rbad = false) :
    laneGuard x tag k = k := by
  simp [laneGuard, h0, hq, hr]

section

variable {s : State} {w : Warp} {o : LaneOp} {i : Instr} {srcs : List (Src × Fmt)} {tag : Fmt} {f : LIn → Out}

/-- R13: a memory instruction whose act is empty reads nothing and meets no tag rule. -/
theorem exists_emptyIn (ha : actsOn s w) (h0 : (lctx s w (actPath s w) o).act = 0)
    (hi : exec i s = laneRead s o false srcs fun x => laneGuard x tag (f x)) :
    ∃ x : LIn, x.c = { lctx s w (actPath s w) o with srcs := x.c.srcs } ∧ x.o = o ∧ exec i s = f x := by
  refine ⟨{ s := s, c := lctx s w (actPath s w) o, o := o, rok := false, vals := [], tags := [], fl := 0, qbad := false,
            rbad := false }, rfl, rfl, ?_⟩
  rw [hi, laneRead, onPath_live s w ha]
  dsimp only
  rw [if_pos h0]
  exact laneGuard_empty h0 rfl rfl

/-- R82: a memory instruction with lanes in act, after its reading and the rules on tags, ages and poison. -/
theorem laneMem_reads {P : LCtx → LIn → Prop} (ha : actsOn s w)
    (hi : exec i s = laneRead s o false srcs fun x => laneGuard x tag (f x))
    (hk : ∀ x : LIn, x.c = { lctx s w (actPath s w) o with srcs := x.vals } → x.o = o → x.c.act ≠ 0 → exec i s = f x →
      P (lctx s w (actPath s w) o) x) :
    laneReads s w o i false srcs fun c x => laneGuarded i s c o x tag (P c x) := by
  refine laneRead_reads s w o i false srcs _ _ ha hi fun x hc hs ho _ h0 hx => ?_
  have hg := laneGuard_guarded i s x tag _ _ hs h0 hx (hk x hc ho h0)
  rw [ho, hc] at hg
  exact hg

end

theorem ite_endRegion {w : Warp} {pf : Bool} (p : Prop) [Decidable p] :
    (if p then issuedWarp w pf false else endRegion (issuedWarp w pf false)) = issuedWarp w pf (!decide p) := by
  by_cases h : p
  · rw [if_pos h, decide_eq_true h]; rfl
  · rw [if_neg h, decide_eq_false h]; rfl

theorem breakSpin_lctx {s : State} {w : Warp} {o : LaneOp} {c : LCtx} {v : List Lanes}
    (hc : c = { lctx s w (actPath s w) o with srcs := v }) : breakSpin c.w c.pf = issuedWarp w s.cur.path false := by
  rw [hc]
  dsimp only
  rw [lctx_w, lctx_pf, breakSpin_eq_issuedWarp]

/-! ## LDT and ATOM (R149, R150) -/

theorem lowLane_zero : lowLane 0 = none := by decide

theorem spaceOf_eq {n : Nat} (h : n < 4) :
    spaceOf n = if n = 3 then .pv else if n = 0 then .sp else if n = 1 then .gs else .dm := by
  interval_cases n <;> rfl

theorem atomSrcs_eq (o : LaneOp) (oper : Nat) :
    (if oper = 7 then [(o.a, Fmt.b32), (o.b, o.fmt), (o.c, o.fmt)] else [(o.a, .b32), (o.b, o.fmt)]) =
      [(o.a, .b32), (o.b, o.fmt)] ++ if oper = 7 then [(o.c, o.fmt)] else [] := by
  split <;> rfl

/-- R150: the space of an ATOM. -/
def atomSpace (o : LaneOp) : Space :=
  if o.mods / 2 ^ 8 % 4 = 0 then .sp else if o.mods / 2 ^ 8 % 4 = 1 then .gs else .dm

theorem spaceOf_atom (o : LaneOp) :
    spaceOf (fld o.mods 9 8) = if o.mods / 2 ^ 8 % 4 = 3 then .pv else atomSpace o := spaceOf_eq (Nat.mod_lt _ (by decide))

theorem atomSpace_ne_pv (o : LaneOp) : atomSpace o ≠ .pv := by
  rw [atomSpace]
  split_ifs <;> decide

/-- R150, R151: the causes of an ATOM that come before the checks of its lanes. -/
theorem execAtom_checks {i : Instr} {s : State} {w : Warp} {o : LaneOp} {oper : Nat} {c : LCtx} {v : List Lanes} {k : Out}
    (hc : c = { lctx s w (actPath s w) o with srcs := v })
    (hi : exec i s = if spaceOf (fld o.mods 9 8) = .pv then trapL s c 0xC1 c.act 0
      else if (oper = 9 && wmodeRepro c.w.wmode) = true then trapL s c 0xC0 c.act 0 else k) :
    (o.mods / 2 ^ 8 % 4 = 3 → trapsLane i s (lctx s w (actPath s w) o) 0xC1) ∧
    (o.mods / 2 ^ 8 % 4 ≠ 3 → oper = 9 ∧ w.wmode.getLsbD 5 = true → trapsLane i s (lctx s w (actPath s w) o) 0xC0) ∧
    (o.mods / 2 ^ 8 % 4 ≠ 3 → ¬(oper = 9 ∧ w.wmode.getLsbD 5 = true) → exec i s = k) := by
  have hact : c.act = (lctx s w (actPath s w) o).act := (congrArg LCtx.act hc :)
  have hw : c.w = w := (congrArg LCtx.w hc :).trans (lctx_w s w _ o)
  have hrepro : (oper = 9 && wmodeRepro c.w.wmode) = true ↔ oper = 9 ∧ w.wmode.getLsbD 5 = true := by
    rw [hw, Bool.and_eq_true, decide_eq_true_eq]; rfl
  rw [spaceOf_atom, hact, if_congr hrepro rfl rfl] at hi
  refine ⟨fun h3 => ?_, fun h3 hr => ?_, fun h3 hr => ?_⟩
  · rw [if_pos h3, if_pos rfl] at hi
    exact trapsLaneAt_lctx hc hi
  all_goals rw [if_neg h3, if_neg (atomSpace_ne_pv o)] at hi
  · rw [if_pos hr] at hi
    exact trapsLaneAt_lctx hc hi
  · rw [if_neg hr] at hi
    exact hi

end Sys2Proof.Machine

namespace Sys2Proof.Proofs

open Sys2Proof.Machine Sys2Proof.Claims

theorem laneLoadsAndStores : LaneLoadsAndStores := by
  intro s w o ha size c accOf goes form
  have hempty : ∀ {i space st srcs tag} {f : LIn → Out}, c.act = 0 →
      exec i s = laneRead s o false srcs (fun x => laneGuard x tag
        (if x.c.act = 0 then emptyMem s x space (breakSpin x.c.w x.c.pf) st else f x)) →
      (¬memRoom s o space → waits i s) ∧ (memRoom s o space → (actPath s w).residue = false →
        runs i s fun t => laneEmpty s t w c false) := by
    intro i space st srcs tag f h0 hi
    obtain ⟨x, hc, ho, hx⟩ := exists_emptyIn ha h0 hi
    rw [if_pos (by rw [hc]; exact h0), breakSpin_lctx hc] at hx
    exact emptyMem_runs s w o _ false st hc ho h0 hx
  have hissue : ∀ {i : Instr} {space : Space} {st ends : Bool} {x : LIn} {home : Nat → Nat} {accs : List LaneAcc}
      {eas : Nat → Nat}, x.c = { lctx s w (actPath s w) o with srcs := x.vals } → x.o = o →
      (∀ a, a ∈ accs ↔ ∃ l, c.act.getLsbD l = true ∧ a = accOf x home st l ∧
        (st = true → ∀ j, l < j → c.act.getLsbD j = true → home j ≠ home l)) →
      exec i s = issueMem s x (issuedWarp w s.cur.path ends)
        (memOp x (if st then .store else .load) space accs eas s) (if st then .n32 else o.fmt) (!st) →
      goes i space st x home := by
    intro i space st ends x home accs eas hc ho hmem hx
    have hfar : (st = true ∧ space ≠ .sp ∧ ∃ l, c.act.getLsbD l = true ∧ isLocal (home l) = false) ↔
        storesOrAtom (memOp x (if st then .store else .load) space accs eas s) = true ∧
        remoteLanes (memOp x (if st then .store else .load) space accs eas s) ≠ 0 := by
      rw [memOp_remote (home := home) (fun _ => ⟨rfl, rfl⟩) hmem]
      cases st <;> simp [storesOrAtom, memOp]
    obtain ⟨hwait, hfull, hrun⟩ := issueMem_runs s w o x.vals ends _ hc ho hfar hx
    refine ⟨hwait, hfull, fun hroom hfb hr => ?_⟩
    obtain ⟨t, ht, -, hm⟩ := hrun hroom hfb hr
    have hact : x.c.act = c.act := (congrArg LCtx.act hc :)
    refine ⟨t, ht, _, hm, rfl, rfl, hact, hact, rfl, congrArg LaneOp.dst ho, congrArg LaneOp.fmt ho, ?_, ?_, hmem⟩
    · exact congrArg memOrd ho
    · exact congrArg (fun p : LaneOp => scopeOf (fld p.mods 16 14)) ho
  have hload : ∀ i space, exec i s = execLd space o s → form i space false := by
    intro i space hi
    refine ⟨fun h0 => (hempty h0 hi).1, fun h0 => (hempty h0 hi).2, laneMem_reads ha hi fun x hc ho h0 hx => ?_⟩
    dsimp only at hx
    rw [if_neg h0, breakSpin_lctx hc, effAddr_lctx hc] at hx
    have hact : x.c.act = c.act := (congrArg LCtx.act hc :)
    refine checkLanes_checked hc hx fun h home hh hx => hissue hc ho (fun a => ?_) hx
    rw [mem_laneAccs, hact]
    refine exists_congr fun l => and_congr_right fun hl => ?_
    rw [hh l hl]
    exact ⟨fun heq => ⟨heq, nofun⟩, And.left⟩
  have hstore : ∀ i space, exec i s = execSt space o s → form i space true := by
    intro i space hi
    refine ⟨fun h0 => (hempty h0 hi).1, fun h0 => (hempty h0 hi).2, laneMem_reads ha hi fun x hc ho h0 hx => ?_⟩
    dsimp only at hx
    rw [if_neg h0, breakSpin_lctx hc, effAddr_lctx hc] at hx
    have hact : x.c.act = c.act := (congrArg LCtx.act hc :)
    refine checkLanes_checked hc hx fun h home hh hx => ?_
    have haccs : ((lanesOf x.c.act).map fun l => laneAcc l (fgetD 0 h l) (memSize o) (x.at 1 l) 0) =
        (lanesOf c.act).map fun l => laneAcc l (home l) (memSize o) (x.at 1 l) 0 := by
      rw [hact]
      exact List.map_congr_left fun l hl => by rw [hh l ((mem_lanesOf _ _).mp hl)]
    rw [haccs, ite_endRegion] at hx
    refine hissue hc ho (fun a => ?_) hx
    rw [mem_storeAccs]
    exact exists_congr fun l => and_congr_right fun _ => and_congr_right fun _ => ⟨fun hmax _ => hmax, fun hmax => hmax rfl⟩
  exact ⟨hload _ _ (exec_ldSp o s), hload _ _ (exec_ldGs o s), hload _ _ (exec_ldDm o s), hload _ _ (exec_ldPv o s),
    hstore _ _ (exec_stSp o s), hstore _ _ (exec_stGs o s), hstore _ _ (exec_stDm o s), hstore _ _ (exec_stPv o s)⟩

theorem transposingLoad : TransposingLoad := by
  intro s w o ha i
  have hi : exec i s = execLdt o s := exec_ldt o s
  have hempty : (lctx s w (actPath s w) o).act = 0 → (¬memRoom s o .sp → waits i s) ∧ (memRoom s o .sp →
      (actPath s w).residue = false → runs i s fun t => laneEmpty s t w (lctx s w (actPath s w) o) false) := by
    intro h0
    obtain ⟨x, hc, ho, hx⟩ := exists_emptyIn ha h0 hi
    have hlow : lowLane x.c.act = none := by rw [hc]; exact (congrArg lowLane h0).trans lowLane_zero
    rw [hlow] at hx
    dsimp only at hx
    rw [breakSpin_lctx hc] at hx
    exact emptyMem_runs s w o _ false o.fmt hc ho h0 hx
  refine ⟨⟨fun h0 => (hempty h0).1, fun h0 => (hempty h0).2⟩, laneMem_reads ha hi fun x hc ho h0 hx => ?_⟩
  intro lo hlo b org pitch accs beyond
  have hact : x.c.act = (lctx s w (actPath s w) o).act := (congrArg LCtx.act hc :)
  have hw : x.c.w = w := (congrArg LCtx.w hc :).trans (lctx_w s w _ o)
  rw [hact, hlo] at hx
  dsimp only at hx
  rw [breakSpin_lctx hc, effAddr_lctx hc, hw, bitAt_eq_testBit] at hx
  change exec i s = if (decide (org % 8 ≠ 0) || decide (pitch % 8 ≠ 0) || decide (pitch < 2 * b)) = true
    then trapL s x.c 0x33 (lctx s w (actPath s w) o).act (BitVec.ofNat 64 org)
    else match firstCause (lctx s w (actPath s w) o).act beyond with
      | some (e, m, _) => trapL s x.c e m (BitVec.ofNat 64 org)
      | none => issueMem s x (issuedWarp w s.cur.path false)
          (memOp x .tload .sp ((lanesOf (lctx s w (actPath s w) o).act).flatMap accs) (fun _ => 0) s) o.fmt true at hx
  have hcond : (decide (org % 8 ≠ 0) || decide (pitch % 8 ≠ 0) || decide (pitch < 2 * b)) = true ↔
      org % 8 ≠ 0 ∨ pitch % 8 ≠ 0 ∨ pitch < 2 * b := by
    simp only [Bool.or_eq_true, decide_eq_true_eq, or_assoc]
  rw [if_congr hcond rfl rfl] at hx
  refine ⟨fun hbad => ?_, fun horg hpitch hwide => ⟨fun e m l hcause => ?_, fun hcause => ?_⟩⟩
  · rw [if_pos hbad] at hx
    exact trapsLaneAt_lctx hc hx
  all_goals rw [if_neg (by rintro (h | h | h) <;> omega), hcause] at hx
  · exact trapsLaneAt_lctx hc hx
  · obtain ⟨hwait, -, hrun⟩ := issueMem_runs s w o x.vals false o.fmt (far := False) hc ho (by simp [storesOrAtom, memOp]) hx
    refine ⟨hwait, fun hroom hr => ?_⟩
    obtain ⟨t, ht, -, hm⟩ := hrun hroom False.elim hr
    exact ⟨t, ht, _, hm, rfl, rfl, hact, hact, congrArg LaneOp.dst ho, rfl⟩

theorem laneAtomics : LaneAtomics := by
  intro s w o i oper ha hform c spc space repro
  have hi : exec i s = execAtom oper o s := by
    simp only [List.mem_cons, Prod.mk.injEq, List.not_mem_nil, or_false] at hform
    rcases hform with ⟨rfl, rfl⟩ | ⟨rfl, rfl⟩ | ⟨rfl, rfl⟩ | ⟨rfl, rfl⟩ | ⟨rfl, rfl⟩ | ⟨rfl, rfl⟩ | ⟨rfl, rfl⟩ | ⟨rfl, rfl⟩ |
      ⟨rfl, rfl⟩ | ⟨rfl, rfl⟩ <;> rfl
  rw [execAtom, atomSrcs_eq] at hi
  have hempty : c.act = 0 → (spc = 3 → trapsLane i s c 0xC1) ∧ (spc ≠ 3 → repro → trapsLane i s c 0xC0) ∧
      (spc ≠ 3 → ¬repro → (¬memRoom s o space → waits i s) ∧
        (memRoom s o space → (actPath s w).residue = false → runs i s fun t => laneEmpty s t w c true)) := by
    intro h0
    obtain ⟨x, hc, ho, hx⟩ := exists_emptyIn ha h0 hi
    obtain ⟨hpv, hrepro, hgo⟩ := execAtom_checks hc hx
    refine ⟨hpv, hrepro, fun h3 hr => ?_⟩
    have hx := hgo h3 hr
    rw [if_pos (by rw [hc]; exact h0), breakSpin_lctx hc, spaceOf_atom, if_neg h3] at hx
    exact emptyMem_runs s w o _ true o.fmt hc ho h0 hx
  refine ⟨fun h0 => (hempty h0).1, fun h0 => (hempty h0).2.1, fun h0 h3 hr => ((hempty h0).2.2 h3 hr).1,
    fun h0 h3 hr => ((hempty h0).2.2 h3 hr).2, laneMem_reads ha hi fun x hc ho h0 hx => ?_⟩
  obtain ⟨hpv, hrepro, hgo⟩ := execAtom_checks hc hx
  refine ⟨hpv, hrepro, fun h3 hr => ?_⟩
  have hx := hgo h3 hr
  have hact : x.c.act = c.act := (congrArg LCtx.act hc :)
  rw [if_neg h0, breakSpin_lctx hc, spaceOf_atom, if_neg h3, effAddr_lctx hc] at hx
  refine checkLanes_checked hc hx fun h home hh hx => ?_
  have haccs : ((lanesOf x.c.act).map fun l => laneAcc l (fgetD 0 h l) 4 (x.at 1 l) (x.at 2 l)) =
      (lanesOf c.act).map fun l => laneAcc l (home l) 4 (x.at 1 l) (x.at 2 l) := by
    rw [hact]
    exact List.map_congr_left fun l hl => by rw [hh l ((mem_lanesOf _ _).mp hl)]
  rw [haccs] at hx
  have hmem : ∀ a, (a ∈ (lanesOf c.act).map fun l => laneAcc l (home l) 4 (x.at 1 l) (x.at 2 l)) ↔
      ∃ l, c.act.getLsbD l = true ∧ a = laneAcc l (home l) 4 (x.at 1 l) (x.at 2 l) ∧
        (False → ∀ j, l < j → c.act.getLsbD j = true → home j ≠ home l) := fun a => by
    rw [mem_laneAccs]
    exact exists_congr fun l => and_congr_right fun _ => (and_iff_left False.elim).symm
  obtain ⟨hwait, hfull, hrun⟩ := issueMem_runs s w o x.vals true o.fmt hc ho
    ((memOp_remote (home := home) (fun _ => ⟨rfl, rfl⟩) hmem).symm.trans (and_iff_right rfl).symm) hx
  refine ⟨hwait, hfull, fun hroom hfb hr => ?_⟩
  obtain ⟨t, ht, hnidem, hm⟩ := hrun hroom hfb hr
  exact ⟨t, ht, hnidem, _, hm, rfl, rfl, hact, hact, congrArg LaneOp.dst ho, rfl⟩

/-- Settles O35: each form is read (`laneMem_reads`), its lanes are checked (`checkLanes_checked`), and one operation is issued
(`issueMem_runs`), on another module when a lane's home is there (`memOp_remote`). -/
theorem laneMemory : Obligations.LaneMemory := by
  unfold Obligations.LaneMemory
  exact ⟨laneLoadsAndStores, transposingLoad, laneAtomics⟩

end Sys2Proof.Proofs

/-! # The events of lane memory operations (O37) -/

namespace Sys2Proof.Machine

open Sys2Proof.Claims

/-! ## What an event of the module's own storage changes -/

/-- The storage of a space holds the cells c, that of another space what it held; the operations and the warps are the same. -/
structure Stored (s t : State) (space : Space) (b : Nat) (c : List Host.Cell) : Prop where
  ops : t.ops = s.ops
  warps : t.warps = s.warps
  cells : cellsOf t space b = c
  mem : space = .sp → t.mem = s.mem
  scratch : space ≠ .sp → ∀ n, spCells t n = spCells s n
  block : space = .sp → (fget t.blocks b).isSome = (fget s.blocks b).isSome

theorem Stored.refl (s : State) (space : Space) (b : Nat) : Stored s s space b (cellsOf s space b) :=
  ⟨rfl, rfl, rfl, fun _ => rfl, fun _ _ => rfl, fun _ => rfl⟩

theorem Stored.trans {s t u : State} {space : Space} {b : Nat} {c d : List Host.Cell} (h : Stored s t space b c)
    (h' : Stored t u space b d) : Stored s u space b d :=
  ⟨h'.ops.trans h.ops, h'.warps.trans h.warps, h'.cells, fun e => (h'.mem e).trans (h.mem e),
    fun e n => (h'.scratch e n).trans (h.scratch e n), fun e => (h'.block e).trans (h.block e)⟩

/-- The cells of a scratchpad can be written where its block exists. -/
theorem stored_setCells {s : State} {space : Space} {b : Nat} (c : List Host.Cell) (p : List Nat)
    (hb : space = .sp → (fget s.blocks b).isSome = true) : Stored s (setCells s space b c p) space b c := by
  by_cases hsp : space = .sp
  · obtain ⟨k, hk⟩ := Option.isSome_iff_exists.mp (hb hsp)
    have hset : setCells s space b c p = { s with blocks := fput s.blocks b { k with sp := c, spPois := p } } := by
      rw [setCells, if_pos hsp, fmod, hk]
    rw [hset]
    refine ⟨rfl, rfl, ?_, fun _ => rfl, fun h => absurd hsp h, fun _ => ?_⟩
    · rw [cellsOf, if_pos hsp, spCells, fget_fput_same]
      rfl
    · rw [fget_fput_same, hk]
      rfl
  · rw [setCells, if_neg hsp]
    exact ⟨rfl, rfl, if_neg hsp, fun h => absurd h hsp, fun _ _ => rfl, fun h => absurd h hsp⟩

/-- A change of the caches. -/
theorem Stored.withCores {s t : State} {space : Space} {b : Nat} {c : List Host.Cell} (h : Stored s t space b c) (k : Cores) :
    Stored s { t with cores := k } space b c :=
  ⟨h.ops, h.warps, h.cells, h.mem, h.scratch, h.block⟩

/-! ## Stores (R146, R152) -/

theorem stored_accWrite {s : State} {m : LaneMem} (key : Nat) (a : LaneAcc)
    (hb : m.space = .sp → (fget s.blocks m.block).isSome = true) :
    Stored s (accWrite s key m a) m.space m.block (wrLe (cellsOf s m.space m.block) a.addr a.size a.data.toNat) := by
  have h := stored_setCells (wrLe (cellsOf s m.space m.block) a.addr a.size a.data.toNat) (poisOf s m.space m.block) hb
  unfold accWrite
  dsimp only
  split
  · exact h
  · exact h.withCores _

theorem stored_foldl {α : Type} {space : Space} {b : Nat} {f : State → α → State} {g : List Host.Cell → α → List Host.Cell}
    {l : List α} {s : State} (hb : space = .sp → (fget s.blocks b).isSome = true)
    (hf : ∀ t, ∀ a ∈ l, (space = .sp → (fget t.blocks b).isSome = true) →
      Stored t (f t a) space b (g (cellsOf t space b) a)) :
    Stored s (l.foldl f s) space b (l.foldl g (cellsOf s space b)) := by
  induction l generalizing s with
  | nil => exact Stored.refl s space b
  | cons a r ih =>
    have h := hf s a List.mem_cons_self hb
    have hrest := ih (s := f s a) (fun e => (h.block e).trans (hb e)) fun t x hx => hf t x (List.mem_cons_of_mem a hx)
    rw [h.cells] at hrest
    exact h.trans hrest

/-- R146: a store all of whose lanes write here. -/
theorem stored_performStore {s : State} {m : LaneMem} {lanes : W32} (key : Nat)
    (hb : m.space = .sp → (fget s.blocks m.block).isSome = true) (hhere : ∀ a ∈ m.accs, isLocal a.addr = true)
    (hlanes : ∀ a ∈ m.accs, lanes.getLsbD a.lane = true) :
    Stored s (performStore s key m lanes) m.space m.block
      (m.accs.foldl (fun c a => wrLe c a.addr a.size a.data.toNat) (cellsOf s m.space m.block)) := by
  have hwrite := stored_foldl (l := m.accs) (s := s) (space := m.space) (b := m.block)
    (f := fun t a => if !lanes.getLsbD a.lane then t else if isLocal a.addr then accWrite t key m a else accSend t key a)
    (g := fun c a => wrLe c a.addr a.size a.data.toNat) hb fun t a ha ht => by
      rw [hlanes a ha, hhere a ha]
      exact stored_accWrite key a ht
  unfold performStore
  dsimp only
  split
  · have hclear := stored_foldl (l := coveredGranules m) (g := fun c _ => c) (space := m.space) (b := m.block)
      (f := fun t g =>
        let u := setCells t m.space m.block (cellsOf t m.space m.block) (delPois (poisOf t m.space m.block) g)
        if m.space = .sp then u else l1Clear u key g)
      (fun e => (hwrite.block e).trans (hb e)) fun t g _ ht => by
        have h := stored_setCells (cellsOf t m.space m.block) (delPois (poisOf t m.space m.block) g) ht
        dsimp only
        split
        · exact h
        · exact h.withCores _
    rw [hwrite.cells, List.foldl_fixed] at hclear
    exact hwrite.trans hclear
  · exact hwrite

/-! ## Atomics (R150, R151) -/

/-- R150: one lane's read-modify-write on the cells and on the words that the lanes return. -/
def atomCell (k : Nat) (fmt : Fmt) (x : List Host.Cell × Lanes) (a : LaneAcc) : List Host.Cell × Lanes :=
  let old := BitVec.ofNat 32 (rdLe x.1 a.addr 4)
  (wrLe x.1 a.addr 4 (atomNew k fmt old a.data a.data2).toNat, x.2.set a.lane old)

theorem stored_accAtom {s : State} {m : LaneMem} (key k : Nat) (a : LaneAcc)
    (hb : m.space = .sp → (fget s.blocks m.block).isSome = true) (got : Lanes) :
    Stored s (accAtom s key m k a).1 m.space m.block (atomCell k m.fmt (cellsOf s m.space m.block, got) a).1 ∧
      setAt got a.lane (accAtom s key m k a).2 = (atomCell k m.fmt (cellsOf s m.space m.block, got) a).2 := by
  refine ⟨?_, rfl⟩
  have h := stored_setCells (atomCell k m.fmt (cellsOf s m.space m.block, got) a).1 (poisOf s m.space m.block) hb
  unfold accAtom
  dsimp only
  split
  · exact h
  · exact h.withCores _

/-- R151: an atomic all of whose lanes act here, in ascending order. -/
theorem stored_performAtom {s : State} {m : LaneMem} {lanes : W32} (key k : Nat)
    (hb : m.space = .sp → (fget s.blocks m.block).isSome = true) (hhere : ∀ a ∈ m.accs, isLocal a.addr = true)
    (hlanes : ∀ a ∈ m.accs, lanes.getLsbD a.lane = true) :
    let r := m.accs.foldl (atomCell k m.fmt) (cellsOf s m.space m.block, m.got)
    Stored s (performAtom s key m k lanes).1 m.space m.block r.1 ∧ (performAtom s key m k lanes).2 = r.2 := by
  unfold performAtom
  generalize m.got = got
  generalize hl : m.accs = l at hhere hlanes ⊢
  clear hl
  induction l generalizing s got with
  | nil => exact ⟨Stored.refl s _ _, rfl⟩
  | cons a r ih =>
    obtain ⟨h, hgot⟩ := stored_accAtom key k a hb got
    obtain ⟨hrest, hwords⟩ := ih (s := (accAtom s key m k a).1) (fun e => (h.block e).trans (hb e))
      (setAt got a.lane (accAtom s key m k a).2) (fun x hx => hhere x (List.mem_cons_of_mem a hx))
      fun x hx => hlanes x (List.mem_cons_of_mem a hx)
    rw [h.cells, hgot] at hrest hwords
    simp only [List.foldl_cons, hlanes a List.mem_cons_self, hhere a List.mem_cons_self, Bool.and_self, if_true]
    rw [hgot]
    exact ⟨h.trans hrest, hwords⟩

/-! ## Loads (R146, R254) -/

theorem l1FillLanes_frame (s : State) (die core key uid : Nat) (m : LaneMem) (lanes : W32) :
    l1FillLanes s die core key uid m lanes = { s with cores := (l1FillLanes s die core key uid m lanes).cores } := by
  unfold l1FillLanes
  split
  · rfl
  · induction m.accs generalizing s with
    | nil => rfl
    | cons a r ih =>
      rw [List.foldl_cons, ih]
      split <;> rfl

/-- R146: the word of a lane that one access of full width supplies, as it stands at its home. -/
theorem laneValue_home {s : State} {core uid l : Nat} {m : LaneMem} {a : LaneAcc}
    (hone : (m.accs.filter fun e => e.lane = l) = [a]) (hl1 : l1May m = false) (hs : m.signed = false) (hshift : a.shift = 0)
    (hnib : a.nib = 0) (hwidth : a.width = 8 * a.size) :
    laneValue s core uid m l = BitVec.ofNat 32
      (rdLe (cellsOf s m.space m.block) (if m.space = .sp then a.addr else fromCopy s (core / 128) a.addr) a.size) := by
  have hread : (accRead s core uid m a).1 =
      rdLe (cellsOf s m.space m.block) (if m.space = .sp then a.addr else fromCopy s (core / 128) a.addr) a.size := by
    simp [accRead, hl1]
  have hlt : (accRead s core uid m a).1 < 2 ^ (8 * a.size) := by
    rw [hread, Nat.pow_mul]
    exact rdLe_lt ..
  rw [laneValue, hone, List.foldl_cons, List.foldl_nil, accValue, hs, hshift, hnib, hwidth, n32, ← hread]
  simp [Nat.mod_eq_of_lt hlt]

/-! ## The end of an operation (R147, R254) -/

theorem findOp_id {s : State} {id : Nat} {o : Op} (h : findOp s id = some o) : o.id = id := by
  simpa using List.find?_some h

theorem findOp_setOp {s : State} {id : Nat} {o : Op} (h : findOp s id = some o) (b : OpBody) :
    findOp (setOp s id b) id = some { o with body := b } := by
  have hid := findOp_id h
  rw [findOp] at h
  rw [findOp, setOp_ops, List.find?_map]
  have hsame : ((fun e : Op => decide (e.id = id)) ∘ fun e => if e.id = id then { e with body := b } else e) =
      fun e => decide (e.id = id) := by
    funext e
    simp only [Function.comp_apply]
    split <;> simp_all
  rw [hsame, h, Option.map_some, if_pos hid]

theorem dropOp_setOp (s : State) (id : Nat) (b : OpBody) : dropOp (setOp s id b) id = dropOp s id := by
  have hops : (dropOp (setOp s id b) id).ops = (dropOp s id).ops := by
    rw [dropOp_ops, dropOp_ops, setOp_ops, List.filter_map]
    have hsame : ((fun e : Op => decide (e.id ≠ id)) ∘ fun e => if e.id = id then { e with body := b } else e) =
        fun e => decide (e.id ≠ id) := by
      funext e
      simp only [Function.comp_apply]
      split <;> simp_all
    rw [hsame]
    conv_rhs => rw [← List.map_id (s.ops.filter _)]
    refine List.map_congr_left fun e he => if_neg ?_
    simpa using (List.mem_filter.mp he).2
  exact congrArg (fun l => { s with ops := l }) hops

theorem meterMem_frame (s : State) (w : Warp) (m : LaneMem) : meterMem s w m = { s with parts := (meterMem s w m).parts } := by
  unfold meterMem meterLanes
  dsimp only
  split
  · exact meterWarp_frame ..
  · rw [meterWarp_frame, meterWarp_frame]
  · rw [meterWarp_frame, meterWarp_frame]

section

variable {t : State} {id : Nat} {o : Op} {m : LaneMem} {w : Warp}

/-- R147: the end of a store whose lanes are all done. -/
theorem finishMem_store (hk : m.kind = .store) (hfind : findOp t id = some o) (hw : fget t.warps o.warp = some w)
    (hopen : openLanes m = 0) (hdst : dstMissing w m = false) :
    finishMem (setOp t id (.mem m)) id = meterMem (dropOp t id) w m := by
  have hgo : ¬((decide (openLanes m ≠ 0) || dstMissing w m) = true) := by simp [hopen, hdst]
  simp only [finishMem, findOp_setOp hfind, setOp_warps, hw, dropOp_setOp, hk]
  exact if_neg hgo

/-- R147: the end of a load or an atomic whose lanes are all done. -/
theorem finishMem_result (hk : m.kind ≠ .store) (hfind : findOp t id = some o) (hw : fget t.warps o.warp = some w)
    (hopen : openLanes m = 0) (hdst : dstMissing w m = false) :
    finishMem (setOp t id (.mem m)) id =
      acquireDrop (putWarp (meterMem (dropOp t id) w m) o.warp (deliver w id m)) (coreKey w) m := by
  have hgo : ¬((decide (openLanes m ≠ 0) || dstMissing w m) = true) := by simp [hopen, hdst]
  simp only [finishMem, findOp_setOp hfind, setOp_warps, hw, dropOp_setOp]
  exact if_neg hgo

end

/-- R254, R255: what an acquire drops changes no operation but for the granules that L1 may hold. -/
theorem acquireDrop_frame (s : State) (key : Nat) (m : LaneMem) :
    ∃ ops cores, acquireDrop s key m = { s with ops := ops, cores := cores } ∧ ops.map holdless = s.ops.map holdless ∧
      (isAcquire m = false → ops = s.ops) := by
  have hunhold : ∀ (t : State) (p : Nat → Bool), (l1Unhold t key p).ops.map holdless = t.ops.map holdless := by
    intro t p
    rw [l1Unhold, List.map_map]
    refine List.map_congr_left fun e _ => ?_
    simp only [Function.comp_apply]
    split
    · next n hn => split <;> simp [holdless, hn]
    · rfl
  unfold acquireDrop
  split
  · next h => exact ⟨s.ops, s.cores, rfl, rfl, fun _ => rfl⟩
  · next h =>
    have hacq : isAcquire m = true := by simpa using h
    dsimp only
    split
    · exact ⟨_, _, rfl, hunhold _ _, fun hno => by rw [hacq] at hno; cases hno⟩
    · exact ⟨_, _, rfl, hunhold _ _, fun hno => by rw [hacq] at hno; cases hno⟩

/-! ## Results (R147) -/

/-- R147: the words that a load or an atomic brings: those of its lanes of act in its destination and in the age entries that
wait for it; every other word is as before. -/
def wroteWords (w w' : Warp) (id : Nat) (m : LaneMem) (words : Nat → W32) : Prop :=
  (∀ d, m.dst = some d → vtag w' d = m.fmt ∧ ∀ l, l < 32 → lane (vread w' d) l =
    if m.act.getLsbD l then words l else lane (vread w d) l) ∧
  (∀ n, m.dst ≠ some n → fget w'.regs n = fget w.regs n) ∧
  (∀ pf, (w'.path pf).age.length = (w.path pf).age.length ∧ ∀ (i : Nat) (e : AgeEntry), (w.path pf).age[i]? = some e →
    ∃ e' : AgeEntry, (w'.path pf).age[i]? = some e' ∧ e'.valid = e.valid ∧ e'.tag = e.tag ∧
      (e.pend ≠ some id → e' = e) ∧ (e.pend = some id → e'.pend = none ∧
        ∀ l, l < 32 → lane e'.data l = if m.act.getLsbD l then words l else lane e.data l))

theorem deliver_regs_some {w : Warp} {id : Nat} {m : LaneMem} {d : Nat} (h : m.dst = some d) :
    (deliver w id m).regs = (vwrite w d m.act m.got m.fmt).regs := by
  simp only [deliver, h]

theorem deliver_regs_none {w : Warp} {id : Nat} {m : LaneMem} (h : m.dst = none) : (deliver w id m).regs = w.regs := by
  simp only [deliver, h]

theorem deliver_age (w : Warp) (id : Nat) (m : LaneMem) (pf : Bool) :
    ((deliver w id m).path pf).age = fillAge id m (w.path pf).age := by
  unfold deliver
  cases m.dst <;> cases pf <;> rfl

theorem fillAge_entry {id : Nat} {m : LaneMem} {l : List AgeEntry} {i : Nat} {e : AgeEntry} (h : l[i]? = some e) :
    ∃ e' : AgeEntry, (fillAge id m l)[i]? = some e' ∧ e'.valid = e.valid ∧ e'.tag = e.tag ∧ (e.pend ≠ some id → e' = e) ∧
      (e.pend = some id → e'.pend = none ∧
        ∀ j, j < 32 → lane e'.data j = if m.act.getLsbD j then lane m.got j else lane e.data j) := by
  rw [fillAge, List.getElem?_map, h, Option.map_some]
  by_cases hp : e.pend = some id
  · rw [if_pos hp]
    exact ⟨_, rfl, rfl, rfl, fun hno => absurd hp hno, fun _ => ⟨rfl, fun j hj => lane_mergeLanes _ _ _ hj⟩⟩
  · rw [if_neg hp]
    exact ⟨_, rfl, rfl, rfl, fun _ => rfl, fun hyes => absurd hyes hp⟩

theorem wroteWords_deliver (w : Warp) (id : Nat) (m : LaneMem) : wroteWords w (deliver w id m) id m (lane m.got) := by
  refine ⟨fun d hd => ?_, fun n hn => ?_, fun pf => ?_⟩
  · have hregs : (deliver w id m).regs = (vwrite w d m.act m.got m.fmt).regs := deliver_regs_some hd
    have hread : vread (deliver w id m) d = mergeLanes m.act m.got (vread w d) := by
      rw [← vread_vwrite w d m.act m.got m.fmt, vread, hregs]; rfl
    refine ⟨?_, fun l hl => by rw [hread, lane_mergeLanes _ _ _ hl]⟩
    rw [← vtag_vwrite w d m.act m.got m.fmt, vtag, hregs]; rfl
  · cases hd : m.dst with
    | none => rw [deliver_regs_none hd]
    | some d =>
      rw [deliver_regs_some hd]
      exact fget_vwrite_other w _ _ _ fun h => hn (hd.trans (congrArg some h.symm))
  · rw [deliver_age]
    exact ⟨List.length_map .., fun i e => fillAge_entry⟩

theorem wroteWords_congr {w w' : Warp} {id : Nat} {m : LaneMem} {f g : Nat → W32} (h : wroteWords w w' id m f)
    (hfg : ∀ l, m.act.getLsbD l = true → f l = g l) : wroteWords w w' id m g := by
  obtain ⟨hdst, hregs, hage⟩ := h
  have hif : ∀ (l : Nat) (v : W32), (if m.act.getLsbD l then f l else v) = if m.act.getLsbD l then g l else v := by
    intro l v
    split
    · exact hfg l ‹_›
    · rfl
  simp only [hif] at hdst hage
  exact ⟨hdst, hregs, hage⟩

/-- R147: the operation with every lane done. -/
theorem openLanes_advanced {m : LaneMem} (got : Lanes) (hl : m.left = m.act) (hw : m.wire = 0) :
    openLanes (advanceMem m m.act 0 got) = 0 := by
  rw [openLanes, advanceMem, hl, hw]
  simp

/-- R147, R254: a load or an atomic whose lanes are all done leaves its words. -/
theorem finishMem_delivers {s t : State} {id : Nat} {o : Op} {m : LaneMem} {w : Warp} (hk : m.kind ≠ .store)
    (hfind : findOp s id = some o) (hw : fget s.warps o.warp = some w) (hleft : m.left = m.act) (hwire : m.wire = 0)
    (hdst : dstMissing w m = false) (hops : t.ops = s.ops) (hwarps : t.warps = s.warps) (got : Lanes) :
    let u := finishMem (setOp t id (.mem (advanceMem m m.act 0 got))) id
    memLeft s u id m ∧ u.mem = t.mem ∧ u.blocks = t.blocks ∧
      ∃ w', fget u.warps o.warp = some w' ∧ wroteWords w w' id m (lane got) := by
  intro u
  have hfind' : findOp t id = some o := by rw [findOp, hops]; exact hfind
  have hu : u = _ := finishMem_result (m := advanceMem m m.act 0 got) hk hfind' (by rw [hwarps]; exact hw)
    (openLanes_advanced got hleft hwire) hdst
  obtain ⟨ops, cores, hdrop, hhold, hsame⟩ := acquireDrop_frame (putWarp (meterMem (dropOp t id) w (advanceMem m m.act 0 got))
    o.warp (deliver w id (advanceMem m m.act 0 got))) (coreKey w) (advanceMem m m.act 0 got)
  rw [hdrop] at hu
  rw [putWarp_ops, meterMem_frame] at hhold hsame
  rw [dropOp_ops, hops] at hhold hsame
  rw [hu]
  refine ⟨⟨hhold, hsame⟩, ?_, ?_, deliver w id (advanceMem m m.act 0 got), fget_putWarp .., ?_⟩
  · rw [putWarp_mem, meterMem_frame]; rfl
  · rw [putWarp_blocks, meterMem_frame]; rfl
  · exact wroteWords_deliver w id (advanceMem m m.act 0 got)

/-! ## Poison (R152, R196) -/

theorem purgedFor_of_workKept {s u : State} {n : Nat} {w : Warp} (cause : Nat) (hu : workKept s u) (hw : fget s.warps n = some w)
    (hk : w.kind = .kernel) : purgedFor s (purgeKey u w.fn w.reqtag cause) n w cause := by
  obtain ⟨hwarps, hlaunches⟩ := hu
  have hlaunch (j : Nat) : fget (purgeKey u w.fn w.reqtag cause).launches j =
      (fget s.launches j).map (purgedLaunch w.fn w.reqtag cause) := by rw [fget_purgeKey_launches, hlaunches]
  refine ⟨fun l hrise hl hfn htag hopen => ?_, fun j l hl hother => ?_⟩
  · have hhit : purgeHits w.fn w.reqtag l = true := by simp [purgeHits, hopen, hfn, htag]
    rw [warpLaunch] at hl
    have hstops : purgeStops u w.fn w.reqtag w = true := by
      rw [purgeStops, hk, hlaunches, hl]
      exact hhit
    refine ⟨?_, purgedLaunch w.fn w.reqtag cause l, by rw [hlaunch, hl]; rfl, ?_, ?_⟩
    · rw [purgeKey_warps, hwarps]
      exact fget_ffilter_eq_none hrise hw (by rw [hstops]; rfl)
    all_goals rw [purgedLaunch, if_pos hhit]
  · have hmiss : ¬purgeHits w.fn w.reqtag l = true := by
      simp only [purgeHits, Bool.and_eq_true, decide_eq_true_eq]
      exact fun h => hother h.2
    rw [hlaunch, hl, Option.map_some, purgedLaunch, if_neg hmiss]

/-- R152, R196: poison purges the tag of an operation that a path still owns. -/
theorem poisonTrap_purges {s : State} {o : Op} {w : Warp} (m : LaneMem) (hw : fget s.warps o.warp = some w)
    (hown : disowned o = false) (hk : w.kind = .kernel) : purgedFor s (poisonTrap s o w m) o.warp w 0x120 := by
  have heq : poisonTrap s o w m = purgeKey (dropOp s o.id) w.fn w.reqtag 0x120 := by
    simp [poisonTrap, hown, raiseTrap, defaultAction, hw, hk]
  rw [heq]
  exact purgedFor_of_workKept _ ⟨rfl, rfl⟩ hw hk

/-- R152: an operation that a rewind has left behind only ends. -/
theorem poisonTrap_disowned {s : State} {o : Op} (w : Warp) (m : LaneMem) (hown : disowned o = true) :
    poisonTrap s o w m = dropOp s o.id := if_pos hown

/-! ## The lanes of an event that performs them all -/

theorem all_and (v : W32) : n32 (2 ^ 32 - 1) &&& v = v := by
  have hall : n32 (2 ^ 32 - 1) = BitVec.allOnes 32 := rfl
  rw [hall, BitVec.allOnes_and]

theorem withMem_eq {s : State} {id : Nat} {o : Op} {m : LaneMem} {w : Warp} (hfind : findOp s id = some o)
    (hbody : o.body = .mem m) (hw : fget s.warps o.warp = some w) (k : Op → LaneMem → Warp → Out) :
    withMem s id k = k o m w := by
  simp only [withMem, hfind, hbody, hw]

theorem withHanded_none (s : State) (o : Op) (w : Warp) (m : LaneMem) (k : State → W32 → State) :
    withHanded s o w m 0 k = .next (k s 0) := if_pos rfl

theorem or_l1Lanes (s : State) (core uid : Nat) (m : LaneMem) (v : W32) : v ||| l1Lanes s core uid m v = v := by
  apply BitVec.eq_of_getLsbD_eq
  intro l hl
  rw [BitVec.getLsbD_or, l1Lanes, getLsbD_maskOf _ hl]
  cases v.getLsbD l <;> simp

/-- R151: the lanes of an atomic may go together when every one of them has an access. -/
theorem atomReady_all {m : LaneMem} (hleft : m.left = m.act) (hacc : ∀ a ∈ m.accs, m.act.getLsbD a.lane = true)
    (hall : ∀ l, m.act.getLsbD l = true → ∃ a ∈ m.accs, a.lane = l) : atomReady m (n32 (2 ^ 32 - 1)) = m.act := by
  have hbit : ∀ l, l < 32 → (n32 (2 ^ 32 - 1)).getLsbD l = true := fun l hl =>
    (BitVec.getLsbD_allOnes (v := 32)).trans (decide_eq_true hl)
  apply BitVec.eq_of_getLsbD_eq
  intro l hl
  rw [atomReady, getLsbD_maskOf _ hl, BitVec.getLsbD_and, hbit l hl, Bool.and_true, hleft]
  cases hact : m.act.getLsbD l with
  | false => rfl
  | true =>
    obtain ⟨a, ha, hal⟩ := hall l hact
    rw [Bool.true_and, List.any_eq_true]
    refine ⟨a, ha, Bool.and_eq_true_iff.mpr ⟨decide_eq_true hal, List.all_eq_true.mpr fun b hb => ?_⟩⟩
    rw [hbit b.lane (getLsbD_lt (hacc b hb)), Bool.or_true]

section

variable {s : State} {id : Nat} {o : Op} {m : LaneMem} {w : Warp}

/-- R147: LOAD_COMPLETE of every lane, where each has its home here. -/
theorem execLoadComplete_all (hfind : findOp s id = some o) (hbody : o.body = .mem m) (hw : fget s.warps o.warp = some w)
    (hleft : m.left = m.act) (hrem : remoteLanes m = 0) (hk : m.kind = .load ∨ m.kind = .tload) :
    exec (.loadComplete id (2 ^ 32 - 1)) s =
      if mayPerform s o m m.act = false then .next s
      else if lanesPoisoned s (coreKey w) o.warp m m.act = true then .next (poisonTrap s o w m)
      else .next (finishMem (setOp (l1FillLanes s w.die w.core (coreKey w) o.warp m m.act) id (.mem (advanceMem m m.act 0
        (mkLanes fun j => if m.act.getLsbD j then laneValue s (coreKey w) o.warp m j else lane m.got j)))) id) := by
  have hload : exec (.loadComplete id (2 ^ 32 - 1)) s = loadLanes s o m w m.act := by
    rw [exec_loadComplete, execLoadComplete, withMem_eq hfind hbody hw, all_and, hleft]
    rcases hk with hk | hk <;> rw [hk]
  have hloc : m.act &&& ~~~ remoteLanes m ||| l1Lanes s (coreKey w) o.warp m m.act = m.act := by
    rw [hrem, show ~~~ (0 : W32) = BitVec.allOnes 32 from rfl, BitVec.and_allOnes, or_l1Lanes]
  rw [hload, loadLanes]
  dsimp only
  rw [hloc, show m.act &&& ~~~ m.act = 0 from BitVec.and_not_self .., withHanded_none, findOp_id hfind]
  cases mayPerform s o m m.act <;> rfl

/-- R147: STORE_COMPLETE of every lane, where each has its home here. -/
theorem execStoreComplete_all (hfind : findOp s id = some o) (hbody : o.body = .mem m) (hw : fget s.warps o.warp = some w)
    (hleft : m.left = m.act) (hrem : remoteLanes m = 0) (hk : m.kind = .store) :
    exec (.storeComplete id (2 ^ 32 - 1)) s =
      if mayPerform s o m m.act = false then .next s
      else .next (finishMem (setOp (performStore s (coreKey w) m m.act) id (.mem (advanceMem m m.act 0 m.got))) id) := by
  rw [exec_storeComplete, execStoreComplete, withMem_eq hfind hbody hw]
  dsimp only
  rw [all_and, hleft, hrem, hk]
  dsimp only
  rw [show ~~~ (0 : W32) = BitVec.allOnes 32 from rfl, BitVec.and_allOnes, show m.act &&& 0 = 0 from BitVec.and_zero,
    withHanded_none, show m.act ||| 0 = m.act from BitVec.or_zero, findOp_id hfind]
  cases mayPerform s o m m.act <;> rfl

/-- R147, R151: ATOM_COMPLETE of every lane, where each has its home here. -/
theorem execAtomComplete_all {k : Nat} (hfind : findOp s id = some o) (hbody : o.body = .mem m)
    (hw : fget s.warps o.warp = some w) (hleft : m.left = m.act) (hrem : remoteLanes m = 0) (hk : m.kind = .atom k)
    (hacc : ∀ a ∈ m.accs, m.act.getLsbD a.lane = true) (hall : ∀ l, m.act.getLsbD l = true → ∃ a ∈ m.accs, a.lane = l) :
    exec (.atomComplete (2 ^ 32 * id + (2 ^ 32 - 1))) s =
      if mayPerform s o m m.act = false then .next s
      else if lanesPoisoned s (coreKey w) o.warp m m.act = true then .next (poisonTrap s o w m)
      else .next (finishMem (setOp (performAtom s (coreKey w) m k m.act).1 id
        (.mem (advanceMem m m.act 0 (performAtom s (coreKey w) m k m.act).2))) id) := by
  have hid : (2 ^ 32 * id + (2 ^ 32 - 1)) / 2 ^ 32 = id := by omega
  have hlanes : (2 ^ 32 * id + (2 ^ 32 - 1)) % 2 ^ 32 = 2 ^ 32 - 1 := by omega
  have hnone : remoteGranules m 0 = [] := by simp [remoteGranules, dedup]
  have hnear : ¬openLanes m &&& 0 ≠ 0 := by simp
  rw [exec_atomComplete, execAtomComplete, hid, hlanes, withMem_eq hfind hbody hw]
  dsimp only
  rw [hk, hrem, atomReady_all hleft hacc hall, hleft]
  dsimp only
  rw [if_neg hnear, show ~~~ (0 : W32) = BitVec.allOnes 32 from rfl, BitVec.and_allOnes,
    show m.act &&& 0 = 0 from BitVec.and_zero, withHanded_none, show m.act ||| 0 = m.act from BitVec.or_zero, findOp_id hfind,
    atomSend, hnone, List.foldl_nil]
  cases mayPerform s o m m.act <;> rfl

end

end Sys2Proof.Machine

namespace Sys2Proof.Proofs

open Sys2Proof.Machine Sys2Proof.Claims

/-- Settles O37: the event of all lanes performs the operation (`execLoadComplete_all`, `execStoreComplete_all`,
`execAtomComplete_all`); its storage is written (`stored_performStore`, `stored_performAtom`), and its words are delivered
(`finishMem_delivers`). -/
theorem memoryEvents : Obligations.MemoryEvents := by
  unfold Obligations.MemoryEvents
  intro s id o m w hfind hbody hw hleft hwire hrem hblock hlocal hacc hdst all key cells wrote stopped
  have hstopped : ∀ i, exec i s = .next (poisonTrap s o w m) → stopped i := by
    intro i hi
    refine ⟨fun hown hkind => ⟨_, hi, poisonTrap_purges m hw hown hkind⟩, fun hown => ⟨_, hi, ?_⟩⟩
    rw [poisonTrap_disowned w m hown, findOp_id hfind]
    exact ⟨⟨rfl, rfl⟩, rfl, rfl⟩
  refine ⟨fun hk => ?_, fun hk => ?_, fun k hk => ?_⟩
  · have hexec := execLoadComplete_all hfind hbody hw hleft hrem hk
    have hres : m.kind ≠ .store := by rcases hk with hk | hk <;> rw [hk] <;> exact nofun
    refine ⟨fun hno => ?_, fun hmay hclean => ?_, fun hmay hbad => hstopped _ ?_⟩
    · rw [if_pos hno] at hexec
      exact hexec
    · rw [hmay, hclean] at hexec
      have hfill := l1FillLanes_frame s w.die w.core (coreKey w) o.warp m m.act
      obtain ⟨hgone, hmem, hblocks, w', hw', hwrote⟩ := finishMem_delivers hres hfind hw hleft hwire hdst
        (congrArg State.ops hfill :) (congrArg State.warps hfill :)
        (mkLanes fun j => if m.act.getLsbD j then laneValue s (coreKey w) o.warp m j else lane m.got j)
      refine ⟨_, hexec, hgone, hmem.trans (congrArg State.mem hfill :), hblocks.trans (congrArg State.blocks hfill :),
        ⟨w', hw', wroteWords_congr hwrote fun l hl => ?_⟩, fun l a _ => laneValue_home⟩
      rw [lane_mkLanes, if_pos (getLsbD_lt hl), if_pos hl]
    · rw [hmay, hbad] at hexec
      exact hexec
  · have hexec := execStoreComplete_all hfind hbody hw hleft hrem hk
    refine ⟨fun hno => ?_, fun hmay => ?_⟩
    · rw [if_pos hno] at hexec
      exact hexec
    · rw [hmay] at hexec
      have hstore := stored_performStore (s := s) (lanes := m.act) (coreKey w) hblock hlocal hacc
      have hfind' : findOp (performStore s (coreKey w) m m.act) id = some o := by rw [findOp, hstore.ops]; exact hfind
      have hend := finishMem_store (m := advanceMem m m.act 0 m.got) hk hfind' (by rw [hstore.warps]; exact hw)
        (openLanes_advanced m.got hleft hwire) hdst
      rw [meterMem_frame] at hend
      rw [hend] at hexec
      refine ⟨_, hexec, ?_, hstore.warps, hstore.cells, hstore.mem, hstore.scratch⟩
      exact congrArg (fun l : List Op => l.filter fun e => e.id ≠ id) hstore.ops
  · intro r i hall
    have hexec : exec i s = _ := execAtomComplete_all hfind hbody hw hleft hrem hk hacc hall
    have hres : m.kind ≠ .store := by rw [hk]; exact nofun
    refine ⟨fun hno => ?_, fun hmay hbad => hstopped _ ?_, fun hmay hclean => ?_⟩
    · rw [if_pos hno] at hexec
      exact hexec
    · rw [hmay, hbad] at hexec
      exact hexec
    · rw [hmay, hclean] at hexec
      obtain ⟨hstore, hwords⟩ := stored_performAtom (s := s) (lanes := m.act) (coreKey w) k hblock hlocal hacc
      obtain ⟨hgone, hmem, hblocks, w', hw', hwrote⟩ := finishMem_delivers hres hfind hw hleft hwire hdst hstore.ops
        hstore.warps (performAtom s (coreKey w) m k m.act).2
      rw [hwords] at hwrote
      refine ⟨_, hexec, hgone, ?_, fun hsp => hmem.trans (hstore.mem hsp), w', hw', hwrote⟩
      refine Eq.trans ?_ hstore.cells
      rw [cellsOf, cellsOf, spCells, spCells, hmem, hblocks]

end Sys2Proof.Proofs

/-! # Barriers (O15): the warps that arrive and wait -/

namespace Sys2Proof.Machine

open Sys2Proof.Claims

/-! ## PEND and APH (R155, R159) -/

theorem getLsbD_setBit {k : Nat} (m : BitVec k) {i : Nat} (hi : i < k) (b : Bool) : (setBit m i b).getLsbD i = b := by
  have hself : (BitVec.ofNat k (2 ^ i)).getLsbD i = true := by
    rw [BitVec.getLsbD_ofNat, decide_eq_true hi, Nat.testBit_two_pow_self, Bool.and_self]
  cases b with
  | false =>
    have h : (m &&& ~~~BitVec.ofNat k (2 ^ i)).getLsbD i = false := by
      rw [BitVec.getLsbD_and, BitVec.getLsbD_not, hself, Bool.not_true, Bool.and_false, Bool.and_false]
    exact h
  | true =>
    have h : (m ||| BitVec.ofNat k (2 ^ i)).getLsbD i = true := by rw [BitVec.getLsbD_or, hself, Bool.or_true]
    exact h

/-- R155, R159: the numbers that PEND and APH have bits for. -/
def barIn (level : Bool) (n : Nat) : Prop := if level then n - 2 < 4 else n < 32

theorem pendOf_setPend (w : Warp) {level : Bool} {n : Nat} (h : barIn level n) (b : Bool) :
    pendOf (setPend w level n b) level n = b := by
  cases level
  · exact getLsbD_setBit w.pend h b
  · exact getLsbD_setBit w.lpend h b

theorem aphOf_setAph (w : Warp) {level : Bool} {n : Nat} (h : barIn level n) (b : Bool) :
    aphOf (setAph w level n b) level n = b := by
  cases level
  · exact getLsbD_setBit w.aph h b
  · exact getLsbD_setBit w.laph h b

theorem pendOf_setAph (w : Warp) (level : Bool) (n : Nat) (b : Bool) :
    pendOf (setAph w level n b) level n = pendOf w level n := by
  cases level <;> rfl

theorem setPend_path (w : Warp) (level : Bool) (n : Nat) (b : Bool) (q : Bool) : (setPend w level n b).path q = w.path q := by
  cases level <;> cases q <;> rfl

theorem setPend_frame (w : Warp) (level : Bool) (n : Nat) (b : Bool) :
    { setPend w level n b with pend := w.pend, lpend := w.lpend } = w := by
  cases level <;> rfl

theorem setAph_path (w : Warp) (level : Bool) (n : Nat) (b : Bool) (q : Bool) : (setAph w level n b).path q = w.path q := by
  cases level <;> cases q <;> rfl

theorem setAph_frame (w : Warp) (level : Bool) (n : Nat) (b : Bool) :
    { setAph w level n b with aph := w.aph, laph := w.laph } = w := by
  cases level <;> rfl

/-! ## The warp that has arrived (R98, R156) -/

/-- R156: the acting warp after its arrival in a phase: PEND is set, APH holds the phase, and the region ends. -/
def arrivedWarp (w : Warp) (r : BarReq) (phase : Bool) : Warp :=
  endRegion (setAph (setPend w r.level r.n true) r.level r.n phase)

theorem arrivedWarp_path (w : Warp) (r : BarReq) (phase : Bool) (q : Bool) : (arrivedWarp w r phase).path q = w.path q := by
  rw [← setPend_path w r.level r.n true, ← setAph_path (setPend w r.level r.n true) r.level r.n phase]
  rfl

theorem arrivedWarp_frame (w : Warp) (r : BarReq) (phase : Bool) : { arrivedWarp w r phase with
    pend := w.pend, lpend := w.lpend, aph := w.aph, laph := w.laph, nidem := w.nidem } = w := by
  have hpend := setPend_frame w r.level r.n true
  have haph := setAph_frame (setPend w r.level r.n true) r.level r.n phase
  exact (congrArg (fun x : Warp => { x with
    pend := w.pend, lpend := w.lpend, aph := w.aph, laph := w.laph, nidem := w.nidem }) haph :).trans
    (congrArg (fun x : Warp => { x with aph := w.aph, laph := w.laph, nidem := w.nidem }) hpend :)

theorem pendOf_arrivedWarp (w : Warp) {r : BarReq} (h : barIn r.level r.n) (phase : Bool) :
    pendOf (arrivedWarp w r phase) r.level r.n = true :=
  (pendOf_setAph _ r.level r.n phase).trans (pendOf_setPend w h true)

theorem aphOf_arrivedWarp (w : Warp) {r : BarReq} (h : barIn r.level r.n) (phase : Bool) :
    aphOf (arrivedWarp w r phase) r.level r.n = phase := aphOf_setAph _ h phase

/-! ## The paths that a barrier instruction acts for (R157) -/

/-- R233: a path whose record of the spin check starts anew. -/
def unspun (p : Path) : Path := { p with spin := { p.spin with count := 0 } }

theorem issuedFor_path (w : Warp) (q : Bool) (f : Path → Path) :
    (countIssue (breakSpin (w.modPath q f) q)).path q = unspun (f (w.path q)) := by
  rw [countIssue_path, breakSpin, path_modPath, path_modPath, unspun]

theorem issuedFor_other (w : Warp) (q : Bool) (f : Path → Path) :
    (countIssue (breakSpin (w.modPath q f) q)).path (!q) = w.path (!q) := by
  rw [countIssue_path, breakSpin, path_modPath_other, path_modPath_other]

theorem onBarPaths_path (w : Warp) (pf : Bool) (f : Path → Path) (q : Bool) :
    (onBarPaths w pf f).path q = if q ∈ barPaths w pf then unspun (f (w.path q)) else w.path q := by
  unfold onBarPaths barPaths
  cases w.div with
  | false =>
    by_cases hq : q = pf
    · rw [hq]
      exact (issuedFor_path w pf f).trans (if_pos (List.mem_singleton.mpr rfl)).symm
    · have hmem : q ∉ [pf] := fun h => hq (List.mem_singleton.mp h)
      rw [Bool.eq_not.mpr hq] at hmem ⊢
      exact (issuedFor_other w pf f).trans (if_neg hmem).symm
  | true =>
    cases q with
    | false => exact (issuedFor_other _ true f).trans (issuedFor_path w false f)
    | true => exact (issuedFor_path _ true f).trans (congrArg (fun p => unspun (f p)) (issuedFor_other w false f))

/-- A barrier instruction leaves everything of the warp but its paths and its watchdog count. -/
theorem onBarPaths_frame (w : Warp) (pf : Bool) (f : Path → Path) :
    { onBarPaths w pf f with a := w.a, b := w.b, wdc := w.wdc } = w := by
  have hone : ∀ (v : Warp) (q : Bool), { v with a := w.a, b := w.b, wdc := w.wdc } = w →
      { countIssue (breakSpin (v.modPath q f) q) with a := w.a, b := w.b, wdc := w.wdc } = w := by
    intro v q hv
    rw [breakSpin, modPath_modPath]
    have h := congrArg (fun x : Warp => { x with a := w.a, b := w.b, wdc := w.wdc })
      (countedModPath_frame v q fun p => { f p with spin := { (f p).spin with count := 0 } })
    exact h.trans hv
  unfold onBarPaths barPaths
  cases w.div
  · exact hone w pf rfl
  · exact hone _ true (hone w false rfl)

theorem mem_barPaths (w : Warp) (pf : Bool) : pf ∈ barPaths w pf := by
  unfold barPaths
  cases w.div <;> cases pf <;> decide

theorem mem_barPaths_of_div {w : Warp} (h : w.div = true) (pf q : Bool) : q ∈ barPaths w pf := by
  rw [barPaths, if_pos h]
  cases q <;> decide

theorem barPaths_whole {w : Warp} (h : w.div = false) (pf : Bool) : barPaths w pf = [pf] := by
  rw [barPaths, if_neg (ne_true_of_eq_false h)]

theorem onBarPaths_counted {w : Warp} (h : w.div = false) (pf : Bool) (f : Path → Path) : countedOnce w (onBarPaths w pf f) := by
  rw [onBarPaths, barPaths_whole h]
  simp [countedOnce, countIssue_wdc, breakSpin]

/-! ## The waits that end (R156, R235) -/

/-- R156, R235: a warp whose wait for a phase has ended. -/
def waitDone (level : Bool) (n : Nat) (w : Warp) : Warp :=
  setPend { w with a := endWait level n w.a, b := endWait level n w.b, wdc := 0 } level n false

theorem lift_wait (p : Path) (c : Bool) : (p.lift c).wait = p.wait := by rw [lift_frame]

theorem endWait_waiting {level : Bool} {n : Nat} {p : Path} (h : p.wait = .phase level n) :
    endWait level n p = { p with wait := .none, synced := none, pc := p.pc + 4 }.lift true := if_pos h

theorem waitDone_path (level : Bool) (n : Nat) (w : Warp) (q : Bool) :
    (waitDone level n w).path q = endWait level n (w.path q) := by
  rw [waitDone, setPend_path]
  cases q <;> rfl

theorem pendOf_waitDone {level : Bool} {n : Nat} (h : barIn level n) (w : Warp) : pendOf (waitDone level n w) level n = false :=
  pendOf_setPend _ h false

theorem waitDone_frame (level : Bool) (n : Nat) (w : Warp) : { waitDone level n w with
    a := w.a, b := w.b, wdc := w.wdc, pend := w.pend, lpend := w.lpend } = w := by
  unfold waitDone setPend
  cases level <;> rfl

/-- R156: what another warp of the barrier has after its wait has ended. -/
theorem waitDone_goes {level : Bool} {n : Nat} (h : barIn level n) {x : Warp} (hwait : x.a.wait = .phase level n) :
    pendOf (waitDone level n x) level n = false ∧ (waitDone level n x).a.wait = .none ∧
      (waitDone level n x).a.pc = x.a.pc + 4 ∧ (waitDone level n x).wdc = 0 ∧ (waitDone level n x).a.x = x.a.x ∧
      (waitDone level n x).a.k = x.a.k ∧ (waitDone level n x).regs = x.regs := by
  have hpath : (waitDone level n x).a = _ := (waitDone_path level n x false).trans (endWait_waiting hwait)
  refine ⟨pendOf_waitDone h x, ?_, ?_, ?_, ?_, ?_, (congrArg Warp.regs (waitDone_frame level n x) :)⟩
  · exact (congrArg Path.wait hpath).trans (lift_wait _ true)
  · exact (congrArg Path.pc hpath).trans (lift_pc _ true)
  · unfold waitDone setPend
    cases level <;> rfl
  · exact (congrArg Path.x hpath).trans (lift_x _ true)
  · exact (congrArg Path.k hpath).trans (lift_k _ true)

/-! ## The warps that go on with a phase (R156) -/

/-- The warps may differ, and the operations and the caches; memory, blocks and launches are the same. -/
def homesKept (s t : State) : Prop := t.mem = s.mem ∧ t.blocks = s.blocks ∧ t.launches = s.launches

theorem homesKept.trans {s t u : State} (h : homesKept s t) (h' : homesKept t u) : homesKept s u :=
  ⟨h'.1.trans h.1, h'.2.1.trans h.2.1, h'.2.2.trans h.2.2⟩

theorem finishWait_homes (s : State) (v : Nat) (level : Bool) (n : Nat) : homesKept s (finishWait s v level n) := by
  unfold finishWait
  split <;> exact ⟨rfl, rfl, rfl⟩

theorem fget_finishWait (s : State) (v : Nat) (level : Bool) (n : Nat) (u : Nat) :
    fget (finishWait s v level n).warps u = if u = v then (fget s.warps v).map (waitDone level n) else fget s.warps u := by
  unfold finishWait
  cases hv : fget s.warps v with
  | none =>
    dsimp only
    split
    · next h => rw [h, hv]; rfl
    · rfl
  | some w => exact fget_fput s.warps v u (waitDone level n w)

theorem foldl_finishWait (level : Bool) (n : Nat) (l : FMap Warp) (s : State) (hl : rising l = true) :
    let t := l.foldl (fun t e => finishWait t e.1 level n) s
    homesKept s t ∧ ∀ u, fget t.warps u =
      if (fget l u).isSome then (fget s.warps u).map (waitDone level n) else fget s.warps u := by
  induction l generalizing s with
  | nil => exact ⟨⟨rfl, rfl, rfl⟩, fun u => rfl⟩
  | cons e r ih =>
    obtain ⟨v, x⟩ := e
    obtain ⟨hhomes, hwarps⟩ := ih (finishWait s v level n) (rising_tail hl)
    refine ⟨(finishWait_homes s v level n).trans hhomes, fun u => ?_⟩
    rw [List.foldl_cons, hwarps u, fget_finishWait, fget_cons]
    by_cases huv : u = v
    · have hnone : fget r u = none := by
        refine Option.eq_none_iff_forall_ne_some.mpr fun y hy => ?_
        exact Nat.lt_irrefl u (huv ▸ rising_head hl _ (mem_of_fget_eq_some hy) : u < u)
      rw [hnone, if_pos huv, if_pos huv.symm, huv]
      rfl
    · rw [if_neg huv, if_neg (Ne.symm huv)]

/-- The warps that wakePhase looks for. -/
def phaseWaiter (w : Warp) (r : BarReq) (phase : Bool) (x : Warp) : Bool :=
  samePeers r w x && x.st ≠ .saved && !x.reload && waitsPhase x r.level r.n && aphOf x r.level r.n != phase

theorem fget_filter {α : Type} {m : FMap α} (hm : rising m = true) (p : Nat × α → Bool) (u : Nat) :
    fget (m.filter p) u = (fget m u).filter fun x => p (u, x) := by
  cases h : fget m u with
  | none =>
    refine Option.eq_none_iff_forall_ne_some.mpr fun y hy => ?_
    rw [fget_of_mem hm (List.mem_filter.mp (mem_of_fget_eq_some hy)).1] at h
    cases h
  | some x =>
    rw [Option.filter_some]
    split
    · next hp => exact fget_of_mem (rising_filter p hm) (List.mem_filter.mpr ⟨mem_of_fget_eq_some h, hp⟩)
    · next hp =>
      refine Option.eq_none_iff_forall_ne_some.mpr fun y hy => ?_
      obtain ⟨hy', hpy⟩ := List.mem_filter.mp (mem_of_fget_eq_some hy)
      rw [fget_of_mem hm hy'] at h
      cases h
      exact hp hpy

/-- R156: wakePhase ends the waits of those warps, and leaves every other one. -/
theorem wakePhase_does (s : State) (w : Warp) (r : BarReq) (phase : Bool) (hs : rising s.warps = true) :
    homesKept s (wakePhase s w r phase) ∧ ∀ u x, fget s.warps u = some x → fget (wakePhase s w r phase).warps u =
      some (if phaseWaiter w r phase x then waitDone r.level r.n x else x) := by
  obtain ⟨hhomes, hwarps⟩ := foldl_finishWait r.level r.n (s.warps.filter fun e => phaseWaiter w r phase e.2) s
    (rising_filter _ hs)
  refine ⟨hhomes, fun u x hx => (hwarps u).trans ?_⟩
  rw [fget_filter hs, hx, Option.filter_some]
  cases phaseWaiter w r phase x <;> rfl

end Sys2Proof.Machine

/-! # Barriers (O15): the arrival and the wait -/

namespace Sys2Proof.Machine

open Sys2Proof.Claims

/-! ## The state word (R155, R159) -/

/-- The table that holds the barrier's state word exists. -/
def hasBar (s : State) (w : Warp) (r : BarReq) : Prop :=
  if r.level then ∃ l, warpLaunch s w = some l else ∃ k, fget s.blocks w.block = some k

theorem barState_of_homes {s t : State} (h : homesKept s t) (w : Warp) (r : BarReq) : barState t w r = barState s w r := by
  obtain ⟨_, hblocks, hlaunches⟩ := h
  simp only [barState, warpLaunch, warpBlock, hblocks, hlaunches]

theorem barState_putBar {s : State} {w : Warp} {r : BarReq} (h : hasBar s w r) (b : Bar) :
    barState (putBar s w r b) w r = b := by
  obtain ⟨level, n, arrives, waits, count⟩ := r
  cases level with
  | true =>
    obtain ⟨l, hl⟩ : ∃ l, fget s.launches w.launch = some l := h
    simp [barState, putBar, warpLaunch, fget_fmod, hl]
  | false =>
    obtain ⟨k, hk⟩ : ∃ k, fget s.blocks w.block = some k := h
    simp [barState, putBar, warpBlock, fget_fmod, hk]

theorem putBar_warps (s : State) (w : Warp) (r : BarReq) (b : Bar) : (putBar s w r b).warps = s.warps := by
  unfold putBar
  split <;> rfl

theorem hasBar_putBar {s : State} {w : Warp} {r : BarReq} (h : hasBar s w r) (b : Bar) : hasBar (putBar s w r b) w r := by
  obtain ⟨level, n, arrives, waits, count⟩ := r
  cases level with
  | true =>
    obtain ⟨l, hl⟩ : ∃ l, fget s.launches w.launch = some l := h
    exact ⟨_, (fget_fmod ..).trans (by rw [if_pos rfl, hl]; rfl)⟩
  | false =>
    obtain ⟨k, hk⟩ : ∃ k, fget s.blocks w.block = some k := h
    exact ⟨_, (fget_fmod ..).trans (by rw [if_pos rfl, hk]; rfl)⟩

/-! ## The participants of a level barrier (R159) -/

theorem samePeers_level {r : BarReq} (hr : r.level = true) (w x : Warp) : samePeers r w x = true ↔
    x.launch = w.launch ∧ x.kind = .kernel ∧ levelInst x r.n = levelInst w r.n := by
  simp [samePeers, hr, and_assoc]

theorem samePeers_block {r : BarReq} (hr : r.level = false) (w x : Warp) : samePeers r w x = true ↔
    x.block = w.block ∧ x.kind = .kernel := by
  simp [samePeers, hr]

/-- R159: a warp counts as arrived at a level barrier, or takes no part in it. -/
def peerMet (w : Warp) (n : Nat) (phase : Bool) (x : Warp) : Prop :=
  x.launch = w.launch → x.kind = .kernel → levelInst x n = levelInst w n →
    x.st = .ended ∨ (pendOf x true n = true ∧ aphOf x true n = phase)

/-- R159: levelDone looks at every warp of the launch that the level holds, and at the blocks that are to be placed there. -/
theorem levelDone_iff {s : State} {w : Warp} {l : Launch} (hl : warpLaunch s w = some l) (hs : rising s.warps = true)
    (r : BarReq) (hr : r.level = true) : levelDone s w r.n = true ↔
      unplacedIn l w r.n = 0 ∧ ∀ u x, fget s.warps u = some x → peerMet w r.n (barState s w r).phase x := by
  have hstate : barState s w { level := true, n := r.n, arrives := false, waits := false, count := 0 } = barState s w r := by
    simp only [barState, hr]
  have hpeer (x : Warp) : (!samePeers { level := true, n := r.n, arrives := false, waits := false, count := 0 } w x ||
      x.st = .ended || (pendOf x true r.n && aphOf x true r.n == (barState s w r).phase)) = true ↔
        peerMet w r.n (barState s w r).phase x := by
    have hp := samePeers_level (r := { level := true, n := r.n, arrives := false, waits := false, count := 0 }) rfl w x
    rw [Bool.or_assoc, Bool.or_eq_true, Bool.not_eq_true', ← Bool.not_eq_true, hp, Bool.or_eq_true, Bool.and_eq_true,
      beq_iff_eq, decide_eq_true_eq, ← imp_iff_not_or, peerMet]
    tauto
  rw [levelDone, Bool.and_eq_true, hl, Option.all_some, decide_eq_true_eq, List.all_eq_true]
  simp only [hstate, hpeer]
  refine and_congr_right fun _ => ⟨fun h u x hx => h (u, x) (mem_of_fget_eq_some hx), fun h e he => h e.1 e.2 (fget_of_mem hs he)⟩

/-! ## The arrival (R156) -/

/-- R156: the state word with an arrival more. -/
def counted (b : Bar) (r : BarReq) : Bar :=
  { b with expect := if b.arrived = 0 then r.count else b.expect, arrived := b.arrived + 1 }

/-- R156: the state word of a phase that has completed. -/
def turned (b : Bar) : Bar := { b with phase := !b.phase, arrived := 0 }

/-- R156: the state once an arrival is counted. -/
def arrivedState (s : State) (uid : Nat) (w : Warp) (r : BarReq) : State :=
  putBar (putWarp s uid (arrivedWarp w r (barState s w r).phase)) w r (counted (barState s w r) r)

/-- R156, R159: the arrival is the last one of its phase. -/
def lastArrival (s : State) (uid : Nat) (w : Warp) (r : BarReq) : Bool :=
  if r.level then levelDone (arrivedState s uid w r) w r.n
  else (counted (barState s w r) r).arrived = (counted (barState s w r) r).expect

/-- The state after an arrival that counts: the phase completes with the last one. -/
def arrivalLeaves (s : State) (uid : Nat) (w : Warp) (r : BarReq) : State :=
  if lastArrival s uid w r then completePhase (arrivedState s uid w r) w r (counted (barState s w r) r)
  else arrivedState s uid w r

theorem barArrive_again {s : State} {uid : Nat} {w : Warp} {r : BarReq} (hpend : pendOf w r.level r.n = true)
    (haph : aphOf w r.level r.n = (barState s w r).phase) : barArrive s uid w r = .error 0xA9 := by
  rw [barArrive, if_pos (by simp [hpend, haph])]

theorem barArrive_mismatch {s : State} {uid : Nat} {w : Warp} {r : BarReq}
    (hagain : ¬(pendOf w r.level r.n = true ∧ aphOf w r.level r.n = (barState s w r).phase)) (hr : r.level = false)
    (hb : (barState s w r).arrived ≠ 0) (hcount : r.count ≠ (barState s w r).expect) : barArrive s uid w r = .error 0xA3 := by
  rw [barArrive, if_neg (by simpa using hagain), if_pos (by simp [hr, hb, hcount])]

theorem barArrive_counts {s : State} {uid : Nat} {w : Warp} {r : BarReq}
    (hagain : ¬(pendOf w r.level r.n = true ∧ aphOf w r.level r.n = (barState s w r).phase))
    (hcount : r.level = true ∨ (barState s w r).arrived = 0 ∨ r.count = (barState s w r).expect) :
    barArrive s uid w r = .ok (arrivalLeaves s uid w r) := by
  have hmatch : ¬((!r.level && (barState s w r).arrived ≠ 0 && r.count ≠ (barState s w r).expect) = true) := by
    rcases hcount with h | h | h <;> simp [h]
  rw [barArrive, if_neg (by simpa using hagain), if_neg hmatch]
  unfold arrivalLeaves lastArrival
  by_cases hr : r.level = true
  · rw [if_pos hr, if_pos hr]; rfl
  · rw [if_neg hr, if_neg hr]
    simp only [decide_eq_true_eq]
    rfl

theorem arrivedState_warps (s : State) (uid : Nat) (w : Warp) (r : BarReq) :
    (arrivedState s uid w r).warps = fput s.warps uid (arrivedWarp w r (barState s w r).phase) := putBar_warps ..

theorem fget_arrivedState_other (s : State) {uid v : Nat} (w : Warp) (r : BarReq) (h : v ≠ uid) :
    fget (arrivedState s uid w r).warps v = fget s.warps v := by
  rw [arrivedState_warps, fget_fput_other _ _ h]

theorem rising_arrivedState {s : State} (hs : rising s.warps = true) (uid : Nat) (w : Warp) (r : BarReq) :
    rising (arrivedState s uid w r).warps = true := by
  rw [arrivedState_warps]
  exact rising_fput _ _ hs

theorem barState_arrivedState {s : State} {w : Warp} {r : BarReq} (h : hasBar s w r) (uid : Nat) :
    barState (arrivedState s uid w r) w r = counted (barState s w r) r :=
  barState_putBar (s := putWarp s uid (arrivedWarp w r (barState s w r).phase)) h _

theorem arrivedWarp_waitsPhase (w : Warp) (r : BarReq) (phase : Bool) (level : Bool) (n : Nat) :
    waitsPhase (arrivedWarp w r phase) level n = waitsPhase w level n := by
  have ha : (arrivedWarp w r phase).a = w.a := arrivedWarp_path w r phase false
  have hb : (arrivedWarp w r phase).b = w.b := arrivedWarp_path w r phase true
  rw [waitsPhase, ha, hb, waitsPhase]

theorem arrivalLeaves_mem (s : State) (uid : Nat) (w : Warp) (r : BarReq) : (arrivalLeaves s uid w r).mem = s.mem := by
  have harrived : (arrivedState s uid w r).mem = s.mem := putBar_mem ..
  unfold arrivalLeaves
  split
  · rw [completePhase_mem, harrived]
  · exact harrived

/-- R156: the acting warp has arrived, whether its phase completes or not. -/
theorem fget_arrivalLeaves {s : State} {w : Warp} {r : BarReq} (hs : rising s.warps = true)
    (hwaits : waitsPhase w r.level r.n = false) (uid : Nat) :
    fget (arrivalLeaves s uid w r).warps uid = some (arrivedWarp w r (barState s w r).phase) := by
  have harrived : fget (arrivedState s uid w r).warps uid = some (arrivedWarp w r (barState s w r).phase) := by
    rw [arrivedState_warps, fget_fput, if_pos rfl]
  unfold arrivalLeaves
  split
  · rw [completePhase]
    have hno : phaseWaiter w r (!(counted (barState s w r) r).phase) (arrivedWarp w r (barState s w r).phase) = false := by
      rw [phaseWaiter, arrivedWarp_waitsPhase, hwaits, Bool.and_false, Bool.false_and]
    rw [(wakePhase_does _ w r _ (by rw [putBar_warps]; exact rising_arrivedState hs uid w r)).2 uid _
      (by rw [putBar_warps]; exact harrived), hno]
    rfl
  · exact harrived

/-- R156: the state word after an arrival. -/
theorem barState_arrivalLeaves {s : State} {w : Warp} {r : BarReq} (hs : rising s.warps = true) (h : hasBar s w r) (uid : Nat) :
    barState (arrivalLeaves s uid w r) w r =
      if lastArrival s uid w r then turned (counted (barState s w r) r) else counted (barState s w r) r := by
  have hrise : rising (putBar (arrivedState s uid w r) w r (turned (counted (barState s w r) r))).warps = true := by
    rw [putBar_warps]; exact rising_arrivedState hs uid w r
  have harrived : hasBar (arrivedState s uid w r) w r :=
    hasBar_putBar (s := putWarp s uid (arrivedWarp w r (barState s w r).phase)) h _
  unfold arrivalLeaves
  split
  · exact (barState_of_homes (wakePhase_does _ w r _ hrise).1 w r).trans (barState_putBar harrived _)
  · exact barState_arrivedState h uid

/-- R156: the other warps that wait for a phase go on with the last arrival. -/
theorem waitersGo_arrivalLeaves {s : State} {w : Warp} {r : BarReq} (hs : rising s.warps = true) (hin : barIn r.level r.n)
    (hlast : lastArrival s s.cur.warp w r = true) : waitersGo s (arrivalLeaves s s.cur.warp w r) r.level r.n
      (fun x => samePeers r w x = true) (barState s w r).phase := by
  intro v x hv hx _ hpeer hst hreload hwait haph
  have hrise : rising (putBar (arrivedState s s.cur.warp w r) w r (turned (counted (barState s w r) r))).warps = true := by
    rw [putBar_warps]; exact rising_arrivedState hs s.cur.warp w r
  have hget : fget (putBar (arrivedState s s.cur.warp w r) w r (turned (counted (barState s w r) r))).warps v = some x := by
    rw [putBar_warps, fget_arrivedState_other s w r hv, hx]
  have hwaiter : phaseWaiter w r (!(barState s w r).phase) x = true := by
    simp [phaseWaiter, hpeer, hst, hreload, waitsPhase, hwait, haph]
  refine ⟨waitDone r.level r.n x, ?_, waitDone_goes hin hwait⟩
  rw [arrivalLeaves, if_pos hlast]
  exact ((wakePhase_does _ w r _ hrise).2 v x hget).trans (congrArg some (if_pos hwaiter))

/-- R159: the arrival of a warp at a level barrier is the last one where every other participant has arrived or exited. -/
theorem lastArrival_level {s : State} {w : Warp} {l : Launch} {r : BarReq}
    (hl : warpLaunch s w = some l) (hs : rising s.warps = true) (hr : r.level = true) (hin : barIn r.level r.n) :
    lastArrival s s.cur.warp w r = true ↔ levelMet s w l r.n (barState s w r).phase := by
  have hbar : hasBar s w r := by rw [hasBar, if_pos hr]; exact ⟨l, hl⟩
  have hlaunch : warpLaunch (arrivedState s s.cur.warp w r) w =
      some { l with lbars := fputD Bar.fresh l.lbars (levelKey w r.n) (counted (barState s w r) r) } := by
    rw [arrivedState, putBar, if_pos hr, warpLaunch, fget_fmod, if_pos rfl]
    exact congrArg (Option.map _) hl
  rw [lastArrival, if_pos hr, levelDone_iff hlaunch (rising_arrivedState hs _ w r) r hr, barState_arrivedState hbar, levelMet]
  refine and_congr Iff.rfl ⟨fun h v x hv hx hlaun hkind hinst => ?_, fun h u x hx hlaun hkind hinst => ?_⟩
  · exact h v x ((fget_arrivedState_other s w r hv).trans hx) hlaun hkind hinst
  · by_cases hu : u = s.cur.warp
    · rw [hu, arrivedState_warps, fget_fput, if_pos rfl, Option.some.injEq] at hx
      subst hx
      have hpend := pendOf_arrivedWarp w hin (barState s w r).phase
      have haph := aphOf_arrivedWarp w hin (barState s w r).phase
      rw [hr] at hpend haph
      exact .inr ⟨hpend, haph⟩
    · exact h u x hu ((fget_arrivedState_other s w r hu).symm.trans hx) hlaun hkind hinst

/-- R156, R159: what the state word of the barrier becomes. -/
theorem arrivedAs_arrivalLeaves {s : State} {w : Warp} {l : Launch} {r : BarReq}
    (hl : warpLaunch s w = some l) (hs : rising s.warps = true) (h : hasBar s w r) (hin : barIn r.level r.n) :
    arrivedAs s w l r (barState s w r) (barState (arrivalLeaves s s.cur.warp w r) w r) := by
  rw [barState_arrivalLeaves hs h, arrivedAs]
  split
  · next hr =>
    rw [← lastArrival_level hl hs hr hin]
    refine ⟨fun hlast => ?_, fun hlast => ?_⟩
    · rw [if_pos hlast]; exact ⟨rfl, rfl⟩
    · rw [if_neg hlast]; exact ⟨rfl, rfl⟩
  · next hr =>
    simp only [lastArrival, if_neg hr, decide_eq_true_eq]
    rfl

/-- R156: the phase is another one just where the arrival was the last one. -/
theorem phase_arrivalLeaves {s : State} {w : Warp} {r : BarReq} (hs : rising s.warps = true) (h : hasBar s w r) (uid : Nat) :
    (barState (arrivalLeaves s uid w r) w r).phase ≠ (barState s w r).phase ↔ lastArrival s uid w r = true := by
  rw [barState_arrivalLeaves hs h]
  cases lastArrival s uid w r
  · exact ⟨fun hne => absurd rfl hne, fun hf => nomatch hf⟩
  · exact ⟨fun _ => rfl, fun _ => Bool.not_ne_self _⟩

end Sys2Proof.Machine

/-! # Barriers (O15): what the six forms leave -/

namespace Sys2Proof.Machine

open Sys2Proof.Claims

/-! ## The warp of an arrival (R156) -/

/-- The warps may differ in PEND, in APH and in the end of the region, and in nothing else. -/
def arrivalOf (w v : Warp) : Prop := { v with
  pend := w.pend, lpend := w.lpend, aph := w.aph, laph := w.laph, nidem := w.nidem } = w

theorem arrivalOf_self (w : Warp) : arrivalOf w w := rfl

theorem arrivalOf_arrivedWarp (w : Warp) (r : BarReq) (phase : Bool) : arrivalOf w (arrivedWarp w r phase) :=
  arrivedWarp_frame w r phase

theorem arrivalOf.path {w v : Warp} (h : arrivalOf w v) (q : Bool) : v.path q = w.path q := (congrArg (Warp.path · q) h :)

theorem arrivalOf.barPaths {w v : Warp} (h : arrivalOf w v) (pf : Bool) : barPaths v pf = barPaths w pf :=
  (congrArg (Machine.barPaths · pf) h :)

theorem arrivalOf.barState {w v : Warp} (h : arrivalOf w v) (t : State) (r : BarReq) : barState t v r = barState t w r :=
  (congrArg (Machine.barState t · r) h :)

/-! ## What a barrier instruction leaves (R156) -/

/-- R156: the acting warp after a barrier: PEND is as given, and each path that the instruction acts for has gone on, or waits
for the phase. -/
def leftAt (s t : State) (w : Warp) (r : BarReq) (pend go : Bool) : Prop :=
  ∃ v, fget t.warps s.cur.warp = some v ∧ pendOf v r.level r.n = pend ∧ t.mem = s.mem ∧ v.xs = w.xs ∧ v.regs = w.regs ∧
    ∀ q ∈ barPaths w s.cur.path, (v.path q).x = (w.path q).x ∧ (v.path q).k = (w.path q).k ∧
      (v.path q).wait = (if go then .none else .phase r.level r.n) ∧
      (v.path q).pc = if go then (w.path q).pc + 4 else (w.path q).pc

/-- A path that waits for a phase, and one that has made its arrival at once. -/
def phased (r : BarReq) (p : Path) : Path :=
  { p with wait := .phase r.level r.n, synced := if r.arrives then some p.pc else none }

/-- A path after a barrier that only arrives. -/
def pastBar (p : Path) : Path := { p with wait := .none, pc := p.pc + 4 }

/-- A path that a cause of a barrier stops. -/
def unwaited (p : Path) : Path := { p with wait := .none, synced := none }

/-- R156: the acting warp whose phase has completed already. -/
def passedWarp (w : Warp) (pf : Bool) (r : BarReq) : Warp :=
  let v := onBarPaths w pf (phased r)
  setPend { v with a := endWait r.level r.n v.a, b := endWait r.level r.n v.b } r.level r.n false

theorem pendOf_onBarPaths (w : Warp) (pf : Bool) (f : Path → Path) (level : Bool) (n : Nat) :
    pendOf (onBarPaths w pf f) level n = pendOf w level n := (congrArg (pendOf · level n) (onBarPaths_frame w pf f) :)

theorem onBarPaths_acted (w : Warp) {pf q : Bool} (f : Path → Path) (hq : q ∈ barPaths w pf) :
    (onBarPaths w pf f).path q = unspun (f (w.path q)) := (onBarPaths_path w pf f q).trans (if_pos hq)

theorem passedWarp_path (w : Warp) {pf q : Bool} (r : BarReq) (hq : q ∈ barPaths w pf) :
    (passedWarp w pf r).path q = ({ unspun (phased r (w.path q)) with
      wait := .none, synced := none, pc := (w.path q).pc + 4 } : Path).lift true := by
  have hend : (passedWarp w pf r).path q = endWait r.level r.n ((onBarPaths w pf (phased r)).path q) := by
    rw [passedWarp, setPend_path]
    cases q <;> rfl
  rw [hend, onBarPaths_acted w _ hq]
  exact endWait_waiting rfl

theorem passedWarp_frame (w : Warp) (pf : Bool) (r : BarReq) : { passedWarp w pf r with
    a := w.a, b := w.b, wdc := w.wdc, pend := w.pend, lpend := w.lpend } = w := by
  have hpend := setPend_frame { onBarPaths w pf (phased r) with
    a := endWait r.level r.n (onBarPaths w pf (phased r)).a, b := endWait r.level r.n (onBarPaths w pf (phased r)).b }
    r.level r.n false
  have hpaths := onBarPaths_frame w pf (phased r)
  exact (congrArg (fun x : Warp => { x with a := w.a, b := w.b, wdc := w.wdc, pend := w.pend, lpend := w.lpend }) hpend :).trans
    (congrArg (fun x : Warp => { x with pend := w.pend, lpend := w.lpend }) hpaths :)

section
variable {s t : State} {w v : Warp} {r : BarReq} (hv : arrivalOf w v) (hmem : t.mem = s.mem)
include hv hmem

theorem leftAt_waits (hpend : pendOf v r.level r.n = true) :
    leftAt s (putWarp t s.cur.warp (onBarPaths v s.cur.path (phased r))) w r true false := by
  have hframe := onBarPaths_frame v s.cur.path (phased r)
  refine ⟨_, fget_putWarp .., (pendOf_onBarPaths ..).trans hpend, hmem, ?_, ?_, fun q hq => ?_⟩
  · exact (congrArg Warp.xs hframe :).trans (congrArg Warp.xs hv :)
  · exact (congrArg Warp.regs hframe :).trans (congrArg Warp.regs hv :)
  · rw [onBarPaths_acted v _ (hv.barPaths _ ▸ hq), hv.path]
    exact ⟨rfl, rfl, rfl, rfl⟩

theorem leftAt_past (hpend : pendOf v r.level r.n = true) :
    leftAt s (putWarp t s.cur.warp (onBarPaths v s.cur.path pastBar)) w r true true := by
  have hframe := onBarPaths_frame v s.cur.path pastBar
  refine ⟨_, fget_putWarp .., (pendOf_onBarPaths ..).trans hpend, hmem, ?_, ?_, fun q hq => ?_⟩
  · exact (congrArg Warp.xs hframe :).trans (congrArg Warp.xs hv :)
  · exact (congrArg Warp.regs hframe :).trans (congrArg Warp.regs hv :)
  · rw [onBarPaths_acted v _ (hv.barPaths _ ▸ hq), hv.path]
    exact ⟨rfl, rfl, rfl, rfl⟩

theorem leftAt_goes (hin : barIn r.level r.n) (core : Nat) :
    leftAt s (l1DropCore (putWarp t s.cur.warp (passedWarp v s.cur.path r)) core) w r false true := by
  have hframe := passedWarp_frame v s.cur.path r
  refine ⟨_, fget_putWarp .., pendOf_setPend _ hin false, hmem, ?_, ?_, fun q hq => ?_⟩
  · exact (congrArg Warp.xs hframe :).trans (congrArg Warp.xs hv :)
  · exact (congrArg Warp.regs hframe :).trans (congrArg Warp.regs hv :)
  · rw [passedWarp_path v _ (hv.barPaths _ ▸ hq), hv.path, lift_x, lift_k, lift_wait, lift_pc]
    exact ⟨rfl, rfl, rfl, rfl⟩

end

/-- What leftAt says of a warp that is whole. -/
theorem leftAt.barrierLeft {s t : State} {w : Warp} {r : BarReq} {pend go : Bool} (h : leftAt s t w r pend go) :
    barrierLeft s t w r.level r.n pend (if go then .none else .phase r.level r.n)
      (if go then nextPc s w else (actPath s w).pc) := by
  obtain ⟨v, hv, hpend, hmem, hxs, hregs, hpaths⟩ := h
  obtain ⟨hx, hk, hwait, hpc⟩ := hpaths s.cur.path (mem_barPaths w s.cur.path)
  exact ⟨v, hv, hpend, hwait, hpc, hx, hk, hxs, hregs, hmem⟩

/-! ## WAIT (R156) -/

section
variable {t : State} {uid : Nat} {pf : Bool} {v : Warp} {r : BarReq} (hv : fget t.warps uid = some v)
include hv

theorem barWait_noPend (hpend : pendOf v r.level r.n = false) : barWait t uid pf r = trapBoth t uid pf 0xAA := by
  simp only [barWait, hv]
  rw [if_pos (by rw [hpend]; rfl)]

theorem barWait_waits (hpend : pendOf v r.level r.n = true) (haph : aphOf v r.level r.n = (barState t v r).phase) :
    barWait t uid pf r = putWarp t uid (onBarPaths v pf (phased r)) := by
  simp only [barWait, hv]
  rw [if_neg (by rw [hpend]; decide), if_pos (beq_iff_eq.mpr haph)]
  rfl

theorem barWait_goes (hpend : pendOf v r.level r.n = true) (haph : aphOf v r.level r.n ≠ (barState t v r).phase) :
    barWait t uid pf r = l1DropCore (putWarp t uid (passedWarp v pf r)) (coreKey v) := by
  simp only [barWait, hv]
  rw [if_neg (by rw [hpend]; decide), if_neg (fun h => haph (beq_iff_eq.mp h))]
  rfl

theorem barPast_eq : barPast t uid pf = putWarp t uid (onBarPaths v pf pastBar) := modWarp_eq hv _

/-! ## The causes of a barrier (R157) -/

theorem trapBoth_eq (c : Nat) : trapBoth t uid pf c = (barPaths v pf).foldl
    (fun u q => raiseTrap u uid q (sTrap ((onBarPaths v pf unwaited).path q) c)) (putWarp t uid (onBarPaths v pf unwaited)) := by
  simp only [trapBoth, hv]
  rfl

end

theorem barrierTraps_of_trapBoth {i : Instr} {s : State} {w : Warp} {c : Nat} (hw : fget s.warps s.cur.warp = some w)
    (hdiv : w.div = false) (hsynced : (actPath s w).synced = none)
    (h : exec i s = .next (trapBoth s s.cur.warp s.cur.path c)) : barrierTraps i s w c := by
  rw [trapBoth_eq hw, barPaths_whole hdiv] at h
  refine ⟨onBarPaths w s.cur.path unwaited, h, onBarPaths_frame .., onBarPaths_counted hdiv .., ?_, ?_⟩
  · rw [actPath, onBarPaths_acted w _ (mem_barPaths w _)]
    exact congrArg (fun x => { actPath s w with synced := x }) hsynced.symm
  · rw [onBarPaths_path, barPaths_whole hdiv, if_neg (by simp)]

theorem pairTraps_of_trapBoth {i : Instr} {s : State} {w : Warp} {c : Nat} (hw : fget s.warps s.cur.warp = some w)
    (hdiv : w.div = true) (h : exec i s = .next (trapBoth s s.cur.warp s.cur.path c)) : pairTraps i s w c := by
  have hpaths : barPaths w s.cur.path = [false, true] := if_pos hdiv
  have ha : (onBarPaths w s.cur.path unwaited).a = unspun (unwaited w.a) :=
    onBarPaths_acted w (q := false) _ (mem_barPaths_of_div hdiv ..)
  have hb : (onBarPaths w s.cur.path unwaited).b = unspun (unwaited w.b) :=
    onBarPaths_acted w (q := true) _ (mem_barPaths_of_div hdiv ..)
  rw [trapBoth_eq hw, hpaths] at h
  refine ⟨onBarPaths w s.cur.path unwaited, h, onBarPaths_frame .., ?_, ?_, ?_, ?_⟩
  · rw [ha]; rfl
  · rw [hb]; rfl
  · rw [ha]; rfl
  · rw [hb]; rfl

end Sys2Proof.Machine

/-! # Barriers (O15): the six forms (R155 to R159) -/

namespace Sys2Proof.Machine

open Sys2Proof.Claims

/-! ## The first checks (R155, R159) -/

/-- R155, R159: a barrier form, by what it names. -/
def barForm (s : State) (r : BarReq) : Out := if r.level then lbar s r else bar s r

theorem barCount_eq {s : State} {w : Warp} (hw : fget s.warps s.cur.warp = some w) (a : Nat) :
    barCount s a = (rx w s.cur.path a).toNat := by
  simp only [barCount, hw]

theorem exec_barrierForm {s : State} {w : Warp} (hw : fget s.warps s.cur.warp = some w) (bn scope a : Nat) :
    ∀ e ∈ barrierForms s w bn scope a, exec e.1 s = barForm s e.2 := by
  intro e he
  simp only [barrierForms, ← barCount_eq hw, List.mem_cons, List.not_mem_nil, or_false] at he
  rcases he with rfl | rfl | rfl | rfl | rfl | rfl <;> rfl

section
variable {s : State} {w : Warp} (hw : actsOn s w)
include hw

theorem barForm_stalls (h : allIssued (actPath s w) = false) (r : BarReq) : barForm s r = stall s := by
  unfold barForm lbar bar
  split <;> rw [onPath_live s w hw] <;> exact if_pos (by rw [h]; rfl)

theorem barForm_badNumber {l : Launch} {r : BarReq} (h : allIssued (actPath s w) = true) (hl : warpLaunch s w = some l)
    (hr : r.level = false) (hbad : l.lrec.nbar ≤ r.n ∨ r.arrives = true ∧ (r.count < 1 ∨ 64 < r.count)) :
    barForm s r = trapS s 0xA4 := by
  have hcheck : (decide (l.lrec.nbar ≤ r.n) || r.arrives && (decide (r.count < 1) || decide (64 < r.count))) = true := by
    simpa using hbad
  rw [barForm, if_neg (ne_true_of_eq_false hr), bar, onPath_live s w hw]
  dsimp only
  rw [if_neg (by rw [h]; decide), hl]
  exact if_pos hcheck

theorem barForm_notGang {l : Launch} {r : BarReq} (h : allIssued (actPath s w) = true) (hl : warpLaunch s w = some l)
    (hr : r.level = true) (hgang : l.lrec.gang = false) : barForm s r = trapS s 0xAB := by
  rw [barForm, if_pos hr, lbar, onPath_live s w hw, if_neg (by rw [h]; decide), hl,
    if_pos (by simp [hgang])]

theorem barForm_passes {l : Launch} {r : BarReq} (h : allIssued (actPath s w) = true) (hl : warpLaunch s w = some l)
    (hpass : barrierPasses l r) : barForm s r = barCommon s w (actPath s w) r := by
  unfold barrierPasses at hpass
  unfold barForm lbar bar
  split
  · next hr =>
    rw [if_pos hr] at hpass
    rw [onPath_live s w hw, if_neg (by rw [h]; decide), hl, if_neg (by simp [hpass])]
  · next hr =>
    rw [if_neg hr] at hpass
    obtain ⟨hn, hcount⟩ := hpass
    have hcheck : ¬(decide (l.lrec.nbar ≤ r.n) || r.arrives && (decide (r.count < 1) || decide (64 < r.count))) = true := by
      simpa [Nat.not_le.mpr hn, Nat.one_le_iff_ne_zero] using hcount
    rw [onPath_live s w hw]
    dsimp only
    rw [if_neg (by rw [h]; decide), hl]
    exact if_neg hcheck

end

/-! ## The divergence stack and the other path (R155, R157) -/

theorem entriesOf_isEmpty (w : Warp) (pf : Bool) : (entriesOf w pf).isEmpty = true ↔ noEntry w.dstack pf := by
  simp [entriesOf, noEntry]

/-- R157: the instruction has met its other path, where there is one, and goes on to the barrier. -/
def reachesBar (i : Instr) (s : State) (w : Warp) (r : BarReq) : Prop :=
  exec i s = if barReleased s w s.cur.warp s.cur.path r then .next (barAct s s.cur.warp s.cur.path w r) else stall s

theorem barCommon_entry {s : State} {w : Warp} (h : ¬noEntry w.dstack s.cur.path) (p : Path) (r : BarReq) :
    barCommon s w p r = trapS s 0xA8 := by
  rw [← entriesOf_isEmpty] at h
  exact if_pos (by rw [Bool.eq_false_iff.mpr h]; rfl)

section
variable {s : State} {w : Warp} {r : BarReq} {p : Path} (h : noEntry w.dstack s.cur.path)
include h

theorem barCommon_go (hp : pairing w s.cur.path r.count = .go) : barCommon s w p r =
    if barReleased s w s.cur.warp s.cur.path r then .next (barAct s s.cur.warp s.cur.path w r) else stall s := by
  rw [barCommon, (entriesOf_isEmpty ..).mpr h]
  simp only [hp]
  rfl

theorem barCommon_wait (hp : pairing w s.cur.path r.count = .wait) : barCommon s w p r =
    .next (putWarp s s.cur.warp (w.setPath s.cur.path { p with wait := .bar p.pc r.count })) := by
  rw [barCommon, (entriesOf_isEmpty ..).mpr h]
  simp only [hp]
  rfl

theorem barCommon_trap {c : Nat} (hp : pairing w s.cur.path r.count = .trap c) : barCommon s w p r = trapS s c := by
  rw [barCommon, (entriesOf_isEmpty ..).mpr h]
  simp only [hp]
  rfl

theorem barCommon_trapBoth {c : Nat} (hp : pairing w s.cur.path r.count = .trapBoth c) :
    barCommon s w p r = .next (trapBoth s s.cur.warp s.cur.path c) := by
  rw [barCommon, (entriesOf_isEmpty ..).mpr h]
  simp only [hp]
  rfl

end

theorem pairing_whole {w : Warp} (h : w.div = false) (pf : Bool) (n : Nat) : pairing w pf n = .go :=
  if_pos (by rw [h]; rfl)

section
variable {w : Warp} {pf : Bool} (hdiv : w.div = true)
include hdiv

theorem pairing_gone (n : Nat) (h : (w.path !pf).live = false ∨ (w.path !pf).wait = .join) : pairing w pf n = .trap 0xA6 := by
  rw [pairing, if_neg (by rw [hdiv]; decide), if_pos (by rcases h with h | h <;> simp [h])]

theorem pairing_first (n : Nat) (hlive : (w.path !pf).live = true) (hjoin : (w.path !pf).wait ≠ .join)
    (hbar : ∀ pc m, (w.path !pf).wait ≠ .bar pc m) : pairing w pf n = .wait := by
  rw [pairing, if_neg (by rw [hdiv]; decide), if_neg (by simp [hlive, hjoin])]
  split
  · next pc m he => exact absurd he (hbar pc m)
  · rfl

theorem pairing_met (n : Nat) {pc : W64} {m : Nat} (hlive : (w.path !pf).live = true) (hbar : (w.path !pf).wait = .bar pc m) :
    pairing w pf n = if pc ≠ (w.path pf).pc then .trapBoth 0xA7 else if m ≠ n then .trapBoth 0xA3 else .go := by
  rw [pairing, if_neg (by rw [hdiv]; decide), if_neg (by simp [hlive, hbar]), hbar]

end

/-! ## The barrier reached (R156, R158) -/

section
variable {s : State} {uid : Nat} {pf : Bool} {w : Warp} {r : BarReq}

theorem barAct_wait (h : r.arrives = false) : barAct s uid pf w r = barWait s uid pf r := by
  rw [barAct, h]; rfl

section
variable (harrives : r.arrives = true) (hsynced : (w.path pf).synced = none)
include harrives hsynced

theorem barAct_refused {c : Nat} (h : barArrive s uid w r = .error c) : barAct s uid pf w r = trapBoth s uid pf c := by
  rw [barAct, harrives, hsynced, h]
  rfl

theorem barAct_syncs {t : State} (h : barArrive s uid w r = .ok t) (hwaits : r.waits = true) :
    barAct s uid pf w r = barWait t uid pf r := by
  rw [barAct, harrives, hsynced, h, hwaits]
  rfl

theorem barAct_passes {t : State} (h : barArrive s uid w r = .ok t) (hwaits : r.waits = false) :
    barAct s uid pf w r = barPast t uid pf := by
  rw [barAct, harrives, hsynced, h, hwaits]
  rfl

end

end

end Sys2Proof.Machine

/-! # Barriers (O15): a barrier that is reached (R156, R158) -/

namespace Sys2Proof.Machine

open Sys2Proof.Claims

/-- R158, R159: every path that the instruction acts for has its accesses performed at the scope of the arrival. -/
def released (s : State) (w : Warp) (r : BarReq) : Prop :=
  ∀ q ∈ barPaths w s.cur.path, fenceReady s s.cur.warp q (if r.level then r.n else 1) = true

/-- R156: the warp has arrived in the current phase. -/
def arrivedOnce (s : State) (w : Warp) (r : BarReq) : Prop :=
  pendOf w r.level r.n = true ∧ aphOf w r.level r.n = (barState s w r).phase

theorem barReleased_iff {s : State} {w : Warp} {r : BarReq} (h : r.arrives = true) :
    barReleased s w s.cur.warp s.cur.path r = true ↔ released s w r := by
  rw [barReleased, h, Bool.not_true, Bool.false_or, List.all_eq_true, released]

theorem barReleased_wait {s : State} {w : Warp} {r : BarReq} (h : r.arrives = false) :
    barReleased s w s.cur.warp s.cur.path r = true := by
  rw [barReleased, h]; rfl

theorem waitersGo_of_others {s t u : State} {level : Bool} {n : Nat} {peer : Warp → Prop} {phase : Bool}
    (h : waitersGo s t level n peer phase) (hsame : ∀ v, v ≠ s.cur.warp → fget u.warps v = fget t.warps v) :
    waitersGo s u level n peer phase := by
  intro v x hv hx hkind hpeer hst hreload hwait haph
  obtain ⟨x', hx', hrest⟩ := h v x hv hx hkind hpeer hst hreload hwait haph
  exact ⟨x', (hsame v hv).trans hx', hrest⟩

theorem waitersGo_of_peers {s t : State} {level : Bool} {n : Nat} {peer peer' : Warp → Prop} {phase : Bool}
    (h : waitersGo s t level n peer phase) (hpeer : ∀ x : Warp, x.kind = .kernel → peer' x → peer x) :
    waitersGo s t level n peer' phase :=
  fun v x hv hx hkind hx' => h v x hv hx hkind (hpeer x hkind hx')

/-- What an arrival leaves of the barrier and of the warps that wait at it. -/
def barrierTurned (s t : State) (w : Warp) (l : Launch) (r : BarReq) : Prop :=
  arrivedAs s w l r (barState s w r) (barState t w r) ∧ ((barState t w r).phase ≠ (barState s w r).phase →
    waitersGo s t r.level r.n (fun x => samePeers r w x = true) (barState s w r).phase)

theorem barrierTurned_of_same {s t u : State} {w : Warp} {l : Launch} {r : BarReq} (h : barrierTurned s t w l r)
    (hhomes : homesKept t u) (hsame : ∀ v, v ≠ s.cur.warp → fget u.warps v = fget t.warps v) : barrierTurned s u w l r := by
  rw [barrierTurned, barState_of_homes hhomes]
  exact ⟨h.1, fun hphase => waitersGo_of_others (h.2 hphase) hsame⟩

theorem barrierTurned_putWarp {s t : State} {w : Warp} {l : Launch} {r : BarReq} (h : barrierTurned s t w l r) (v : Warp) :
    barrierTurned s (putWarp t s.cur.warp v) w l r :=
  barrierTurned_of_same h ⟨rfl, rfl, rfl⟩ fun _ hu => fget_putWarp_other t v hu

theorem barrierTurned_arrivalLeaves {s : State} {w : Warp} {l : Launch} {r : BarReq} (hl : warpLaunch s w = some l)
    (hs : rising s.warps = true) (hin : barIn r.level r.n) (hbar : hasBar s w r) :
    barrierTurned s (arrivalLeaves s s.cur.warp w r) w l r :=
  ⟨arrivedAs_arrivalLeaves hl hs hbar hin, fun hphase =>
    waitersGo_arrivalLeaves hs hin ((phase_arrivalLeaves hs hbar _).mp hphase)⟩

section
variable {i : Instr} {s : State} {w : Warp} {r : BarReq} (hreach : reachesBar i s w r)
include hreach

theorem reached_waits (harrives : r.arrives = true) (h : ¬released s w r) : waits i s :=
  hreach.trans (if_neg fun hrel => h ((barReleased_iff harrives).mp hrel))

theorem reached_arrives (harrives : r.arrives = true) (h : released s w r) :
    exec i s = .next (barAct s s.cur.warp s.cur.path w r) := hreach.trans (if_pos ((barReleased_iff harrives).mpr h))

theorem reached_waitOnly (harrives : r.arrives = false) : exec i s = .next (barWait s s.cur.warp s.cur.path r) :=
  (hreach.trans (if_pos (barReleased_wait harrives))).trans (congrArg Host.Outcome.next (barAct_wait harrives))

section
variable (harrives : r.arrives = true) (hrel : released s w r) (hsynced : (actPath s w).synced = none)
include harrives hrel hsynced

theorem reached_again (h : arrivedOnce s w r) : exec i s = .next (trapBoth s s.cur.warp s.cur.path 0xA9) := by
  rw [reached_arrives hreach harrives hrel, barAct_refused harrives hsynced (barArrive_again h.1 h.2)]

theorem reached_mismatch (h : ¬arrivedOnce s w r) (hr : r.level = false) (hb : (barState s w r).arrived ≠ 0)
    (hcount : r.count ≠ (barState s w r).expect) : exec i s = .next (trapBoth s s.cur.warp s.cur.path 0xA3) := by
  rw [reached_arrives hreach harrives hrel, barAct_refused harrives hsynced (barArrive_mismatch h hr hb hcount)]

section
variable {l : Launch} (hl : warpLaunch s w = some l) (hs : rising s.warps = true) (hin : barIn r.level r.n) (hbar : hasBar s w r)
  (hwaits : waitsPhase w r.level r.n = false) (honce : ¬arrivedOnce s w r)
  (hcount : r.level = true ∨ (barState s w r).arrived = 0 ∨ r.count = (barState s w r).expect)
include hl hs hin hbar hwaits honce hcount

/-- R156: a form that only arrives goes on. -/
theorem reached_passes (hform : r.waits = false) : runs i s fun t => barrierTurned s t w l r ∧ leftAt s t w r true true ∧
    (fget t.warps s.cur.warp).elim false (·.nidem) = true := by
  have hv := fget_arrivalLeaves hs hwaits s.cur.warp
  refine ⟨_, ?_, barrierTurned_putWarp (barrierTurned_arrivalLeaves hl hs hin hbar) _,
    leftAt_past (arrivalOf_arrivedWarp w r (barState s w r).phase) (arrivalLeaves_mem ..) (pendOf_arrivedWarp w hin _), ?_⟩
  · rw [reached_arrives hreach harrives hrel, barAct_passes harrives hsynced (barArrive_counts honce hcount) hform,
      barPast_eq hv]
  · rw [fget_putWarp]
    exact (congrArg Warp.nidem (onBarPaths_frame (arrivedWarp w r (barState s w r).phase) s.cur.path pastBar) :)

/-- R156: a form that arrives and waits: the wait ends at once where the arrival was the last one of its phase. -/
theorem reached_syncs (hform : r.waits = true) : runs i s fun t => barrierTurned s t w l r ∧
    ((barState t w r).phase = (barState s w r).phase → leftAt s t w r true false) ∧
    ((barState t w r).phase ≠ (barState s w r).phase → leftAt s t w r false true) := by
  have hv := fget_arrivalLeaves hs hwaits s.cur.warp
  have harr := arrivalOf_arrivedWarp w r (barState s w r).phase
  have hpend := pendOf_arrivedWarp w hin (barState s w r).phase
  have haph : aphOf (arrivedWarp w r (barState s w r).phase) r.level r.n = (barState s w r).phase := aphOf_arrivedWarp w hin _
  have hturned := barrierTurned_arrivalLeaves hl hs hin hbar
  have hword := harr.barState (arrivalLeaves s s.cur.warp w r) r
  have hexec : exec i s = .next (barWait (arrivalLeaves s s.cur.warp w r) s.cur.warp s.cur.path r) := by
    rw [reached_arrives hreach harrives hrel, barAct_syncs harrives hsynced (barArrive_counts honce hcount) hform]
  by_cases hphase : (barState (arrivalLeaves s s.cur.warp w r) w r).phase = (barState s w r).phase
  · rw [barWait_waits hv hpend (by rw [haph, hword, hphase])] at hexec
    have hstate := barState_of_homes (s := arrivalLeaves s s.cur.warp w r)
      (t := putWarp (arrivalLeaves s s.cur.warp w r) s.cur.warp
        (onBarPaths (arrivedWarp w r (barState s w r).phase) s.cur.path (phased r))) ⟨rfl, rfl, rfl⟩ w r
    refine ⟨_, hexec, barrierTurned_putWarp hturned _, fun _ => leftAt_waits harr (arrivalLeaves_mem ..) hpend, fun hne => ?_⟩
    exact absurd ((congrArg Bar.phase hstate).trans hphase) hne
  · rw [barWait_goes hv hpend (by rw [haph, hword]; exact Ne.symm hphase)] at hexec
    have hstate := barState_of_homes (s := arrivalLeaves s s.cur.warp w r)
      (t := l1DropCore (putWarp (arrivalLeaves s s.cur.warp w r) s.cur.warp
        (passedWarp (arrivedWarp w r (barState s w r).phase) s.cur.path r)) (coreKey (arrivedWarp w r (barState s w r).phase)))
      ⟨rfl, rfl, rfl⟩ w r
    refine ⟨_, hexec, barrierTurned_of_same (barrierTurned_putWarp hturned _) ⟨rfl, rfl, rfl⟩ fun _ _ => rfl, fun he => ?_,
      fun _ => leftAt_goes harr (arrivalLeaves_mem ..) hin _⟩
    exact absurd ((congrArg Bar.phase hstate).symm.trans he) hphase

end

end

section
variable (harrives : r.arrives = false) (hw : fget s.warps s.cur.warp = some w)
include harrives hw

theorem reached_noArrival (hpend : pendOf w r.level r.n = false) :
    exec i s = .next (trapBoth s s.cur.warp s.cur.path 0xAA) := by
  rw [reached_waitOnly hreach harrives, barWait_noPend hw hpend]

/-- R156: the phase that the warp arrived in has not completed. -/
theorem reached_holds (h : arrivedOnce s w r) :
    runs i s fun t => barState t w r = barState s w r ∧ leftAt s t w r true false := by
  have hexec := reached_waitOnly hreach harrives
  rw [barWait_waits hw h.1 h.2] at hexec
  exact ⟨_, hexec, barState_of_homes ⟨rfl, rfl, rfl⟩ w r, leftAt_waits (arrivalOf_self w) rfl h.1⟩

/-- R156: the phase that the warp arrived in has completed. -/
theorem reached_goes (hin : barIn r.level r.n) (hpend : pendOf w r.level r.n = true)
    (haph : aphOf w r.level r.n ≠ (barState s w r).phase) :
    runs i s fun t => barState t w r = barState s w r ∧ leftAt s t w r false true := by
  have hexec := reached_waitOnly hreach harrives
  rw [barWait_goes hw hpend haph] at hexec
  exact ⟨_, hexec, barState_of_homes ⟨rfl, rfl, rfl⟩ w r, leftAt_goes (arrivalOf_self w) rfl hin (coreKey w)⟩

end

end

end Sys2Proof.Machine

/-! # Barriers (O15): the named and the level barriers of a whole warp, and the checks -/

namespace Sys2Proof.Machine

open Sys2Proof.Claims

/-! ## A warp that is whole (R156, R159) -/

theorem released_whole {s : State} {w : Warp} (hdiv : w.div = false) (r : BarReq) :
    released s w r ↔ fenceReady s s.cur.warp s.cur.path (if r.level then r.n else 1) = true := by
  rw [released, barPaths_whole hdiv, List.forall_mem_singleton]

theorem reachesBar_whole {s : State} {w : Warp} {l : Launch} {level : Bool} {n : Nat} (h : atBarrier s w level n)
    (hl : warpLaunch s w = some l) {bn scope a : Nat} {e : Instr × BarReq} (he : e ∈ barrierForms s w bn scope a)
    (hpass : barrierPasses l e.2) : reachesBar e.1 s w e.2 := by
  obtain ⟨hw, _, hdiv, hentry, hissued, _, _⟩ := h
  rw [reachesBar, exec_barrierForm hw.1 bn scope a e he, barForm_passes hw hissued hl hpass,
    barCommon_go hentry (pairing_whole hdiv ..)]

section
variable {i : Instr} {s : State} {w : Warp} {r : BarReq} (hat : atBarrier s w r.level r.n) (hreach : reachesBar i s w r)
include hat hreach

theorem whole_noArrival (harrives : r.arrives = false) (hpend : pendOf w r.level r.n = false) : barrierTraps i s w 0xAA := by
  obtain ⟨hw, _, hdiv, _, _, hsynced, _⟩ := hat
  exact barrierTraps_of_trapBoth hw.1 hdiv hsynced (reached_noArrival hreach harrives hw.1 hpend)

theorem whole_holds (harrives : r.arrives = false) (h : arrivedOnce s w r) : runs i s fun t =>
    barState t w r = barState s w r ∧ barrierLeft s t w r.level r.n true (.phase r.level r.n) (actPath s w).pc := by
  obtain ⟨t, ht, hword, hleft⟩ := reached_holds hreach harrives hat.1.1 h
  exact ⟨t, ht, hword, hleft.barrierLeft⟩

theorem whole_goes (harrives : r.arrives = false) (hin : barIn r.level r.n) (hpend : pendOf w r.level r.n = true)
    (haph : aphOf w r.level r.n ≠ (barState s w r).phase) : runs i s fun t =>
      barState t w r = barState s w r ∧ barrierLeft s t w r.level r.n false .none (nextPc s w) := by
  obtain ⟨t, ht, hword, hleft⟩ := reached_goes hreach harrives hat.1.1 hin hpend haph
  exact ⟨t, ht, hword, hleft.barrierLeft⟩

section
variable (harrives : r.arrives = true)
  (hrel : fenceReady s s.cur.warp s.cur.path (if r.level then r.n else 1) = true)
include harrives hrel

theorem whole_again (h : arrivedOnce s w r) : barrierTraps i s w 0xA9 := by
  obtain ⟨hw, _, hdiv, _, _, hsynced, _⟩ := hat
  exact barrierTraps_of_trapBoth hw.1 hdiv hsynced
    (reached_again hreach harrives ((released_whole hdiv r).mpr hrel) hsynced h)

theorem whole_mismatch (h : ¬arrivedOnce s w r) (hr : r.level = false) (hb : (barState s w r).arrived ≠ 0)
    (hcount : r.count ≠ (barState s w r).expect) : barrierTraps i s w 0xA3 := by
  obtain ⟨hw, _, hdiv, _, _, hsynced, _⟩ := hat
  exact barrierTraps_of_trapBoth hw.1 hdiv hsynced
    (reached_mismatch hreach harrives ((released_whole hdiv r).mpr hrel) hsynced h hr hb hcount)

section
variable {l : Launch} (hl : warpLaunch s w = some l) (hin : barIn r.level r.n) (hbar : hasBar s w r)
  (honce : ¬arrivedOnce s w r)
  (hcount : r.level = true ∨ (barState s w r).arrived = 0 ∨ r.count = (barState s w r).expect)
include hl hin hbar honce hcount

theorem whole_passes (hform : r.waits = false) : runs i s fun t => barrierTurned s t w l r ∧
    barrierLeft s t w r.level r.n true .none (nextPc s w) ∧ (fget t.warps s.cur.warp).elim false (·.nidem) = true := by
  obtain ⟨_, hs, hdiv, _, _, hsynced, hwaits⟩ := hat
  obtain ⟨t, ht, hturned, hleft, hnidem⟩ := reached_passes hreach harrives ((released_whole hdiv r).mpr hrel) hsynced hl hs
    hin hbar hwaits honce hcount hform
  exact ⟨t, ht, hturned, hleft.barrierLeft, hnidem⟩

theorem whole_syncs (hform : r.waits = true) : runs i s fun t => barrierTurned s t w l r ∧
    ((barState t w r).phase = (barState s w r).phase →
      barrierLeft s t w r.level r.n true (.phase r.level r.n) (actPath s w).pc) ∧
    ((barState t w r).phase ≠ (barState s w r).phase → barrierLeft s t w r.level r.n false .none (nextPc s w)) := by
  obtain ⟨_, hs, hdiv, _, _, hsynced, hwaits⟩ := hat
  obtain ⟨t, ht, hturned, hstays, hgoes⟩ := reached_syncs hreach harrives ((released_whole hdiv r).mpr hrel) hsynced hl hs
    hin hbar hwaits honce hcount hform
  exact ⟨t, ht, hturned, fun h => (hstays h).barrierLeft, fun h => (hgoes h).barrierLeft⟩

end

end

end

/-- R156: what an arrival leaves of a named barrier. -/
theorem barrierTurned.named {s t : State} {w : Warp} {l : Launch} {r : BarReq} (h : barrierTurned s t w l r)
    (hr : r.level = false) : barState t w r = afterArrival (barState s w r) r.count ∧
      ((barState t w r).phase ≠ (barState s w r).phase →
        waitersGo s t r.level r.n (fun x => x.block = w.block) (barState s w r).phase) := by
  obtain ⟨hword, hgo⟩ := h
  rw [arrivedAs, if_neg (ne_true_of_eq_false hr)] at hword
  exact ⟨hword, fun hphase => waitersGo_of_peers (hgo hphase) fun x hkind hblock => (samePeers_block hr w x).mpr ⟨hblock, hkind⟩⟩

/-- R159: what the last arrival of a phase leaves of a level barrier. -/
theorem barrierTurned.last {s t : State} {w : Warp} {l : Launch} {r : BarReq} (h : barrierTurned s t w l r)
    (hr : r.level = true) (hmet : levelMet s w l r.n (barState s w r).phase) :
    (barState t w r).phase = (!(barState s w r).phase) ∧ (barState t w r).arrived = 0 ∧ waitersGo s t r.level r.n
      (fun x => x.launch = w.launch ∧ levelInst x r.n = levelInst w r.n) (barState s w r).phase := by
  obtain ⟨hword, hgo⟩ := h
  rw [arrivedAs, if_pos hr] at hword
  obtain ⟨hphase, harrived⟩ := hword.1 hmet
  refine ⟨hphase, harrived, waitersGo_of_peers (hgo (by rw [hphase]; exact Bool.not_ne_self _)) fun x hkind hx => ?_⟩
  exact (samePeers_level hr w x).mpr ⟨hx.1, hkind, hx.2⟩

/-- R159: what any other arrival leaves of a level barrier. -/
theorem barrierTurned.counts {s t : State} {w : Warp} {l : Launch} {r : BarReq} (h : barrierTurned s t w l r)
    (hr : r.level = true) (hmet : ¬levelMet s w l r.n (barState s w r).phase) :
    (barState t w r).phase = (barState s w r).phase ∧ (barState t w r).arrived = (barState s w r).arrived + 1 := by
  have hword := h.1
  rw [arrivedAs, if_pos hr] at hword
  exact hword.2 hmet

end Sys2Proof.Machine

namespace Sys2Proof.Proofs

open Sys2Proof.Machine Sys2Proof.Claims

/-- R155: the first checks of the six forms. -/
theorem barrierChecks : BarrierChecks := by
  intro s w l bn scope a hw hl e he
  have hexec := exec_barrierForm hw.1 bn scope a e he
  refine ⟨fun hissued => ?_, fun hissued hlevel hbn => ?_, fun hissued hpass hentry => ?_⟩
  · exact hexec.trans (barForm_stalls hw hissued _)
  · have hn : e.2.n = bn := by
      simp only [barrierForms, List.mem_cons, List.not_mem_nil, or_false] at he
      rcases he with rfl | rfl | rfl | rfl | rfl | rfl
      exacts [rfl, rfl, rfl, (nomatch hlevel), (nomatch hlevel), (nomatch hlevel)]
    exact trapS_live _ s w _ hw (hexec.trans (barForm_badNumber hw hissued hl hlevel (.inl (hn ▸ hbn))))
  · exact trapS_live _ s w _ hw ((hexec.trans (barForm_passes hw hissued hl hpass)).trans (barCommon_entry hentry _ _))

/-- R155, R156, R158: the named barriers on a whole warp. -/
theorem namedBarriers : NamedBarriers := by
  intro s w k l bn a hat hbn hk hl hnbar n b word again mates
  have ⟨hw, _, hdiv, _, hissued, _, _⟩ := hat
  let arr : BarReq := ⟨false, bn, true, false, n⟩
  let syn : BarReq := ⟨false, bn, true, true, n⟩
  let wai : BarReq := ⟨false, bn, false, true, 0⟩
  have harr : (.barArrive bn a, arr) ∈ barrierForms s w bn 0 a := by simp [barrierForms, arr, n]
  have hsyn : (.barSync bn a, syn) ∈ barrierForms s w bn 0 a := by simp [barrierForms, syn, n]
  have hwai : (.barWait bn, wai) ∈ barrierForms s w bn 0 a := by simp [barrierForms, wai]
  have hb : ∀ (arrives waits : Bool) (m : Nat), barState s w ⟨false, bn, arrives, waits, m⟩ = b := fun _ _ _ => by
    simp only [barState, warpBlock, hk]
    rfl
  have honce : ∀ (arrives waits : Bool) (m : Nat), arrivedOnce s w ⟨false, bn, arrives, waits, m⟩ ↔ again := fun _ _ _ => by
    rw [arrivedOnce, hb]
    rfl
  have hreach (h : 1 ≤ n ∧ n ≤ 64) : reachesBar (.barArrive bn a) s w arr ∧ reachesBar (.barSync bn a) s w syn :=
    ⟨reachesBar_whole hat hl harr ⟨hnbar, fun _ => h⟩, reachesBar_whole hat hl hsyn ⟨hnbar, fun _ => h⟩⟩
  have hwait : reachesBar (.barWait bn) s w wai := reachesBar_whole hat hl hwai ⟨hnbar, fun h => nomatch h⟩
  refine ⟨fun hn => ⟨?_, ?_⟩, fun hrel hlo hhi => ?_, fun hrel hlo hhi hagain => ?_, fun hrel hlo hhi hagain hfirst hcount => ?_,
    fun hrel hlo hhi hagain hcount => ⟨?_, ?_⟩, fun hpend => ?_, fun hagain => ?_, fun hpend haph => ?_⟩
  · exact trapS_live _ s w _ hw ((exec_barrierForm hw.1 bn 0 a _ harr).trans
      (barForm_badNumber hw hissued hl rfl (.inr ⟨rfl, hn⟩)))
  · exact trapS_live _ s w _ hw ((exec_barrierForm hw.1 bn 0 a _ hsyn).trans
      (barForm_badNumber hw hissued hl rfl (.inr ⟨rfl, hn⟩)))
  · obtain ⟨hreachA, hreachS⟩ := hreach ⟨hlo, hhi⟩
    have hno (r : BarReq) (hr : r.level = false) : ¬released s w r := by
      rw [released_whole hdiv, hr]
      exact ne_true_of_eq_false hrel
    exact ⟨reached_waits hreachA rfl (hno arr rfl), reached_waits hreachS rfl (hno syn rfl)⟩
  · obtain ⟨hreachA, hreachS⟩ := hreach ⟨hlo, hhi⟩
    exact ⟨whole_again hat hreachA rfl hrel ((honce ..).mpr hagain), whole_again hat hreachS rfl hrel ((honce ..).mpr hagain)⟩
  · obtain ⟨hreachA, hreachS⟩ := hreach ⟨hlo, hhi⟩
    have hne (waits : Bool) : ¬arrivedOnce s w ⟨false, bn, true, waits, n⟩ := fun h => hagain ((honce ..).mp h)
    exact ⟨whole_mismatch hat hreachA rfl hrel (hne false) rfl (by rwa [hb]) (by rwa [hb]),
      whole_mismatch hat hreachS rfl hrel (hne true) rfl (by rwa [hb]) (by rwa [hb])⟩
  · obtain ⟨t, ht, hturned, hleft, hnidem⟩ := whole_passes hat (hreach ⟨hlo, hhi⟩).1 rfl hrel hl hbn ⟨k, hk⟩
      (fun h => hagain ((honce ..).mp h)) (.inr (by rwa [hb])) rfl
    obtain ⟨hafter, hmates⟩ := hturned.named rfl
    rw [hb] at hafter hmates
    exact ⟨t, ht, hafter, hmates, hleft, hnidem⟩
  · obtain ⟨t, ht, hturned, hstays, hgoes⟩ := whole_syncs hat (hreach ⟨hlo, hhi⟩).2 rfl hrel hl hbn ⟨k, hk⟩
      (fun h => hagain ((honce ..).mp h)) (.inr (by rwa [hb])) rfl
    obtain ⟨hafter, hmates⟩ := hturned.named rfl
    rw [hafter, hb] at hstays hgoes
    rw [hb] at hafter hmates
    refine ⟨t, ht, hafter, hmates, ?_⟩
    split
    · exact hstays ‹_›
    · exact hgoes ‹_›
  · exact whole_noArrival hat hwait rfl hpend
  · obtain ⟨t, ht, hword, hleft⟩ := whole_holds hat hwait rfl ((honce ..).mpr hagain)
    exact ⟨t, ht, hword.trans (hb ..), hleft⟩
  · obtain ⟨t, ht, hword, hleft⟩ := whole_goes hat hwait rfl hbn hpend (by rwa [hb])
    exact ⟨t, ht, hword.trans (hb ..), hleft⟩

/-- R159, R156: the level barriers on a whole warp. -/
theorem levelBarriers : LevelBarriers := by
  intro s w l scope hat hlo hhi hl b word pend again ready met mates
  have ⟨hw, _, hdiv, _, hissued, _, _⟩ := hat
  let arr : BarReq := ⟨true, scope, true, false, 0⟩
  let syn : BarReq := ⟨true, scope, true, true, 0⟩
  let wai : BarReq := ⟨true, scope, false, true, 0⟩
  have harr : (.lbarArrive scope, arr) ∈ barrierForms s w 0 scope 0 := by simp [barrierForms, arr]
  have hsyn : (.lbarSync scope, syn) ∈ barrierForms s w 0 scope 0 := by simp [barrierForms, syn]
  have hwai : (.lbarWait scope, wai) ∈ barrierForms s w 0 scope 0 := by simp [barrierForms, wai]
  have hin : barIn true scope := show scope - 2 < 4 by omega
  have hb : ∀ (arrives waits : Bool), barState s w ⟨true, scope, arrives, waits, 0⟩ = b := fun _ _ => by
    simp only [barState, hl]
    rfl
  have honce : ∀ (arrives waits : Bool), arrivedOnce s w ⟨true, scope, arrives, waits, 0⟩ ↔ again := fun _ _ => by
    rw [arrivedOnce, hb]
  have hreach (hgang : l.lrec.gang = true) {i : Instr} {arrives waits : Bool}
      (h : (i, (⟨true, scope, arrives, waits, 0⟩ : BarReq)) ∈ barrierForms s w 0 scope 0) :
      reachesBar i s w ⟨true, scope, arrives, waits, 0⟩ := reachesBar_whole hat hl h hgang
  refine ⟨fun hgang => ?_, fun hgang hrel => ?_, fun hgang hrel hagain => ?_, fun hgang hrel hagain hmet => ⟨?_, ?_⟩,
    fun hgang hrel hagain hmet => ⟨?_, ?_⟩, fun hgang hpend => ?_, fun hgang hagain => ?_, fun hgang hpend hagain => ?_⟩
  · have hbad {e : Instr × BarReq} (he : e ∈ barrierForms s w 0 scope 0) (hr : e.2.level = true) : trapsAt e.1 s w 0xAB :=
      trapS_live _ s w _ hw ((exec_barrierForm hw.1 0 scope 0 e he).trans (barForm_notGang hw hissued hl hr hgang))
    exact ⟨hbad harr rfl, hbad hwai rfl, hbad hsyn rfl⟩
  · have hno (waits : Bool) : ¬released s w ⟨true, scope, true, waits, 0⟩ := fun h => hrel ((released_whole hdiv _).mp h)
    exact ⟨reached_waits (hreach hgang harr) rfl (hno _), reached_waits (hreach hgang hsyn) rfl (hno _)⟩
  · exact ⟨whole_again hat (hreach hgang harr) rfl hrel ((honce ..).mpr hagain),
      whole_again hat (hreach hgang hsyn) rfl hrel ((honce ..).mpr hagain)⟩
  · obtain ⟨t, ht, hturned, hleft, hnidem⟩ := whole_passes hat (hreach hgang harr) rfl hrel hl hin ⟨l, hl⟩
      (fun h => hagain ((honce ..).mp h)) (.inl rfl) rfl
    obtain ⟨hphase, harrived, hmates⟩ := hturned.last rfl (by rwa [hb])
    rw [hb] at hphase hmates
    exact ⟨t, ht, hphase, harrived, hmates, hleft, hnidem⟩
  · obtain ⟨t, ht, hturned, _, hgoes⟩ := whole_syncs hat (hreach hgang hsyn) rfl hrel hl hin ⟨l, hl⟩
      (fun h => hagain ((honce ..).mp h)) (.inl rfl) rfl
    obtain ⟨hphase, harrived, hmates⟩ := hturned.last rfl (by rwa [hb])
    refine ⟨t, ht, ?_, harrived, ?_, hgoes (by rw [hphase]; exact Bool.not_ne_self _)⟩
    · rw [hb] at hphase; exact hphase
    · rw [hb] at hmates; exact hmates
  · obtain ⟨t, ht, hturned, hleft, hnidem⟩ := whole_passes hat (hreach hgang harr) rfl hrel hl hin ⟨l, hl⟩
      (fun h => hagain ((honce ..).mp h)) (.inl rfl) rfl
    obtain ⟨hphase, harrived⟩ := hturned.counts rfl (by rwa [hb])
    rw [hb] at hphase harrived
    exact ⟨t, ht, hphase, harrived, hleft, hnidem⟩
  · obtain ⟨t, ht, hturned, hstays, _⟩ := whole_syncs hat (hreach hgang hsyn) rfl hrel hl hin ⟨l, hl⟩
      (fun h => hagain ((honce ..).mp h)) (.inl rfl) rfl
    obtain ⟨hphase, harrived⟩ := hturned.counts rfl (by rwa [hb])
    have hleft := hstays hphase
    rw [hb] at hphase harrived
    exact ⟨t, ht, hphase, harrived, hleft⟩
  · exact whole_noArrival hat (hreach hgang hwai) rfl hpend
  · obtain ⟨t, ht, hword, hleft⟩ := whole_holds hat (hreach hgang hwai) rfl ((honce ..).mpr hagain)
    exact ⟨t, ht, hword.trans (hb ..), hleft⟩
  · obtain ⟨t, ht, hword, hleft⟩ := whole_goes hat (hreach hgang hwai) rfl hin hpend
      (by rw [hb]; exact fun h => hagain ⟨hpend, h⟩)
    exact ⟨t, ht, hword.trans (hb ..), hleft⟩

end Sys2Proof.Proofs

/-! # Barriers (O15): the two paths of a diverged warp (R157) -/

namespace Sys2Proof.Machine

open Sys2Proof.Claims

theorem barIn_barrierForms {s : State} {w : Warp} {bn scope a : Nat} (hlo : 2 ≤ scope) (hhi : scope ≤ 5) (hbn : bn < 32) :
    ∀ e ∈ barrierForms s w bn scope a, barIn e.2.level e.2.n := by
  have hlevel : barIn true scope := show scope - 2 < 4 by omega
  have hnamed : barIn false bn := hbn
  intro e he
  simp only [barrierForms, List.mem_cons, List.not_mem_nil, or_false] at he
  rcases he with rfl | rfl | rfl | rfl | rfl | rfl
  exacts [hnamed, hnamed, hnamed, hlevel, hlevel, hlevel]

theorem released_pair {s : State} {w : Warp} (hdiv : w.div = true) (r : BarReq) :
    released s w r ↔ fenceReady s s.cur.warp false (if r.level then r.n else 1) = true ∧
      fenceReady s s.cur.warp true (if r.level then r.n else 1) = true := by
  rw [released, barPaths, if_pos hdiv, List.forall_mem_cons, List.forall_mem_singleton]

/-- R157: both paths of a diverged warp have gone on, or both wait for the phase. -/
theorem leftAt.both {s t : State} {w : Warp} {r : BarReq} {pend go : Bool} (h : leftAt s t w r pend go) (hdiv : w.div = true) :
    ∃ v, fget t.warps s.cur.warp = some v ∧ pendOf v r.level r.n = pend ∧ t.mem = s.mem ∧
      ∀ q : Bool, (v.path q).x = (w.path q).x ∧
        (if go then (v.path q).wait = .none ∧ (v.path q).pc = (w.path q).pc + 4
          else (v.path q).wait = .phase r.level r.n ∧ (v.path q).pc = (w.path q).pc) := by
  obtain ⟨v, hv, hpend, hmem, _, _, hpaths⟩ := h
  refine ⟨v, hv, hpend, hmem, fun q => ?_⟩
  obtain ⟨hx, _, hwait, hpc⟩ := hpaths q (mem_barPaths_of_div hdiv ..)
  cases go <;> exact ⟨hx, hwait, hpc⟩

/-! ## A path that its other path leaves alone at a barrier (R157) -/

theorem breakBarrier_of_bar {s : State} {u : Nat} {pf : Bool} {w : Warp} {pc : W64} {m : Nat} (h : (w.path pf).wait = .bar pc m) :
    breakBarrier (putWarp s u w) u pf = raiseTrap (putWarp s u (w.setPath pf { w.path pf with wait := .none })) u pf
      (sTrap { w.path pf with wait := .none } 0xA6) := by
  simp only [breakBarrier, fget_putWarp, h, putWarp_putWarp]

theorem arrived_of_bar {p : Path} {pc : W64} {m : Nat} (hlive : p.live = true) (h : p.wait = .bar pc m) : arrived p = false := by
  simp [arrived, hlive, h]

/-- R157: a warp whose other path waits at a barrier does not merge. -/
theorem tryMerge_of_bar {s : State} {u : Nat} {w : Warp} {pf : Bool} {pc : W64} {m : Nat} (hlive : (w.path (!pf)).live = true)
    (h : (w.path (!pf)).wait = .bar pc m) : tryMerge (putWarp s u w) u = putWarp s u w := by
  have hother := arrived_of_bar hlive h
  rw [tryMerge_eq, if_neg]
  cases pf <;> simp_all [Warp.path]

/-- R157: the warp x whose acting path has left the other one alone at its barrier. -/
def unbarred (x : Warp) (pf : Bool) : Warp := x.setPath (!pf) { x.path (!pf) with wait := .none }

theorem unbarred_path (x : Warp) (pf : Bool) : (unbarred x pf).path pf = x.path pf := by
  cases pf <;> rfl

theorem unbarred_other (x : Warp) (pf : Bool) :
    (unbarred x pf).path (!pf) = { x.path (!pf) with wait := .none } := path_setPath ..

theorem unbarred_frame (x : Warp) (pf : Bool) : { unbarred x pf with a := x.a, b := x.b } = x := by
  cases pf <;> rfl

theorem breakBarrier_tryMerge {s : State} {u : Nat} {x : Warp} {pf : Bool} {pc : W64} {m : Nat}
    (hlive : (x.path (!pf)).live = true) (h : (x.path (!pf)).wait = .bar pc m) :
    breakBarrier (tryMerge (putWarp s u x) u) u (!pf) =
      raiseTrap (putWarp s u (unbarred x pf)) u (!pf) (sTrap ((unbarred x pf).path (!pf)) 0xA6) := by
  rw [tryMerge_of_bar hlive h, breakBarrier_of_bar h, unbarred_other, unbarred]

end Sys2Proof.Machine

namespace Sys2Proof.Proofs

open Sys2Proof.Machine Sys2Proof.Claims

/-- R157: the six forms in a diverged warp. -/
theorem barrierPairs : BarrierPairs := by
  intro s w l bn scope a hw hl hs hissued hentry hdiv hlo hhi hbn e he hpass p o r b rel pend again both
  have hexec : exec e.1 s = barCommon s w p r :=
    (exec_barrierForm hw.1 bn scope a e he).trans (barForm_passes hw hissued hl hpass)
  have hin : barIn r.level r.n := barIn_barrierForms hlo hhi hbn e he
  have htraps {c : Nat} (h : exec e.1 s = .next (trapBoth s s.cur.warp s.cur.path c)) : pairTraps e.1 s w c :=
    pairTraps_of_trapBoth hw.1 hdiv h
  refine ⟨fun hgone => ?_, fun hlive hjoin hfirst => ?_, fun pc m hlive hbar hpc => ?_, fun m hlive hbar hm => ?_,
    fun hlive hbar hsynced hwaits htable => ?_⟩
  · exact trapS_live _ s w _ hw (hexec.trans (barCommon_trap hentry (pairing_gone hdiv _ hgone)))
  · exact hexec.trans (barCommon_wait hentry (pairing_first hdiv _ hlive hjoin hfirst))
  · have hpair := (pairing_met hdiv r.count hlive hbar).trans (if_pos hpc)
    exact htraps (hexec.trans (barCommon_trapBoth hentry hpair))
  · have hpair := (pairing_met hdiv r.count hlive hbar).trans ((if_neg (not_not_intro rfl)).trans (if_pos hm))
    exact htraps (hexec.trans (barCommon_trapBoth hentry hpair))
  · have hpair := (pairing_met hdiv r.count hlive hbar).trans
      ((if_neg (not_not_intro rfl)).trans (if_neg (not_not_intro rfl)))
    have hreach : reachesBar e.1 s w r := hexec.trans (barCommon_go hentry hpair)
    have hbarr : hasBar s w r := by
      unfold hasBar
      split
      · exact ⟨l, hl⟩
      · next hr => exact htable.resolve_left hr
    refine ⟨fun harr hrel => ?_, fun harr hrel hagain => ?_, fun harr hrel hagain hr hb hcount => ?_,
      fun harr hrel hagain hcount => ?_, fun harr hpend => ?_, fun harr hagain => ?_, fun harr hpend hagain => ?_⟩
    · exact reached_waits hreach harr fun h => hrel ((released_pair hdiv r).mp h)
    · exact htraps (reached_again hreach harr ((released_pair hdiv r).mpr hrel) hsynced hagain)
    · exact htraps (reached_mismatch hreach harr ((released_pair hdiv r).mpr hrel) hsynced hagain hr hb hcount)
    · have hready := (released_pair hdiv r).mpr hrel
      cases hform : r.waits with
      | false =>
        obtain ⟨t, ht, hturned, hleft, _⟩ :=
          reached_passes hreach harr hready hsynced hl hs hin hbarr hwaits hagain hcount hform
        exact ⟨t, ht, hturned.1, fun _ => hleft.both hdiv, fun h => (nomatch h), fun h => (nomatch h)⟩
      | true =>
        obtain ⟨t, ht, hturned, hstays, hgoes⟩ :=
          reached_syncs hreach harr hready hsynced hl hs hin hbarr hwaits hagain hcount hform
        exact ⟨t, ht, hturned.1, fun h => (nomatch h), fun _ h => (hstays h).both hdiv, fun _ h => (hgoes h).both hdiv⟩
    · exact htraps (reached_noArrival hreach harr hw.1 (eq_false_of_ne_true hpend))
    · obtain ⟨t, ht, hword, hleft⟩ := reached_holds hreach harr hw.1 hagain
      exact ⟨t, ht, hword, hleft.both hdiv⟩
    · obtain ⟨t, ht, hword, hleft⟩ := reached_goes hreach harr hw.1 hin hpend fun h => hagain ⟨hpend, h⟩
      exact ⟨t, ht, hword, hleft.both hdiv⟩

/-- R157: the other path of one that reaches the JOIN or ends raises 10.6 at its barrier. -/
theorem barrierBroken : BarrierBroken := by
  intro s w pc m hw hdiv hentry hdone hbatch hwait hlive hbar broken
  have hclose := mayClose_empty (s := s) (u := s.cur.warp) (pf := s.cur.path) hbatch
  have hbreaks {i : Instr} {post : Warp → Prop} {x : Warp} (hexec : exec i s = .next (breakBarrier (tryMerge
      (putWarp s s.cur.warp x) s.cur.warp) s.cur.warp (!s.cur.path))) (hother : x.path (!s.cur.path) = w.path (!s.cur.path))
      (hframe : { x with a := w.a, b := w.b, wdc := w.wdc, dstack := w.dstack, nidem := w.nidem } = w)
      (hpost : post (unbarred x s.cur.path)) : broken i post := by
    rw [breakBarrier_tryMerge (by rw [hother]; exact hlive) (by rw [hother]; exact hbar)] at hexec
    have hx := unbarred_frame x s.cur.path
    refine ⟨_, hexec, hpost, by rw [unbarred_other, hother], ?_, ?_, ?_, ?_, ?_⟩
    · exact (congrArg Warp.pend hx :).trans (congrArg Warp.pend hframe :)
    · exact (congrArg Warp.aph hx :).trans (congrArg Warp.aph hframe :)
    · exact (congrArg Warp.lpend hx :).trans (congrArg Warp.lpend hframe :)
    · exact (congrArg Warp.laph hx :).trans (congrArg Warp.laph hframe :)
    · exact ((congrArg Warp.div hx :).trans (congrArg Warp.div hframe :)).trans hdiv
  refine ⟨fun hrecon => hbreaks (x := atJoin w s.cur.path) ?_ (atJoin_other ..) ?_ ?_,
    hbreaks (x := leaving w s.cur.path w.dstack endedPath) ?_ (leaving_other ..) ?_ ?_⟩
  · refine (execJoin_noEntry hw hdone hentry).trans ?_
    rw [if_pos (by simp [hdiv, hrecon]), if_neg (by simp [hwait, hclose]), waitJoin_eq, batchIssued_of_empty hbatch]
  · exact (congrArg (fun x : Warp => { x with dstack := w.dstack, nidem := w.nidem }) (countedModPath_frame w s.cur.path fun p =>
      { p with age := clearAge p.age, batch := [], wait := .join }) :)
  · rw [actPath, unbarred_path, atJoin_path]
    exact ⟨rfl, rfl⟩
  · refine (execExit_none hw (takeover_noEntry hentry)).trans ?_
    rw [if_pos hdiv, if_neg (by simp [hdone, hclose]), batchIssued_of_empty hbatch]
  · exact (congrArg (fun x : Warp => { x with dstack := w.dstack, nidem := w.nidem })
      (leaving_frame w s.cur.path w.dstack endedPath) :)
  · rw [actPath, unbarred_path, leaving_path]
    rfl

/-- Settles O15: the arrival, the wait and the causes of a barrier that is reached, said once for the paths that the
instruction acts for, and read off for a whole and for a diverged warp. -/
theorem barriers : Obligations.Barriers :=
  ⟨namedBarriers, levelBarriers, barrierChecks, barrierPairs, barrierBroken⟩

end Sys2Proof.Proofs

/-! # The course of an array region (O51) -/

namespace Sys2Proof.Machine

open Sys2Proof.Claims

/-! ## Tables -/

/-- A property of every entry of a table into which one has been put. -/
theorem forall_mem_fput {α : Type} {m : FMap α} {k : Nat} {v : α} {P : Nat × α → Prop} (hm : rising m = true) :
    (∀ e ∈ fput m k v, P e) ↔ P (k, v) ∧ ∀ e ∈ m, e.1 ≠ k → P e := by
  constructor
  · intro h
    refine ⟨h _ (mem_of_fget_eq_some (fget_fput_same m k v)), fun e he hk => h e (mem_of_fget_eq_some ?_)⟩
    rw [fget_fput_other m v hk]
    exact fget_of_mem hm he
  · rintro ⟨hv, hm'⟩ e he
    by_cases hk : e.1 = k
    · have hget := fget_of_mem (rising_fput k v hm) (show (e.1, e.2) ∈ _ from he)
      rw [hk, fget_fput_same] at hget
      rwa [show e = (k, v) from Prod.ext hk (Option.some.inj hget).symm]
    · rcases mem_fput he with rfl | hmem
      · exact absurd rfl hk
      · exact hm' e hmem hk

/-- Putting one entry for each of a table leaves the others. -/
theorem fget_foldl_fput_other {α β : Type} (key : Nat → Nat) (g : α → β) (j : Nat) (l : FMap α) (d : FMap β)
    (h : ∀ e ∈ l, j ≠ key e.1) : fget (l.foldl (fun d e => fput d (key e.1) (g e.2)) d) j = fget d j := by
  induction l generalizing d with
  | nil => rfl
  | cons e l ih =>
    rw [List.foldl_cons, ih _ fun e' he' => h e' (List.mem_cons_of_mem _ he'), fget_fput_other _ _ (h e List.mem_cons_self)]

/-- Each of the entries put, one for each of a table, is there. -/
theorem fget_foldl_fput {α β : Type} (key : Nat → Nat) (g : α → β) {k : Nat} {x : α} (l : FMap α) (d : FMap β)
    (hkey : ∀ i j, key i = key j → i = j) (hl : rising l = true) (h : (k, x) ∈ l) :
    fget (l.foldl (fun d e => fput d (key e.1) (g e.2)) d) (key k) = some (g x) := by
  induction l generalizing d with
  | nil => cases h
  | cons e l ih =>
    obtain ⟨i, y⟩ := e
    rcases List.mem_cons.mp h with heq | hmem
    · cases heq
      rw [List.foldl_cons, fget_foldl_fput_other key g (key k) l _
        fun e he heq => Nat.ne_of_lt (rising_head hl e he) (hkey _ _ heq), fget_fput_same]
    · exact ih _ (rising_tail hl) hmem

/-! ## What the array operations change -/

@[simp] theorem putRegion_regions (s : State) (n : Nat) (r : Region) :
    (putRegion s n r).arrays.regions = fput s.arrays.regions n r := rfl
@[simp] theorem putRegion_status (s : State) (n : Nat) (r : Region) :
    (putRegion s n r).arrays.status = s.arrays.status := rfl
@[simp] theorem putRegion_funcs (s : State) (n : Nat) (r : Region) : (putRegion s n r).funcs = s.funcs := rfl

@[simp] theorem arrayStatus_regions (s : State) (v : Nat) : (arrayStatus s v).arrays.regions = s.arrays.regions := rfl

@[simp] theorem setPhase_regions (s : State) (n : Nat) (r : Region) (p : Nat) :
    (setPhase s n r p).arrays.regions = s.arrays.regions := rfl
@[simp] theorem setPhase_status (s : State) (n : Nat) (r : Region) (p : Nat) :
    (setPhase s n r p).arrays.status = s.arrays.status := rfl

/-- R369: the open entries of the region move to the phase. -/
theorem setPhase_journal (s : State) (n : Nat) (r : Region) (p : Nat) :
    fgetD [] (setPhase s n r p).arrays.journal r.site = (fgetD [] s.arrays.journal r.site).map fun e =>
      if e.region = n ∧ (e.phase = 1 ∨ e.phase = 2) then { e with phase := p } else e := by
  simp [setPhase, journalOf, fgetD, JEntry.isOpen]

@[simp] theorem storeDigests_regions (s : State) (n : Nat) (l : FMap Tile) :
    (storeDigests s n l).arrays.regions = s.arrays.regions := rfl

/-- R369: every tile of a list has its digest stored. -/
theorem fget_storeDigests {s : State} {n k : Nat} {x : Tile} {l : FMap Tile} (hl : rising l = true)
    (h : fget l k = some x) : fget (storeDigests s n l).arrays.digests (65536 * n + k) = some (tileDigest x) :=
  fget_foldl_fput (65536 * n + ·) tileDigest l _ (fun _ _ => Nat.add_left_cancel) hl (mem_of_fget_eq_some h)

/-- R367: a request in progress is statusIf. -/
def statusIf (s : State) (busy : Bool) (v : Nat) : State := if busy then arrayStatus s v else s

@[simp] theorem statusIf_regions (s : State) (b : Bool) (v : Nat) :
    (statusIf s b v).arrays.regions = s.arrays.regions := by cases b <;> rfl
@[simp] theorem statusIf_journal (s : State) (b : Bool) (v : Nat) :
    (statusIf s b v).arrays.journal = s.arrays.journal := by cases b <;> rfl
@[simp] theorem statusIf_status (s : State) (b : Bool) (v : Nat) :
    (statusIf s b v).arrays.status = if b then some v else s.arrays.status := by cases b <;> rfl

section

variable {s : State} {region : Nat} {r : Region} (hr : fget s.arrays.regions region = some r)
include hr

/-! ## Programming and leaving service (R369, R370, R284) -/

theorem tilesWritten_waits (hst : r.st ≠ .programming) : waits (.tilesWritten region) s := by
  simp [waits, execTilesWritten, hr, hst]

/-- R370: the staged tiles become the region's, their digests are stored, and then PHASE is 2. -/
theorem tilesWritten_next (hst : r.st = .programming) :
    exec (.tilesWritten region) s = .next (setPhase (storeDigests (putRegion s region { writeTiles r with st := .verifying })
      region r.image) region r 2) := by
  simp only [exec_tilesWritten, execTilesWritten, hr, hst]
  rfl

theorem regionLeaveService_waits (h : r.leaving = none ∨ amvOut? s region = true) :
    waits (.regionLeaveService region) s := by
  simp only [waits, exec_regionLeaveService, execRegionLeaveService, hr]
  rcases h with h | h
  · rw [h]
  · split <;> simp_all

theorem regionLeaveService_offline (hl : r.leaving = some .offline) (ha : amvOut? s region = false) :
    exec (.regionLeaveService region) s = .next (statusIf
      (putRegion s region { r with st := .offline, leaving := none, busy := false }) r.busy 0) := by
  simp only [exec_regionLeaveService, execRegionLeaveService, hr, hl, ha]
  rfl

theorem regionLeaveService_programming {q : ProgramReq} (hl : r.leaving = some .programming)
    (ha : amvOut? s region = false) (hq : r.staged = some q) :
    exec (.regionLeaveService region) s = .next ((mayProgram s q).elim s (beginProgram s region r q)) := by
  simp only [exec_regionLeaveService, execRegionLeaveService, hr, hl, ha, hq]
  cases mayProgram s q <;> rfl

/-! ## Verification (R371) -/

theorem tileVerify_waits_unless (hst : r.st ≠ .verifying) (v : Bool) : waits (.tileVerify region v) s := by
  simp [waits, execTileVerify, hr, hst]

/-- R371: a region that no grant waits for is verified when all of its tiles match. -/
theorem tileVerify_true (hst : r.st = .verifying) (hd : r.dests = []) :
    exec (.tileVerify region true) s =
      .next (if r.tiles.all (tileMatches s region) then acceptTiles s region r else s) := by
  have hroom : scalesRoom s r (r.dests.map (·.2)) = true := by simp [hd, scalesRoom]
  simp only [exec_tileVerify, execTileVerify, hr, hst, hroom, Bool.and_true]
  rfl

theorem tileVerify_true_waits (hst : r.st = .verifying) (h : r.tiles.all (tileMatches s region) = false) :
    waits (.tileVerify region true) s := by
  simp [waits, execTileVerify, hr, hst, h]

/-- R371: a region of which a tile has failed three rewrites is damaged. -/
theorem tileVerify_false (hst : r.st = .verifying) :
    exec (.tileVerify region false) s = .next (if r.tiles.any (tileFailed s region) then statusIf
      (setPhase (putRegion s region { r with st := .damaged, busy := false }) region r 4) r.busy 5 else s) := by
  simp only [exec_tileVerify, execTileVerify, hr, hst, ne_eq, not_true_eq_false, Bool.false_eq_true, if_false]
  split
  · rfl
  · rfl

end

theorem tileMatches_iff (s : State) (n : Nat) (e : Nat × Tile) : tileMatches s n e = true ↔
    e.2.tries < 4 ∧ fgetD [] s.arrays.digests (65536 * n + e.1) = tileDigest e.2 := by
  simp [tileMatches]

theorem tileFailed_iff (s : State) (n : Nat) (e : Nat × Tile) :
    tileFailed s n e = true ↔ 3 ≤ e.2.tries ∧ ¬ tileMatches s n e = true := by
  simp [tileFailed]

/-- R371: a verified tile is unpublished, and signed with the weights that its cells read back as. -/
theorem acceptTiles_tile {s : State} {n k : Nat} {r : Region} {x : Tile} (hd : r.dests = []) (hx : fget r.tiles k = some x) :
    ∃ r', fget (acceptTiles s n r).arrays.regions n = some r' ∧
      fget r'.tiles k = some { x with published := false, fitted := false, refit := false, sigs := some x.w } := by
  refine ⟨(signTiles s (beginCalibration r)).2, ?_, ?_⟩
  · simp [acceptTiles, hd]
  · simp [signTiles, beginCalibration, fget_fmap, hx]

/-! ## Probes and fits (R176, R281, R372) -/

/-- R176: the other copy is written and becomes the current one, and the current one is left. -/
theorem publish_other {x : Tile} (c : CompCopy) (hcur : x.cur ≤ 1) :
    (publish x c).cur = 1 - x.cur ∧ (publish x c).w = x.w ∧ (publish x c).published = x.published ∧
      (if x.cur = 0 then (publish x c).c1 = c ∧ (publish x c).c0 = x.c0
        else (publish x c).c0 = c ∧ (publish x c).c1 = x.c1) := by
  unfold publish
  by_cases h : x.cur = 0
  · simp [h]
  · have h1 : x.cur = 1 := by omega
    simp [h1]

/-- R370: a tile after its first copy. -/
def firstPublished (x : Tile) : Tile := { publish x nominalCopy with published := true }

/-- R372: a tile after a fit within the limit. -/
def refitted (c : CompCopy) (x : Tile) : Tile := { publish x c with fitted := true, refit := false }

theorem modTile_of_tile {r : Region} {k : Nat} {x : Tile} (hx : fget r.tiles k = some x) (s : State) (n : Nat) (f : Tile → Tile) :
    modTile s n r k f = putRegion s n { r with tiles := fput r.tiles k (f x) } := by
  simp [modTile, fmod, hx]


theorem failService_of_calibrating {r : Region} (h : r.st = .calibrating) (s : State) (n : Nat) :
    failService s n r = statusIf (putRegion s n { r with st := .offline, busy := false }) r.busy 5 := by
  simp [failService, h, statusIf]

theorem failService_of_inService {r : Region} (h : r.st = .inService) (s : State) (n : Nat) :
    failService s n r = raiseVector (putRegion s n
      (if amvOut? s n then { r with leaving := some .offline } else { r with st := .offline })) 0 3 := by
  simp [failService, h]

open Classical in
/-- R370: a region goes into service once each of its tiles has a fit. -/
theorem fget_finishCalibration {s : State} {n : Nat} {r : Region} (h : fget s.arrays.regions n = some r) :
    fget (finishCalibration s n).arrays.regions n =
      some (if r.st = .calibrating ∧ ∀ e ∈ r.tiles, e.2.published = true ∧ e.2.fitted = true
        then { r with st := .inService, busy := false } else r) := by
  have hall : (r.tiles.all fun e => e.2.published && e.2.fitted) = true ↔
      ∀ e ∈ r.tiles, e.2.published = true ∧ e.2.fitted = true := by simp
  simp only [finishCalibration, h, Bool.and_eq_true, decide_eq_true_eq, hall]
  split
  · cases r.busy <;> simp
  · exact h

section

variable {s : State} {region k : Nat} {r : Region} {x : Tile}
  (hr : fget s.arrays.regions region = some r) (hx : fget r.tiles k = some x)
include hr hx

/-- R372: a probe whose outcome is not the one that its codes give does not happen. -/
theorem tailorProbe_eq (ok : Bool) (hst : r.st = .inService ∨ r.st = .calibrating) (hp : x.published = true)
    (hd : dueElse s r x = false) :
    exec (.tailorProbe region k ok) s = .next (if probeWithin x (tileCopy x x.cur) s.free (probeNo s) ≠ ok then s
      else { putRegion s region { r with tiles := fput r.tiles k { x with
        due := false, refit := x.refit || (!ok && r.st = .inService && r.leaving.isNone) } } with free := s.free + 32768 }) := by
  simp only [exec_tailorProbe, execTailorProbe, hr, hx]
  rw [if_neg (by rcases hst with h | h <;> simp [h, hp, hd])]
  split <;> rfl

theorem probeDeadline_next : exec (.probeDeadline region k) s =
    .next (putRegion s region { r with tiles := fput r.tiles k { x with due := true } }) := by
  simp [execProbeDeadline, hr, modTile_of_tile hx]

/-- R176: a copy that an AMV uses is not written. -/
theorem tailorPublish_waits (c : CompCopy) (h : copyInUse s region k (1 - x.cur) = true) :
    waits (.tailorPublish region k c) s := by
  simp [waits, execTailorPublish, hr, hx, h]

section

variable (c : CompCopy) (huse : copyInUse s region k (1 - x.cur) = false)
  (hopen : r.st = .calibrating ∨ r.st = .inService ∧ r.leaving = none)
include huse hopen

/-- R370: the first copy that a tile publishes is the nominal one. -/
theorem tailorPublish_first (hp : x.published = false) : exec (.tailorPublish region k c) s = .next
    (putRegion (clearCopy s r x (1 - x.cur)) region { r with tiles := fput r.tiles k (firstPublished x) }) := by
  simp only [exec_tailorPublish, execTailorPublish, hr, hx, huse, hp, modTile_of_tile hx]
  rcases hopen with h | ⟨h, hl⟩
  · simp [h, firstPublished]
  · simp [h, hl, firstPublished]

/-- R372: a fit outside the limit is not published. -/
theorem tailorPublish_failed (hp : x.published = true) (hf : fitWithin s r x c = false) :
    exec (.tailorPublish region k c) s = .next { failService s region r with free := s.free + 32768 } := by
  simp only [exec_tailorPublish, execTailorPublish, hr, hx, huse, hp, hf]
  rcases hopen with h | ⟨h, hl⟩
  · simp [h]
  · simp [h, hl]

theorem tailorPublish_fit (hp : x.published = true) (hf : fitWithin s r x c = true) :
    exec (.tailorPublish region k c) s = .next { finishCalibration (putRegion (clearCopy s r x (1 - x.cur)) region
      { r with tiles := fput r.tiles k (refitted c x) }) region with free := s.free + 32768 } := by
  simp only [exec_tailorPublish, execTailorPublish, hr, hx, huse, hp, hf, modTile_of_tile hx]
  rcases hopen with h | ⟨h, hl⟩
  · simp [h, refitted]
  · simp [h, hl, refitted]

end

end

end Sys2Proof.Machine

namespace Sys2Proof.Proofs

open Sys2Proof.Machine Sys2Proof.Claims

/-- Settles O51: each event of a region, by what it puts into the region's record. -/
theorem arrayEvents : Obligations.ArrayEvents := by
  unfold Obligations.ArrayEvents
  intro s region r hr st phases told
  have matched (e : Nat × Tile) := tileMatches_iff s region e
  refine ⟨tilesWritten_waits hr, ?_, ⟨?_, ?_, ?_, ?_⟩, fun v h => tileVerify_waits_unless hr h v, ?_,
    regionLeaveService_waits hr, ?_, ?_⟩
  · intro q hst hq hrise
    refine ⟨_, tilesWritten_next hr hst, ?_, setPhase_journal _ region r 2, fun k x hx => fget_storeDigests hrise hx⟩
    simp [writeTiles, hq]
  · intro hst hall hd
    have hm : r.tiles.all (tileMatches s region) = true := List.all_eq_true.mpr fun e he => (matched e).mpr (hall e he)
    refine ⟨_, tileVerify_true hr hst hd, ?_⟩
    rw [if_pos hm]
    refine ⟨?_, ?_, ?_, fun k x hx => ?_⟩
    · simp [st, acceptTiles, hd, signTiles, beginCalibration]
    · simp only [phases, acceptTiles, hd, List.foldl_nil]
      exact setPhase_journal _ region r 3
    · simp [acceptTiles, hd, signTiles]
    · obtain ⟨r', hr', hx'⟩ := acceptTiles_tile (s := s) (n := region) hd hx
      exact ⟨r', _, hr', hx', rfl, rfl, rfl⟩
  · rintro hst ⟨e, he, hne⟩
    exact tileVerify_true_waits hr hst (List.all_eq_false.mpr ⟨e, he, fun h => hne ((matched e).mp h)⟩)
  · rintro hst ⟨e, he, htries, hne⟩
    have hf : r.tiles.any (tileFailed s region) = true :=
      List.any_eq_true.mpr ⟨e, he, (tileFailed_iff ..).mpr ⟨htries, fun h => hne ((matched e).mp h)⟩⟩
    refine ⟨_, tileVerify_false hr hst, ?_⟩
    rw [if_pos hf]
    refine ⟨by simp [st], ?_, by simp [told]⟩
    simp only [phases, statusIf_journal]
    exact setPhase_journal _ region r 4
  · intro hst hall
    have hf : r.tiles.any (tileFailed s region) = false := List.any_eq_false.mpr fun e he hfail => by
      obtain ⟨htries, hne⟩ := (tileFailed_iff ..).mp hfail
      rcases hall e he with h | h
      · omega
      · exact hne ((matched e).mpr h)
    rw [waits, tileVerify_false hr hst, hf]
    rfl
  · intro k x hx tile
    refine ⟨fun ok hst hp hd => ⟨fun hok => ?_, fun hok => ?_⟩, ?_, fun c => tailorPublish_waits hr hx c, ?_⟩
    · rw [waits, tailorProbe_eq hr hx ok hst hp hd, if_pos hok]
    · refine ⟨_, tailorProbe_eq hr hx ok hst hp hd, ?_⟩
      rw [if_neg (not_not_intro hok)]
      simp [tile, st]
    · exact ⟨_, probeDeadline_next hr hx, by simp [tile], by simp [st]⟩
    · intro c huse hcur other
      refine ⟨fun h => by simp [fitWithin, h], fun h => by simp [fitWithin, h], ?_, ?_, ?_, ?_⟩
      · intro hst hp
        obtain ⟨h1, h2, -, h3⟩ := publish_other nominalCopy hcur
        exact ⟨_, tailorPublish_first hr hx c huse (.inl hst) hp, by simp [st, hst], firstPublished x, by simp [tile],
          h1, h2, rfl, h3⟩
      · intro hp hf
        refine ⟨fun hst => ⟨_, tailorPublish_failed hr hx c huse (.inl hst) hp hf, ?_⟩, fun f hst hl hfn =>
          ⟨_, tailorPublish_failed hr hx c huse (.inr ⟨hst, hl⟩) hp hf, ?_⟩⟩
        · simp [failService_of_calibrating hst, st, told]
        · rw [failService_of_inService hst]
          cases ha : amvOut? s region <;> simp [fget_fmod, hfn, tile, hx, hst, hl]
      · intro hst hp hrise
        cases hf : fitWithin s r x c with
        | false => exact ⟨_, tailorPublish_failed hr hx c huse (.inl hst) hp hf, nofun⟩
        | true =>
          obtain ⟨h1, h2, h3, h4⟩ := publish_other c hcur
          have hall := forall_mem_fput (k := k) (v := refitted c x)
            (P := fun e => e.2.published = true ∧ e.2.fitted = true) hrise
          refine ⟨_, tailorPublish_fit hr hx c huse (.inl hst) hp hf, fun _ => ⟨⟨refitted c x, ?_, ⟨h1, h2, h3.trans hp, h4⟩, rfl⟩, ?_⟩⟩
          · simp only [tile]
            rw [fget_finishCalibration (fget_fput_same ..)]
            split <;> simp
          · simp only [st]
            rw [fget_finishCalibration (fget_fput_same ..)]
            have hnew : (refitted c x).published = true ∧ (refitted c x).fitted = true := ⟨h3.trans hp, rfl⟩
            simp only [hst, true_and, hall, hnew]
            split <;> simp
      · intro hst hl hp
        cases hf : fitWithin s r x c with
        | false => exact ⟨_, tailorPublish_failed hr hx c huse (.inr ⟨hst, hl⟩) hp hf, nofun⟩
        | true =>
          obtain ⟨h1, h2, h3, h4⟩ := publish_other c hcur
          refine ⟨_, tailorPublish_fit hr hx c huse (.inr ⟨hst, hl⟩) hp hf, fun _ => ?_⟩
          simp only [st, tile]
          rw [fget_finishCalibration (fget_fput_same ..), if_neg (by simp [hst])]
          exact ⟨by simp [hst], refitted c x, by simp, ⟨h1, h2, h3.trans hp, h4⟩, rfl⟩
  · intro hl ha
    exact ⟨_, regionLeaveService_offline hr hl ha, by simp, by simp [told]⟩
  · intro q hl ha hq
    refine ⟨fun hm => ?_, fun stage hm => ⟨_, regionLeaveService_programming hr hl ha hq, ?_⟩⟩
    · rw [waits, regionLeaveService_programming hr hl ha hq, hm]
      rfl
    · simp [hm, st, beginProgram]

end Sys2Proof.Proofs

/-! # Accumulator banks at issue (O20) -/

namespace Sys2Proof.Machine

open Sys2Proof.Claims

/-! ## Tables changed at a list of keys -/

theorem fget_foldl_fput_const {α : Type} (v : α) (j : Nat) (ks : List Nat) (m : FMap α) :
    fget (ks.foldl (fun t k => fput t k v) m) j = if j ∈ ks then some v else fget m j := by
  induction ks generalizing m with
  | nil => rfl
  | cons k ks ih =>
    rw [List.foldl_cons, ih, fget_fput]
    by_cases hj : j = k <;> simp [hj]

theorem fget_foldl_fdel {α : Type} (j : Nat) (ks : List Nat) (m : FMap α) :
    fget (ks.foldl fdel m) j = if j ∈ ks then none else fget m j := by
  induction ks generalizing m with
  | nil => rfl
  | cons k ks ih =>
    rw [List.foldl_cons, ih, fget_fdel]
    by_cases hj : j = k <;> simp [hj]

/-- A change that may be made twice. -/
theorem fget_foldl_fmod {α : Type} {f : α → α} (hf : ∀ x, f (f x) = f x) (j : Nat) (ks : List Nat) (m : FMap α) :
    fget (ks.foldl (fun t k => fmod t k f) m) j = if j ∈ ks then (fget m j).map f else fget m j := by
  induction ks generalizing m with
  | nil => rfl
  | cons k ks ih =>
    rw [List.foldl_cons, ih, fget_fmod]
    by_cases hj : j = k
    · subst hj
      simp [Function.comp_def, hf]
    · simp [hj]

/-! ## Fields of descriptors -/

theorem fld_toNat (x : W64) (hi lo n : Nat) (h : hi - lo + 1 = n) : fld x.toNat hi lo = (x.extractLsb' lo n).toNat := by
  subst h
  simp [fld, BitVec.extractLsb'_toNat, Nat.shiftRight_eq_div_pow]

theorem fld_toNat_eq_zero (x : W64) (hi lo n : Nat) (h : hi - lo + 1 = n) :
    fld x.toNat hi lo = 0 ↔ x.extractLsb' lo n = 0 := by
  rw [fld_toNat x hi lo n h, ← BitVec.toNat_inj]
  rfl

theorem fld_bankFirst (x : W64) : fld x.toNat 5 0 = bankFirst x := fld_toNat x 5 0 6 rfl

theorem fld_bankCount (x : W64) : fld x.toNat 12 6 = bankCount x := fld_toNat x 12 6 7 rfl

theorem fld_bankBand (x : W64) : fld x.toNat 15 13 = bankBand x := fld_toNat x 15 13 3 rfl

/-- R167: the descriptors that ACC.ALLOC rejects. -/
theorem accDescBad_alloc (x : W64) : accDescBad x.toNat true = true ↔ ¬allocDescGood x := by
  have hresv := fld_toNat_eq_zero x 63 16 48 rfl
  simp only [accDescBad, fld_bankCount, fld_bankFirst, fld_bankBand, allocDescGood, Bool.or_eq_true, decide_eq_true_eq, if_true, ne_eq, hresv]
  by_cases h : x.extractLsb' 16 48 = 0
  · simp only [h, not_true_eq_false, or_false, and_true]
    omega
  · simp only [h, not_false_eq_true, or_true, true_or, and_false]

/-- R167: the descriptors that the other forms reject. -/
theorem accDescBad_other (x : W64) : accDescBad x.toNat false = true ↔ ¬(allocDescGood x ∧ bankBand x = 0) := by
  have hresv := fld_toNat_eq_zero x 63 16 48 rfl
  simp only [accDescBad, fld_bankCount, fld_bankFirst, fld_bankBand, allocDescGood, Bool.or_eq_true, decide_eq_true_eq, Bool.false_eq_true, if_false, ne_eq, hresv]
  by_cases h : x.extractLsb' 16 48 = 0
  · simp only [h, not_true_eq_false, or_false, and_true]
    omega
  · simp only [h, not_false_eq_true, or_true, true_or, and_false, false_and]

theorem bankRange_fld (w : Warp) (x : W64) : bankRange w (fld x.toNat 5 0) (fld x.toNat 12 6) = bankKeys w x := by
  rw [fld_bankFirst, fld_bankCount]
  rfl

/-! ## Going on after the spin check -/

theorem breakSpin_path (w : Warp) (pf : Bool) :
    (breakSpin w pf).path pf = { w.path pf with spin := { (w.path pf).spin with count := 0 } } := path_modPath w pf _

/-- R233: what a step does to the warp whose spin is broken, it does to the warp. -/
theorem scalarStep_of_breakSpin {s t : State} {w : Warp} {d : Nat} {v pc : W64}
    (h : scalarStep s t (breakSpin w s.cur.path) d v pc) : scalarStep s t w d v pc := by
  obtain ⟨w', ⟨ht, hpc, hissued, hother, hcount⟩, hkept, hpath, hreg, hxs, hhid⟩ := h
  have hact : actPath s (breakSpin w s.cur.path) =
      { actPath s w with spin := { (actPath s w).spin with count := 0 } } := breakSpin_path w s.cur.path
  have hrx : ∀ r, rx (breakSpin w s.cur.path) s.cur.path r = rx w s.cur.path r := fun r => by
    simp only [rx, breakSpin_path]
    rw [breakSpin, modPath_xs]
  rw [hact] at hissued hreg hxs hhid
  simp only [pathKeptButX, hact] at hpath
  refine ⟨w', ⟨ht, hpc, hissued, ?_, ?_⟩, warpKept_trans (modPath_kept w s.cur.path _) hkept, ?_, ?_, ?_, hhid⟩
  · rw [hother, breakSpin, path_modPath_other]
  · rw [countedOnce, hcount, breakSpin, modPath_wdc, modPath_kind]
  · rw [pathKeptButX]
    exact (congrArg (fun p : Path => { p with spin := (actPath s w).spin }) hpath :)
  · exact fun r => (hreg r).trans (by rw [hrx])
  · exact fun h0 => (hxs h0).trans (modPath_xs ..)

/-- R167, R233: an instruction that breaks a spin, writes a scalar register and goes on. -/
theorem retire_breakSpin_wx (s : State) (w : Warp) (d : Nat) (v : W64) :
    ∃ t, retire s (wx (breakSpin w s.cur.path) s.cur.path d v) = .next t ∧ scalarStep s t w d v (nextPc s w) := by
  obtain ⟨t, ht, hstep⟩ := retire_wx s (breakSpin w s.cur.path) d v
  have hpc : nextPc s (breakSpin w s.cur.path) = nextPc s w := by simp only [nextPc, actPath, breakSpin_path]
  exact ⟨t, ht, scalarStep_of_breakSpin (hpc ▸ hstep)⟩

/-! ## Operations of the engines (R30, R166) -/

/-- R30, R166: an operation enters the list of outstanding ones, and its banks lose their claims. -/
theorem engineIssue_step {s : State} {w : Warp} {c : Ctr} {ends : Bool} {b : OpBody} {ks : List Nat}
    (h : counter s s.cur.warp s.cur.path c < 255) :
    ∃ t, engineIssue s w c ends b ks = .next t ∧ engineStep s t (if ends then { w with nidem := true } else w) b ∧
      t.banks = (unclaim s ks).banks := by
  have hblock : (if ends then { w with nidem := true } else w : Warp).block = w.block := by cases ends <;> rfl
  have hstep := (retire_breakSpin (issueOp (unclaim s ks) s.cur.warp s.cur.path w.block none b)
    (if ends then { w with nidem := true } else w))
  obtain ⟨t, ht, hstep⟩ := hstep
  cases ht
  refine ⟨_, by rw [engineIssue, if_neg (Nat.not_le.mpr h)]; rfl, ⟨⟨?_, rfl⟩, hstep⟩, rfl⟩
  rw [hblock]
  rfl

/-- R167: the claims of the banks that an operation has entered the order of. -/
theorem fget_unclaim (s : State) (ks : List Nat) (k : Nat) :
    fget (unclaim s ks).banks k = if k ∈ ks then (fget s.banks k).map fun b => { b with claims := [] }
      else fget s.banks k :=
  fget_foldl_fmod (f := fun b : Bank => { b with claims := [] }) (fun _ => rfl) k ks s.banks

/-! ## ACC.ALLOC, ACC.FREE and ACC.ZERO on a live path (R167) -/

section

variable {s : State} {w : Warp} (hw : actsOn s w)
include hw

theorem accAlloc_eq (d a : Nat) (hd : allDone s s.cur.warp s.cur.path (actPath s w) = true) :
    exec (.accAlloc d a) s =
      if accDescBad (rx w s.cur.path a).toNat true then trapS s 0x51
      else if (bankKeys w (rx w s.cur.path a)).any fun k => (fget s.banks k).isSome then
        retire s (wx (breakSpin { w with nidem := true } s.cur.path) s.cur.path d 0)
      else retire { s with banks := (bankKeys w (rx w s.cur.path a)).foldl (fun t k => fput t k
          { block := w.block, band := bankBand (rx w s.cur.path a), claims := [], vals := [], pois := [] }) s.banks }
        (wx (breakSpin { w with nidem := true } s.cur.path) s.cur.path d 1) := by
  rw [exec_accAlloc, execAccAlloc, onPath_live s w hw]
  simp only [hd, bankRange_fld, fld_bankBand]
  rfl

theorem accFree_eq (a : Nat) (hd : allDone s s.cur.warp s.cur.path (actPath s w) = true) :
    exec (.accFree a) s =
      if accDescBad (rx w s.cur.path a).toNat false then trapS s 0x51
      else if (bankKeys w (rx w s.cur.path a)).any fun k => !ownsBank s w k then trapS s 0x50
      else if (bankKeys w (rx w s.cur.path a)).any (bankBusy s) then stall s
      else retire { s with banks := (bankKeys w (rx w s.cur.path a)).foldl fdel s.banks }
        (breakSpin { w with nidem := true } s.cur.path) := by
  rw [exec_accFree, execAccFree, onPath_live s w hw]
  simp only [hd, bankRange_fld]
  rfl

theorem accZero_eq (a : Nat) (hi : allIssued (actPath s w) = true) :
    exec (.accZero a) s =
      if accDescBad (rx w s.cur.path a).toNat false then trapS s 0x51
      else if (bankKeys w (rx w s.cur.path a)).any fun k => !ownsBank s w k then trapS s 0x50
      else engineIssue s w .ac false (.zero (bankKeys w (rx w s.cur.path a))) (bankKeys w (rx w s.cur.path a)) := by
  rw [exec_accZero, execAccZero, onPath_live s w hw]
  simp only [hi, bankRange_fld]
  rfl

end

/-- R166: the block owns each bank of a list, or not. -/
theorem any_not_ownsBank {s : State} {w : Warp} {ks : List Nat} :
    (ks.any fun k => !ownsBank s w k) = true ↔ ∃ k ∈ ks, ownsBank s w k = false := by simp

theorem not_any_not_ownsBank {s : State} {w : Warp} {ks : List Nat} (h : ∀ k ∈ ks, ownsBank s w k = true) :
    ¬(ks.any fun k => !ownsBank s w k) = true := by simpa using h

/-! ## ACC.DRAIN on a live path (R168) -/

theorem foreignBand_iff {b : Bank} {w : Warp} {row0 n : Nat} :
    foreignBand b w row0 n = true ↔ ∃ i ∈ bandsOf b.band row0 n, ∃ o, fget b.claims i = some o ∧ o ≠ w.idx := by
  simp [foreignBand, Option.any_eq_true]

/-- R168: the bank whose bands a drain claims. -/
def claimed (b : Bank) (w : Warp) (row0 n : Nat) : Bank :=
  { b with claims := (bandsOf b.band row0 n).foldl (fun c i => fput c i w.idx) b.claims }

/-- R168: the drain of n rows from row0 of a bank, as the registers of its issue say. -/
def drainOf (x : W64) (row0 n dst : Nat) (mask : W32) : Drain :=
  { bank := bankFirst x, row0 := row0, nrows := n, zafter := x.getLsbD 16, dst := dst, mask := mask }

section

variable {s : State} {w : Warp} (hw : actsOn s w) (hd : allDone s s.cur.warp s.cur.path (actPath s w) = true)
  {a d row0 n dst : Nat} {x : W64} (hx : rx w s.cur.path a = x) (hdst : (rx w s.cur.path d).toNat = dst)
  (hrow : (x.extractLsb' 6 5).toNat = row0) (hn : (x.extractLsb' 11 5).toNat + 1 = n)
  (hp : drainPending s s.cur.warp s.cur.path (dst % 2 ^ 11) n = false)
include hw hd hx hdst hrow hn hp

/-- R168: the fields that raise 5.1, and the bank that holds nothing. -/
theorem accDrain_eq : exec (.accDrain a d) s =
    if x.extractLsb' 17 47 ≠ 0 ∨ 2 ^ 11 ≤ dst ∨ 32 < row0 + n then trapS s 0x51
    else match fget s.banks (bankKey w (bankFirst x)) with
    | none => trapS s 0x50
    | some b =>
      if b.block ≠ w.block then trapS s 0x50
      else if row0 % bandRows b.band ≠ 0 ∨ n % bandRows b.band ≠ 0 then trapS s 0x53
      else if foreignBand b w row0 n then trapS s 0x52
      else if w.vregs < dst + n then trapS s 0x81
      else if w.div = true ∧ ∃ i, i < n ∧ vtag w (dst + i) ≠ .f32 then trapS s 0x12
      else if 255 ≤ counter s s.cur.warp s.cur.path .ac then stall s
      else engineIssue { s with banks := fput s.banks (bankKey w (bankFirst x)) (claimed b w row0 n) } w .ac (x.getLsbD 16)
        (.drain (drainOf x row0 n dst (actPath s w).k0) (bankKey w (bankFirst x))) [] := by
  have hfrow : fld x.toNat 10 6 = row0 := (fld_toNat x 10 6 5 rfl).trans hrow
  have hfn : fld x.toNat 15 11 + 1 = n := (congrArg (· + 1) (fld_toNat x 15 11 5 rfl)).trans hn
  have hfk := fld_bankFirst x
  have hresv := fld_toNat_eq_zero x 63 17 47 rfl
  have hhigh : dst / 2 ^ 11 ≠ 0 ↔ 2 ^ 11 ≤ dst := by omega
  rw [exec_accDrain, execAccDrain, onPath_live s w hw]
  simp only [hx, hdst, hfrow, hfn, hfk, hd, hp, bitAt_toNat, Bool.not_true, Bool.or_self, Bool.false_eq_true, if_false,
    Bool.or_eq_true, decide_eq_true_eq, ne_eq, hresv, Bool.and_eq_true, List.any_eq_true, List.mem_range, or_assoc]
  simp only [ne_eq] at hhigh
  rw [if_congr (or_congr_right (or_congr_left hhigh)) rfl rfl]
  rfl

end

end Sys2Proof.Machine

namespace Sys2Proof.Proofs

open Sys2Proof.Machine Sys2Proof.Claims

/-- R166, R167: ACC.ALLOC and ACC.FREE. -/
theorem accumulatorBanks : AccumulatorBanks := by
  intro s w d a hw hd x ks rest
  refine ⟨?_, ?_, ?_, ?_, ?_, ?_, ?_⟩
  · intro hbad
    exact trapS_live _ s w _ hw (by rw [accAlloc_eq hw d a hd, if_pos ((accDescBad_alloc x).mpr hbad)])
  · intro hgood hany
    obtain ⟨t, ht, hstep⟩ := retire_breakSpin_wx s { w with nidem := true } d 0
    refine ⟨t, ?_, hstep⟩
    rw [accAlloc_eq hw d a hd, if_neg (fun h => (accDescBad_alloc x).mp h hgood), if_pos (List.any_eq_true.mpr hany), ht]
  · intro hgood hfree
    have hnone : ¬(ks.any fun k => (fget s.banks k).isSome) = true := by simpa using hfree
    obtain ⟨t, ht, hstep⟩ := retire_breakSpin_wx { s with banks := ks.foldl (fun t k => fput t k
      { block := w.block, band := bankBand x, claims := [], vals := [], pois := [] }) s.banks } { w with nidem := true } d 1
    have hexec := accAlloc_eq hw d a hd
    rw [if_neg (fun h => (accDescBad_alloc x).mp h hgood), if_neg hnone] at hexec
    cases ht
    exact ⟨_, hexec, hstep, fun k => fget_foldl_fput_const _ k ks s.banks⟩
  · intro hbad
    exact trapS_live _ s w _ hw (by rw [accFree_eq hw a hd, if_pos ((accDescBad_other x).mpr hbad)])
  all_goals intro hgood hband
  all_goals have hdesc : ¬accDescBad x.toNat false = true := fun h => (accDescBad_other x).mp h ⟨hgood, hband⟩
  · intro hown
    exact trapS_live _ s w _ hw (by rw [accFree_eq hw a hd, if_neg hdesc, if_pos (any_not_ownsBank.mpr hown)])
  · intro hown hbusy
    rw [waits, accFree_eq hw a hd, if_neg hdesc, if_neg (not_any_not_ownsBank hown), if_pos (List.any_eq_true.mpr hbusy)]
    rfl
  · intro hown hidle
    have hnone : ¬(ks.any (bankBusy s)) = true := by simpa using hidle
    obtain ⟨t, ht, hstep⟩ := retire_breakSpin { s with banks := ks.foldl fdel s.banks } { w with nidem := true }
    have hexec := accFree_eq hw a hd
    rw [if_neg hdesc, if_neg (not_any_not_ownsBank hown), if_neg hnone] at hexec
    cases ht
    exact ⟨_, hexec, hstep, fun k => fget_foldl_fdel k ks s.banks⟩

/-- R166, R167: ACC.ZERO. -/
theorem accumulatorZero : AccumulatorZero := by
  intro s w a hw hi x ks
  refine ⟨fun hbad => ?_, fun hgood hband => ?_, fun hgood hband => ?_⟩
  · exact trapS_live _ s w _ hw (by rw [accZero_eq hw a hi, if_pos ((accDescBad_other x).mpr hbad)])
  all_goals have hdesc : ¬accDescBad x.toNat false = true := fun h => (accDescBad_other x).mp h ⟨hgood, hband⟩
  · intro hown
    exact trapS_live _ s w _ hw (by rw [accZero_eq hw a hi, if_neg hdesc, if_pos (any_not_ownsBank.mpr hown)])
  · intro hown hroom
    obtain ⟨t, ht, hstep, hbanks⟩ := engineIssue_step (w := w) (ends := false) (b := .zero ks) (ks := ks) hroom
    refine ⟨t, ?_, hstep, fun k => by rw [hbanks, fget_unclaim]⟩
    rw [accZero_eq hw a hi, if_neg hdesc, if_neg (not_any_not_ownsBank hown), ht]

/-- R166, R168: ACC.DRAIN. -/
theorem accumulatorDrain : AccumulatorDrain := by
  intro s w a d b hw hd x dst row0 n k size bands foreign hp
  have hexec := accDrain_eq hw hd (a := a) (d := d) rfl rfl rfl rfl hp
  have traps {cause : Nat} (h : exec (.accDrain a d) s = trapS s cause) : trapsAt (.accDrain a d) s w cause :=
    trapS_live _ s w cause hw h
  refine ⟨fun hbad => traps (by rw [hexec, if_pos hbad]), fun hresv hlow hrows => ?_⟩
  rw [if_neg (by rintro (h | h | h); exacts [h hresv, Nat.not_le.mpr hlow h, Nat.not_lt.mpr hrows h])] at hexec
  refine ⟨fun hb => traps (by rw [hexec, hb]), fun hb hne => traps (by rw [hexec, hb]; exact if_pos hne),
    fun hb heq hpart => ?_, fun hb heq hrow hn => ?_⟩
  all_goals
    rw [hb] at hexec
    simp only [heq, ne_eq, not_true_eq_false, if_false] at hexec
  · exact traps (hexec.trans (if_pos hpart))
  have hwhole : ¬(row0 % bandRows b.band ≠ 0 ∨ n % bandRows b.band ≠ 0) := by
    rintro (h | h)
    exacts [h hrow, h hn]
  replace hexec := hexec.trans (if_neg hwhole)
  refine ⟨fun hf => traps (hexec.trans (if_pos (foreignBand_iff.mpr hf))), ?_, ?_, ?_⟩
  all_goals intro hf; replace hexec := hexec.trans (if_neg fun h => hf (foreignBand_iff.mp h))
  · exact fun hbeyond => traps (hexec.trans (if_pos hbeyond))
  all_goals intro hin; replace hexec := hexec.trans (if_neg (Nat.not_lt.mpr hin))
  · exact fun hdiv htag => traps (hexec.trans (if_pos ⟨hdiv, htag⟩))
  intro htag hroom
  rw [if_neg (by rintro ⟨hdiv, i, hi, hne⟩; exact hne (htag hdiv i hi)), if_neg (Nat.not_le.mpr hroom)] at hexec
  obtain ⟨t, ht, hstep, hbanks⟩ := engineIssue_step (s := { s with banks := fput s.banks k (claimed b w row0 n) }) (w := w)
    (ends := x.getLsbD 16) (b := .drain (drainOf x row0 n dst (actPath s w).k0) k) (ks := []) hroom
  refine ⟨t, hexec.trans ht, drainOf x row0 n dst (actPath s w).k0, _, rfl, hstep, rfl, rfl, rfl, rfl, rfl,
    fun j hj => ?_, claimed b w row0 n, ?_, rfl, rfl, rfl, fun i => fget_foldl_fput_const w.idx i _ b.claims⟩
  · rw [hbanks]
    exact fget_fput_other _ _ hj
  · rw [hbanks]
    exact fget_fput_same _ _ _

/-- Settles O20: each form by the checks that it makes before it acts. -/
theorem accumulators : Obligations.Accumulators := by
  unfold Obligations.Accumulators
  exact ⟨accumulatorBanks, accumulatorZero, accumulatorDrain⟩

end Sys2Proof.Proofs

/-! # The issue of matrix and array instructions (O21) -/

namespace Sys2Proof.Machine

open Sys2Proof.Claims

/-- R171: what trapAt does on a live path is what trapsOffset says. -/
theorem trapAt_live {i : Instr} {s : State} {w : Warp} {cause off : Nat} (hw : actsOn s w)
    (hi : exec i s = trapAt s cause off) : trapsOffset i s w cause off := by
  rw [trapsOffset, hi, trapAt, hw.1]
  rfl

/-- R166: an operation that enters the order of banks that its block owns leaves none of them claimed. -/
theorem claims_unclaim {s : State} {w : Warp} {ks : List Nat} {k : Nat} (hk : k ∈ ks) (hown : ownsBank s w k = true) :
    (fget (unclaim s ks).banks k).map (·.claims) = some [] := by
  obtain ⟨b, hb⟩ : ∃ b, fget s.banks k = some b := Option.isSome_iff_exists.mp (Option.isSome_of_any hown)
  rw [fget_unclaim, if_pos hk, hb]
  rfl

/-! ## MMA and MMA.Z (R169 to R172) -/

/-- R172: the sequencer record of an MMA as its registers are read at issue. -/
def issuedSeq (w : Warp) (pf z : Bool) (d a b : Nat) (fb : List Byte) : SeqRec :=
  { ctl := rx w pf d, opa0 := rx w pf a, opa1 := rx w pf (a + 1), opb0 := rx w pf b, opb1 := rx w pf (b + 1),
    fblk := fb, step := 1, z := z, path := pf, metered := 1, seen := [] }

/-- R172: the register pairs of an MMA. -/
theorem pairsBad_iff (a b : Nat) : (a % 2 = 1 || a = 0 || b % 2 = 1 || b = 0) = true ↔
    ¬(a % 2 = 0 ∧ a ≠ 0 ∧ b % 2 = 0 ∧ b ≠ 0) := by
  simp only [Bool.or_eq_true, decide_eq_true_eq]
  omega

/-- R172: the checks of an MMA, in their order. -/
theorem mmaChecks_eq (s : State) (w : Warp) (pf z : Bool) (d a b : Nat) {h : MmaShape} {A B : MatOp} {fb : List Byte}
    (hh : mmaShape (rx w pf d) = h) (hA : matOp (rx w pf a) (rx w pf (a + 1)) = A)
    (hB : matOp (rx w pf b) (rx w pf (b + 1)) = B) (hfb : rdBytes (spCells s w.block) (16 * h.fbo) 32 = fb) :
    mmaChecks s w pf z d a b =
      if w.core % 2 = 1 then .error (0xE0, none)
      else if ¬(a % 2 = 0 ∧ a ≠ 0 ∧ b % 2 = 0 ∧ b ≠ 0) then .error (0xE1, none)
      else if mmaGeometryBad h A B = true ∨
        (16 * h.fbo + 32 ≤ spSize s w ∧ mmaFormatShort h A B (fdesc fb 0) (fdesc fb 16) = true) then .error (0xE3, none)
      else if 64 < h.bank + h.mt * h.nt then .error (0x51, none)
      else if spSize s w < 16 * h.fbo + 32 then .error (0x40, some (16 * h.fbo))
      else if poisonedIn (spPoison s w.block) (16 * h.fbo) 32 = true then .error (0x120, none)
      else if fblockBad (fdesc fb 0) (fdesc fb 16) = true then .error (0xE2, none)
      else if ((bankRange w h.bank (h.mt * h.nt)).any fun k => !ownsBank s w k) = true then .error (0x50, none)
      else match mmaBeyond h A B (fdesc fb 0) (fdesc fb 16) (spSize s w) with
      | some past => .error (0x40, some past)
      | none => .ok (issuedSeq w pf z d a b fb) := by
  subst hh hA hB hfb
  simp only [mmaChecks, pairsBad_iff]
  simp only [Bool.or_eq_true, Bool.and_eq_true, decide_eq_true_eq]
  rfl

/-- R172: the instruction of an MMA that clears its positions, or not. -/
def mmaInstr (z : Bool) (d a b : Nat) : Instr := if z then .mmaZ d a b else .mma d a b

theorem exec_mmaInstr (z : Bool) (d a b : Nat) (s : State) : exec (mmaInstr z d a b) s = mma z d a b s := by
  cases z <;> rfl

section

variable {s : State} {w : Warp} {z : Bool} {d a b : Nat} (hw : actsOn s w) (hi : allIssued (actPath s w) = true)
include hw hi

/-- R148, R262: an MMA waits for the accesses to its format block and for acquires. -/
theorem mma_waits (hwait : acquireOut s s.cur.warp s.cur.path = true ∨
    bytesOut s s.cur.warp s.cur.path true w.block (16 * (mmaShape (rx w s.cur.path d)).fbo) 32 = true) :
    waits (mmaInstr z d a b) s := by
  rw [waits, exec_mmaInstr, mma, onPath_live s w hw]
  rcases hwait with h | h
  · simp [hi, h, stall]
  · simp [hi, h, stall]

variable (hwait : ¬(acquireOut s s.cur.warp s.cur.path = true ∨
  bytesOut s s.cur.warp s.cur.path true w.block (16 * (mmaShape (rx w s.cur.path d)).fbo) 32 = true))
include hwait

theorem mma_eq : exec (mmaInstr z d a b) s = match mmaChecks s w s.cur.path z d a b with
    | .error (c, some off) => trapAt s c off
    | .error (c, none) => trapS s c
    | .ok r =>
      let h := mmaShape (rx w s.cur.path d)
      engineIssue s w .ac (!z) (.mma r (bankRange w h.bank (h.mt * h.nt))) (bankRange w h.bank (h.mt * h.nt)) := by
  obtain ⟨hacq, hbytes⟩ := not_or.mp hwait
  rw [exec_mmaInstr, mma, onPath_live s w hw]
  simp only [hi, hacq, hbytes, Bool.not_true, Bool.or_self, Bool.false_eq_true, if_false] <;> rfl

theorem mma_trapsAt {c : Nat} (h : mmaChecks s w s.cur.path z d a b = .error (c, none)) :
    trapsAt (mmaInstr z d a b) s w c :=
  trapS_live _ s w c hw (by rw [mma_eq hw hi hwait, h])

theorem mma_trapsOffset {c off : Nat} (h : mmaChecks s w s.cur.path z d a b = .error (c, some off)) :
    trapsOffset (mmaInstr z d a b) s w c off :=
  trapAt_live hw (by rw [mma_eq hw hi hwait, h])

end

/-! ## AMV and AMV.T (R174, R175) -/

/-- R175: the instruction that reads a tile's columns, or its rows. -/
def amvInstr (tr : Bool) (d a b : Nat) : Instr := if tr then .amvT d a b else .amv d a b

theorem exec_amvInstr (tr : Bool) (d a b : Nat) (s : State) : exec (amvInstr tr d a b) s = amv tr d a b s := by
  cases tr <;> rfl

/-- R175: an AMV as it is issued on the current copy of a tile. -/
def issuedAmv (tr : Bool) (xb xd : W64) (region tile : Nat) (t : Tile) : AmvOp :=
  { transposed := tr, region := region, tile := tile, inOff := (xb.extractLsb' 0 32).toNat, isc := xb.extractLsb' 32 32,
    bank := (xd.extractLsb' 0 6).toNat, copy := t.cur, seen := [] }

/-- R175: the checks of an AMV, in their order. -/
theorem amv_eq {s : State} {w : Warp} (tr : Bool) (d a b : Nat) (hw : actsOn s w) (hi : allIssued (actPath s w) = true)
    {xa xb xd : W64} {inOff rsl csl k : Nat} (ha : rx w s.cur.path a = xa) (hb : rx w s.cur.path b = xb)
    (hd : rx w s.cur.path d = xd) (hin : (xb.extractLsb' 0 32).toNat = inOff) (hrsl : (xa.extractLsb' 32 8).toNat = rsl)
    (hcsl : (xa.extractLsb' 40 8).toNat = csl) (hk : bankKey w (xd.extractLsb' 0 6).toNat = k) :
    exec (amvInstr tr d a b) s =
      if ¬(xa.extractLsb' 48 16 = 0 ∧ xd.extractLsb' 6 58 = 0 ∧ inOff % 64 = 0) then trapS s 0xF3
      else match grantedRegion s w.fn (xa.extractLsb' 0 32).toNat with
      | none => trapS s 0xF0
      | some rg =>
        match fget s.arrays.regions rg with
        | none => trapS s 0xF0
        | some r =>
          if r.rs ≤ rsl ∨ r.cs ≤ csl then trapS s 0xF1
          else if inService r = false then trapS s 0xF2
          else if spSize s w < inOff + 1024 then trapAt s 0x40 inOff
          else if ownsBank s w k = false then trapS s 0x50
          else match fget r.tiles (256 * rsl + csl) with
          | none => trapS s 0x100
          | some t =>
            if t.published = false then trapS s 0x100
            else engineIssue s w .an true (.amv (issuedAmv tr xb xd rg (256 * rsl + csl) t) k) [k] := by
  subst ha hb hd hin hrsl hcsl hk
  have hisc : n32 (fld (rx w s.cur.path b).toNat 63 32) = (rx w s.cur.path b).extractLsb' 32 32 := by
    rw [fld_toNat _ 63 32 32 rfl, n32, BitVec.ofNat_toNat]
    exact BitVec.setWidth_eq _
  rw [exec_amvInstr, amv, onPath_live s w hw]
  simp only [hi, Bool.not_true, Bool.false_eq_true, if_false, Bool.or_eq_true, decide_eq_true_eq, ne_eq,
    fld_toNat_eq_zero _ 63 48 16 rfl, fld_toNat_eq_zero _ 63 6 58 rfl, ← not_and_or, and_assoc, Bool.not_eq_true', hisc,
    fld_toNat _ 31 0 32 rfl, fld_toNat _ 39 32 8 rfl, fld_toNat _ 47 40 8 rfl, fld_toNat _ 5 0 6 rfl]
  rfl

end Sys2Proof.Machine

namespace Sys2Proof.Proofs

open Sys2Proof.Machine Sys2Proof.Claims

/-- R169 to R172: MMA and MMA.Z. -/
theorem matrixIssue : MatrixIssue := by
  intro s w z d a b hw hi i h A B fb ks pairs waiting held poisoned shapeBad
  have hlen : ks.length = h.mt * h.nt := by
    rw [List.length_map, List.length_range]
    rfl
  have hc := mmaChecks_eq s w s.cur.path z d a b (h := h) (A := A) (B := B) (fb := fb) rfl rfl rfl rfl
  refine ⟨mma_waits hw hi, ?_, ?_, ?_, ?_, ?_, ?_⟩
  all_goals intro hwait
  · exact fun hodd => mma_trapsAt hw hi hwait (hc.trans (if_pos hodd))
  all_goals intro heven; replace hc := hc.trans (if_neg (by rw [heven]; decide))
  · exact fun hbad => mma_trapsAt hw hi hwait (hc.trans (if_pos hbad))
  all_goals intro hpairs; replace hc := hc.trans (if_neg (not_not_intro hpairs))
  · exact fun hbad => mma_trapsAt hw hi hwait (hc.trans (if_pos hbad))
  all_goals intro hshape; replace hc := hc.trans (if_neg hshape); rw [hlen]
  · exact fun hpast => mma_trapsAt hw hi hwait (hc.trans (if_pos hpast))
  all_goals intro hbanks; replace hc := hc.trans (if_neg (Nat.not_lt.mpr hbanks))
  · exact fun hheld => mma_trapsOffset hw hi hwait (hc.trans (if_pos (Nat.not_le.mp hheld)))
  intro hheld
  replace hc := hc.trans (if_neg (Nat.not_lt.mpr hheld))
  refine ⟨fun hp => mma_trapsAt hw hi hwait (hc.trans (if_pos hp)), fun hp hbad =>
    mma_trapsAt hw hi hwait ((hc.trans (if_neg hp)).trans (if_pos hbad)), fun hp hgood => ?_⟩
  replace hc := (hc.trans (if_neg hp)).trans (if_neg (Bool.eq_false_iff.mp hgood))
  refine ⟨fun hown => mma_trapsAt hw hi hwait (hc.trans (if_pos (any_not_ownsBank.mpr hown))), fun hown => ?_⟩
  replace hc := hc.trans (if_neg (not_any_not_ownsBank hown))
  refine ⟨fun off hoff => mma_trapsOffset hw hi hwait (by rw [hc, hoff]), fun hin hroom => ?_⟩
  rw [hin] at hc
  obtain ⟨t, ht, hstep, hbank⟩ := engineIssue_step (s := s) (w := w) (ends := !z)
    (b := .mma (issuedSeq w s.cur.path z d a b fb) ks) (ks := ks) hroom
  refine ⟨t, ?_, issuedSeq w s.cur.path z d a b fb, ?_, rfl, rfl, rfl, rfl, rfl, rfl, rfl, rfl,
    fun k hk => by rw [hbank, claims_unclaim hk (hown k hk)]⟩
  · have hexec := mma_eq (z := z) (a := a) (b := b) hw hi hwait
    rw [hc] at hexec
    exact hexec.trans ht
  · cases z <;> exact hstep

/-- R174, R175: AMV and AMV.T. -/
theorem arrayIssue : ArrayIssue := by
  intro s w tr d a b hw hi i xa xb xd inOff rsl csl k clean region
  have hexec := amv_eq tr d a b hw hi (xa := xa) (xb := xb) (xd := xd) rfl rfl rfl (inOff := inOff) rfl (rsl := rsl) rfl
    (csl := csl) rfl (k := k) rfl
  have traps {c : Nat} (h : exec (amvInstr tr d a b) s = trapS s c) : trapsAt i s w c := trapS_live _ s w c hw h
  refine ⟨fun hbad => traps (hexec.trans (if_pos hbad)), fun hclean hnone => ?_, fun hclean n r hn hr => ?_⟩
  all_goals replace hexec := hexec.trans (if_neg (not_not_intro hclean))
  · exact traps (by rw [hexec, show grantedRegion s w.fn _ = none from hnone])
  rw [show grantedRegion s w.fn _ = some n from hn] at hexec
  simp only [hr] at hexec
  refine ⟨fun hout => traps (hexec.trans (if_pos hout)), ?_, ?_, ?_, ?_⟩
  all_goals
    intro hrs hcs
    replace hexec := hexec.trans (if_neg (by omega))
  · exact fun hoff => traps (hexec.trans (if_pos hoff))
  all_goals intro hon; replace hexec := hexec.trans (if_neg (ne_false_of_eq_true hon))
  · exact fun hshort => trapAt_live hw (hexec.trans (if_pos hshort))
  all_goals intro hin; replace hexec := hexec.trans (if_neg (Nat.not_lt.mpr hin))
  · exact fun hown => traps (hexec.trans (if_pos hown))
  intro hown t0 ht0
  replace hexec := hexec.trans (if_neg (ne_false_of_eq_true hown))
  simp only [ht0] at hexec
  refine ⟨fun hp => traps (hexec.trans (if_pos hp)), fun hp hroom => ?_⟩
  replace hexec := hexec.trans (if_neg (ne_false_of_eq_true hp))
  obtain ⟨t, ht, hstep, -⟩ := engineIssue_step (s := s) (w := w) (ends := true)
    (b := .amv (issuedAmv tr xb xd n (256 * rsl + csl) t0) k) (ks := [k]) hroom
  exact ⟨t, hexec.trans ht, issuedAmv tr xb xd n (256 * rsl + csl) t0, hstep, rfl, rfl, rfl, rfl, rfl, rfl⟩

/-- Settles O21: each check of an MMA and of an AMV in its order, and then the operation issued. -/
theorem engineIssue : Obligations.EngineIssue := by
  unfold Obligations.EngineIssue
  exact ⟨matrixIssue, arrayIssue⟩

end Sys2Proof.Proofs

/-! # Tensor records, shuttle forms and collectives at issue (O22) -/

namespace Sys2Proof.Machine

open Sys2Proof.Claims

/-! ## TREC (R178) -/

section

variable {s : State} {w : Warp} {slot a : Nat} (hw : actsOn s w) (hi : allIssued (actPath s w) = true)
  (hacq : acquireOut s s.cur.warp s.cur.path = false)
include hw hi hacq

theorem trec_unaligned (h : (rx w s.cur.path a).toNat % 64 ≠ 0) : exec (.trec slot a) s = trapS s 0xD0 := by
  rw [exec_trec, execTrec, onPath_live s w hw]
  simp [hi, hacq, h]

/-- R343: an address of more than 48 bits. -/
theorem trec_beyond (h64 : (rx w s.cur.path a).toNat % 64 = 0) (h48 : 2 ^ 48 ≤ (rx w s.cur.path a).toNat)
    (hk : w.kind ≠ .supervisor) : exec (.trec slot a) s =
      trapSx s { cause := 0x31, walk := false, ipa := 0 } (rx w s.cur.path a).toNat := by
  rw [exec_trec, execTrec, onPath_live s w hw]
  simp only [hi, hacq, h64, Bool.not_true, Bool.or_self, Bool.false_eq_true, if_false, ne_eq, not_true_eq_false, if_pos h48, if_neg hk]

theorem trec_translated {addr : Nat} (h64 : (rx w s.cur.path a).toNat % 64 = 0) (h48 : (rx w s.cur.path a).toNat < 2 ^ 48)
    (hx : translate s (warpReq s w ((actPath s w).priv == 0) .read none) (rx w s.cur.path a).toNat = .ok addr) :
    exec (.trec slot a) s = trecRead s w slot addr := by
  rw [exec_trec, execTrec, onPath_live s w hw]
  simp only [hi, hacq, h64, Bool.not_true, Bool.or_self, Bool.false_eq_true, if_false, ne_eq, not_true_eq_false,
    if_neg (Nat.not_le.mpr h48), hx]

end

/-- R178, R249: a record on this module is read where it lies. -/
theorem trecRead_local {s : State} {w : Warp} {slot addr : Nat} (hw : fget s.warps s.cur.warp = some w)
    (hp : bytesOut s s.cur.warp s.cur.path false 0 addr 64 = false) (hl : isLocal addr = true) :
    trecRead s w slot addr = trecPut s w slot (rdBytes s.mem (fromCopy s w.die addr) 64)
      (poisonedIn s.pois (fromCopy s w.die addr) 64) := by
  have hread := farPieces_local (s := s) (l := [addr]) w.fn w.reqtag 64 hw (by simpa using hl)
  simp only [List.map_cons, List.map_nil, List.flatMap_cons, List.flatMap_nil, List.append_nil, List.any_cons, List.any_nil,
    Bool.or_false] at hread
  simp only [trecRead, hp, Bool.false_eq_true, if_false, farBytes, hread]

/-! ## Operations added to the batch (R179) -/

/-- R98: a warp that only went on as its region ended. -/
theorem regionEnded_frame {w w' : Warp} (h : warpKept (endRegion w) w') (hxs : w'.xs = w.xs) :
    { w' with a := w.a, b := w.b, wdc := w.wdc, nidem := w.nidem } = w := by
  have hframe : { w' with a := w.a, b := w.b, xs := w.xs, wdc := w.wdc, nidem := w.nidem } = w :=
    congrArg (fun v : Warp => { v with nidem := w.nidem }) h
  rwa [← hxs] at hframe

/-- R179: an operation added to a batch of less than 64. -/
theorem addToBatch_step {s : State} {w : Warp} (op : ShOp) (h : (actPath s w).batch.length < 64) :
    ∃ t, addToBatch s w (actPath s w) op = .next t ∧ batchStep s t w op := by
  obtain ⟨hon, hkept, hxs, hpath⟩ := wentOn_breakSpin (s := s) (w := endRegion w)
    (p := { actPath s w with batch := (actPath s w).batch ++ [op] }) (by cases hc : s.cur.path <;> simp [actPath, hc, endRegion, Warp.path])
  refine ⟨_, if_pos h, _, hon, ?_, (congrArg Warp.nidem hkept :), ?_, ?_⟩
  · exact regionEnded_frame hkept hxs
  · rw [hpath]
  · rw [hpath]

/-- R180: what every form ends with, where no record reaches beyond the allocation and only contiguous ones overlap. -/
theorem shTail_step {s : State} {w : Warp} {p q : TRec} (k : Bool → ShOp) (h : (actPath s w).batch.length < 64)
    (hp : recBeyond (spSize s w) p = none) (hq : recBeyond (spSize s w) q = none)
    (ho : recOverlap p q = true → contiguous p = true ∧ contiguous q = true) :
    ∃ t, shTail s w (actPath s w) p q k = .next t ∧ batchStep s t w (k (recOverlap p q)) := by
  obtain ⟨t, ht, hstep⟩ := addToBatch_step (s := s) (w := w) (k (recOverlap p q)) h
  refine ⟨t, ?_, hstep⟩
  have hapart : (recOverlap p q && !(contiguous p && contiguous q)) = false := by
    cases hov : recOverlap p q with
    | false => rfl
    | true => simp [(ho hov).1, (ho hov).2]
  simp only [shTail, hp, hq, hapart, Bool.false_eq_true, if_false, ht]

section

variable {s : State} {w : Warp} {d a b : Nat} {td ts : TRec} (hw : actsOn s w) (hi : allIssued (actPath s w) = true)
  (hd : trecSlot s w d = some td)
include hw hi hd

/-- R177: a form whose source slot is empty. -/
theorem shCopy_emptySource (ha : trecSlot s w a = none) : exec (.shCopy d a b) s = trapS s 0xD1 := by
  rw [exec_shCopy, execShCopy, onPath_live s w hw]
  simp only [hi, hd, ha, Bool.not_true, Bool.false_eq_true, if_false]

theorem shGather_emptySource (ha : trecSlot s w a = none) : exec (.shGather d a b) s = trapS s 0xD1 := by
  rw [exec_shGather, execShGather, onPath_live s w hw]
  simp only [hi, hd, ha, Bool.not_true, Bool.false_eq_true, if_false]

theorem shFill_range (hr : shRange (rx w s.cur.path b) td = none) : exec (.shFill d a b) s = trapS s 0xD6 := by
  rw [exec_shFill, execShFill, onPath_live s w hw]
  simp only [hi, hd, hr, Bool.not_true, Bool.false_eq_true, if_false]

theorem shFill_eq {i n : Nat} (hr : shRange (rx w s.cur.path b) td = some (i, n))
    (hin : recBeyond (spSize s w) (selectOuter td i n) = none) : exec (.shFill d a b) s =
      addToBatch s w (actPath s w)
        (newShOp s w (actPath s w) .fill (selectOuter td i n) (selectOuter td i n) (rx w s.cur.path a) 0 false) := by
  rw [exec_shFill, execShFill, onPath_live s w hw]
  simp only [hi, hd, hr, hin, Bool.not_true, Bool.false_eq_true, if_false]

variable (ha : trecSlot s w a = some ts)
include ha

theorem shCopy_range (hr : shRange (rx w s.cur.path b) td = none ∨ shRange (rx w s.cur.path b) ts = none) :
    exec (.shCopy d a b) s = trapS s 0xD6 := by
  rw [exec_shCopy, execShCopy, onPath_live s w hw]
  simp only [hi, hd, ha, Bool.not_true, Bool.false_eq_true, if_false]
  rcases hr with h | h
  · rw [h]
  · rw [h]
    cases shRange (rx w s.cur.path b) td <;> rfl

/-- R180: SH.COPY of the selected parts of two records. -/
theorem shCopy_eq {i n j m : Nat} (hp : shRange (rx w s.cur.path b) td = some (i, n))
    (hq : shRange (rx w s.cur.path b) ts = some (j, m)) : exec (.shCopy d a b) s =
      if recSize (selectOuter td i n) ≠ recSize (selectOuter ts j m) ∨ recCount (selectOuter td i n) ≠ recCount (selectOuter ts j m)
      then trapS s 0xD2
      else shTail s w (actPath s w) (selectOuter td i n) (selectOuter ts j m)
        fun ovr => newShOp s w (actPath s w) .copy (selectOuter td i n) (selectOuter ts j m) 0 0 ovr := by
  rw [exec_shCopy, execShCopy, onPath_live s w hw]
  simp only [hi, hd, ha, hp, hq, Bool.not_true, Bool.false_eq_true, if_false, Bool.or_eq_true, decide_eq_true_eq]

/-- R180: SH.GATHER with its index register. -/
theorem shGather_eq : exec (.shGather d a b) s =
    let ix := ((rx w s.cur.path b).extractLsb' 0 32).toNat
    if ix % 4 ≠ 0 ∨ (rx w s.cur.path b).extractLsb' 32 32 ≠ 0 then trapS s 0xD7
    else if spSize s w < ix + 4 * recOuter td then trapAt s 0x40 ix
    else if recInner td ≠ recInner ts ∨ recSize td ≠ recSize ts then trapS s 0xD2
    else shTail s w (actPath s w) td ts fun ovr => newShOp s w (actPath s w) .gather td ts 0 ix ovr := by
  rw [exec_shGather, execShGather, onPath_live s w hw]
  simp only [hi, hd, ha, Bool.not_true, Bool.false_eq_true, if_false, Bool.or_eq_true, decide_eq_true_eq, ne_eq,
    fld_toNat _ 31 0 32 rfl, fld_toNat_eq_zero _ 63 32 32 rfl]

end

/-! ## Batches that close (R30, R179) -/

theorem retire_closeBatch {s : State} {w : Warp} (hw : actsOn s w) (x : Warp) :
    retire (closeBatch s s.cur.warp s.cur.path) x = retire (batchIssued s s.cur.warp s.cur.path w) x := by
  have hcur : (closeBatch s s.cur.warp s.cur.path).cur = s.cur := by
    rcases closeBatch_cases (pf := s.cur.path) hw.1 with ⟨_, hc⟩ | ⟨_, hc⟩
    · rw [hc]
    · rw [hc, putWarp_cur, batchIssued_frame]
  rw [retire, retire, hcur, putWarp_closeBatch hw.1, batchIssued_frame]


/-- R179: SH.CLOSE of a batch that may close. -/
theorem shClose_eq {s : State} {w : Warp} (hw : actsOn s w) (hi : allIssued (actPath s w) = true)
    (hm : mayClose s s.cur.warp s.cur.path (actPath s w) = true) : exec .shClose s =
      retire (batchIssued s s.cur.warp s.cur.path w) (breakSpin (batchless w s.cur.path) s.cur.path) := by
  rw [exec_shClose, execShClose, onPath_live s w hw, ← retire_closeBatch hw]
  simp only [hi, hm, Bool.not_true, Bool.or_self, Bool.false_eq_true, if_false]
  rfl

/-! ## Collectives (R183) -/

/-- R183: the collective that a form issues. -/
def issuedColl (s : State) (w : Warp) (form : Nat) (q : CollReq) (dst src : TRec) : CollOp :=
  { form := form, group := q.group, rank := q.rank, oper := q.oper, fmt := q.fmt,
    inst := fgetD 0 ((fget s.parts.parts (partOf s w.fn)).elim [] (·.begun)) (begunKey q.group q.rank),
    user := (actPath s w).priv == 0, skip := [], stall := false, inGran := [], inbox := [], inPois := [],
    wrote := false, dst := dst, src := src }

section

variable {s : State} {w : Warp} {form d a b : Nat} (hw : actsOn s w) (hi : allIssued (actPath s w) = true)
include hw hi

theorem coll_emptySlot (h : trecSlot s w d = none ∨ trecSlot s w a = none) : coll form d a b s = trapS s 0xD1 := by
  rw [coll, onPath_live s w hw]
  simp only [hi, Bool.not_true, Bool.false_eq_true, if_false]
  rcases h with h | h
  · rw [h]
  · rw [h]
    cases trecSlot s w d <;> rfl

/-- R183, R185: the checks of a collective, in their order. -/
theorem coll_eq {dst src : TRec} {q : CollReq} (hd : trecSlot s w d = some dst) (ha : trecSlot s w a = some src)
    (hq : collReq (rx w s.cur.path b) = q) : coll form d a b s =
      if collBad form q dst src then trapS s 0xD8
      else match groupOf s (partOf s w.fn) q.group with
      | none => trapS s 0xDA
      | some l =>
        if l.length ≤ q.rank then trapS s 0xDA
        else if collCountBad form l.length (recCount src) (recCount dst) || collSizeBad dst src then trapS s 0xD2
        else match recBeyond (spSize s w) dst, recBeyond (spSize s w) src with
        | some off, _ => trapAt s 0x40 off
        | none, some off => trapAt s 0x40 off
        | none, none =>
          if (d = a && form ≠ 0) || (d ≠ a && recOverlap dst src && !(contiguous dst && contiguous src)) then
            trapS s 0xD5
          else collIssue s w (actPath s w) (issuedColl s w form q dst src) := by
  subst hq
  rw [coll, onPath_live s w hw]
  simp only [hi, hd, ha, Bool.not_true, Bool.false_eq_true, if_false]
  rfl

end

/-- R183: a collective without an open batch before it becomes outstanding, and its group's count goes on. -/
theorem collIssue_step {s : State} {w : Warp} (c : CollOp) (hw : actsOn s w) (hb : (actPath s w).batch = [])
    (hroom : counter s s.cur.warp s.cur.path .sh < 255) (hper : performedAll s s.cur.warp s.cur.path true = true) :
    ∃ t, collIssue s w (actPath s w) c = .next t ∧ opIssued s t w (.coll c) ∧
      scalarStep { s with ops := t.ops, next := t.next, parts := t.parts } t { w with nidem := true } 0 0 (nextPc s w) := by
  have hclose : closeBatch s s.cur.warp s.cur.path = s := by
    rcases closeBatch_cases (pf := s.cur.path) hw.1 with ⟨_, hc⟩ | ⟨hne, _⟩
    · exact hc
    · exact absurd hb hne
  have hpath : (endRegion w).setPath s.cur.path { actPath s w with batch := [] } = { w with nidem := true } := by
    rw [← hb]
    cases hpf : s.cur.path <;> simp [actPath, hpf, Warp.path, Warp.setPath, endRegion]
  have hcount : ¬255 ≤ counter s s.cur.warp s.cur.path .sh + b2n (!(actPath s w).batch.isEmpty) := by
    rw [hb]
    exact Nat.not_le.mpr hroom
  simp only [collIssue, if_neg hcount, hper, Bool.not_true, Bool.false_eq_true, if_false, hclose, hpath]
  obtain ⟨t, ht, hstep⟩ := retire_breakSpin (issueOp { s with parts := { s.parts with
    parts := fmod s.parts.parts (partOf s w.fn) fun q => { q with
      begun := fputD 0 q.begun (begunKey c.group c.rank) (fgetD 0 q.begun (begunKey c.group c.rank) + 1) } } }
    s.cur.warp s.cur.path w.block none (.coll c)) { w with nidem := true }
  cases ht
  exact ⟨_, rfl, ⟨rfl, rfl⟩, hstep⟩

end Sys2Proof.Machine

namespace Sys2Proof.Proofs

open Sys2Proof.Machine Sys2Proof.Claims

/-- R178: TREC. -/
theorem tensorRecord : TensorRecord := by
  intro s w slot a addr k hw hi hacq hk va src bytes pending
  refine ⟨fun h => trapS_live _ s w _ hw (trec_unaligned hw hi hacq h), fun h64 h48 hkind => ?_, fun h64 h48 hx => ?_⟩
  · rw [trec_beyond hw hi hacq h64 h48 hkind, trapSx, hw.1]
    rfl
  have hexec := trec_translated (slot := slot) hw hi hacq h64 h48 hx
  refine ⟨fun hp => ?_, fun hp hl => ?_⟩
  · rw [waits, hexec, trecRead]
    exact if_pos hp
  replace hexec := hexec.trans (trecRead_local hw.1 hp hl)
  refine ⟨fun hbad => ?_, fun hclean hbad => ?_, fun hclean hgood => ?_⟩
  · exact trapS_live _ s w _ hw (hexec.trans (if_pos hbad))
  · exact trapS_live _ s w _ hw ((hexec.trans (if_neg (Bool.eq_false_iff.mp hclean))).trans (if_pos hbad))
  · obtain ⟨t, ht, hstep⟩ := retire_breakSpin { s with blocks := fmod s.blocks w.block fun k =>
      { k with recs := fput k.recs slot (parseTRec bytes) } } w
    replace hexec := (hexec.trans (if_neg (Bool.eq_false_iff.mp hclean))).trans (if_neg (Bool.eq_false_iff.mp hgood))
    cases ht
    refine ⟨_, hexec, hstep, fun j hj => ?_, { k with recs := fput k.recs slot (parseTRec bytes) }, ?_, rfl,
      fun j => fget_fput k.recs slot j _⟩
    · exact (fget_fmod ..).trans (if_neg hj)
    · exact (fget_fmod ..).trans ((if_pos rfl).trans (by rw [hk]; rfl))

/-- R179 to R181: SH.COPY, SH.FILL and SH.GATHER. -/
theorem shuttleIssue : ShuttleIssue := by
  intro s w d a b td ts hw hi hd hlen x S clear
  have traps {i : Instr} {c : Nat} (h : exec i s = trapS s c) : trapsAt i s w c := trapS_live i s w c hw h
  refine ⟨fun ha => ⟨traps (shCopy_emptySource hw hi hd ha), traps (shGather_emptySource hw hi hd ha)⟩,
    fun hr => traps (shFill_range hw hi hd hr), fun i n hr hin => ?_, fun ha => ⟨?_, fun i n j m hp hq => ?_, ?_, ?_⟩⟩
  · obtain ⟨t, ht, hstep⟩ := addToBatch_step (s := s) (w := w)
      (newShOp s w (actPath s w) .fill (selectOuter td i n) (selectOuter td i n) (rx w s.cur.path a) 0 false) hlen
    exact ⟨t, (shFill_eq hw hi hd hr hin).trans ht, _, hstep, rfl, rfl, rfl⟩
  · exact fun hr => traps (shCopy_range hw hi hd ha hr)
  · intro p q
    refine ⟨fun hne => traps ((shCopy_eq hw hi hd ha hp hq).trans (if_pos hne)), ?_⟩
    rintro hsize hcount ⟨hbp, hbq, hov⟩
    obtain ⟨t, ht, hstep⟩ := shTail_step (s := s) (w := w)
      (fun ovr => newShOp s w (actPath s w) .copy p q 0 0 ovr) hlen hbp hbq hov
    refine ⟨t, ((shCopy_eq hw hi hd ha hp hq).trans (if_neg ?_)).trans ht, _, hstep, rfl, rfl, rfl⟩
    rintro (h | h)
    exacts [h hsize, h hcount]
  · exact fun hbad => traps ((shGather_eq hw hi hd ha).trans (if_pos hbad))
  · rintro halign hresv hix hinner hsize ⟨hbp, hbq, hov⟩
    obtain ⟨t, ht, hstep⟩ := shTail_step (s := s) (w := w)
      (fun ovr => newShOp s w (actPath s w) .gather td ts 0 (x.extractLsb' 0 32).toNat ovr) hlen hbp hbq hov
    have hexec := shGather_eq (b := b) hw hi hd ha
    replace hexec := hexec.trans (if_neg (by rintro (h | h); exacts [h halign, h hresv]))
    replace hexec := hexec.trans (if_neg (Nat.not_lt.mpr hix))
    replace hexec := hexec.trans (if_neg (by rintro (h | h); exacts [h hinner, h hsize]))
    exact ⟨t, hexec.trans ht, _, hstep, rfl, rfl, rfl, rfl⟩

/-- R30, R179: SH.CLOSE. -/
theorem shuttleClose : ShuttleClose := by
  intro s w hw hi
  refine ⟨fun hb => ?_, fun hb hroom => ?_⟩
  · rw [runs, shClose_eq hw hi (mayClose_empty hb), batchIssued_of_empty hb, batchless_of_empty hb]
    exact retire_breakSpin s w
  · obtain ⟨⟨-, hpc, -, -, -⟩, hkept, hxs, hpath⟩ := wentOn_breakSpin (s := s) (w := w)
      (p := { actPath s w with batch := [] }) rfl
    rw [runs, shClose_eq hw hi (mayClose_room hroom)]
    have hopen := batchIssued_of_open (s := s) (u := s.cur.warp) (pf := s.cur.path) hb
    have hcount := counter_batchIssued (s := s) (u := s.cur.warp) (pf := s.cur.path) hb
    rw [hopen] at hcount ⊢
    refine ⟨_, rfl, ⟨rfl, rfl⟩, rfl, rfl, hcount, _, fget_putWarp .., ?_⟩
    exact ⟨(congrArg Path.batch hpath :), hpc, (congrArg Path.x hpath :), (congrArg Path.k hpath :),
      (congrArg Warp.regs hkept :), hxs, (congrArg Warp.nidem hkept :)⟩

/-- R183, R185: the collectives. -/
theorem collectiveIssue : CollectiveIssue := by
  intro s w d a b form dst src i hw hform hi q
  have hexec : exec i s = coll form d a b s := by
    simp only [List.mem_cons, Prod.mk.injEq, List.not_mem_nil, or_false] at hform
    rcases hform with ⟨rfl, rfl⟩ | ⟨rfl, rfl⟩ | ⟨rfl, rfl⟩ | ⟨rfl, rfl⟩ <;> rfl
  have traps {c : Nat} (h : coll form d a b s = trapS s c) : trapsAt i s w c := trapS_live i s w c hw (hexec.trans h)
  refine ⟨fun h => traps (coll_emptySlot hw hi h), fun hd ha => ?_⟩
  have hcoll := coll_eq (form := form) (b := b) hw hi hd ha rfl
  refine ⟨fun hbad => traps (hcoll.trans (if_pos hbad)), fun hgood hnone => ?_, fun l hgood hl => ?_⟩
  all_goals replace hcoll := hcoll.trans (if_neg (Bool.eq_false_iff.mp hgood))
  · exact traps (by rw [hcoll, show groupOf s _ (collReq _).group = none from hnone])
  rw [show groupOf s _ (collReq _).group = some l from hl] at hcoll
  refine ⟨fun hrank => traps (hcoll.trans (if_pos hrank)), ?_, ?_⟩
  all_goals intro hrank; replace hcoll := hcoll.trans (if_neg (Nat.not_le.mpr hrank))
  · exact fun hcount => traps (hcoll.trans (if_pos (by rw [hcount]; rfl)))
  intro hcount hsize hdst hsrc hsame hov hbatch hroom hper
  have hsizeOk : collSizeBad dst src = false := by simp [collSizeBad, hsize]
  have hapart : ¬((d = a && form ≠ 0) || (d ≠ a && recOverlap dst src && !(contiguous dst && contiguous src))) = true := by
    by_cases hda : d = a
    · simp [hda, hsame hda]
    · cases hlap : recOverlap dst src with
      | false => simp [hda]
      | true => simp [hda, hov hda hlap]
  simp only [hcount, hsizeOk, Bool.or_self, Bool.false_eq_true, if_false, hdst, hsrc] at hcoll
  replace hcoll := hcoll.trans (if_neg hapart)
  obtain ⟨t, ht, hop, hstep⟩ := collIssue_step (issuedColl s w form q dst src) hw hbatch hroom hper
  exact ⟨t, hexec.trans (hcoll.trans ht), issuedColl s w form q dst src, rfl, rfl, rfl, rfl, rfl, rfl, rfl, hop, hstep⟩

/-- Settles O22: each form by the checks that it makes before it acts. -/
theorem shuttleForms : Obligations.ShuttleForms := by
  unfold Obligations.ShuttleForms
  exact ⟨tensorRecord, shuttleIssue, shuttleClose, collectiveIssue⟩

end Sys2Proof.Proofs

/-! # The events of the banks (O36) -/

namespace Sys2Proof.Machine

open Sys2Proof.Claims

/-! ## Tables put together from keys -/

/-- Values put at keys that determine them. -/
theorem fgetD_foldl_fputD {α ι : Type} [DecidableEq α] (z : α) (key : ι → Nat) (f : ι → α) (g : Nat → α) (k : Nat) (l : List ι)
    (m : FMap α) (hg : ∀ j ∈ l, f j = g (key j)) :
    fgetD z (l.foldl (fun u j => fputD z u (key j) (f j)) m) k = if k ∈ l.map key then g k else fgetD z m k := by
  induction l generalizing m with
  | nil => rfl
  | cons j l ih =>
    have hj := hg j List.mem_cons_self
    rw [List.foldl_cons, ih _ fun i hi => hg i (List.mem_cons_of_mem _ hi), fgetD_fputD]
    by_cases hk : k = key j
    · simp [hk, hj]
    · simp [hk]

/-- Values put at the first n keys. -/
theorem fgetD_foldl_range {α : Type} [DecidableEq α] (z : α) (f : Nat → α) {n k : Nat} (m : FMap α) (hk : k < n) :
    fgetD z ((List.range n).foldl (fun u j => fputD z u j (f j)) m) k = f k := by
  rw [fgetD_foldl_fputD z (fun j => j) f f k (List.range n) m fun _ _ => rfl, List.map_id', if_pos (List.mem_range.mpr hk)]

/-- Values put at the positions of a rectangle in rows of 32. -/
theorem fgetD_rectangle {rows cols i j : Nat} (v : Nat → Nat → W32) (m : FMap W32) (hcols : cols ≤ 32) (hj : j < 32) :
    fgetD 0 ((List.range rows).foldl (fun t i => (List.range cols).foldl (fun u j => fputD 0 u (32 * i + j) (v i j)) t) m)
      (32 * i + j) = if i < rows ∧ j < cols then v i j else fgetD 0 m (32 * i + j) := by
  let cells := (List.range rows).flatMap fun i => (List.range cols).map fun j => (i, j)
  have hmem (e : Nat × Nat) : e ∈ cells ↔ e.1 < rows ∧ e.2 < cols := by
    obtain ⟨a, b⟩ := e
    simp only [cells, List.mem_flatMap, List.mem_range, List.mem_map, Prod.mk.injEq]
    constructor
    · rintro ⟨i, hi, j, hj, rfl, rfl⟩
      exact ⟨hi, hj⟩
    · rintro ⟨ha, hb⟩
      exact ⟨a, ha, b, hb, rfl, rfl⟩
  have hfold : (List.range rows).foldl (fun t i => (List.range cols).foldl (fun u j => fputD 0 u (32 * i + j) (v i j)) t) m =
      cells.foldl (fun u e => fputD 0 u (32 * e.1 + e.2) (v e.1 e.2)) m := by
    simp only [cells, List.foldl_flatMap, List.foldl_map]
  have hcell : 32 * i + j ∈ (cells.map fun e => 32 * e.1 + e.2) ↔ i < rows ∧ j < cols := by
    rw [List.mem_map]
    constructor
    · rintro ⟨e, he, heq⟩
      obtain ⟨h1, h2⟩ := (hmem e).mp he
      omega
    · exact fun h => ⟨(i, j), (hmem _).mpr h, rfl⟩
  rw [hfold, fgetD_foldl_fputD 0 _ _ (fun k => v (k / 32) (k % 32)) (32 * i + j) cells m, if_congr hcell rfl rfl]
  · rw [show (32 * i + j) / 32 = i by omega, show (32 * i + j) % 32 = j by omega]
  · intro e he
    obtain ⟨-, h2⟩ := (hmem e).mp he
    rw [show (32 * e.1 + e.2) / 32 = e.1 by omega, show (32 * e.1 + e.2) % 32 = e.2 by omega]

/-! ## Late traps (R186, R196, R412) -/

/-- R196: a poisoned operation that a path still owns purges the tag of its warp. -/
theorem lateTrap_purges {s t : State} {o : Op} {w : Warp} (ht : workKept s t) (hw : fget s.warps o.warp = some w)
    (hown : disowned o = false) (hk : w.kind = .kernel) : purgedFor s (lateTrap t o 0x120) o.warp w 0x120 := by
  have hw' : fget t.warps o.warp = some w := by rw [ht.1]; exact hw
  have heq : lateTrap t o 0x120 = purgeKey t w.fn w.reqtag 0x120 := by
    simp [lateTrap, hown, raiseTrap, defaultAction, hw', hk, sTrap]
  rw [heq]
  exact purgedFor_of_workKept _ ht hw hk

theorem workKept_dropOp (s : State) (id : Nat) : workKept s (dropOp s id) := ⟨rfl, rfl⟩

/-! ## ACC.ZERO (R167) -/

theorem accZeroRetire_eq {s : State} {id : Nat} {o : Op} {ks : List Nat} (ho : findOp s id = some o) (hb : o.body = .zero ks) :
    exec (.accZeroRetire id) s = if ks.all (bankReady s o) && !acquireBefore s o then
      .next (dropOp { s with banks := ks.foldl (fun t k => fmod t k fun b => { b with vals := [], pois := [] }) s.banks } id)
    else .next s := by
  simp only [exec_accZeroRetire, execAccZeroRetire, ho, hb]

/-! ## ACC.DRAIN (R168) -/

/-- R168: one row of a bank copied into its register. -/
def drainRow (b : Bank) (d : Drain) (w : Warp) (i : Nat) : Warp :=
  markWords (d.dst + i) (bankPois b (d.row0 + i) &&& d.mask) (vwrite w (d.dst + i) d.mask (bankRow b (d.row0 + i)) .f32)

/-- R168, R413: the register that a row is copied into, from what it held. -/
def drainedReg (b : Bank) (d : Drain) (i : Nat) (old : Option VReg) : VReg :=
  { tag := .f32,
    line := some { data := mergeLanes d.mask (bankRow b (d.row0 + i)) (old.elim zeroLanes fun r => r.line.elim zeroLanes (·.data)),
                   dirty := true },
    pois := (old.elim 0 (·.pois) &&& ~~~d.mask) ||| (bankPois b (d.row0 + i) &&& d.mask), slot := old.elim 0 (·.slot) }

theorem vread_eq_elim (w : Warp) (n : Nat) :
    vread w n = (fget w.regs n).elim zeroLanes fun r => r.line.elim zeroLanes (·.data) := by
  unfold vread
  cases fget w.regs n <;> rfl

theorem drainRow_regs (b : Bank) (d : Drain) (w : Warp) (i n : Nat) : fget (drainRow b d w i).regs n =
    if n = d.dst + i then some (drainedReg b d i (fget w.regs n)) else fget w.regs n := by
  by_cases hn : n = d.dst + i
  · subst hn
    simp only [drainRow, markWords, vwrite, fget_fmod, if_pos, fget_fput_same, Option.map_some, vread_eq_elim]
    rfl
  · simp only [drainRow, markWords, vwrite, fget_fmod, fget_fput, if_neg hn]

theorem drainRow_frame (b : Bank) (d : Drain) (w : Warp) (i : Nat) :
    drainRow b d w i = { w with regs := (drainRow b d w i).regs } := rfl

/-- R168: what the rows of a drain leave in each register. -/
theorem drainRows_regs (b : Bank) (d : Drain) (w : Warp) (n : Nat) : fget (drainRows b d w).regs n =
    if d.dst ≤ n ∧ n < d.dst + d.nrows then some (drainedReg b d (n - d.dst) (fget w.regs n)) else fget w.regs n := by
  have hrows (c : Nat) : fget ((List.range c).foldl (drainRow b d) w).regs n =
      if d.dst ≤ n ∧ n < d.dst + c then some (drainedReg b d (n - d.dst) (fget w.regs n)) else fget w.regs n := by
    induction c with
    | zero => rw [if_neg (by omega)]; rfl
    | succ c ih =>
      rw [List.range_succ, List.foldl_append, List.foldl_cons, List.foldl_nil, drainRow_regs, ih]
      by_cases hn : n = d.dst + c
      · rw [if_pos hn, if_neg (by omega), if_pos (by omega), show n - d.dst = c by omega]
      · rw [if_neg hn]
        exact if_congr (by omega) rfl rfl
  exact hrows d.nrows

theorem drainRows_frame (b : Bank) (d : Drain) (w : Warp) : { drainRows b d w with regs := w.regs } = w := by
  have hrows (l : List Nat) (v : Warp) : { l.foldl (drainRow b d) v with regs := w.regs } = { v with regs := w.regs } := by
    induction l generalizing v with
    | nil => rfl
    | cons i l ih =>
      rw [List.foldl_cons, ih, drainRow_frame]
  exact hrows _ w

/-- R413: the mark of one word. -/
theorem wordPoisoned_laneBit (w : Warp) (n : Nat) {l : Nat} (hl : l < 32) :
    wordPoisoned w n (laneBit l) = (fget w.regs n).elim false fun r => r.pois.getLsbD l := by
  unfold wordPoisoned
  cases fget w.regs n with
  | none => rfl
  | some r =>
    have hbit : r.pois &&& laneBit l ≠ 0 ↔ r.pois.getLsbD l = true := by
      constructor
      · intro h
        by_contra hp
        refine h (BitVec.eq_of_getLsbD_eq fun i hi => ?_)
        rw [BitVec.getLsbD_and, getLsbD_laneBit hl]
        by_cases hil : i = l
        · subst hil
          simp [hp]
        · simp [hil]
      · intro hp h
        have := congrArg (BitVec.getLsbD · l) h
        simp [BitVec.getLsbD_and, getLsbD_laneBit hl, hp] at this
    rw [Option.elim_some, Bool.eq_iff_iff, decide_eq_true_iff]
    exact hbit

/-- R412: the words of a row that lie in poisoned granules. -/
theorem bankPois_getLsbD (b : Bank) (r : Nat) {l : Nat} (hl : l < 32) :
    (bankPois b r).getLsbD l = b.pois.contains (2 * r + l / 16) := by
  have hlow : (0xFFFF : W32).getLsbD l = decide (l < 16) :=
    (by decide : ∀ l < 32, (0xFFFF : W32).getLsbD l = decide (l < 16)) l hl
  have hhigh : (0xFFFF0000 : W32).getLsbD l = decide (16 ≤ l) :=
    (by decide : ∀ l < 32, (0xFFFF0000 : W32).getLsbD l = decide (16 ≤ l)) l hl
  have hzero : (0 : W32).getLsbD l = false := BitVec.getLsbD_zero
  rw [bankPois, BitVec.getLsbD_or, apply_ite (BitVec.getLsbD · l), apply_ite (BitVec.getLsbD · l), hlow, hhigh, hzero]
  by_cases h : l < 16
  · rw [show l / 16 = 0 by omega]
    cases b.pois.contains (2 * r) <;> cases b.pois.contains (2 * r + 1) <;> simp [h]
  · rw [show l / 16 = 1 by omega]
    cases b.pois.contains (2 * r) <;> cases b.pois.contains (2 * r + 1) <;> simp [h, Nat.not_lt.mp h]

/-- R168: the tag and the words of the rows' registers, their marks, and the registers that the drain leaves. -/
theorem drainRows_reads (b : Bank) (d : Drain) (w : Warp) :
    (∀ i, i < d.nrows → vtag (drainRows b d w) (d.dst + i) = .f32 ∧ ∀ l, l < 32 →
      lane (vread (drainRows b d w) (d.dst + i)) l =
        if d.mask.getLsbD l then fgetD 0 b.vals (32 * (d.row0 + i) + l) else lane (vread w (d.dst + i)) l) ∧
    (∀ i l, i < d.nrows → l < 32 → wordPoisoned (drainRows b d w) (d.dst + i) (laneBit l) =
      if d.mask.getLsbD l then b.pois.contains (2 * (d.row0 + i) + l / 16)
      else wordPoisoned w (d.dst + i) (laneBit l)) := by
  have hreg {i : Nat} (hi : i < d.nrows) : fget (drainRows b d w).regs (d.dst + i) =
      some (drainedReg b d i (fget w.regs (d.dst + i))) := by
    rw [drainRows_regs, if_pos (by omega), show d.dst + i - d.dst = i by omega]
  refine ⟨fun i hi => ⟨by rw [vtag, hreg hi]; rfl, fun l hl => ?_⟩, fun i l hi hl => ?_⟩
  · rw [vread_eq_elim (drainRows b d w), hreg hi, Option.elim_some, drainedReg, Option.elim_some, lane_mergeLanes _ _ _ hl,
      bankRow, lane_mkLanes, if_pos hl, vread_eq_elim w]
  · rw [wordPoisoned_laneBit _ _ hl, wordPoisoned_laneBit _ _ hl, hreg hi, Option.elim_some, drainedReg, BitVec.getLsbD_or,
      BitVec.getLsbD_and, BitVec.getLsbD_and, BitVec.getLsbD_not, bankPois_getLsbD b _ hl]
    cases fget w.regs (d.dst + i) <;> cases d.mask.getLsbD l <;> simp [hl]

/-- R168: the bank that a drain leaves. -/
def drainedBank (b : Bank) (d : Drain) : Bank :=
  if d.zafter then { b with
    vals := b.vals.filter fun e => !(32 * d.row0 ≤ e.1 && e.1 < 32 * (d.row0 + d.nrows))
    pois := b.pois.filter fun g => !(2 * d.row0 ≤ g && g < 2 * (d.row0 + d.nrows)) } else b

theorem accDrainRetire_eq {s : State} {id k : Nat} {o : Op} {w : Warp} {d : Drain} {b : Bank} (ho : findOp s id = some o)
    (hw : fget s.warps o.warp = some w) (hb : o.body = .drain d k) (hk : fget s.banks k = some b) :
    exec (.accDrainRetire id) s = if !bankReady s o k || acquireBefore s o || drainMissing w d then .next s
    else .next (dropOp (putWarp { s with banks := fput s.banks k (drainedBank b d) } o.warp (drainRows b d w)) id) := by
  simp only [exec_accDrainRetire, execAccDrainRetire, ho, hb, hw, hk]
  rfl

/-! ## MMA (R172) -/

/-- R164: what has been read so far stays as it was read, and the rest is as it now stands. -/
theorem fget_foldl_latch {α : Type} (read : Nat → α) (l : List Nat) (seen : FMap α) (x : Nat) :
    fget (l.foldl (fun t i => if (fget t i).isSome then t else fput t i (read i)) seen) x =
      if x ∈ l ∧ fget seen x = none then some (read x) else fget seen x := by
  induction l generalizing seen with
  | nil => simp
  | cons a l ih =>
    have hone : fget (if (fget seen a).isSome then seen else fput seen a (read a)) x =
        if x = a ∧ fget seen x = none then some (read x) else fget seen x := by
      by_cases hx : x = a
      · subst hx
        cases h : fget seen x <;> simp [h]
      · rw [apply_ite (fget · x), fget_fput_other _ _ hx, ite_self, if_neg (fun h => hx h.1)]
    rw [List.foldl_cons, ih, hone]
    by_cases hx : x = a
    · subst hx
      cases h : fget seen x <;> simp
    · simp [hx]

/-- R172: a granule that group 0 of MMA.Z writes whole is no longer poisoned. -/
def wholeGranule (h : MmaShape) (z : Bool) (q g n : Nat) : Prop :=
  z = true ∧ g = 0 ∧ 32 * (q / h.nt) + n / 2 < h.m ∧ 32 * (q % h.nt) + 16 * (n % 2 + 1) ≤ h.n ∧ n / 2 < 32

theorem mem_stepBank_pois (seen : List Host.Cell) (h : MmaShape) (r : SeqRec) (q g : Nat) (b : Bank) (n : Nat) :
    n ∈ (stepBank seen h r q g b).pois ↔ n ∈ b.pois ∧ ¬wholeGranule h r.z q g n := by
  simp only [stepBank, List.mem_filter, wholeGranule]
  refine and_congr_right fun _ => ?_
  rw [Bool.not_eq_true', ← Bool.not_eq_true]
  refine not_congr ?_
  simp only [Bool.and_eq_true, decide_eq_true_eq]
  constructor
  · rintro ⟨⟨⟨hz, hg⟩, hrow⟩, hcol⟩
    exact ⟨hz, hg, by omega, by omega, by omega⟩
  · rintro ⟨hz, hg, hm, hn, hrow⟩
    exact ⟨⟨⟨hz, hg⟩, by omega⟩, by omega⟩

/-- R61, R172: each position of a step, where it lies within the result. -/
theorem fgetD_stepBank (seen : List Host.Cell) (h : MmaShape) (r : SeqRec) (q g : Nat) (b : Bank) {i j : Nat} (hi : i < 32)
    (hj : j < 32) : fgetD 0 (stepBank seen h r q g b).vals (32 * i + j) =
      if 32 * (q / h.nt) + i < h.m ∧ 32 * (q % h.nt) + j < h.n then
        mmaPos r.z g (fgetD 0 b.vals (32 * i + j)) (dotGroup seen h (matOp r.opa0 r.opa1) (matOp r.opb0 r.opb1)
          (fdesc r.fblk 0) (fdesc r.fblk 16) (32 * (q / h.nt) + i) (32 * (q % h.nt) + j) g)
      else fgetD 0 b.vals (32 * i + j) := by
  refine (fgetD_rectangle _ _ (Nat.min_le_left ..) hj).trans (if_congr ?_ rfl rfl)
  omega

section

variable {s : State} {id : Nat} {o : Op} {w : Warp} {r : SeqRec} {ks : List Nat} {q g k : Nat} {h : MmaShape}
  (ho : findOp s id = some o) (hw : fget s.warps o.warp = some w) (hb : o.body = .mma r ks) (hst : w.st ≠ .saved)
  (hh : mmaShape r.ctl = h) (hq : (r.step - 1) % (h.mt * h.nt) = q) (hg : (r.step - 1) / (h.mt * h.nt) = g)
  (hk : ks.getD q 0 = k)
include ho hw hb hst hh hq hg hk

/-- R172: a step of an MMA waits for its bank, or meets poison, or adds to its bank. -/
theorem mmaStep_eq : exec (.mmaStep id) s = .next (
    if !bankReady s o k || !spReady s o then s
    else if stepPoisoned (spPoison s o.block) r (stepBytes h r q g) then lateTrap (dropOp (countMacs s w r r.step) o.id) o 0x120
    else
      let seen := mmaLatch (spCells s o.block) r (stepBytes h r q g)
      let s1 := { s with
        banks := fmod s.banks k fun b => stepBank seen h r q g b
        blocks := fmod s.blocks o.block fun b => { b with seqs := ffilter b.seqs fun _ e => e.1 ≠ o.id } }
      if h.steps ≤ r.step then dropOp (countMacs s1 w r (r.step + 1)) o.id
      else setOp s1 o.id (.mma { r with step := r.step + 1, seen := seen } ks)) := by
  subst hh hq hg hk
  simp only [exec_mmaStep, execMmaStep, ho, hb, hw, if_neg hst]
  rfl

end

theorem countMacs_frame (s : State) (w : Warp) (r : SeqRec) (n : Nat) :
    countMacs s w r n = { s with parts := (countMacs s w r n).parts } := meterWarp_frame ..

/-! ## AMV (R175) -/

/-- R175: each output is added to its position. -/
theorem fgetD_amvBank (s : State) (r : Region) (t : Tile) (a : AmvOp) (xs : List Byte) (b : Bank) {j : Nat} (hj : j < 1024) :
    fgetD 0 (amvBank s r t a xs b).vals j = f32Of (sumNums 1 [f32Val (fgetD 0 b.vals j),
      f32Val (amvOut s.free t (tileCopy t a.copy) a.transposed xs (f32Val a.isc)
        (if a.transposed then f32Val 0x3F800000 else f32Val (fgetD 0 r.scales (1024 * (a.tile % 256) + j)))
        ((List.range 4).map fun m => zOf (tileCopy t a.copy) a.transposed xs (f32Val a.isc) m) j)]).1 := by
  simp only [amvBank]
  rw [fgetD_foldl_range _ _ _ hj]

theorem amvBank_frame (s : State) (r : Region) (t : Tile) (a : AmvOp) (xs : List Byte) (b : Bank) :
    { amvBank s r t a xs b with vals := b.vals } = b := by
  simp only [amvBank]

section

variable {s : State} {id k : Nat} {o : Op} {w : Warp} {a : AmvOp} {r : Region} {b : Bank} {t : Tile}
  (ho : findOp s id = some o) (hw : fget s.warps o.warp = some w) (hb : o.body = .amv a k)
  (hr : fget s.arrays.regions a.region = some r) (hk : fget s.banks k = some b) (ht : fget r.tiles a.tile = some t)
include ho hw hb hr hk ht

/-- R175, R282: an AMV waits for its bank, or meets poison, or adds its outputs. -/
theorem amvRetire_eq : exec (.amvRetire id) s =
    if !bankReady s o k || !spReady s o then .next s
    else if poisonedIn (spPoison s o.block) a.inOff 1024 || copyPoisoned s r t a then .next (lateTrap (dropOp s id) o 0x120)
    else .next (dropOp (meterWarp { s with
      banks := fput s.banks k (amvBank s r t a (amvInputs (spCells s o.block) a) b), free := s.free + 1024 } w
      (if a.transposed then 7 else 6) 1) id) := by
  simp only [exec_amvRetire, execAmvRetire, ho, hb, hw, hr, hk, ht]

end

end Sys2Proof.Machine

namespace Sys2Proof.Proofs

open Sys2Proof.Machine Sys2Proof.Claims

/-- Settles O36: each operation by what it waits for, and by what it does to its banks. -/
theorem bankEvents : Obligations.BankEvents := by
  unfold Obligations.BankEvents
  intro s id o w ho hw
  have hid := findOp_id ho
  refine ⟨fun ks hb => ⟨?_, ?_⟩, ?_, ?_, ?_⟩
  · intro hwait
    rw [waits, accZeroRetire_eq ho hb, if_neg]
    rintro hready
    rw [Bool.and_eq_true, List.all_eq_true, Bool.not_eq_true'] at hready
    rcases hwait with ⟨k, hk, hbusy⟩ | hacq
    · rw [hready.1 k hk] at hbusy
      cases hbusy
    · rw [hready.2] at hacq
      cases hacq
  · intro hready hacq
    refine ⟨_, (accZeroRetire_eq ho hb).trans (if_pos ?_), ⟨rfl, rfl⟩, rfl, fun k => ?_⟩
    · rw [hacq, Bool.and_eq_true]
      exact ⟨List.all_eq_true.mpr hready, rfl⟩
    · exact fget_foldl_fmod (f := fun b : Bank => { b with vals := [], pois := [] }) (fun _ => rfl) k ks s.banks
  · intro d k b hb hk within
    refine ⟨fun hwait => ?_, fun hready hacq hmiss => ?_⟩
    · rw [waits, accDrainRetire_eq ho hw hb hk]
      refine if_pos ?_
      rcases hwait with h | h | h <;> simp [h]
    refine ⟨_, (accDrainRetire_eq ho hw hb hk).trans (if_neg (by simp [hready, hacq, hmiss])), ⟨rfl, rfl⟩,
      fun j hj => fget_fput_other s.banks _ hj, ⟨drainedBank b d, fget_fput_same .., ?_, ?_, ?_⟩,
      drainRows b d w, fget_putWarp .., drainRows_frame b d w, (drainRows_reads b d w).1, (drainRows_reads b d w).2, ?_⟩
    · unfold drainedBank
      split <;> rfl
    · intro hz
      simp [drainedBank, hz]
    · intro hz
      rw [drainedBank, if_pos hz]
      refine ⟨fun p => ?_, fun n => ?_⟩
      · rw [fget_filter_key b.vals (fun p => !(32 * d.row0 ≤ p && p < 32 * (d.row0 + d.nrows)))]
        by_cases hp : within 32 p
        · rw [if_pos hp, if_neg (by simpa using hp)]
        · have hout : p < 32 * d.row0 ∨ 32 * (d.row0 + d.nrows) ≤ p := by
            simp only [within] at hp
            omega
          rw [if_neg hp, if_pos (by simpa using hout)]
      · rw [List.mem_filter]
        exact and_congr_right fun _ => by simp [within, imp_iff_not_or]
    · intro n hn
      rw [drainRows_regs, if_neg hn]
  · intro r ks b hb hst h nt tiles q g k steps bytes seen whole hk
    have hexec := mmaStep_eq ho hw hb hst (h := h) (q := q) (g := g) (k := k) rfl rfl rfl rfl
    refine ⟨fun hwait => ?_, fun hready hsp hpois hkind hown => ?_, fun hready hsp hclean => ?_⟩
    · rw [waits, hexec, if_pos (by rcases hwait with h | h <;> simp [h])]
    all_goals rw [if_neg (by simp [hready, hsp])] at hexec
    · rw [if_pos hpois] at hexec
      exact ⟨_, hexec, lateTrap_purges ((workKept_meterWarp ..).trans (workKept_dropOp ..)) hw hown hkind⟩
    rw [if_neg (Bool.eq_false_iff.mp hclean)] at hexec
    have hbank (j : Nat) (hj : j ≠ k) : fget (fmod s.banks k fun b => stepBank seen h r q g b) j = fget s.banks j :=
      (fget_fmod ..).trans (if_neg hj)
    have hstep : fget (fmod s.banks k fun b => stepBank seen h r q g b) k = some (stepBank seen h r q g b) :=
      (fget_fmod ..).trans ((if_pos rfl).trans (by rw [hk]; rfl))
    have hvals : { stepBank seen h r q g b with vals := b.vals, pois := b.pois } = b ∧
        (∀ n, n ∈ (stepBank seen h r q g b).pois ↔ n ∈ b.pois ∧ ¬whole n) ∧ ∀ i j, i < 32 → j < 32 →
        fgetD 0 (stepBank seen h r q g b).vals (32 * i + j) = _ :=
      ⟨rfl, mem_stepBank_pois seen h r q g b, fun i j hi hj => fgetD_stepBank seen h r q g b hi hj⟩
    have hlatch := fget_foldl_latch (rdByte (spCells s o.block)) bytes r.seen
    have hkept : ∀ x v, fget r.seen x = some v → fget seen x = some v := fun x v hx => by
      rw [show fget seen x = _ from hlatch x, hx]
      simp
    have hnew : ∀ x v, fget r.seen x = none → fget seen x = some v → v = rdByte (spCells s o.block) x := fun x v hx hv => by
      rw [show fget seen x = _ from hlatch x, hx] at hv
      split at hv
      · exact (Option.some.inj hv).symm
      · cases hv
    by_cases hlast : steps ≤ r.step
    · refine ⟨_, hexec.trans (congrArg Host.Outcome.next (if_pos hlast)), ?_⟩
      rw [countMacs_frame, hid]
      exact ⟨rfl, rfl, hbank, ⟨_, hstep, hvals⟩, fun _ => rfl, fun hlt => absurd hlt (Nat.not_lt.mpr hlast), hkept, hnew⟩
    · refine ⟨_, hexec.trans (congrArg Host.Outcome.next (if_neg hlast)), ?_⟩
      rw [hid]
      exact ⟨rfl, rfl, hbank, ⟨_, hstep, hvals⟩, fun hle => absurd hle hlast, fun _ => rfl, hkept, hnew⟩
  · intro a k r b t0 hb hr hk ht xs poisoned isc zs cs
    have hexec := amvRetire_eq ho hw hb hr hk ht
    refine ⟨fun hwait => ?_, fun hready hsp hpois hkind hown => ?_, fun hready hsp hclean => ?_⟩
    · rw [waits, hexec, if_pos (by rcases hwait with h | h <;> simp [h])]
    all_goals replace hexec := hexec.trans (if_neg (by simp [hready, hsp]))
    · exact ⟨_, hexec.trans (if_pos hpois), lateTrap_purges (workKept_dropOp s id) hw hown hkind⟩
    · have hxs : amvInputs (spCells s o.block) a = xs := rfl
      rw [hxs, meterWarp_frame] at hexec
      rw [if_neg (ne_true_of_eq_false hclean)] at hexec
      refine ⟨_, hexec, ⟨rfl, rfl⟩, rfl, fun j hj => fget_fput_other s.banks _ hj,
        amvBank s r t0 a xs b, fget_fput_same .., amvBank_frame s r t0 a xs b, fun j hj => ?_⟩
      simp only [zs, cs, isc]
      exact fgetD_amvBank s r t0 a xs b hj

end Sys2Proof.Proofs

/-! # The events of the shuttle and of collectives (O38) -/

namespace Sys2Proof.Machine

open Sys2Proof.Claims

/-! ## What an engine changes as it reads -/

/-- The state with other operations, warps and meters. -/
def retouched (s : State) (ops : List Op) (warps : FMap Warp) (parts : FMap Part) : State :=
  { s with ops := ops, warps := warps, parts := { s.parts with parts := parts } }

section Frame

variable (s : State) (ops : List Op) (warps : FMap Warp) (parts : FMap Part)

theorem tblLe_retouched : tblLe (retouched s ops warps parts) = tblLe s := rfl
theorem tblHere_retouched : tblHere (retouched s ops warps parts) = tblHere s := rfl
theorem ptagOf_retouched : ptagOf (retouched s ops warps parts) = ptagOf s := rfl
theorem readLeaf_retouched : readLeaf (retouched s ops warps parts) = readLeaf s := rfl
theorem tlbHit_retouched : tlbHit (retouched s ops warps parts) = tlbHit s := rfl
theorem leafBad_retouched : leafBad (retouched s ops warps parts) = leafBad s := rfl

theorem stage2_retouched : stage2 (retouched s ops warps parts) = stage2 s := by
  unfold stage2
  rw [tblLe_retouched, tblHere_retouched, leafBad_retouched]

theorem tableAddr_retouched : tableAddr (retouched s ops warps parts) = tableAddr s := by
  unfold tableAddr
  rw [stage2_retouched]

theorem leafChecks_retouched : leafChecks (retouched s ops warps parts) = leafChecks s := by
  unfold leafChecks
  rw [stage2_retouched, leafBad_retouched, ptagOf_retouched]

theorem findLeaf_retouched : findLeaf (retouched s ops warps parts) = findLeaf s := by
  unfold findLeaf
  rw [tableAddr_retouched, tblLe_retouched, tblHere_retouched]

/-- R340: translation does not look at them. -/
theorem translate_retouched : translate (retouched s ops warps parts) = translate s := by
  unfold translate walk
  rw [tlbHit_retouched, findLeaf_retouched, leafChecks_retouched, readLeaf_retouched]

theorem engineReq_retouched : engineReq (retouched s ops warps parts) = engineReq s := rfl

/-- R343: neither does the place of an element. -/
theorem locate_retouched : locate (retouched s ops warps parts) = locate s := by
  unfold locate
  rw [translate_retouched, engineReq_retouched]

end Frame

/-- Only the operations, the warps and the meters of the partitions differ. -/
def engineKept (s t : State) : Prop := ∃ ops warps parts, t = retouched s ops warps parts

theorem engineKept.refl (s : State) : engineKept s s := ⟨s.ops, s.warps, s.parts.parts, rfl⟩

theorem engineKept.trans {s t u : State} (h : engineKept s t) (h' : engineKept t u) : engineKept s u := by
  obtain ⟨_, _, _, rfl⟩ := h
  obtain ⟨ops, warps, parts, rfl⟩ := h'
  exact ⟨ops, warps, parts, rfl⟩

theorem engineKept.locate {s t : State} (h : engineKept s t) : locate t = locate s := by
  obtain ⟨_, _, _, rfl⟩ := h
  exact locate_retouched ..

theorem engineKept.fromCopy {s t : State} (h : engineKept s t) : fromCopy t = fromCopy s := by
  obtain ⟨_, _, _, rfl⟩ := h
  rfl

theorem engineKept.blocks {s t : State} (h : engineKept s t) : t.blocks = s.blocks := by
  obtain ⟨_, _, _, rfl⟩ := h
  rfl

theorem engineKept.cells {s t : State} (h : engineKept s t) (space : Space) (b : Nat) : cellsOf t space b = cellsOf s space b := by
  obtain ⟨_, _, _, rfl⟩ := h
  rfl

theorem engineKept_setItem (s : State) (id item : Nat) (f : ShOp → ShOp) : engineKept s (setItem s id item f) := ⟨_, _, _, rfl⟩

theorem engineKept_putWarp (s : State) (u : Nat) (w : Warp) : engineKept s (putWarp s u w) := ⟨_, _, _, rfl⟩

theorem engineKept_meterWarp (s : State) (w : Warp) (i n : Nat) : engineKept s (meterWarp s w i n) := by
  unfold meterWarp
  split
  · exact ⟨_, _, _, rfl⟩
  · exact engineKept.refl s

/-- R398: the bytes of an engine are counted in one meter, or in none. -/
theorem meterEngine_cases (s : State) (w : Warp) (r : TRec) :
    meterEngine s w r = s ∨ ∃ i n, meterEngine s w r = meterWarp s w i n := by
  unfold meterEngine
  split
  · exact .inl rfl
  · exact .inr ⟨_, _, rfl⟩
  · exact .inr ⟨_, _, rfl⟩

theorem engineKept_meterEngine (s : State) (w : Warp) (r : TRec) : engineKept s (meterEngine s w r) := by
  rcases meterEngine_cases s w r with h | ⟨i, n, h⟩ <;> rw [h]
  · exact engineKept.refl s
  · exact engineKept_meterWarp s w i n

@[simp] theorem meterEngine_ops (s : State) (w : Warp) (r : TRec) : (meterEngine s w r).ops = s.ops := by
  rcases meterEngine_cases s w r with h | ⟨i, n, h⟩ <;> rw [h]
  rw [meterWarp_frame]

@[simp] theorem meterEngine_warps (s : State) (w : Warp) (r : TRec) : (meterEngine s w r).warps = s.warps := by
  rcases meterEngine_cases s w r with h | ⟨i, n, h⟩ <;> rw [h]
  rw [meterWarp_frame]

/-! ## The items of a batch -/

/-- The operation with a number is a batch with an item. -/
def itemAt (s : State) (id item : Nat) (it : ShOp) : Prop :=
  ∃ o l, findOp s id = some o ∧ o.body = .batch l ∧ l[item]? = some it

theorem itemAt_of_ops {s t : State} {id item : Nat} {it : ShOp} (h : t.ops = s.ops) (hi : itemAt s id item it) :
    itemAt t id item it := by
  obtain ⟨o, l, ho, hrest⟩ := hi
  exact ⟨o, l, by rw [findOp, h]; exact ho, hrest⟩

/-- The operation with an item of its batch replaced. -/
def withItemSet (item : Nat) (f : ShOp → ShOp) (o : Op) : Op :=
  match o.body with
  | .batch l => { o with body := .batch (match l[item]? with | some i => l.set item (f i) | none => l) }
  | _ => o

theorem withItemSet_id (item : Nat) (f : ShOp → ShOp) (o : Op) : (withItemSet item f o).id = o.id := by
  unfold withItemSet
  split <;> rfl

theorem setItem_ops (s : State) (id item : Nat) (f : ShOp → ShOp) :
    (setItem s id item f).ops = s.ops.map fun o => if o.id = id then withItemSet item f o else o := rfl

theorem findOp_setItem {s : State} {id item : Nat} {f : ShOp → ShOp} {o : Op} (h : findOp s id = some o) :
    findOp (setItem s id item f) id = some (withItemSet item f o) := by
  have hsame : ((fun e : Op => decide (e.id = id)) ∘ fun e => if e.id = id then withItemSet item f e else e) =
      fun e => decide (e.id = id) := by
    funext e
    by_cases he : e.id = id
    · simp [he, withItemSet_id]
    · simp [he]
  have hfind : s.ops.find? (fun e => decide (e.id = id)) = some o := h
  rw [findOp, setItem_ops, List.find?_map, hsame, hfind, Option.map_some, if_pos (findOp_id h)]

theorem itemAt_setItem {s : State} {id item : Nat} {f : ShOp → ShOp} {it : ShOp} (h : itemAt s id item it) :
    itemAt (setItem s id item f) id item (f it) := by
  obtain ⟨o, l, ho, hb, hit⟩ := h
  have hlt : item < l.length := (List.getElem?_eq_some_iff.mp hit).1
  refine ⟨_, l.set item (f it), findOp_setItem ho, ?_, ?_⟩
  · simp only [withItemSet, hb, hit]
  · rw [List.getElem?_set_self hlt]

/-! ## Bytes read once (R164) -/

theorem fget_latchSp (s : State) (o : Op) (seen : FMap (Byte × Bool)) (a n x : Nat) : fget (latchSp s o seen a n) x =
    if x ∈ (List.range n).map (a + ·) ∧ fget seen x = none
    then some (rdByte (spCells s o.block) x, poisonedIn (spPoison s o.block) x 1) else fget seen x :=
  fget_foldl_latch (fun i => (rdByte (spCells s o.block) i, poisonedIn (spPoison s o.block) i 1)) _ seen x

/-- The bytes that have been read are as they now stand. -/
def seenSound (m : List Host.Cell) (seen : FMap (Byte × Bool)) (a n : Nat) : Prop :=
  ∀ i, i < n → ∀ x, fget seen (a + i) = some x → x.1 = rdByte m (a + i)

theorem seenSound_of_unread {m : List Host.Cell} {seen : FMap (Byte × Bool)} {a n : Nat}
    (h : ∀ i, i < n → fget seen (a + i) = none) : seenSound m seen a n := by
  intro i hi x hx
  rw [h i hi] at hx
  cases hx

theorem seenSound_latchSp {s : State} {o : Op} {seen : FMap (Byte × Bool)} {a n : Nat} (b c : Nat)
    (h : seenSound (spCells s o.block) seen a n) : seenSound (spCells s o.block) (latchSp s o seen b c) a n := by
  intro i hi x hx
  rw [fget_latchSp] at hx
  split at hx
  · cases hx
    rfl
  · exact h i hi x hx

/-- R164: what bytes read once make, where those read before are as they now stand. -/
theorem seenLe_latchSp {s : State} {o : Op} {seen : FMap (Byte × Bool)} {a n : Nat} (h : seenSound (spCells s o.block) seen a n) :
    (seenLe (latchSp s o seen a n) a n).1 = rdLe (spCells s o.block) a n := by
  rw [seenLe, rdLe, rdBytes_eq_map, List.map_map]
  refine congrArg leNat (List.map_congr_left fun i hi => ?_)
  have hi' := List.mem_range.mp hi
  have hmem : a + i ∈ (List.range n).map (a + ·) := List.mem_map_of_mem hi
  rw [Function.comp_apply, fgetD, fget_latchSp]
  cases hx : fget seen (a + i) with
  | none => simp [hmem]
  | some x => simpa using h i hi' x hx

/-! ## The index of a row (R180) -/

/-- R180: the item whose row has begun, with its index. -/
def rowBegun (s : State) (o : Op) (it : ShOp) (row : Nat) : ShOp :=
  { it with seen := latchSp s o it.seen (it.start + 4 * row) 4, rows := row + 1,
            value := n64 (seenLe (latchSp s o it.seen (it.start + 4 * row) 4) (it.start + 4 * row) 4).1 }

theorem rowBegun_value {s : State} {o : Op} {it : ShOp} {row : Nat}
    (h : seenSound (spCells s o.block) it.seen (it.start + 4 * row) 4) :
    (rowBegun s o it row).value.toNat = rdLe (spCells s o.block) (it.start + 4 * row) 4 := by
  have hlt := rdLe_lt (spCells s o.block) (it.start + 4 * row) 4
  rw [rowBegun, seenLe_latchSp h, n64, BitVec.toNat_ofNat, Nat.mod_eq_of_lt (by omega)]

theorem readIndex_read {s : State} {o : Op} {item n : Nat} {it : ShOp}
    (h : it.kind ≠ .gather ∨ n / recInner it.dst < it.rows) : readIndex s o item it n = (s, it) := by
  unfold readIndex
  exact if_pos (by rcases h with h | h <;> simp [h])

theorem readIndex_begins {s : State} {o : Op} {item n : Nat} {it : ShOp} (hk : it.kind = .gather)
    (h : it.rows ≤ n / recInner it.dst) : readIndex s o item it n =
      let it1 := rowBegun s o it (n / recInner it.dst)
      let s1 := setItem s o.id item fun _ => it1
      (if recOuter it.src ≤ it1.value.toNat then lateTrap s1 o 0xD3 else s1, it1) := by
  unfold readIndex
  exact if_neg (by simp [hk, h])

/-! ## The source of an element (R180, R249) -/

/-- The space of a record of this module. -/
def engineSpace (r : TRec) : Space := if r.space = 0 then .sp else .dm

/-- An element's value has been taken: only the operations, the warps and the meters differ, and the item stands where it
stood. -/
structure Taken (s : State) (id item : Nat) (it : ShOp) (u : State) : Prop where
  kept : engineKept s u
  item : ∃ i, itemAt u id item i ∧ i.done = it.done ∧ i.total = it.total

theorem Taken.refl {s : State} {id item : Nat} {it : ShOp} (h : itemAt s id item it) : Taken s id item it s :=
  ⟨engineKept.refl s, it, h, rfl, rfl⟩

theorem takeElem_const {s t : State} {o : Op} {w : Warp} {item n v : Nat} {it it1 : ShOp}
    (hread : readIndex s o item it n = (t, it1)) (hsrc : elemSrc it1 n = .const v) :
    takeElem s o w item it n = .val t v false := by
  simp only [takeElem, hread, hsrc]

theorem takeElem_zero {s t : State} {o : Op} {w : Warp} {item n : Nat} {it it1 : ShOp}
    (hread : readIndex s o item it n = (t, it1)) (hsrc : elemSrc it1 n = .zero) :
    takeElem s o w item it n = .val t 0 false := by
  simp only [takeElem, hread, hsrc]

/-- R180, R249: an element of this module's storage is taken from its place. -/
theorem takeElem_home {s t : State} {o : Op} {w : Warp} {item n va a : Nat} {it it1 : ShOp}
    (hread : readIndex s o item it n = (t, it1)) (hsrc : elemSrc it1 n = .va va) (ht : Taken s o.id item it t)
    (hloc : locate s w (engineOp o.id item) it.user it.skip .read it.src va = .home a)
    (hseen : it.src.space = 0 → seenSound (spCells s o.block) it1.seen a (recSize it.src))
    (hhere : it.src.space = 0 ∨ isLocal a = true) :
    ∃ u p, takeElem s o w item it n = .val u (rdLe (cellsOf s (engineSpace it.src) o.block)
      (if it.src.space = 0 then a else fromCopy s w.die a) (recSize it.src)) p ∧ Taken s o.id item it u := by
  obtain ⟨hkept, i, hi, hdone, htotal⟩ := ht
  rw [← hkept.locate] at hloc
  rw [← hkept.cells, ← hkept.fromCopy]
  by_cases hsp : it.src.space = 0
  · have hcells : spCells s o.block = spCells t o.block := (hkept.cells .sp o.block).symm
    rw [hcells] at hseen
    refine ⟨setItem t o.id item fun i => { i with seen := latchSp t o it1.seen a (recSize it.src) },
      (seenLe (latchSp t o it1.seen a (recSize it.src)) a (recSize it.src)).2, ?_,
      hkept.trans (engineKept_setItem ..), _, itemAt_setItem hi, hdone, htotal⟩
    simp only [takeElem, hread, hsrc, hloc, if_pos hsp, engineSpace, cellsOf, if_true, seenLe_latchSp (hseen hsp)]
  · have hl : isLocal a = true := hhere.resolve_left hsp
    refine ⟨meterEngine t w it.src, poisonedIn (poisOf t .dm o.block) (fromCopy t w.die a) (recSize it.src), ?_,
      hkept.trans (engineKept_meterEngine t w it.src), i, itemAt_of_ops (meterEngine_ops t w it.src) hi, hdone, htotal⟩
    simp only [takeElem, hread, hsrc, hloc, if_neg hsp, readElem, hl, Bool.or_true, if_true, engineSpace]

/-! ## The element written (R152, R180) -/

theorem stored_meterEngine (s : State) (w : Warp) (r : TRec) (space : Space) (b : Nat) :
    Stored s (meterEngine s w r) space b (cellsOf s space b) := by
  obtain ⟨_, _, _, h⟩ := engineKept_meterEngine s w r
  have hops := meterEngine_ops s w r
  have hwarps := meterEngine_warps s w r
  rw [h] at hops hwarps ⊢
  exact ⟨hops, hwarps, rfl, fun _ => rfl, fun _ _ => rfl, fun _ => rfl⟩

/-- R152: what has been written of a granule changes no byte. -/
theorem coverElem_eq (s : State) (o : Op) (item : Nat) (it : ShOp) (space : Space) (a size : Nat) (pois : Bool) :
    ∃ (p : List Nat) (f : FMap Nat → FMap Nat), coverElem s o item it space a size pois =
      setItem (setCells s space o.block (cellsOf s space o.block) p) o.id item fun i => { i with cover := f i.cover } :=
  ⟨_, fun c => fput c (granule a) (coverAfter it a size pois), rfl⟩

/-- R180: an element of this module is written at its place, and counted. -/
theorem writeElem_eq {s : State} {o : Op} {w : Warp} {item b v : Nat} {it : ShOp} {p : Bool}
    (hhere : it.dst.space = 0 ∨ isLocal b = true) : writeElem s o w item it b v p =
      coverElem (meterEngine (setCells s (engineSpace it.dst) o.block
        (wrLe (cellsOf s (engineSpace it.dst) o.block) b (recSize it.dst) v) (poisOf s (engineSpace it.dst) o.block)) w it.dst)
        o item it (engineSpace it.dst) b (recSize it.dst) p :=
  if_pos (by simpa using hhere)

/-- An element that is written here: its bytes are at its place, and its item stands where it stood. -/
theorem writeElem_here {s : State} {o : Op} {w : Warp} {item b v : Nat} {it i : ShOp} {p : Bool}
    (hhere : it.dst.space = 0 ∨ isLocal b = true) (hblock : it.dst.space = 0 → (fget s.blocks o.block).isSome = true)
    (hi : itemAt s o.id item i) :
    cellsOf (writeElem s o w item it b v p) (engineSpace it.dst) o.block =
      wrLe (cellsOf s (engineSpace it.dst) o.block) b (recSize it.dst) v ∧
    (writeElem s o w item it b v p).warps = s.warps ∧
    ∃ i', itemAt (writeElem s o w item it b v p) o.id item i' ∧ i'.done = i.done ∧ i'.total = i.total := by
  have hb : engineSpace it.dst = .sp → (fget s.blocks o.block).isSome = true := fun h => by
    by_cases hsp : it.dst.space = 0
    · exact hblock hsp
    · rw [engineSpace, if_neg hsp] at h
      cases h
  have hwrite := stored_setCells (wrLe (cellsOf s (engineSpace it.dst) o.block) b (recSize it.dst) v)
    (poisOf s (engineSpace it.dst) o.block) hb
  have hmeter := hwrite.trans (stored_meterEngine _ w it.dst _ _)
  rw [hwrite.cells] at hmeter
  have heq := writeElem_eq (s := s) (o := o) (w := w) (item := item) (v := v) (p := p) hhere
  generalize meterEngine _ w it.dst = u at hmeter heq
  obtain ⟨n, f, hcover⟩ := coverElem_eq u o item it (engineSpace it.dst) b (recSize it.dst) p
  have hclean := hmeter.trans (stored_setCells (cellsOf u (engineSpace it.dst) o.block) n fun h => (hmeter.block h).trans (hb h))
  rw [heq, hcover]
  exact ⟨hclean.cells.trans hmeter.cells, hclean.warps, _, itemAt_setItem (itemAt_of_ops hclean.ops hi), rfl, rfl⟩

/-! ## One transfer (R180, R393) -/

/-- R393: the engine may move the next element of an item to place b of this module. -/
structure MayMove (s : State) (id item : Nat) (o : Op) (w : Warp) (it : ShOp) (b : Nat) : Prop where
  op : findOp s id = some o
  warp : fget s.warps o.warp = some w
  body : ∃ l, o.body = .batch l ∧ l[item]? = some it
  stall : it.stall = false
  left : it.done < it.total
  whole : it.whole = false
  engine : engineBusy s w id item = false
  out : it.obuf = []
  bound : unbound s w it = false
  place : locate (engineBegin s w id item) w (engineOp id item) it.user it.skip .write it.dst (elemVa it.dst it.done) = .home b
  here : it.dst.space = 0 ∨ isLocal b = true
  block : it.dst.space = 0 → (fget s.blocks o.block).isSome = true
  ordered : shOrdered s o it = true

namespace MayMove

variable {s : State} {id item : Nat} {o : Op} {w : Warp} {it : ShOp} {b : Nat} (h : MayMove s id item o w it b)
include h

theorem itemAt : itemAt s id item it := by
  obtain ⟨l, hb, hit⟩ := h.body
  exact ⟨o, l, h.op, hb, hit⟩

/-- R393: the step of a transfer is that of its element. -/
theorem exec_eq : exec (.shuttleTransfer id item 1) s = .next (moveElem (engineBegin s w id item) o w item it) := by
  obtain ⟨l, hb, hit⟩ := h.body
  have hwith (k : Op → Warp → ShOp → State) : withItem s id item k = k o w it := by
    simp only [withItem, h.op, hb, h.warp, hit, Option.elim_some]
  have hready : readyGran it = none := by rw [readyGran, h.out]; rfl
  have hid := findOp_id h.op
  rw [exec_shuttleTransfer, execShuttleTransfer, hwith, h.bound, Bool.and_false, if_neg Bool.false_ne_true, runElems, runElems,
    hwith, stepElem, hid, h.stall, h.engine, h.ordered]
  simp only [Bool.not_true, Bool.or_self, Bool.false_eq_true, if_false, hready, if_neg (Nat.not_le.mpr h.left), h.whole,
    Bool.false_and]

/-- R180: an element whose value has been taken is written at its place, and the item steps on. -/
theorem moves {u : State} {v : Nat} {p : Bool}
    (htake : takeElem (engineBegin s w id item) o w item it it.done = .val u v p)
    (hu : Taken (engineBegin s w id item) id item it u) :
    ∃ t, exec (.shuttleTransfer id item 1) s = .next t ∧
      cellsOf t (engineSpace it.dst) o.block = wrLe (cellsOf s (engineSpace it.dst) o.block) b (recSize it.dst) v ∧
      t.warps = u.warps ∧ ∃ i, Machine.itemAt t id item i ∧ i.done = it.done + 1 ∧ i.total = it.total := by
  obtain ⟨hkept, i, hi, hdone, htotal⟩ := hu
  have hid := findOp_id h.op
  have hplace : placeElem u o w item it it.done v p = .ok (writeElem u o w item it b v p) := by
    simp only [placeElem, hkept.locate, hid, h.place]
  have hblock : it.dst.space = 0 → (fget u.blocks o.block).isSome = true := by
    rw [hkept.blocks]
    exact h.block
  rw [← hid] at hi
  obtain ⟨hcells, hwarps, i', hi', hdone', htotal'⟩ := writeElem_here (w := w) (v := v) (p := p) h.here hblock hi
  have hnext : Machine.itemAt (nextElem (writeElem u o w item it b v p) o item) o.id item { i' with done := i'.done + 1 } :=
    itemAt_setItem hi'
  rw [hid] at hnext
  refine ⟨nextElem (writeElem u o w item it b v p) o item, ?_, ?_, hwarps, _, hnext,
    congrArg (· + 1) (hdone'.trans hdone), htotal'.trans htotal⟩
  · simp only [h.exec_eq, moveElem, h.whole, Bool.false_eq_true, if_false, htake, hplace]
  · exact hcells.trans (by rw [hkept.cells]; rfl)

end MayMove

/-! ## The index of a row that begins (R164, R180, R196) -/

/-- R180: the source of a row whose index is in range, or out of range. -/
theorem elemSrc_row {it : ShOp} {n index : Nat} (hk : it.kind = .gather) (hv : it.value.toNat = index) :
    elemSrc it n = if recOuter it.src ≤ index then .zero
      else .va (elemVa it.src (index * recInner it.src + n % recInner it.dst)) := by
  rw [elemSrc, hk]
  simp only [hv]

theorem elemSrc_rowBegun {s : State} {o : Op} {it : ShOp} {row n index : Nat} (hk : it.kind = .gather)
    (hv : (rowBegun s o it row).value.toNat = index) :
    elemSrc (rowBegun s o it row) n = if recOuter it.src ≤ index then .zero
      else .va (elemVa it.src (index * recInner it.src + n % recInner it.dst)) :=
  elemSrc_row (it := rowBegun s o it row) hk hv

theorem taken_rowBegun {s : State} {id item : Nat} {o : Op} {it : ShOp} (row : Nat) (h : itemAt s id item it) :
    Taken s id item it (setItem s id item fun _ => rowBegun s o it row) :=
  ⟨engineKept_setItem .., rowBegun s o it row, itemAt_setItem h, rfl, rfl⟩

/-- R192: a trap that cannot enter yet waits on its path. -/
theorem enterTrap_waits {s : State} {u : Nat} {pf : Bool} {w : Warp} (t : Trap) (hw : fget s.warps u = some w)
    (hwait : trapWaits w pf = true) (hpriv : (w.path pf).priv = 0) :
    enterTrap s u pf t = putWarp s u (w.setPath pf ((w.path pf).queueTrap (delivered (w.path pf) t))) := by
  unfold enterTrap
  rw [hw]
  by_cases hheld : trapsHeld w = true
  · exact if_pos hheld
  · exact (if_neg hheld).trans ((if_neg (not_not_intro hpriv)).trans (if_pos hwait))

/-- R180, R192: 13.3 of a row is pending on a path whose traps wait. -/
theorem lateTrap_pends {s : State} {o : Op} {w : Warp} (hw : fget s.warps o.warp = some w) (hown : disowned o = false)
    (hwait : trapWaits w (opPath o) = true) (hpriv : (w.path (opPath o)).priv = 0)
    (hpend : (w.path (opPath o)).pend = none) : lateTrap s o 0xD3 = putWarp s o.warp (w.setPath (opPath o)
      { w.path (opPath o) with pend := some { sTrap (w.path (opPath o)) 0xD3 with impr := true } }) := by
  have hraise : lateTrap s o 0xD3 = enterTrap s o.warp (opPath o) { sTrap (w.path (opPath o)) 0xD3 with impr := true } := by
    simp [lateTrap, hw, hown, raiseTrap, sTrap]
  rw [hraise, enterTrap_waits _ hw hwait hpriv, Path.queueTrap, hpend]
  rfl

/-! ## The end of a batch (R179, R362) -/

theorem lowerEntry_frame (s : State) (o : Op) : lowerEntry s o = { s with blocks := (lowerEntry s o).blocks } := by
  unfold lowerEntry
  split <;> rfl

/-- R362: what a batch or collective leaves behind is its place in the list of operations, and the count of a saved block. -/
theorem opLeft_dropBatch {s : State} {id : Nat} {o : Op} (ho : findOp s id = some o) :
    opLeft s (dropBatch s o) id ∧ (dropBatch s o).warps = s.warps := by
  rw [dropBatch, lowerEntry_frame, findOp_id ho]
  exact ⟨⟨rfl, rfl⟩, rfl⟩

theorem spCells_lowerEntry (s : State) (o : Op) (b : Nat) : spCells (lowerEntry s o) b = spCells s b := by
  unfold lowerEntry
  split
  · rfl
  · next w _ =>
    rw [spCells, fget_fmod]
    split
    · next hb =>
      rw [hb, spCells]
      cases fget s.blocks w.block <;> rfl
    · rfl

theorem spCells_finishBatch (s : State) (id b : Nat) : spCells (finishBatch s id) b = spCells s b := by
  unfold finishBatch
  split
  · rfl
  · next o _ =>
    rw [apply_ite (spCells · b)]
    exact (if_congr Iff.rfl (spCells_lowerEntry s o b) rfl).trans (ite_self _)

theorem finishBatch_batch {s : State} {id : Nat} {o : Op} {l : List ShOp} (ho : findOp s id = some o) (hb : o.body = .batch l)
    (hlater : laterBatch s o = false) (hout : writesOut s id = false) :
    finishBatch s id = if l.all fun i => i.total ≤ i.done && i.obuf.isEmpty then dropBatch s o else s := by
  simp only [finishBatch, ho, hb, batchWritten, hout, hlater, Bool.not_false, Bool.and_true]

theorem finishBatch_coll {s : State} {id : Nat} {o : Op} {c : CollOp} (ho : findOp s id = some o) (hb : o.body = .coll c)
    (hlater : laterBatch s o = false) (hwritten : collWritten s o c = true) : finishBatch s id = dropBatch s o := by
  simp only [finishBatch, ho, hb, hwritten, hlater, Bool.not_false, Bool.and_true, if_true]

/-! ## A collective of one member (R184, R185) -/

/-- The elements of a source in scratchpad, each with its poison. -/
theorem readSource_scratch {s : State} {m : Member} (h : m.c.src.space = 0) (n : Nat) :
    readSource s m n = .ok ((List.range n).map fun i => some (rdLe (spCells s m.o.block) (elemVa m.c.src i) (recSize m.c.src),
      poisonedIn (spPoison s m.o.block) (elemVa m.c.src i) (recSize m.c.src))) := by
  induction n with
  | zero => rfl
  | succ n ih =>
    simp only [readSource, ih, locate, readElem, h, decide_true, Bool.true_or, if_true, cellsOf, poisOf, List.range_succ,
      List.map_append, List.map_cons, List.map_nil]

theorem placesOf_scratch {s : State} {m : Member} (h : m.c.dst.space = 0) (n : Nat) :
    placesOf s m n = .ok ((List.range n).map fun i => some (elemVa m.c.dst i)) := by
  induction n with
  | zero => rfl
  | succ n ih =>
    simp only [placesOf, ih, locate, h, if_true, List.range_succ, List.map_append, List.map_cons, List.map_nil]

theorem farPlaces_scratch {r : TRec} (h : r.space = 0) (l : List (Option Nat)) : farPlaces r l = 0 := by
  simp [farPlaces, h]

/-- R185: an element of a destination in scratchpad. -/
theorem stored_collWrite {s : State} {m : Member} (h : m.c.dst.space = 0) (hb : (fget s.blocks m.o.block).isSome = true)
    (a : Nat) (v : Nat × Bool) : Stored s (collWrite s m a v) .sp m.o.block
      (wrLe (spCells s m.o.block) a (recSize m.c.dst) v.1) := by
  have hmeter : meterEngine s m.w m.c.dst = s := by simp only [meterEngine, h]
  have heq : ∃ p, collWrite s m a v = setCells s .sp m.o.block (wrLe (spCells s m.o.block) a (recSize m.c.dst) v.1) p := by
    refine ⟨if v.2 then addPois (spPoison s m.o.block) (granule a) else spPoison s m.o.block, ?_⟩
    simp only [collWrite, hmeter, h, decide_true, Bool.true_or, if_true, cellsOf, poisOf]
  obtain ⟨p, hp⟩ := heq
  rw [hp]
  exact stored_setCells _ p fun _ => hb

/-- R185: a destination in scratchpad written whole. -/
theorem stored_collStore {s : State} {m : Member} (n k : Nat) (src : FMap (List (Option (Nat × Bool)))) (h : m.c.dst.space = 0)
    (hb : (fget s.blocks m.o.block).isSome = true) :
    Stored s (collStore n src s m ((List.range k).map fun i => some (elemVa m.c.dst i))) .sp m.o.block
      ((List.range k).foldl (fun c i => (collElem m.c (wmodeRepro m.w.wmode) (s.free + 1024 * i) n m.c.rank i src).elim c fun v =>
        wrLe c (elemVa m.c.dst i) (recSize m.c.dst) v.1) (spCells s m.o.block)) := by
  have hclear (l : List Nat) : Stored s (collClear s m l) .sp m.o.block (spCells s m.o.block) := by
    rw [collClear]
    simp only [h, if_true]
    exact stored_setCells _ _ fun _ => hb
  rw [collStore, List.length_map, List.length_range]
  generalize (List.range k).filterMap _ = cleared
  have hfold := stored_foldl (s := collClear s m cleared) (space := .sp) (b := m.o.block) (l := List.range k)
    (f := fun t i => match collElem m.c (wmodeRepro m.w.wmode) (s.free + 1024 * i) n m.c.rank i src,
        ((List.range k).map fun i => some (elemVa m.c.dst i)).getD i none with
      | none, _ => t
      | some v, some a => collWrite t m a v
      | some v, none => collAway t m i v)
    (g := fun c i => (collElem m.c (wmodeRepro m.w.wmode) (s.free + 1024 * i) n m.c.rank i src).elim c fun v =>
      wrLe c (elemVa m.c.dst i) (recSize m.c.dst) v.1) (fun hsp => ((hclear cleared).block hsp).trans hb) ?_
  · rw [(hclear cleared).cells] at hfold
    exact (hclear cleared).trans hfold
  · intro t i hi ht
    have hplace : ((List.range k).map fun i => some (elemVa m.c.dst i)).getD i none = some (elemVa m.c.dst i) := by
      simp [List.getD, List.mem_range.mp hi]
    simp only [hplace]
    cases collElem m.c (wmodeRepro m.w.wmode) (s.free + 1024 * i) n m.c.rank i src with
    | none => exact Stored.refl t .sp m.o.block
    | some v => exact stored_collWrite h (ht rfl) (elemVa m.c.dst i) v

theorem spCells_collEnd (s : State) (ms : List Member) (b : Nat) : spCells (collEnd s ms) b = spCells s b := by
  have hfold (l : List Nat) (t : State) : spCells (l.foldl finishBatch t) b = spCells t b := by
    induction l generalizing t with
    | nil => rfl
    | cons i l ih => rw [List.foldl_cons, ih, spCells_finishBatch]
  exact hfold _ _

section

variable {s : State} {id : Nat} {o : Op} {c : CollOp} {w : Warp}

/-- R184: the source of the one member of a collective, by its rank. -/
def aloneSource (s : State) (o : Op) (c : CollOp) : FMap (List (Option (Nat × Bool))) :=
  [(0, (List.range (recCount c.src)).map fun i => some (rdLe (spCells s o.block) (elemVa c.src i) (recSize c.src),
    poisonedIn (spPoison s o.block) (elemVa c.src i) (recSize c.src)))]

theorem readSources_alone (hstall : c.stall = false) (hrank : c.rank = 0) (hsrc : c.src.space = 0) :
    readSources s [⟨o, c, w⟩] = .ok (aloneSource s o c) := by
  simp only [readSources, hstall, Bool.false_eq_true, if_false, readSource_scratch (s := s) (m := ⟨o, c, w⟩) hsrc, hrank]
  rfl

theorem placesAll_alone (hdst : c.dst.space = 0) : placesAll s [⟨o, c, w⟩] =
    .ok [(⟨o, c, w⟩, (List.range (recCount c.dst)).map fun i => some (elemVa c.dst i))] := by
  simp only [placesAll, placesOf_scratch (s := s) (m := ⟨o, c, w⟩) hdst]

theorem collWhole_alone (hrank : c.rank = 0) : collWhole 1 [⟨o, c, w⟩] [] = true := by simp [collWhole, hrank]

theorem collAgree_alone : collAgree c [⟨o, c, w⟩] [] = true := by simp [collAgree]

theorem meterSource_scratch (l : List (Option (Nat × Bool))) (hsrc : c.src.space = 0) (hpod : otherPod c.src = none) :
    meterSource s ⟨o, c, w⟩ l = s := by
  simp [meterSource, hsrc, hpod]

/-- R185: a collective of a group of one, between records in scratchpad. -/
theorem collComplete_alone {g : Nat × Nat} (ho : findOp s id = some o) (hw : fget s.warps o.warp = some w)
    (hb : o.body = .coll c) (hwrote : c.wrote = false) (hstall : c.stall = false) (hrank : c.rank = 0)
    (hdst : c.dst.space = 0) (hsrc : c.src.space = 0) (hpd : otherPod c.dst = none) (hps : otherPod c.src = none)
    (hm : members s (partOf s w.fn) c = [⟨o, c, w⟩]) (hbusy : collBusy s [⟨o, c, w⟩] = false)
    (hg : groupOf s (partOf s w.fn) c.group = some [g]) (hroom : s.fabric.bobbin.length ≤ bobbinSize) :
    ∃ n, exec (.collComplete id []) s = .next (collEnd { collStore 1 (aloneSource s o c) (engineBegin s w o.id 0) ⟨o, c, w⟩
      ((List.range (recCount c.dst)).map fun i => some (elemVa c.dst i)) with free := n } [⟨o, c, w⟩]) := by
  have hfull : ¬bobbinSize < s.fabric.bobbin.length := Nat.not_lt.mpr hroom
  have hbound (t : State) : collUnbound t ⟨o, c, w⟩ = false := by simp [collUnbound, hpd, hps]
  refine ⟨(collStore 1 (aloneSource s o c) (engineBegin s w o.id 0) ⟨o, c, w⟩
    ((List.range (recCount c.dst)).map fun i => some (elemVa c.dst i))).free + 2 ^ 20, ?_⟩
  simp only [exec_collComplete, execCollComplete, ho, hb, hw, hwrote, hm, hg, List.length_singleton, collWhole_alone hrank,
    collAgree_alone, hbusy, List.foldl_cons, List.foldl_nil, readSources_alone hstall hrank hsrc, placesAll_alone hdst,
    farPlaces_scratch hdst, List.map_cons, List.map_nil, Nat.add_zero, if_neg hfull, meterSource_scratch _ hsrc hps, hbound,
    Bool.not_true, Bool.false_eq_true, if_false]
  rfl

end

/-! ## The course of a transfer (R180) -/

/-- R180: element value v lies at its place b, and its item is one element further. -/
def movedTo (s : State) (id item : Nat) (o : Op) (it : ShOp) (b v : Nat) (t : State) : Prop :=
  cellsOf t (engineSpace it.dst) o.block = wrLe (cellsOf s (engineSpace it.dst) o.block) b (recSize it.dst) v ∧
    ∃ o' l' it', findOp t id = some o' ∧ o'.body = .batch l' ∧ l'[item]? = some it' ∧ it'.done = it.done + 1 ∧
      it'.total = it.total

/-- R164: bytes that an item has not read. -/
def unreadBytes (it : ShOp) (a n : Nat) : Prop := ∀ k, k < n → fget it.seen (a + k) = none

/-- R180: source element n goes to place b. -/
def takesFrom (s : State) (id item : Nat) (o : Op) (w : Warp) (it : ShOp) (b n : Nat) : Prop :=
  ∀ a, locate (engineBegin s w id item) w (engineOp id item) it.user it.skip .read it.src (elemVa it.src n) = .home a →
    (it.src.space = 0 → unreadBytes it a (recSize it.src)) → (it.src.space = 0 ∨ isLocal a = true) →
    runs (.shuttleTransfer id item 1) s (movedTo s id item o it b (rdLe (cellsOf s (engineSpace it.src) o.block)
      (if it.src.space = 0 then a else fromCopy s w.die a) (recSize it.src)))

/-- R180: the row of the next element of an item. -/
def itemRow (it : ShOp) : Nat := it.done / recInner it.dst

/-- R180: the index of that row. -/
def itemIndex (s : State) (o : Op) (it : ShOp) : Nat :=
  if it.rows ≤ itemRow it then rdLe (spCells s o.block) (it.start + 4 * itemRow it) 4 else it.value.toNat

/-- R180: that row begins, and its index has not been read. -/
def rowBegins (it : ShOp) : Prop := it.rows ≤ itemRow it ∧ unreadBytes it (it.start + 4 * itemRow it) 4

theorem rowBegun_index {s : State} {id item : Nat} {o : Op} {w : Warp} {it : ShOp} (h : rowBegins it) :
    (rowBegun (engineBegin s w id item) o it (itemRow it)).value.toNat = itemIndex s o it :=
  (rowBegun_value (seenSound_of_unread h.2)).trans (if_pos h.1).symm

namespace MayMove

variable {s : State} {id item : Nat} {o : Op} {w : Warp} {it : ShOp} {b : Nat} (h : MayMove s id item o w it b)
include h

theorem begun : Machine.itemAt (engineBegin s w id item) id item it := itemAt_of_ops rfl h.itemAt

theorem runs_moves {u : State} {v : Nat} {p : Bool}
    (htake : takeElem (engineBegin s w id item) o w item it it.done = .val u v p)
    (hu : Taken (engineBegin s w id item) id item it u) :
    runs (.shuttleTransfer id item 1) s fun t => movedTo s id item o it b v t ∧ t.warps = u.warps := by
  obtain ⟨t, ht, hcells, hwarps, i', ⟨o', l', ho', hb', hit'⟩, hdone, htotal⟩ := h.moves htake hu
  exact ⟨t, ht, ⟨hcells, o', l', i', ho', hb', hit', hdone, htotal⟩, hwarps⟩

theorem takes {n : Nat} {t : State} {it1 : ShOp} (hread : readIndex (engineBegin s w id item) o item it it.done = (t, it1))
    (hsrc : elemSrc it1 it.done = .va (elemVa it.src n)) (ht : Taken (engineBegin s w id item) id item it t)
    (hseen : ∀ a, unreadBytes it a (recSize it.src) → seenSound (spCells s o.block) it1.seen a (recSize it.src)) :
    takesFrom s id item o w it b n := by
  intro a hloc hunread hhere
  obtain rfl := findOp_id h.op
  obtain ⟨u, p, htake, hu⟩ := takeElem_home hread hsrc ht hloc (fun hsp => hseen a (hunread hsp)) hhere
  obtain ⟨t', ht', hmoved, -⟩ := h.runs_moves htake hu
  exact ⟨t', ht', hmoved⟩

theorem fills (hk : it.kind = .fill) :
    runs (.shuttleTransfer id item 1) s (movedTo s id item o it b (it.value.toNat % 2 ^ (8 * recSize it.dst))) := by
  obtain ⟨t, ht, hmoved, -⟩ := h.runs_moves (takeElem_const (readIndex_read (.inl (by simp [hk]))) (by rw [elemSrc, hk]))
    (Taken.refl h.begun)
  exact ⟨t, ht, hmoved⟩

theorem copies (hk : it.kind = .copy) : takesFrom s id item o w it b it.done :=
  h.takes (readIndex_read (.inl (by simp [hk]))) (by rw [elemSrc, hk]) (Taken.refl h.begun)
    fun _ hun => seenSound_of_unread hun

/-- R180: a row that begins with an index in range reads it, and an element of the row it names. -/
theorem gathers (hk : it.kind = .gather) (hbegins : it.rows ≤ itemRow it → rowBegins it)
    (hindex : itemIndex s o it < recOuter it.src) :
    takesFrom s id item o w it b (itemIndex s o it * recInner it.src + it.done % recInner it.dst) := by
  by_cases hrow : it.rows ≤ itemRow it
  · have hvalue := rowBegun_index (s := s) (id := id) (item := item) (o := o) (w := w) (hbegins hrow)
    have hread := readIndex_begins (s := engineBegin s w id item) (o := o) (item := item) hk hrow
    rw [findOp_id h.op] at hread
    refine h.takes (hread.trans (Prod.ext (if_neg (Nat.not_le.mpr ?_)) rfl)) ?_ (taken_rowBegun _ h.begun)
      fun a hun => seenSound_latchSp _ _ (seenSound_of_unread hun)
    · exact hvalue.trans_lt hindex
    · exact (elemSrc_rowBegun hk hvalue).trans (if_neg (Nat.not_le.mpr hindex))
  · exact h.takes (readIndex_read (.inr (Nat.not_le.mp hrow)))
      ((elemSrc_row hk (if_neg hrow).symm).trans (if_neg (Nat.not_le.mpr hindex))) (Taken.refl h.begun)
      fun _ hun => seenSound_of_unread hun

/-- R180: a row whose index is out of range is zeros. -/
theorem zeros (hk : it.kind = .gather) (hrow : itemRow it < it.rows) (hindex : recOuter it.src ≤ itemIndex s o it) :
    runs (.shuttleTransfer id item 1) s (movedTo s id item o it b 0) := by
  obtain ⟨t, ht, hmoved, -⟩ := h.runs_moves (takeElem_zero (readIndex_read (.inr hrow))
    ((elemSrc_row hk (if_neg (Nat.not_le.mpr hrow)).symm).trans (if_pos hindex))) (Taken.refl h.begun)
  exact ⟨t, ht, hmoved⟩

/-- R180, R192: as a row begins whose index is out of range, 13.3 is raised. -/
theorem traps (hk : it.kind = .gather) (hbegins : rowBegins it) (hindex : recOuter it.src ≤ itemIndex s o it)
    (hown : disowned o = false) (hwait : trapWaits w (opPath o) = true) (hpriv : (w.path (opPath o)).priv = 0)
    (hpend : (w.path (opPath o)).pend = none) :
    runs (.shuttleTransfer id item 1) s fun t => movedTo s id item o it b 0 t ∧ ∃ w', fget t.warps o.warp = some w' ∧
      (w'.path (opPath o)).pend = some { sTrap (w.path (opPath o)) 0xD3 with impr := true } := by
  have hvalue := rowBegun_index (s := s) (id := id) (item := item) (o := o) (w := w) hbegins
  have hread := readIndex_begins (s := engineBegin s w id item) (o := o) (item := item) hk hbegins.1
  rw [findOp_id h.op] at hread
  have htrap := lateTrap_pends (s := setItem (engineBegin s w id item) id item fun _ =>
    rowBegun (engineBegin s w id item) o it (itemRow it)) h.warp hown hwait hpriv hpend
  obtain ⟨hkept, i, hi, hrest⟩ := taken_rowBegun (o := o) (itemRow it) h.begun
  have hsrc : elemSrc (rowBegun (engineBegin s w id item) o it (itemRow it)) it.done = .zero :=
    (elemSrc_rowBegun hk hvalue).trans (if_pos hindex)
  obtain ⟨t, ht, hmoved, hwarps⟩ := h.runs_moves
    (takeElem_zero (hread.trans (Prod.ext ((if_pos (hindex.trans_eq hvalue.symm)).trans htrap) rfl)) hsrc)
    ⟨hkept.trans (engineKept_putWarp ..), i, itemAt_of_ops (putWarp_ops ..) hi, hrest⟩
  refine ⟨t, ht, hmoved, _, by rw [hwarps]; exact fget_putWarp .., ?_⟩
  rw [path_setPath]

end MayMove

end Sys2Proof.Machine

namespace Sys2Proof.Proofs

open Sys2Proof.Machine Sys2Proof.Claims

/-- R179: a batch leaves its counter once its elements are transferred and written. -/
theorem shBatchComplete_ends {s : State} {id : Nat} {o : Op} {l : List ShOp} (ho : findOp s id = some o) (hb : o.body = .batch l)
    (hlater : laterBatch s o = false) (hout : writesOut s id = false) :
    ((∃ it ∈ l, it.done < it.total ∨ it.obuf ≠ []) → waits (.shBatchComplete id) s) ∧
      ((∀ it ∈ l, it.total ≤ it.done ∧ it.obuf = []) →
        runs (.shBatchComplete id) s fun t => opLeft s t id ∧ t.warps = s.warps) := by
  have hfinish := finishBatch_batch ho hb hlater hout
  refine ⟨?_, fun hall => ?_⟩
  · rintro ⟨it, hit, hopen⟩
    rw [waits, exec_shBatchComplete, execShBatchComplete, hfinish, if_neg]
    intro hall
    have hdone := List.all_eq_true.mp hall it hit
    rw [Bool.and_eq_true, decide_eq_true_eq, List.isEmpty_iff] at hdone
    rcases hopen with h | h
    · exact Nat.not_le.mpr h hdone.1
    · exact h hdone.2
  · refine ⟨_, congrArg Host.Outcome.next (hfinish.trans (if_pos ?_)), opLeft_dropBatch ho⟩
    refine List.all_eq_true.mpr fun it hit => ?_
    rw [Bool.and_eq_true, decide_eq_true_eq, List.isEmpty_iff]
    exact hall it hit

/-- R185: a collective that has written leaves its counter. -/
theorem collComplete_ends {s : State} {id : Nat} {o : Op} {c : CollOp} {w : Warp} (ho : findOp s id = some o)
    (hw : fget s.warps o.warp = some w) (hb : o.body = .coll c) (hwritten : collWritten s o c = true)
    (hlater : laterBatch s o = false) : runs (.collComplete id []) s fun t => opLeft s t id ∧ t.warps = s.warps := by
  have hwrote : c.wrote = true := (Bool.and_eq_true_iff.mp hwritten).1
  refine ⟨dropBatch s o, ?_, opLeft_dropBatch ho⟩
  simp only [exec_collComplete, execCollComplete, ho, hb, hw, hwrote, if_true, finishBatch_coll ho hb hlater hwritten]

/-- Settles O38: an element by its source (`takeElem_home`) and its place (`MayMove.moves`), a batch by `shBatchComplete_ends`, a
collective by `collComplete_ends` and `collComplete_alone`. -/
theorem shuttleEvents : Obligations.ShuttleEvents := by
  unfold Obligations.ShuttleEvents
  intro s id item o w ho hw s1 eop
  refine ⟨?_, fun l hb hlater hout => shBatchComplete_ends ho hb hlater hout, fun c hb =>
    ⟨collComplete_ends ho hw hb, ?_⟩⟩
  · intro l it b hb hit hstall hlt hwhole hbusy hout hunb hloc hhere hblock hord i sp size unread moved taken row begins index pf
    have hm : MayMove s id item o w it b :=
      ⟨ho, hw, ⟨l, hb, hit⟩, hstall, hlt, hwhole, hbusy, hout, hunb, hloc, hhere, hblock, hord⟩
    exact ⟨hm.fills, hm.copies, hm.gathers, hm.zeros, hm.traps⟩
  · intro g src hwrote hstall hrank hdst hsrc hpd hps hblock hmem hbusy hg hroom hsource
    obtain ⟨n, hexec⟩ := collComplete_alone ho hw hb hwrote hstall hrank hdst hsrc hpd hps hmem hbusy hg hroom
    have hstore := stored_collStore (s := engineBegin s w o.id 0) (m := ⟨o, c, w⟩) 1 (recCount c.dst) (aloneSource s o c) hdst hblock
    refine ⟨_, hexec, (spCells_collEnd ..).trans (hstore.cells.trans ?_)⟩
    rw [hrank, hsource]
    rfl

end Sys2Proof.Proofs
